-- ==== Sys2Proof/Word.lean ====
section
/-!
DEFINITION. The word types of the engine (R15, R17).
-/

namespace Sys2Proof

/-- One byte (R17). -/
abbrev Byte := BitVec 8

/-- A 32-bit word: a command core register, a sequencer datapath value. -/
abbrev W32 := BitVec 32

/-- A 64-bit word: one slot of the register window, one HPT transfer. -/
abbrev W64 := BitVec 64

end Sys2Proof
end

