-- ==== Sys2Proof/Config.lean ====
section
/-!
DEFINITION. What an implementation fixes (the build, the stepping, the contents of the ROMs) and the FREE VALUES: the
values that the spec leaves open. Each is an opaque constant without a body, so that a statement about it holds for
every value it could have (notes/assumptions/1.md and 2.md).
-/

namespace Sys2Proof

/-- The two builds of R2. -/
inductive Build where
  /-- AVLIN-X, the full build. -/
  | x
  /-- AVLIN-D, the decode build. -/
  | d
  deriving DecidableEq, Repr

namespace Config

/-- A build exists; it only makes the opaque constant below well-typed. -/
def someBuild : Build := .d

/-- The build that this engine was delivered as (R2).
[DESIGN CHOICE, safe, log 1] -/
opaque build : Build := someBuild

/-- ENG_ID.STEPPING: 'per stepping' (R3).
[DESIGN CHOICE, safe, log 1] -/
opaque stepping : BitVec 8

/-- The `k`-th free value of the run, `w` bits wide.
[DESIGN CHOICE, safe, log 2] -/
opaque freeValue (w : Nat) : Nat → BitVec w

/-- The bytes of the command core ROM, which Sazosel supplies and the spec does not list (R185).
[DESIGN CHOICE, safe, log 1] -/
opaque ccRom : Nat → BitVec 8

/-- The words of the CSQ ROM, which the spec does not list (R161).
[DESIGN CHOICE, safe, log 1] -/
opaque csqRom : Nat → BitVec 184

/-- The capacity in bytes of the slice queue of a window, which the spec does not give (R315).
[DESIGN CHOICE, safe, log 1] -/
opaque queueSpace : Nat → Nat

/-- The SPM offset at which the slice queue of a window begins, which the spec does not give (R315).
[DESIGN CHOICE, safe, log 1] -/
opaque queueBase : Nat → Nat

/-- The capacity in bytes of the send queue of a feed, which the spec does not give (R357).
[DESIGN CHOICE, safe, log 1] -/
opaque sendSpace : Nat → Nat

/-- Can SPM hold the areas of a feed over so many region cells (R341, check 0x6)? The spec gives no layout for them.
[DESIGN CHOICE, safe, log 1] -/
opaque feedSpmOk : Nat → Nat → Bool

/-- The low-water level of condition 39, which the spec does not give (R145).
[DESIGN CHOICE, safe, log 1] -/
opaque lowWater : Nat

/-- The egress MGMT buffers beyond one for each place of the intake; the spec gives no number (R247, R249).
[DESIGN CHOICE, safe, log 1] -/
opaque moreMgmtBuffers : Nat

/-- What a current comes to as a share of FEEDMAX while FMAX10 is 0, which is 'not configured' (R459, R483).
[DESIGN CHOICE, safe, log 1] -/
opaque noFeedMax : Nat → BitVec 16

/-- The first bits of a pattern generator of LOOPBACK, which the spec does not give (R558).
[DESIGN CHOICE, safe, log 1] -/
opaque prbsSeed : Nat → BitVec 31

end Config

end Sys2Proof
end

