-- ==== Sys2Proof/Syntax.lean ====
section
/-!
DEFINITION. The commands that the block takes: one constructor of Instr per row of opcode_table.json, with the row's
operands. A command that carries a value of a width the spec fixes carries it as a bit vector or as a number that WellFormed
bounds. An operand `id` names an accepted command by its number in the order of acceptance (R228, R260).
-/

namespace Sys2Proof

/-- The two relockable clock domains (R71). -/
inductive ClkDom where
  | cclk | pnclk
  deriving DecidableEq, Repr

/-- The two stores with per-byte SEC-DED (R104). -/
inductive StoreSel where
  | spm | hb
  deriving DecidableEq, Repr

/-- Who accesses a register: the host through HPT, the command core at a privilege level (0 Task, 1 Kernel, 2 Machine), a
sequencer through EVT (R18, R186, R541). -/
inductive Writer where
  | host
  | core (pl : Nat)
  | seq (s : Nat)
  deriving DecidableEq, Repr

/-- A byte with its pennant mark (R132). -/
structure PByte where
  v : Byte
  pen : Bool
  deriving DecidableEq, Repr

/-- The source of a command as R259 orders it: a ring pair, or a sender cabinet. -/
inductive CmdSrc where
  | ring (k : Nat)
  | cab (sender : Nat)
  deriving DecidableEq, Repr

/-- The pairs of value registers of a timer (R448). -/
inductive TmrPair where
  | top | cmp | phase
  deriving DecidableEq, Repr

/-- A write that changes the source of a timer's steps (R443): SRC and PSC, or DIV. -/
inductive TmrSrcWrite where
  | cfg (src psc : Nat)
  | div (v : Nat)
  deriving DecidableEq, Repr

/-- What arrives on a ring port: an Ethernet frame without its FCS, with whether the FCS is right and whether its bytes carry a
pennant; or an IEEE 802.1AS Sync with its Follow_Up (R514): domain, cabinet ID of its grandmaster, stepsRemoved, and the own time
minus the grandmaster's in ns.
[PRESUMED, unsafe, log 44] -/
inductive RxFrame where
  | eth (bytes : List Byte) (fcsOk : Bool) (pen : Bool)
  | sync (dom : Nat) (gm : Nat) (steps : Nat) (offset : Int)
  deriving DecidableEq, Repr

/-- What Sazosel's images choose for one cell that a feed encodes (R350): the mode (0 SKIP, 1 INTER, 2 FLAT, 3 INTRA, 4 PALETTE),
the motion vector, the intra modes of the 16 blocks, the flat colour, the palette and its indices.
[DESIGN CHOICE, safe, log 58] -/
structure CellChoice where
  mode : Nat
  mvx : Int
  mvy : Int
  imodes : List Nat
  flat : List Nat
  palette : List (List Nat)
  indices : List Nat
  deriving DecidableEq, Repr

/-- What sends units onto the ring (R343): a feed or a playout channel. -/
inductive SendSrc where
  | feed (f : Nat)
  | ply (c : Nat)
  deriving DecidableEq, Repr

/-- The operands of an instruction that has a 16-bit form rd, rs (A16) and a 32-bit form rd, ra, rb (A32) (R190 to R192). -/
inductive AluForm where
  | short (rd rs : BitVec 5)
  | long (rd ra rb : BitVec 5)
  deriving DecidableEq, Repr

/-- The operands of ADDI: K16 or K32. -/
inductive ImmForm where
  | short (rd imm : BitVec 5)
  | long (rd ra : BitVec 5) (imm : BitVec 14)
  deriving DecidableEq, Repr

/-- The operands of LW and SW: A16 with the address in rs, or K32 with an offset. -/
inductive MemForm where
  | short (rd rs : BitVec 5)
  | long (rd ra : BitVec 5) (imm : BitVec 14)
  deriving DecidableEq, Repr

/-- The commands of the block: one constructor per row of opcode_table.json. -/
inductive Instr where
  /-- POWER_ON_RESET (R94): AORST_N sampled low at three consecutive AOCLK edges, or VDD_AO rising, resets the whole engine, the AO island included. -/
  | powerOnReset
  /-- POWER_ON_RESET_RELEASE (R94): AORST_N sampled high releases power-on reset; the AO island runs and the rest waits for PWRGOOD. -/
  | powerOnResetRelease
  /-- PWRGOOD_RISE (R79): PWRGOOD rising switches on the core, IO and SerDes islands, relocks the synthesisers and starts the SPM and HB fill. -/
  | pwrgoodRise
  /-- PWRGOOD_FALL (R79): PWRGOOD falling holds the pulse outputs low, holds the core in reset, treats retention as lost and sets PWRLOSS. -/
  | pwrgoodFall
  /-- SUPPLIES_REMOVED (R81): Removal of the supplies takes the engine to Off at once. -/
  | suppliesRemoved
  /-- FILL_COMPLETE (R116): The start-up fill of SPM, HB and the writable control stores ends; SCRUB_OWNb, SCRUB_ERR, SCRUB_CCNT and HB_COLL are reset. -/
  | fillComplete
  /-- CORE_RELEASE (R94): The command core is released after its reset delay and enters at its reset vector, running the BOOT hook before accepting commands. -/
  | coreRelease
  /-- ENGINE_RESET (R60): A falling edge of ENG_RST_N asynchronously resets everything but the AO island. -/
  | engineReset
  /-- ENGINE_RESET_RELEASE (R60): ENG_RST_N rising releases the engine reset at a CCLK edge; MPT requests wait for MPTn_IDLE. -/
  | engineResetRelease
  /-- WATCHDOG_WARNING (R97): The first expiry of the watchdog period sets WARNED, asserts the watchdog-warning source and restarts the period. -/
  | watchdogWarning
  /-- WATCHDOG_RESET (R97): A second watchdog expiry without a kick causes a watchdog reset. -/
  | watchdogReset
  /-- WATCHDOG_KICK (R97): A write of 0x5A3C to AO_WDOG.KICK restarts the period and clears WARNED. -/
  | watchdogKick (v : Nat)
  /-- SOFT_RESET (R96): SOFT_RESET stops acceptance, lets earlier commands finish and writes its own OK reply. -/
  | softReset (id : Nat)
  /-- SOFT_RESET_EFFECT (R94): Once TAIL has advanced past the SOFT_RESET reply, the soft reset takes effect and the engine enters Standby. -/
  | softResetEffect
  /-- UNIT_RESET (R267): UNIT_RESET resets one named unit, keeping DECL and re-evaluating OBS. -/
  | unitReset (id : Nat)
  /-- SYNTH_LOCK_LOST (R71): Loss of lock of the CCLK or PNCLK synthesiser switches its domain to the safe clock and starts a relock. -/
  | synthLockLost (d : ClkDom)
  /-- CCLK_MUL_WRITE (R70): A write of AO_CLKCFG.CCLK_MUL in Rigging or Standby starts a relock of CCLK to the new target. -/
  | cclkMulWrite (w : Writer) (v : Nat)
  /-- PN_MUL_WRITE (R70): A write of AO_CLKCFG.PN_MUL outside Show modes starts a relock of PNCLK to the new target. -/
  | pnMulWrite (w : Writer) (v : Nat)
  /-- RELEASE_TEST_WINDOW (R72): Each 1,024-REFCLK window counts the relocking clock; four passes release it, and after release a failing window falls back to the safe clock. -/
  | releaseTestWindow (d : ClkDom) (count : Nat) (locked : Bool)
  /-- PNCLK_RELOCK_TIMEOUT (R75): PNCLK not released within 2 ms sets PN_FAIL, asserts the clock-fault source and enters Dark from a Show mode. -/
  | pnclkRelockTimeout
  /-- REFCLK_LOST (R77): An AOCLK period without a REFCLK edge sets REF_LOST, asserts the clock-fault source and enters Dark from a Show mode. -/
  | refclkLost
  /-- MODE_SET (R82): MODE_SET checks the target mode and starts or refuses the transition. -/
  | modeSet (id : Nat)
  /-- DISPLAY_ENTRY (R83): An accepted MODE_SET to Display takes effect at the first hoist whose D(N) opens a PERIOD after acceptance and completes OK. -/
  | displayEntry (n : Nat)
  /-- LEAVE_DISPLAY_AT_HOIST (R81): A MODE_SET from Display or Half-Mast to Standby, Relay or Calibrate takes effect at the next hoist. -/
  | leaveDisplayAtHoist (n : Nat)
  /-- SLEEP_ENTRY (R85): Once all earlier commands have replied, firmware saves settings to HB and starts the port sleep handshake for Furled or Watch. -/
  | sleepEntry
  /-- HPT_SLP_ACK (R53): HPT_SLP_ACK high with no response outstanding lets the engine lower HPT_AWAKE, write the OK reply, stop clocks and gate islands. -/
  | hptSlpAck
  /-- HPT_SLEEP_TIMEOUT (R53): HPT_SLP_ACK not risen within 1 ms lowers HPT_SLP_REQ, keeps the mode and completes the MODE_SET with FAULT. -/
  | hptSleepTimeout
  /-- WAKE_PIN_EDGE (R552): An edge of a WAKE pin at its polarity is latched in DIC_EDGE and, if enabled, starts a wake. -/
  | wakePinEdge (k : Nat) (rising : Bool)
  /-- HPT_WAKE_EDGE (R54): A rising edge of HPT_WAKE is a wake source of the AO island. -/
  | hptWakeEdge
  /-- WAKE_FRAME_MATCH (R530): In Watch, a received frame matching the wake-frame pattern is held and starts a wake. -/
  | wakeFrameMatch (frame : List Byte)
  /-- WATCHER_HIT (R551): In Furled or Watch, a raising of a watched source sets HIT and may wake the engine. -/
  | watcherHit (src : Nat)
  /-- WAKE_SEQUENCE (R89): A synchronised wake event powers the islands, relocks clocks, raises HPT_AWAKE, restores settings and enters Standby. -/
  | wakeSequence
  /-- HPT_REQUEST (R47): A host port request transfers, is acted on in order and is answered with exactly one response. -/
  | hptRequest (wr : Bool) (addr : BitVec 21) (be : BitVec 8) (wdata : W64) (tid : BitVec 8) (clash : Bool)
  /-- HPT_RESPONSE (R46): A response transfers when HPT_RSP and HPT_RACK are both high. -/
  | hptResponse
  /-- REGISTER_WRITE (R18): A write to a register field without behaviour of its own sets, clears or discards fields under its access code and lock. -/
  | registerWrite (w : Writer) (off : Nat) (be : BitVec 8) (data : W64)
  /-- MPT_REQUEST_ISSUE (R57): The engine issues a queued quad request on MPTn once a request slot, the shaping slot and the address hazard allow it. -/
  | mptRequestIssue (n : Nat) (slot : Nat) (idle : Bool)
  /-- MPT_READ_RESPONSE (R59): A read response for a quad arrives; each line is decoded, corrected or pennanted and delivered to the requester. -/
  | mptReadResponse (n : Nat) (aid : Nat) (rerr : Bool) (raw : List Byte)
  /-- MPT_WRITE_RESPONSE (R127): A write response arrives; MPTn_BERR loses the data, records the error and reports the address to the writer. -/
  | mptWriteResponse (n : Nat) (aid : Nat) (berr : Bool)
  /-- MPT_REQUEST_OVERDUE (R128): A request without response after TMO becomes overdue: its reads are pennanted or its write data lost. -/
  | mptRequestOverdue (n : Nat) (aid : Nat)
  /-- MPT_EN_WRITE (R597): A write of MPTn_CFG.EN enables or disables the port, discarded while requests are outstanding. -/
  | mptEnWrite (w : Writer) (n : Nat) (en : Bool)
  /-- MPT_CWIN_WRITE (R119): A write of a coded window changes its EN, BASE or LIMIT, discarded while requests are outstanding. -/
  | mptCwinWrite (w : Writer) (n : Nat) (k : Nat) (v : W64)
  /-- CORRECTION_WRITE_BACK (R109): A corrected SEC-DED byte is written back in the next free cycle of its bank or port unless a write comes first. -/
  | correctionWriteBack (st : StoreSel) (addr : Nat)
  /-- SCRUB_OWN_WRITE (R111): A Machine-level write of SCRUB_OWNb sets the bank owner, or with 0x00 starts a release by zero fill. -/
  | scrubOwnWrite (b : Nat) (v : Nat)
  /-- SPM_BANK_RELEASE_DONE (R111): The zero fill of a released SPM bank ends, OWNER reads 0x00 and source 330 is raised. -/
  | spmBankReleaseDone (b : Nat)
  /-- SCRUB_INJ_ARM (R134): A write of SCRUB_INJ arms corruption of the stored form of the next write to the target store. -/
  | scrubInjArm (w : Writer) (v : W64)
  /-- SCRUB (R135): SCRUB starts or stops a scrub of a range of a store or coded window. -/
  | scrub (id : Nat)
  /-- SCRUB_DONE (R137): A scrub reaches the end of its range and completes OK with its summary. -/
  | scrubDone (space : Nat)
  /-- MICROWORD_EXECUTE (R160): A sequencer executes one microword with all its fields, or stalls it. -/
  | microwordExecute (sq : Nat)
  /-- SYN_BARRIER_COMPLETE (R156): In the cycle after ARRIVED equals MASK, every waiting sequencer executes its barrier word and ARRIVED clears. -/
  | synBarrierComplete (f : Nat)
  /-- HANG_LIMIT (R170): A word stalled for HANGLIM cycles with IDLE = 0 raises a hang machine check. -/
  | hangLimit (sq : Nat)
  /-- RETIRE (R173): A write of xSQ_CTL.RETIRE retires a PSQ or LSQ, releasing or reassigning its banks and returning its work. -/
  | retire (sq : Nat)
  /-- SEQ_STOP (R178): A write of xSQ_CTL.STOP stops the sequencer at the next word boundary. -/
  | seqStop (sq : Nat)
  /-- SEQ_START (R178): A write of xSQ_CTL.START runs a stopped, valid sequencer from ENTRY. -/
  | seqStart (sq : Nat)
  /-- SYNF_WRITE (R180): A write of SYNf may complete a barrier or raise a machine check on a waiting sequencer whose MASK bit it clears. -/
  | synfWrite (w : Writer) (f : Nat) (be : BitVec 8) (v : W64)
  /-- UCODE_LOAD (R167): UCODE_LOAD loads or verifies a control-store region and marks it valid or invalid. -/
  | ucodeLoad (id : Nat)
  /-- CUSTOP_DEF (R214): CUSTOP_DEF defines or removes a customer opcode in the decode table. -/
  | custopDef (id : Nat)
  /-- MOV (R190): MOV copies one register to another. -/
  | mov (rd : BitVec 5) (rs : BitVec 5)
  /-- ADD (R192): ADD adds two registers and sets the flags. -/
  | add (f : AluForm)
  /-- ADC (R192): ADC adds two registers with carry. -/
  | adc (rd : BitVec 5) (ra : BitVec 5) (rb : BitVec 5)
  /-- SUB (R192): SUB subtracts two registers and sets the flags. -/
  | sub (f : AluForm)
  /-- SBC (R192): SBC subtracts with borrow. -/
  | sbc (rd : BitVec 5) (ra : BitVec 5) (rb : BitVec 5)
  /-- AND (R192): AND forms the bitwise AND. -/
  | and (f : AluForm)
  /-- OR (R192): OR forms the bitwise OR. -/
  | or (f : AluForm)
  /-- XOR (R192): XOR forms the bitwise exclusive OR. -/
  | xor (f : AluForm)
  /-- SHL (R192): SHL shifts left by a register amount. -/
  | shl (f : AluForm)
  /-- SHR (R192): SHR shifts right logically by a register amount. -/
  | shr (f : AluForm)
  /-- SAR (R192): SAR shifts right arithmetically by a register amount. -/
  | sar (f : AluForm)
  /-- ROL (R192): ROL rotates left by a register amount. -/
  | rol (rd : BitVec 5) (ra : BitVec 5) (rb : BitVec 5)
  /-- MIN (R192): MIN returns the signed minimum. -/
  | min (rd : BitVec 5) (ra : BitVec 5) (rb : BitVec 5)
  /-- MAX (R192): MAX returns the signed maximum. -/
  | max (rd : BitVec 5) (ra : BitVec 5) (rb : BitVec 5)
  /-- CLZ (R192): CLZ counts leading zeros. -/
  | clz (rd : BitVec 5) (ra : BitVec 5) (rb : BitVec 5)
  /-- SLT (R192): SLT sets 1 if ra is less than rb signed. -/
  | slt (rd : BitVec 5) (ra : BitVec 5) (rb : BitVec 5)
  /-- SLTU (R192): SLTU sets 1 if ra is less than rb unsigned. -/
  | sltu (rd : BitVec 5) (ra : BitVec 5) (rb : BitVec 5)
  /-- CMP (R190): CMP sets the flags of a subtraction. -/
  | cmp (rd : BitVec 5) (rs : BitVec 5)
  /-- MOVI (R190): MOVI loads a 5-bit immediate. -/
  | movi (rd : BitVec 5) (imm : BitVec 5)
  /-- ADDI (R191): ADDI adds a signed immediate. -/
  | addi (f : ImmForm)
  /-- ANDI (R191): ANDI ANDs with a zero-extended immediate. -/
  | andi (rd : BitVec 5) (ra : BitVec 5) (imm : BitVec 14)
  /-- ORI (R191): ORI ORs with a zero-extended immediate. -/
  | ori (rd : BitVec 5) (ra : BitVec 5) (imm : BitVec 14)
  /-- XORI (R191): XORI XORs with a zero-extended immediate. -/
  | xori (rd : BitVec 5) (ra : BitVec 5) (imm : BitVec 14)
  /-- SHLI (R190): SHLI shifts left by an immediate. -/
  | shli (rd : BitVec 5) (imm : BitVec 5)
  /-- SHRI (R190): SHRI shifts right logically by an immediate. -/
  | shri (rd : BitVec 5) (imm : BitVec 5)
  /-- SARI (R190): SARI shifts right arithmetically by an immediate. -/
  | sari (rd : BitVec 5) (imm : BitVec 5)
  /-- CMPI (R190): CMPI sets the flags of rd minus an immediate. -/
  | cmpi (rd : BitVec 5) (imm : BitVec 5)
  /-- TSTB (R190): TSTB sets Z from one bit of a register. -/
  | tstb (rd : BitVec 5) (imm : BitVec 5)
  /-- LW (R197): LW loads a 32-bit word. -/
  | lw (f : MemForm)
  /-- SW (R197): SW stores a 32-bit word. -/
  | sw (f : MemForm)
  /-- LH (R191): LH loads a sign-extended halfword. -/
  | lh (rd : BitVec 5) (ra : BitVec 5) (imm : BitVec 14)
  /-- LHU (R191): LHU loads a zero-extended halfword. -/
  | lhu (rd : BitVec 5) (ra : BitVec 5) (imm : BitVec 14)
  /-- LB (R191): LB loads a sign-extended byte. -/
  | lb (rd : BitVec 5) (ra : BitVec 5) (imm : BitVec 14)
  /-- LBU (R191): LBU loads a zero-extended byte. -/
  | lbu (rd : BitVec 5) (ra : BitVec 5) (imm : BitVec 14)
  /-- SH (R191): SH stores a halfword. -/
  | sh (rd : BitVec 5) (ra : BitVec 5) (imm : BitVec 14)
  /-- SB (R191): SB stores a byte. -/
  | sb (rd : BitVec 5) (ra : BitVec 5) (imm : BitVec 14)
  /-- LDD (R191): LDD loads a 64-bit value into a register pair. -/
  | ldd (rd : BitVec 5) (ra : BitVec 5) (imm : BitVec 14)
  /-- STD (R191): STD stores a register pair as 64 bits. -/
  | std (rd : BitVec 5) (ra : BitVec 5) (imm : BitVec 14)
  /-- JR (R190): JR jumps to a register address. -/
  | jr (rs : BitVec 5)
  /-- JALR (R191): JALR jumps to ra plus an offset and writes the link. -/
  | jalr (rd : BitVec 5) (ra : BitVec 5) (imm : BitVec 14)
  /-- LUI (R191): LUI loads an upper immediate. -/
  | lui (rd : BitVec 5) (imm : BitVec 19)
  /-- JMP (R191): JMP jumps PC-relative. -/
  | jmp (off : BitVec 24)
  /-- CALL (R191): CALL jumps PC-relative and writes the link to g31. -/
  | call (off : BitVec 24)
  /-- BR (R190): BR branches unconditionally. -/
  | br (off : BitVec 10)
  /-- BEQ (R190): BEQ branches when Z = 1. -/
  | beq (off : BitVec 10)
  /-- BNE (R190): BNE branches when Z = 0. -/
  | bne (off : BitVec 10)
  /-- BLT (R190): BLT branches on signed less-than. -/
  | blt (off : BitVec 10)
  /-- BGE (R190): BGE branches on signed greater-or-equal. -/
  | bge (off : BitVec 10)
  /-- BLTU (R190): BLTU branches on unsigned less-than. -/
  | bltu (off : BitVec 10)
  /-- BGEU (R190): BGEU branches on unsigned greater-or-equal. -/
  | bgeu (off : BitVec 10)
  /-- BNDV (R190): BNDV branches while a divide is in flight. -/
  | bndv (off : BitVec 10)
  /-- BC (R193): BC branches when its condition code holds. -/
  | bc (cond : BitVec 5) (off : BitVec 19)
  /-- MFQ (R190): MFQ reads MQL or MQH. -/
  | mfq (rd : BitVec 5) (rs : BitVec 5)
  /-- MUL (R194): MUL starts a signed multiply into MQH:MQL. -/
  | mul (rd : BitVec 5) (rs : BitVec 5)
  /-- MULU (R194): MULU starts an unsigned multiply into MQH:MQL. -/
  | mulu (rd : BitVec 5) (rs : BitVec 5)
  /-- MULTIPLY_LAND (R194): A product lands in MQL and MQH four cycles after its multiply began. -/
  | multiplyLand
  /-- DIV (R195): DIV starts a signed divide and clears DV. -/
  | div (rd : BitVec 5) (rs : BitVec 5)
  /-- DIVU (R195): DIVU starts an unsigned divide and clears DV. -/
  | divu (rd : BitVec 5) (rs : BitVec 5)
  /-- DIVIDE_LAND (R195): A quotient and remainder land and DV is set 18 cycles after the divide began. -/
  | divideLand
  /-- MFSTAT (R191): MFSTAT reads STAT. -/
  | mfstat (rd : BitVec 5)
  /-- MTSTAT (R196): MTSTAT writes the permitted STAT fields. -/
  | mtstat (ra : BitVec 5)
  /-- SYS (R209): SYS n enters vector 32 + n with a full-form block. -/
  | sys (n : BitVec 5)
  /-- RTT (R205): RTT returns through the task-state block and restores state. -/
  | rtt
  /-- BRK (R199): BRK takes the breakpoint trap. -/
  | brk
  /-- WFI (R190): WFI waits until an interrupt is pending. -/
  | wfi
  /-- FENCE (R190): FENCE waits until every store and LMOV has completed. -/
  | fence
  /-- HOLD (R208): HOLD opens a window in which interrupts are not taken. -/
  | hold (fn : BitVec 9)
  /-- RELS (R190): RELS ends the HOLD window. -/
  | rels
  /-- HOLD_EXPIRY (R208): A HOLD window of n CCLK expires and pending enabled interrupts become takeable. -/
  | holdExpiry
  /-- LMOV (R198): LMOV starts a line move between DRAM and HB or SPM. -/
  | lmov (ra : BitVec 5)
  /-- LMOV_COMPLETE (R198): A line move ends and writes its STATUS into the descriptor. -/
  | lmovComplete (id : Nat)
  /-- CUSTOM (R211): CUSTOM dispatches a customer opcode to its microcode entry. -/
  | custom (cx : BitVec 6) (rd : BitVec 5) (ra : BitVec 5) (rb : BitVec 5) (xx : BitVec 3)
  /-- CUSTOM_TIMEOUT (R213): A customer instruction running CXLIM CCLK is abandoned and takes vector 9 with SUB 2. -/
  | customTimeout
  /-- ILLEGAL_INSTRUCTION (R188): An undefined or reserved encoding takes the illegal-instruction trap. -/
  | illegalInstruction (long : Bool) (w : W32)
  /-- INTERRUPT_TAKEN (R207): A pending enabled normal or fast interrupt is taken at an instruction boundary. -/
  | interruptTaken
  /-- MACHINE_CHECK_TRAP (R549): A machine-check-class source in the machine-check slot makes the command core take vector 1 whatever its masks. -/
  | machineCheckTrap
  /-- HOOK_TIMEOUT (R216): A hook not returned within its limit is abandoned, HOOKTMO is set and the calling step continues. -/
  | hookTimeout
  /-- SUBMISSION_DOORBELL (R225): A write of CMDk_SQPTR.TAIL submits packets and makes condition 23 true. -/
  | submissionDoorbell (k : Nat) (tail : Nat)
  /-- CQ_HEAD_WRITE (R225): A write of CMDk_CQPTR.HEAD consumes replies and frees completion credit. -/
  | cqHeadWrite (k : Nat) (head : Nat)
  /-- CMD_CFG_EN_WRITE (R223): A write of CMDk_CFG.EN from 0 to 1 resets the pointers and clears STOPPED; from 1 to 0 stops acceptance. -/
  | cmdCfgEnWrite (k : Nat) (en : Bool)
  /-- PACKET_ACCEPT (R228): The engine accepts the packet at a submission ring's HEAD once credit and the command limit allow. -/
  | packetAccept (heads : List (Nat × List PByte))
  /-- COMMAND_START (R260): An accepted command starts once its order and resources allow and runs its checks of R233. -/
  | commandStart (id : Nat)
  /-- NOP (R238): NOP replies OK. -/
  | nop (id : Nat)
  /-- CANCEL (R262): CANCEL cancels the oldest waiting command of its source with a matching TAG. -/
  | cancel (id : Nat)
  /-- WALL_STATUS (R268): WALL_STATUS returns DIVMAP and HEARDMAP on an ensign or standby ensign. -/
  | wallStatus (id : Nat) (now : Nat)
  /-- UNIT_QUERY (R267): UNIT_QUERY returns a unit's CMD_USTi value. -/
  | unitQuery (id : Nat)
  /-- UNIT_SET (R267): UNIT_SET sets a unit's declared state, effective from the next hoist. -/
  | unitSet (id : Nat)
  /-- UNIT_STATE_REPORT (R265): After a divergence change, a unit-state report is sent to the ensign in the first MGMT gate window. -/
  | unitStateReport
  /-- TENANT_OPEN (R239): TENANT_OPEN opens a tenant, installs its policer and allocates a window from the next hoist. -/
  | tenantOpen (id : Nat)
  /-- TENANT_CLOSE (R240): TENANT_CLOSE closes a tenant at the next hoist. -/
  | tenantClose (id : Nat)
  /-- KEY_LOAD (R255): KEY_LOAD loads or erases a key entry in a slot. -/
  | keyLoad (id : Nat)
  /-- KEY_INFO (R258): KEY_INFO returns the KEYIDs and USE of a slot's entries. -/
  | keyInfo (id : Nat)
  /-- GATEWAY_REPLY_TIMEOUT (R246): No reply within RTMO makes the gateway write a FAULT reply. -/
  | gatewayReplyTimeout (xid : Nat)
  /-- AGGREGATE_REPLY (R248): RTMO after a broadcast, the gateway writes the aggregate reply with OKMAP and FAILMAP. -/
  | aggregateReply (xid : Nat)
  /-- CUSTOMER_COMMAND (R216): A packet with OPC 0xC000 to 0xCFFF calls the CMD hook, or returns BADOPC. -/
  | customerCommand (id : Nat)
  /-- CAL_LOAD (R385): CAL_LOAD copies calibration records into the unused slot and switches tables at the next hoist. -/
  | calLoad (id : Nat)
  /-- BUDGET_CFG (R480): BUDGET_CFG sets cabinet, module, window, group or ledger settings. -/
  | budgetCfg (id : Nat)
  /-- CEIL_SET (R473): CEIL_SET sets the software ceiling from the next lease deadline. -/
  | ceilSet (id : Nat)
  /-- RING_CFG (R523): RING_CFG commissions the ring identity, ports and area, loads the wall map, or sets the schedule. -/
  | ringCfg (id : Nat) (now : Nat)
  /-- GCL_LOAD (R509): GCL_LOAD loads a gate control list for one or both ports. -/
  | gclLoad (id : Nat)
  /-- GCL_TAKE_EFFECT (R509): A loaded gate list takes effect at the next cycle start and source 104 is raised. -/
  | gclTakeEffect
  /-- LOOPBACK (R558): LOOPBACK runs or stops a ring, lane or memory loopback test. -/
  | loopback (id : Nat)
  /-- APPROVE (R563): APPROVE on the grandmaster checks the wall and sends a GRANT for a planned break. -/
  | approve (id : Nat) (now : Nat)
  /-- GRANT (R563): GRANT records a planned break on a port for a range of wall frames. -/
  | grant (id : Nat)
  /-- GRANT_END (R563): At H(FROM + FRAMES) the granted loopback stops and the port returns to service. -/
  | grantEnd (n : Nat)
  /-- SELFTEST (R565): SELFTEST runs the requested self-test items and replies with their results. -/
  | selftest (id : Nat)
  /-- PU_CFG (R451): PU_CFG sets one pulse unit to software or row mode or sets its force at a chosen frame. -/
  | puCfg (id : Nat)
  /-- CLIP_ADD (R364): CLIP_ADD checks a clip and adds or removes its catalogue entry. -/
  | clipAdd (id : Nat)
  /-- PLAY (R365): PLAY plays, stops, pauses or resumes a playout channel from a wall frame. -/
  | play (id : Nat) (now : Nat)
  /-- PLAY_EFFECT (R367): At Ns a pending PLAY takes effect on its channel and source 93 is raised. -/
  | playEffect (c : Nat) (n : Nat)
  /-- PLY_CAT_ENABLE (R363): A write setting PLY_CAT.EN, with INIT, zeroes the catalogue before use. -/
  | plyCatEnable (w : Writer) (v : W64)
  /-- PLAYOUT_FRAME (R366): At F(N) each active channel sends its STREAM unit, clip frame units or a HOLD for wall frame N. -/
  | playoutFrame (c : Nat) (n : Nat) (now : Nat)
  /-- FEED_ARM (R341): A write of FEEDf_CFG.EN = 1 arms the feed and firmware checks it. -/
  | feedArm (w : Writer) (f : Nat) (v : W64) (now : Nat)
  /-- FEED_STOP (R341): A write of FEEDf_CFG.EN = 0 stops the feed after the frame in hand. -/
  | feedStop (w : Writer) (f : Nat)
  /-- FEED_POST (R346): A write of FEEDf_POST posts a complete source buffer. -/
  | feedPost (f : Nat) (buf : Nat)
  /-- FEED_BIND (R346): At F(N) the feed binds the latest posted buffer, or sends HOLD or SKIP slices, and cuts the frame into slices. -/
  | feedBind (f : Nat) (n : Nat) (now : Nat)
  /-- SLICE_ENCODE_DISPATCH (R354): A free encode engine takes the next slice in deadline order and RCA sets its QP. -/
  | sliceEncodeDispatch (n : Nat) (now : Nat)
  /-- SLICE_QUEUED (R354): When ENT finishes a slice's last segment, SLI queues the unit for sending. -/
  | sliceQueued (n : Nat) (choices : List CellChoice)
  /-- SEND_DEADLINE (R354): At F(N) + PERIOD unfinished slices of frame N are abandoned and counted. -/
  | sendDeadline (src : SendSrc) (n : Nat)
  /-- UNIT_SEND (R357): A queued unit leaves once the feed's token bucket holds its bits. -/
  | unitSend (src : SendSrc) (now : Nat)
  /-- SLICE_ROW_DISPATCH (R318): An engine takes the first available slice row or concealment work in dispatch order. -/
  | sliceRowDispatch (n : Nat)
  /-- ROW_PUBLISH (R320): CMP has blended every cell of a row and publishes it atomically in the band table. -/
  | rowPublish (n : Nat)
  /-- BAND_CLOSE (R319): At DL(N, b) band b closes: unpublished rows are abandoned and their cells lost. -/
  | bandClose (b : Nat)
  /-- LIGHT_PATH_BAND_START (R319): The light path starts band b at DL(N, b + 1) or once every rank is published. -/
  | lightPathBandStart (b : Nat)
  /-- HOIST (R520): The TSU raises the hoist event at H(N), driving latches, marks, windows and frame counting. -/
  | hoist (n : Nat)
  /-- SUBPERIOD_START (R404): At H(N) + k × PERIOD / SEG each GCLK generator starts the pulses of subperiod k. -/
  | subperiodStart (k : Nat)
  /-- BAND_LOAD_SEND (R406): LDR sends a band load of a lane as one LOAD packet. -/
  | bandLoadSend (n : Nat)
  /-- SET_CURRENT_SEND (R406): After the grant is fixed, LDR sends SET_CURRENT with the cut on each lane. -/
  | setCurrentSend (n : Nat)
  /-- LATCH_SEND (R406): At H(N) − LATCHT each armed lane sends LATCH; unarmed frames are counted. -/
  | latchSend
  /-- RAW_COMMAND_INSERT (R396): A raw Lamp Link command requested by an LSQ word is inserted at the next packet boundary of each lane. -/
  | rawCommandInsert (n : Nat)
  /-- READ_STATUS_ROUND (R410): Between the frame load and D(N + 1) the engine sends READ_STATUS over up to 64 chips of a lane. -/
  | readStatusRound (n : Nat) (first : Nat) (count : Nat)
  /-- LANE_REPLY (R398): A reply arrives on a return lane and is checked, with status faults or training outcomes acted on. -/
  | laneReply (k : Nat) (syms : List Nat) (inv : Bool) (codeErr : Nat)
  /-- LANE_REPLY_TIMEOUT (R398): No reply within 100,000 PNCLK times out the command. -/
  | laneReplyTimeout (k : Nat)
  /-- LANE_TRAIN_START (R399): On entry to a Show mode or a TRAIN strobe, lanes start training from QUIET. -/
  | laneTrainStart (n : Nat)
  /-- LANE_STATE_TIMER (R400): The QUIET or ALIGN duration of a training lane ends and it moves on. -/
  | laneStateTimer (n : Nat)
  /-- LANE_REPROBE (R403): Every PROBE × 100 ms a FAILED or DOWN lane retrains. -/
  | laneReprobe (n : Nat)
  /-- LANE_PAD_SHORT (R411): A forward-leg readback mismatch for 256 bit times sets SHORT and fails the lane. -/
  | lanePadShort (n : Nat)
  /-- GCLK_PAD_SHORT (R411): A GCKg readback mismatch on 64 edges holds it low and fails the generator. -/
  | gclkPadShort (g : Nat)
  /-- RETURN_LANE_SHORT (R413): A return-lane common mode out of range for 1 ms sets SHORT. -/
  | returnLaneShort (k : Nat) (present : Bool)
  /-- LP_MOD_GEOM_WRITE (R374): A write of LP_MODm_GEOM is checked against the module rules and applied or discarded whole. -/
  | lpModGeomWrite (w : Writer) (m : Nat) (v : W64)
  /-- PU_PERIOD_BOUNDARY (R424): At a period boundary a pulse unit loads its shadow values and may resume or refresh. -/
  | puPeriodBoundary (n : Nat)
  /-- PU_IMMEDIATE_PER (R425): A write of PUn_PER with IMM loads PER at the next edge and may cut the period. -/
  | puImmediatePer (w : Writer) (n : Nat) (per : Nat)
  /-- PU_FORCE_WRITE (R429): A write of PUn_FORCE forces outputs from the next PNCLK edge. -/
  | puForceWrite (w : Writer) (n : Nat) (fh : Nat) (fl : Nat)
  /-- PU_SYNC (R430): A write of PU_SYNC restarts the named software-mode units at their phases on one edge. -/
  | puSync (mask : Nat)
  /-- ROW_MODE_START (R431): The light path starts a row-mode period at S(N, k) − RSLEAD with the window length. -/
  | rowModeStart (m : Nat)
  /-- PAD_READBACK_MISMATCH (R432): A pulse pad mismatch for 32 PNCLK or 2 AOCLK compares sets SHORTH or SHORTL and holds the unit low. -/
  | padReadbackMismatch (n : Nat) (high : Bool) (present : Bool)
  /-- TRIP_ASSERT (R434): A trip pin low for 20 ns outside blanking asserts TRIPk, holding governed outputs low. -/
  | tripAssert (k : Nat)
  /-- BLANK_WINDOW_END (R434): A blanking window ends and a still-low trip pin asserts TRIPk. -/
  | blankWindowEnd (k : Nat)
  /-- TRIP_DEASSERT (R436): In cycle mode a trip pin returning high releases the governed outputs. -/
  | tripDeassert (k : Nat)
  /-- TRIP_LATCH_CLEAR (R436): A write of 1 to a TRIP_LATCH bit clears a latched trip while its pin is high. -/
  | tripLatchClear (w : Writer) (mask : Nat)
  /-- TRIP_SW_SET (R437): A write of TRIP_SW.SET latches the software trip on every unit. -/
  | tripSwSet
  /-- TIMER_STEP (R442): A timer step moves the counter up or down and loads a new TOP at zero. -/
  | timerStep (n : Nat) (edges : Nat)
  /-- TIMER_CAPTURE (R449): A capture event records the count and direction and sets FULL. -/
  | timerCapture (n : Nat)
  /-- TIMER_CAPL_READ (R449): A read of TMRn_CAPL takes the capture into the read buffer and clears FULL. -/
  | timerCaplRead (n : Nat)
  /-- TIMER_PAIR_COMMIT (R448): A write of a TOP, CMP or PHASE high register commits the pair. -/
  | timerPairCommit (n : Nat) (p : TmrPair) (hi : Nat)
  /-- TIMER_SOURCE_WRITE (R443): A write of SRC, PSC or DIV takes effect at the next step and clears the accumulator. -/
  | timerSourceWrite (w : Writer) (n : Nat) (v : TmrSrcWrite)
  /-- TIMER_SOURCE_LOST (R444): A timer's source becomes absent: the count holds and SRCLOST sets. -/
  | timerSourceLost (n : Nat)
  /-- TIMER_SOURCE_RETURN (R444): A timer's source returns: counting resumes and SRCLOST clears. -/
  | timerSourceReturn (n : Nat)
  /-- TMR_SYNC (R447): A write of TMR_SYNC restarts the named timers from their phases. -/
  | tmrSync (mask : Nat)
  /-- TMR_SWCAP (R458): A write of TMR_SWCAP is a capture event for timers with CSEL 0x0A. -/
  | tmrSwcap (mask : Nat)
  /-- BUDGET_REPORT_SEND (R463): At H(N) − UPOFF a member sends its demand report. -/
  | budgetReportSend (now : Nat)
  /-- LEDGER_SOLVE (R467): At H(N) − RCUT each solver solves the ledger per group. -/
  | ledgerSolve (now : Nat)
  /-- LEASE_BLOCK_SEND (R464): At H(N) − DNOFF each solver sends its four lease blocks. -/
  | leaseBlockSend (now : Nat)
  /-- LEASE_DEADLINE (R470): At H(N) − LDOFF the cabinet fixes LEASE and GEFF, computes the cut and sets K. -/
  | leaseDeadline (now : Nat)
  /-- SENSE_READ (R474): Every FDIV REFCLK cycles the SENSE port reads one ADC word. -/
  | senseRead (word : Nat) (alert : Bool)
  /-- SENSE_LOST (R477): An enabled channel without a valid sample for 1 ms makes SENSE lost and OPENLOOP 1. -/
  | senseLost (k : Nat)
  /-- EMERG_CLEAR (R478): A write of 1 to BA_STAT.EMERG clears it while neither cause holds. -/
  | emergClear
  /-- LINK_UP (R488): A port becomes up after 1 ms of block lock and starts preemption verification. -/
  | linkUp (n : Nat) (now : Nat)
  /-- LINK_DOWN (R488): A port goes down, clears its duplicate windows and starts the hold of queued frames. -/
  | linkDown (n : Nat)
  /-- PORT_HOLD_EXPIRY (R503): At the end of a 250 µs hold the queued frames of a down port are dropped. -/
  | portHoldExpiry (n : Nat)
  /-- PREEMPT_VERIFY_SEND (R487): Every verifyTime the port sends a verify mPacket until answered. -/
  | preemptVerifySend (n : Nat)
  /-- PREEMPT_RESPOND (R487): A valid respond mPacket sets PREEMPT. -/
  | preemptRespond (n : Nat)
  /-- PREEMPT_VERIFY_TIMEOUT (R487): No respond within 128 ms leaves preemption off and raises source 96 + n. -/
  | preemptVerifyTimeout (n : Nat)
  /-- FRAME_RECEIVE (R499): A frame received on a port is filtered, policed, forwarded and delivered under the HSR rules. -/
  | frameReceive (p : Nat) (now : Nat) (f : RxFrame)
  /-- EGRESS_START (R504): An egress starts the next frame whose gate allows it in priority order. -/
  | egressStart (n : Nat) (now : Nat)
  /-- SUPERVISION_SEND (R498): Every 2,000 ms the engine sends HSR supervision frames on both ports. -/
  | supervisionSend
  /-- NODE_FORGET (R498): A node not heard for NodeForgetTime leaves the node table. -/
  | nodeForget (cab : Nat)
  /-- DUP_WINDOW_CLEAR (R500): A duplicate window untouched for 400 ms is cleared. -/
  | dupWindowClear (who : Nat) (src : Nat)
  /-- REPLAY_RECORD_EXPIRY (R495): A VIDEO replay record idle for 1 s returns to the pool. -/
  | replayRecordExpiry (sender : Nat) (tenant : Nat) (keyid : Nat)
  /-- REASSEMBLY_FORGET (R493): A sender-tenant pair idle for 1 s forgets its KEYID and COUNTER. -/
  | reassemblyForget (sender : Nat) (tenant : Nat)
  /-- GATE_ENTRY_CHANGE (R507): The gate control list moves to its next entry. -/
  | gateEntryChange (n : Nat)
  /-- SYNC_SEND (R514): The grandmaster sends Sync and Follow_Up every 125 ms. -/
  | syncSend
  /-- PDELAY_EXCHANGE (R513): A Pdelay exchange measures link delay and learns the partner's ID. -/
  | pdelayExchange (n : Nat) (partner : Nat) (mld : Nat)
  /-- SYNC_TIMEOUT (R516): No Sync for three intervals clears SYNC and enters holdover. -/
  | syncTimeout
  /-- DOMAIN_CHOICE (R515): A follower without a domain chooses one after one Sync interval, or switches on loss. -/
  | domainChoice (missed : Bool)
  /-- SCHEDULE_FRAME_SEND (R517): The grandmaster sends a hoist schedule frame every 125 ms and after each change. -/
  | scheduleFrameSend
  /-- SCHEDULE_GOVERN (R518): A new schedule starts to govern at N0 and source 102 is raised. -/
  | scheduleGovern
  /-- LATENCY_RAISE (R519): The ensign raises LATENCY when T_ring + 2 × PERIOD exceeds it. -/
  | latencyRaise (now : Nat)
  /-- ENSIGN_LOST (R527): 312.5 ms without Sync or schedule from the ensign makes the standby take it as lost. -/
  | ensignLost
  /-- DOORBELL_WRITE (R540): A write of DIC_DOORBELL raises a source by ADD events if the writer may. -/
  | doorbellWrite (w : Writer) (src : Nat) (add : Nat)
  /-- DIC_SELECT (R544): In each DIC clock the lowest eligible source of each class is selected for a target. -/
  | dicSelect
  /-- DIC_LAND (R544): Three clocks after selection the message lands in the target's slot. -/
  | dicLand (t : Nat) (fast : Bool)
  /-- HOLDOFF_EXPIRY (R546): A group's hold-off ends and its counting sources become eligible. -/
  | holdoffExpiry (g : Nat)
  /-- DIC_CLAIM (R547): A read of DIC_CLAIMt takes the fast or normal message from the target's slot. -/
  | dicClaim (w : Writer) (t : Nat)
  /-- DIC_COMPLETE (R547): A write of DIC_COMPLETEt completes an in-flight source. -/
  | dicComplete (w : Writer) (t : Nat) (src : Nat)
  /-- DIC_TARGET_DISABLE (R550): A write of DIC_TGTCFGt.EN = 0 returns the target's messages to their sources. -/
  | dicTargetDisable (t : Nat)
  /-- DIC_SOURCE_MASK (R548): A write of DIC_SRCs.EN blocks or allows selection of the source. -/
  | dicSourceMask (src : Nat) (en : Bool)
  /-- DIC_SOURCE_CLEAR (R557): A write of DIC_SRCs.CLR clears COUNT and PEND of a counting source. -/
  | dicSourceClear (src : Nat)
  /-- TDU_HALT (R573): A write of TDU_CTL.HALT enters Halt at the second CCLK edge. -/
  | tduHalt (jtag : Bool)
  /-- TDU_RESUME (R577): A write of TDU_CTL.RESUME restores every clock enable and resumes the held mode. -/
  | tduResume
  /-- TDU_STEP (R576): A write of TDU_CTL.STEP runs the CSQ for one instruction. -/
  | tduStep
  /-- STEP_DONE (R576): A stepped instruction or trap entry completes and the engine halts with CAUSE 6. -/
  | stepDone
  /-- COMPARATOR_MATCH (R578): A comparator match sets HIT, emits a trace packet and halts or enters monitor mode. -/
  | comparatorMatch (k : Nat) (acc : Nat) (addr : Nat) (lvl : Nat) (trapped : Bool)
  /-- TDU_CCR_WRITE (R575): A write of TDU_CCRr in Halt sets a command core register. -/
  | tduCcrWrite (r : Nat) (v : W32)
  /-- TDU_STIM_WRITE (R583): A write of TDU_STIMk emits a stimulus trace packet. -/
  | tduStimWrite (k : Nat) (v : W32)
  /-- TDU_ECHO_WRITE (R564): A write of TDU_ECHO stores the complement of each enabled byte. -/
  | tduEchoWrite (be : BitVec 8) (v : W64)
  /-- TAP_RESET (R568): TRST_N or five TCK with TMS high resets the TAP to BYPASS. -/
  | tapReset
  /-- EXTEST (R570): EXTEST enters Halt and gives the boundary cells control of the bumps. -/
  | extest
  /-- SAMPLE_PRELOAD (R569): SAMPLE/PRELOAD selects the boundary register. -/
  | samplePreload (cells : BitVec 290)
  /-- CLAMP (R570): CLAMP enters Halt and drives the bumps from the boundary cells with bypass selected. -/
  | clamp
  /-- HIGHZ (R570): HIGHZ enters Halt and places the covered bumps in high impedance. -/
  | highz
  /-- DBGACC (R571): DBGACC at Update-DR issues a register access as an HPT request. -/
  | dbgacc (acc : BitVec 89)
  /-- DBGRST (R569): DBGRST issues the debug reset at Run-Test/Idle. -/
  | dbgrst
  /-- BYPASS (R569): BYPASS selects the bypass register. -/
  | bypass
  /-- SEQ_MEM_READ_LAND (R151): The data of a sequencer MEM read lands in MDR and MEMRDY and MEMPEN are set, three cycles after issue or later under contention. -/
  | seqMemReadLand (sq : Nat)
  /-- STAGE_OPERATION_DONE (R145): A fixed-function stage finishes the operation started by START, producing its results and making its done and ready conditions true. -/
  | stageOperationDone (sq : Nat) (k : Nat)
  /-- PU_CARRIER_EDGE (R423): At each PNCLK edge a pulse unit's carrier counts up or down and hraw, dead time and minimum-pulse logic update the outputs. -/
  | puCarrierEdge (n : Nat)
  /-- REFCLK_RETURN (R588): REFCLK edges return in 64 consecutive AOCLK periods, ending the REFLOST condition and making the safe clock available again. -/
  | refclkReturn
  /-- LOOPBACK_DONE (R560): A loopback ends when its COUNT or LENGTH is done, completes with its counts and returns the port or lane to service. -/
  | loopbackDone (kind : Nat) (unit : Nat) (sent : Nat) (errors : Nat) (first : Nat) (lost : Nat) (dups : Nat) (elapsed : Nat)
  /-- SELFTEST_DONE (R567): The requested self-test items finish and SELFTEST completes OK or FAULT with its 256-byte reply. -/
  | selftestDone (out : List (Nat × Nat))
  /-- UCODE_LOAD_DONE (R167): A microcode load or verify finishes passing the region, marks it valid or invalid, returns targets to STOPPED and completes. -/
  | ucodeLoadDone (id : Nat)
  deriving DecidableEq, Repr

end Sys2Proof
end

