-- ==== Sys2Proof/WellFormed.lean ====
section
/-!
DEFINITION. Which commands are well-formed: every operand lies in the range that the spec gives what it names (R8, R63, R139, R176,
R263, R441, R537). The meanings are total; a command with an operand outside its range changes nothing.
-/

namespace Sys2Proof

/-- A writer of a register: the host, or the command core at a level of R184. -/
def regWriter : Writer → Bool
  | .host => true
  | .core pl => decide (pl < 3)
  | .seq _ => false

/-- A writer of DIC_DOORBELL: a sequencer too, through EVT (R541). -/
def anyWriter : Writer → Bool
  | .host => true
  | .core pl => decide (pl < 3)
  | .seq q => decide (q < 19)

/-- The bits by which the lengths of R188 are told apart: a word of 32 bits starts with 0b11, a halfword does not. -/
def illegalWord (long : Bool) (w : W32) : Bool := if long then decide (3 * 2 ^ 30 ≤ w.toNat) else decide (w.toNat < 0xC000)

def wellFormed (i : Instr) : Bool :=
  match i with
  | .powerOnReset => true
  | .powerOnResetRelease => true
  | .pwrgoodRise => true
  | .pwrgoodFall => true
  | .suppliesRemoved => true
  | .fillComplete => true
  | .coreRelease => true
  | .engineReset => true
  | .engineResetRelease => true
  | .watchdogWarning => true
  | .watchdogReset => true
  | .watchdogKick v => decide (v < 2 ^ 16)
  | .softReset _ => true
  | .softResetEffect => true
  | .unitReset _ => true
  | .synthLockLost _ => true
  | .cclkMulWrite w v => regWriter w && decide (v < 2 ^ 6)
  | .pnMulWrite w v => regWriter w && decide (v < 2 ^ 12)
  | .releaseTestWindow _ count _ => decide (count < 2 ^ 16)
  | .pnclkRelockTimeout => true
  | .refclkLost => true
  | .modeSet _ => true
  | .displayEntry _ => true
  | .leaveDisplayAtHoist _ => true
  | .sleepEntry => true
  | .hptSlpAck => true
  | .hptSleepTimeout => true
  | .wakePinEdge k _ => decide (k < 8)
  | .hptWakeEdge => true
  | .wakeFrameMatch _ => true
  | .watcherHit src => decide (src < 4096)
  | .wakeSequence => true
  | .hptRequest _ _ _ _ _ _ => true
  | .hptResponse => true
  | .registerWrite w off _ _ => regWriter w && decide (off < 0x600000) && off % 8 == 0
  | .mptRequestIssue n _ _ => decide (n < 2)
  | .mptReadResponse n aid _ raw => decide (n < 2) && decide (aid < 64) && raw.length == 320
  | .mptWriteResponse n aid _ => decide (n < 2) && decide (aid < 64)
  | .mptRequestOverdue n aid => decide (n < 2) && decide (aid < 64)
  | .mptEnWrite w n _ => regWriter w && decide (n < 2)
  | .mptCwinWrite w n k _ => regWriter w && decide (n < 2) && decide (k < 8)
  | .correctionWriteBack _ addr => decide (addr < 2 ^ 23)
  | .scrubOwnWrite b v => decide (b < 64) && decide (v < 256)
  | .spmBankReleaseDone b => decide (b < 64)
  | .scrubInjArm w _ => regWriter w
  | .scrub _ => true
  | .scrubDone space => decide (space < 4)
  | .microwordExecute sq => decide (sq < 19)
  | .synBarrierComplete f => decide (f < 8)
  | .hangLimit sq => decide (sq < 19)
  | .retire sq => decide (sq < 19)
  | .seqStop sq => decide (sq < 19)
  | .seqStart sq => decide (sq < 19)
  | .synfWrite w f _ _ => regWriter w && decide (f < 8)
  | .ucodeLoad _ => true
  | .custopDef _ => true
  | .mov _ _ => true
  | .add _ => true
  | .adc _ _ _ => true
  | .sub _ => true
  | .sbc _ _ _ => true
  | .and _ => true
  | .or _ => true
  | .xor _ => true
  | .shl _ => true
  | .shr _ => true
  | .sar _ => true
  | .rol _ _ _ => true
  | .min _ _ _ => true
  | .max _ _ _ => true
  | .clz _ _ _ => true
  | .slt _ _ _ => true
  | .sltu _ _ _ => true
  | .cmp _ _ => true
  | .movi _ _ => true
  | .addi _ => true
  | .andi _ _ _ => true
  | .ori _ _ _ => true
  | .xori _ _ _ => true
  | .shli _ _ => true
  | .shri _ _ => true
  | .sari _ _ => true
  | .cmpi _ _ => true
  | .tstb _ _ => true
  | .lw _ => true
  | .sw _ => true
  | .lh _ _ _ => true
  | .lhu _ _ _ => true
  | .lb _ _ _ => true
  | .lbu _ _ _ => true
  | .sh _ _ _ => true
  | .sb _ _ _ => true
  | .ldd _ _ _ => true
  | .std _ _ _ => true
  | .jr _ => true
  | .jalr _ _ _ => true
  | .lui _ _ => true
  | .jmp _ => true
  | .call _ => true
  | .br _ => true
  | .beq _ => true
  | .bne _ => true
  | .blt _ => true
  | .bge _ => true
  | .bltu _ => true
  | .bgeu _ => true
  | .bndv _ => true
  | .bc _ _ => true
  | .mfq _ _ => true
  | .mul _ _ => true
  | .mulu _ _ => true
  | .multiplyLand => true
  | .div _ _ => true
  | .divu _ _ => true
  | .divideLand => true
  | .mfstat _ => true
  | .mtstat _ => true
  | .sys _ => true
  | .rtt => true
  | .brk => true
  | .wfi => true
  | .fence => true
  | .hold _ => true
  | .rels => true
  | .holdExpiry => true
  | .lmov _ => true
  | .lmovComplete _ => true
  | .custom _ _ _ _ _ => true
  | .customTimeout => true
  | .illegalInstruction long w => illegalWord long w
  | .interruptTaken => true
  | .machineCheckTrap => true
  | .hookTimeout => true
  | .submissionDoorbell k tail => decide (k < 8) && decide (tail < 2 ^ 20)
  | .cqHeadWrite k head => decide (k < 8) && decide (head < 2 ^ 20)
  | .cmdCfgEnWrite k _ => decide (k < 8)
  | .packetAccept heads => heads.all fun p => decide (p.1 < 8)
  | .commandStart _ => true
  | .nop _ => true
  | .cancel _ => true
  | .wallStatus _ now => decide (now < 2 ^ 64)
  | .unitQuery _ => true
  | .unitSet _ => true
  | .unitStateReport => true
  | .tenantOpen _ => true
  | .tenantClose _ => true
  | .keyLoad _ => true
  | .keyInfo _ => true
  | .gatewayReplyTimeout _ => true
  | .aggregateReply _ => true
  | .customerCommand _ => true
  | .calLoad _ => true
  | .budgetCfg _ => true
  | .ceilSet _ => true
  | .ringCfg _ now => decide (now < 2 ^ 64)
  | .gclLoad _ => true
  | .gclTakeEffect => true
  | .loopback _ => true
  | .approve _ now => decide (now < 2 ^ 64)
  | .grant _ => true
  | .grantEnd n => decide (n < 2)
  | .selftest _ => true
  | .puCfg _ => true
  | .clipAdd _ => true
  | .play _ now => decide (now < 2 ^ 64)
  | .playEffect c _ => decide (c < 16)
  | .plyCatEnable w _ => regWriter w
  | .playoutFrame c _ now => decide (c < 16) && decide (now < 2 ^ 64)
  | .feedArm w f _ now => regWriter w && decide (f < 16) && decide (now < 2 ^ 64)
  | .feedStop w f => regWriter w && decide (f < 16)
  | .feedPost f buf => decide (f < 16) && decide (buf < 8)
  | .feedBind f _ now => decide (f < 16) && decide (now < 2 ^ 64)
  | .sliceEncodeDispatch n now => decide (n < 16) && decide (now < 2 ^ 64)
  | .sliceQueued n _ => decide (n < 16)
  | .sendDeadline _ _ => true
  | .unitSend _ now => decide (now < 2 ^ 64)
  | .sliceRowDispatch n => decide (n < 16)
  | .rowPublish n => decide (n < 16)
  | .bandClose b => decide (b < 32)
  | .lightPathBandStart b => decide (b < 32)
  | .hoist _ => true
  | .subperiodStart _ => true
  | .bandLoadSend n => decide (n < 64)
  | .setCurrentSend n => decide (n < 64)
  | .latchSend => true
  | .rawCommandInsert n => decide (n < 2)
  | .readStatusRound n first count => decide (n < 64) && decide (first < 16) && decide (count < 17)
  | .laneReply k syms _ codeErr => decide (k < 8) && decide (codeErr < 2 ^ 16) && syms.all fun v => decide (v < 1024)
  | .laneReplyTimeout k => decide (k < 8)
  | .laneTrainStart n => decide (n < 64)
  | .laneStateTimer n => decide (n < 64)
  | .laneReprobe n => decide (n < 64)
  | .lanePadShort n => decide (n < 64)
  | .gclkPadShort g => decide (g < 16)
  | .returnLaneShort k _ => decide (k < 8)
  | .lpModGeomWrite w m _ => regWriter w && decide (m < 64)
  | .puPeriodBoundary n => decide (n < 64)
  | .puImmediatePer w n per => regWriter w && decide (n < 64) && decide (per < 2 ^ 16)
  | .puForceWrite w n fh fl => regWriter w && decide (n < 64) && decide (fh < 4) && decide (fl < 4)
  | .puSync mask => decide (mask < 2 ^ 64)
  | .rowModeStart m => decide (m < 64)
  | .padReadbackMismatch n _ _ => decide (n < 64)
  | .tripAssert k => decide (k < 32)
  | .blankWindowEnd k => decide (k < 32)
  | .tripDeassert k => decide (k < 32)
  | .tripLatchClear w mask => regWriter w && decide (mask < 2 ^ 33)
  | .tripSwSet => true
  | .timerStep n _ => decide (n < 32)
  | .timerCapture n => decide (n < 32)
  | .timerCaplRead n => decide (n < 32)
  | .timerPairCommit n _ hi => decide (n < 32) && decide (hi < 2 ^ 17)
  | .timerSourceWrite w n _ => regWriter w && decide (n < 32)
  | .timerSourceLost n => decide (n < 32)
  | .timerSourceReturn n => decide (n < 32)
  | .tmrSync mask => decide (mask < 2 ^ 32)
  | .tmrSwcap mask => decide (mask < 2 ^ 32)
  | .budgetReportSend now => decide (now < 2 ^ 64)
  | .ledgerSolve now => decide (now < 2 ^ 64)
  | .leaseBlockSend now => decide (now < 2 ^ 64)
  | .leaseDeadline now => decide (now < 2 ^ 64)
  | .senseRead word _ => decide (word < 2 ^ 24)
  | .senseLost _ => true
  | .emergClear => true
  | .linkUp n now => decide (n < 2) && decide (now < 2 ^ 64)
  | .linkDown n => decide (n < 2)
  | .portHoldExpiry n => decide (n < 2)
  | .preemptVerifySend n => decide (n < 2)
  | .preemptRespond n => decide (n < 2)
  | .preemptVerifyTimeout n => decide (n < 2)
  | .frameReceive p now _ => decide (p < 2) && decide (now < 2 ^ 64)
  | .egressStart n now => decide (n < 2) && decide (now < 2 ^ 64)
  | .supervisionSend => true
  | .nodeForget cab => decide (cab < 1024)
  | .dupWindowClear _ _ => true
  | .replayRecordExpiry sender _ _ => decide (sender < 1024)
  | .reassemblyForget sender tenant => decide (sender < 1024) && decide (tenant < 1024)
  | .gateEntryChange n => decide (n < 2)
  | .syncSend => true
  | .pdelayExchange n partner mld => decide (n < 2) && decide (partner < 2 ^ 16) && decide (mld < 2 ^ 32)
  | .syncTimeout => true
  | .domainChoice _ => true
  | .scheduleFrameSend => true
  | .scheduleGovern => true
  | .latencyRaise now => decide (now < 2 ^ 64)
  | .ensignLost => true
  | .doorbellWrite w src add => anyWriter w && decide (src < 4096) && decide (add < 16)
  | .dicSelect => true
  | .dicLand t _ => decide (t < 9)
  | .holdoffExpiry g => decide (g < 64)
  | .dicClaim w t => regWriter w && decide (t < 9)
  | .dicComplete w t src => regWriter w && decide (t < 9) && decide (src < 4096)
  | .dicTargetDisable t => decide (t < 9)
  | .dicSourceMask src _ => decide (src < 4096)
  | .dicSourceClear src => decide (src < 4096)
  | .tduHalt _ => true
  | .tduResume => true
  | .tduStep => true
  | .stepDone => true
  | .comparatorMatch k acc _ lvl _ => decide (k < 8) && decide (acc < 5) && decide (lvl < 32)
  | .tduCcrWrite r _ => decide (r < 52)
  | .tduStimWrite k _ => decide (k < 32)
  | .tduEchoWrite _ _ => true
  | .tapReset => true
  | .extest => true
  | .samplePreload _ => true
  | .clamp => true
  | .highz => true
  | .dbgacc _ => true
  | .dbgrst => true
  | .bypass => true
  | .seqMemReadLand sq => decide (sq < 19)
  | .stageOperationDone sq k => decide (sq < 19) && decide (k < 12)
  | .puCarrierEdge n => decide (n < 64)
  | .refclkReturn => true
  | .loopbackDone _ _ _ _ _ _ _ _ => true
  | .selftestDone _ => true
  | .ucodeLoadDone _ => true

end Sys2Proof
end

