-- ==== Sys2Proof/Decode.lean ====
section
/-!
DEFINITION. The command that a word of the command table spells. No row of the table gives bits, so that no word spells a command; the
packets of R227 are read where they are accepted (Machine/Cmd.lean).
-/

namespace Sys2Proof

/-- The command spelled by a word of `nbits` bits: none, since the table gives its rows no bits.
[DESIGN CHOICE, safe, log 4] -/
def decodeTableWord (_nbits _w : Nat) : Option Instr := none

end Sys2Proof
end

