-- ==== Sys2Proof/Machine/Bits.lean ====
section
/-!
DEFINITION. Bit-field, sign, saturation and byte-order helpers (R15 to R17, R23, R24), and the mathematics of sparse maps.
-/

namespace Sys2Proof

/-- The low `n` bits of a natural number: NAME[n-1:0] of R16. -/
def lowBits (v n : Nat) : Nat := v % 2 ^ n

/-- Bits `lo + w - 1` down to `lo` of a natural number: NAME[msb:lsb] of R16. -/
def bitsOf (v lo w : Nat) : Nat := v / 2 ^ lo % 2 ^ w

/-- One bit of a natural number: NAME[n] of R16. -/
def bitOf (v n : Nat) : Bool := v / 2 ^ n % 2 == 1

/-- A Bool as the number 0 or 1. -/
def b2n (b : Bool) : Nat := if b then 1 else 0

/-- sat(x, lo, hi) of R24. -/
def satI (x lo hi : Int) : Int := if x < lo then lo else if hi < x then hi else x

/-- sat for natural numbers. -/
def satN (x lo hi : Nat) : Nat := if x < lo then lo else if hi < x then hi else x

/-- rshr(x, n) of R24: round half upward. -/
def rshrI (x : Int) (n : Nat) : Int := if n = 0 then x else (x + ((2 ^ (n - 1) : Nat) : Int)) / ((2 ^ n : Nat) : Int)

/-- rshr(x, n) of R24 on an unsigned value. -/
def rshrN (x n : Nat) : Nat := if n = 0 then x else (x + 2 ^ (n - 1)) / 2 ^ n

/-- A counter that counts by `d` and saturates at `top`. -/
def satAdd (x d top : Nat) : Nat := if top < x + d then top else x + d

/-- The signed value of an `n`-bit field (two's complement, R23). -/
def toSigned (v n : Nat) : Int :=
  if v % 2 ^ n < 2 ^ (n - 1) then ((v % 2 ^ n : Nat) : Int) else ((v % 2 ^ n : Nat) : Int) - ((2 ^ n : Nat) : Int)

/-- The `n`-bit two's complement code of an integer (assignment wraps, R24). -/
def ofSigned (x : Int) (n : Nat) : Nat := (x % ((2 ^ n : Nat) : Int)).toNat

/-- Division that truncates toward zero: '/' of R24. -/
def tdivI (a b : Int) : Int := Int.tdiv a b

/-- Set bits `lo + w - 1` down to `lo` of a 64-bit word to the low `w` bits of `v`. -/
def setBits (x : BitVec 64) (lo w v : Nat) : BitVec 64 :=
  (x &&& ~~~(BitVec.ofNat 64 ((2 ^ w - 1) * 2 ^ lo))) ||| BitVec.ofNat 64 (v % 2 ^ w * 2 ^ lo)

/-- Bits `lo + w - 1` down to `lo` of a 64-bit word. -/
def getBits (x : BitVec 64) (lo w : Nat) : Nat := bitsOf x.toNat lo w

/-- The number that a list of bytes spells, little-endian (R17: host memory and registers). -/
def leNat : List Byte → Nat
  | [] => 0
  | b :: t => b.toNat + 256 * leNat t

/-- The number that a list of bytes spells, most significant byte first (R17: ring frames). -/
def beNat (l : List Byte) : Nat := l.foldl (fun a b => 256 * a + b.toNat) 0

/-- The `n` bytes of a number, little-endian. -/
def leBytes : Nat → Nat → List Byte
  | 0, _ => []
  | n + 1, v => BitVec.ofNat 8 v :: leBytes n (v / 256)

/-- The `n` bytes of a number, most significant byte first. -/
def beBytes (n v : Nat) : List Byte := (leBytes n v).reverse

/-- Bytes `lo` to `lo + n - 1` of a byte string as a little-endian number; bytes beyond its end read as zero. -/
def leAt (l : List Byte) (lo n : Nat) : Nat := leNat ((l.drop lo).take n)

/-- Bytes `lo` to `lo + n - 1` of a byte string, most significant first. -/
def beAt (l : List Byte) (lo n : Nat) : Nat :=
  beNat (((l.drop lo).take n) ++ List.replicate (n - ((l.drop lo).take n).length) 0)

/-- Byte `k` of a byte string as a number. -/
def byteAt (l : List Byte) (k : Nat) : Nat := (l.getD k 0).toNat

/-- Do bytes `lo` to `lo + n - 1` read as zero? -/
def zeroAt (l : List Byte) (lo n : Nat) : Bool := ((l.drop lo).take n).all (· == 0)

/-- The numbers of the set bits of a mask below `n`, in rising order. -/
def bitsSet (mask n : Nat) : List Nat := (List.range n).filter (bitOf mask)

/-- The mask with bit `k` set. -/
def setBit (mask k : Nat) : Nat := if bitOf mask k then mask else mask + 2 ^ k

/-- The mask with bit `k` clear. -/
def clrBit (mask k : Nat) : Nat := if bitOf mask k then mask - 2 ^ k else mask

/-- The number of set bits below `n`. -/
def popCount (mask n : Nat) : Nat := (bitsSet mask n).length

/-- Exclusive or of a list of bits. -/
def parity (v n : Nat) : Bool := popCount v n % 2 == 1

/-- Add to a list without repeats. -/
def addOnce (l : List Nat) (k : Nat) : List Nat := if l.contains k then l else l ++ [k]

/-! ### Sparse maps

A sparse map is a list of (key, value) pairs, keys strictly rising, no entry equal to what an unlisted key reads as. -/

namespace SMap

variable {α : Type} [DecidableEq α]

/-- The value at a key; an unlisted key reads as the default. -/
def get (dflt : Nat → α) : List (Nat × α) → Nat → α
  | [], a => dflt a
  | (k, v) :: t, a => if k = a then v else get dflt t a

/-- Remove a key. -/
def erase (l : List (Nat × α)) (a : Nat) : List (Nat × α) := l.filter (fun p => decide (p.1 ≠ a))

/-- Insert in key order. -/
def insert (a : Nat) (v : α) : List (Nat × α) → List (Nat × α)
  | [] => [(a, v)]
  | (k, w) :: t => if a < k then (a, v) :: (k, w) :: t else (k, w) :: insert a v t

/-- Write a key; writing the default removes the entry, so that equal maps are equal data. -/
def put (dflt : Nat → α) (l : List (Nat × α)) (a : Nat) (v : α) : List (Nat × α) :=
  if v = dflt a then erase l a else insert a v (erase l a)

/-- Write consecutive keys from `a`, in one pass. -/
def splice (dflt : Nat → α) (l : List (Nat × α)) (a : Nat) (vs : List α) : List (Nat × α) :=
  l.filter (fun p => decide (p.1 < a))
    ++ ((vs.zipIdx.map fun p => (a + p.2, p.1)).filter fun p => decide (p.2 ≠ dflt p.1))
    ++ l.filter (fun p => decide (a + vs.length ≤ p.1))

/-- The canonical form: keys strictly rising, no entry equal to the default. -/
def wf (dflt : Nat → α) : List (Nat × α) → Bool
  | [] => true
  | (k, v) :: t => (t.all fun p => decide (k < p.1)) && decide (v ≠ dflt k) && wf dflt t

end SMap

end Sys2Proof
end

