-- ==== Sys2Proof/Machine/Flags.lean ====
section
/-!
DEFINITION. The 32-bit arithmetic, logic and shift operations with their flags, as the sequencers (R149) and the command core
(R192) share them.
-/

namespace Sys2Proof.Machine

/-- The four flags: zero, negative, carry (after a subtraction: borrow), overflow. -/
structure AluFlags where
  z : Bool
  n : Bool
  c : Bool
  v : Bool
  deriving DecidableEq, Repr

/-- A result with its flags. -/
structure AluOut where
  r : W32
  f : AluFlags
  deriving DecidableEq, Repr

/-- Z and N of a result, with the given C and V. -/
def mkOut (r : W32) (c v : Bool) : AluOut := ⟨r, ⟨r == 0, r.msb, c, v⟩⟩

/-- a + b + cin: carry out of bit 31, signed overflow. -/
def aluAdd (a b : W32) (cin : Bool) : AluOut :=
  let sum := a.toNat + b.toNat + b2n cin
  let r := BitVec.ofNat 32 sum
  mkOut r (decide (2 ^ 32 ≤ sum)) ((a.msb == b.msb) && (r.msb != a.msb))

/-- a - b - bin: borrow, signed overflow. -/
def aluSub (a b : W32) (bin : Bool) : AluOut :=
  let r := a - b - BitVec.ofNat 32 (b2n bin)
  mkOut r (decide (a.toNat < b.toNat + b2n bin)) ((a.msb != b.msb) && (r.msb != a.msb))

/-- A result of a logical operation: C and V are cleared. -/
def aluLogic (r : W32) : AluOut := mkOut r false false

/-- Shift left: C is the last bit shifted out, 0 if the distance is 0. -/
def aluShl (a : W32) (n : Nat) : AluOut := mkOut (a <<< n) (decide (0 < n) && a.getLsbD (32 - n)) false

/-- Logical shift right. -/
def aluShr (a : W32) (n : Nat) : AluOut := mkOut (a >>> n) (decide (0 < n) && a.getLsbD (n - 1)) false

/-- Arithmetic shift right. -/
def aluSar (a : W32) (n : Nat) : AluOut := mkOut (a.sshiftRight n) (decide (0 < n) && a.getLsbD (n - 1)) false

/-- Rotate left. -/
def aluRol (a : W32) (n : Nat) : AluOut := mkOut (a.rotateLeft n) (decide (0 < n) && a.getLsbD (32 - n)) false

/-- Signed minimum and maximum. -/
def minS (a b : W32) : W32 := if a.toInt ≤ b.toInt then a else b
def maxS (a b : W32) : W32 := if a.toInt ≤ b.toInt then b else a

/-- The count of leading zeros, 32 for zero. -/
def clz (a : W32) : Nat := ((List.range 32).takeWhile fun k => !a.getLsbD (31 - k)).length

end Sys2Proof.Machine
end

