-- ==== Sys2Proof/Machine/RegMap.lean ====
section
/-!
DEFINITION. The register map: every register of the 16 MiB window (R63, R64), every field of it with its access code
(R18), its allowed encodings (R21), its reset value (R22) and its row of the survival table (R101). The tables of spec/
are transcribed row by row; a name F.UNIT_NAME_FIELD is the manual's UNIT_NAME.FIELD.
-/

namespace Sys2Proof.Machine

/-- A reference to one register field: window offset of the 64-bit slot, lowest bit, width. -/
structure FRef where
  off : Nat
  lo : Nat
  w : Nat
  deriving DecidableEq, Repr

/-- The access codes of R18. -/
inductive Acc where
  | ro | rw | w1c | wo | rwl
  deriving DecidableEq, Repr

/-- The rows of the survival table R101 that registers follow. `fixed`: constants and live levels, which no reset touches;
`live`: derived state of the clocks; `cvalid`: the validity marks of the control stores. -/
inductive Surv where
  | fixed | live | ao | aoRec | aoMode | tmr | trip | pu | hptErr | dicSet | dicEvt | cmd | cc | cstore | cvalid
  | seqSet | seqState | mpt | scrubSum | se | lp | train | baSet | baState | ringSet | ringState | tdu
  deriving DecidableEq, Repr

/-- One field: lowest bit, width, access, survival row, the encodings that are not reserved (by instance and value) and
the bits of the field that exist (the others read zero). -/
structure FDesc where
  lo : Nat
  w : Nat
  acc : Acc
  surv : Surv
  enc : Nat → Nat → Bool
  mask : Nat

/-- A group of equal registers at `base + stride * i` for `i < count`: which of them are Machine-only (R186), the reset
value of the whole register, its fields. -/
structure RegGrp where
  base : Nat
  stride : Nat
  count : Nat
  machineOnly : Nat → Bool
  reset : Build → Nat → Nat
  flds : List FDesc

def anyEnc : Nat → Nat → Bool := fun _ _ => true
def fullMask : Nat := 0xFFFFFFFFFFFFFFFF
def never : Nat → Bool := fun _ => false
def always : Nat → Bool := fun _ => true
def zeroReset : Build → Nat → Nat := fun _ _ => 0

/-- Number of slice engines and pipe sequencers (R2). -/
def seCount : Build → Nat
  | .x => 16
  | .d => 4

/-- Number of SPM banks (R2). -/
def spmBanks : Build → Nat
  | .x => 64
  | .d => 32

/-- Number of memory ports (R2). -/
def mptCount : Build → Nat
  | .x => 2
  | .d => 1

/-- ENG_ID (R3); the stepping is the implementation's. -/
def engIdReset (b : Build) : Nat :=
  spmBanks b * 2 ^ 48 + seCount b * 2 ^ 40 + mptCount b * 2 ^ 36 + mptCount b * 2 ^ 32 + 0x5A4C * 2 ^ 16
    + Config.stepping.toNat * 2 ^ 8 + (match b with | .x => 1 | .d => 2) * 2 ^ 4

/-- Precision timers: TMR16 to TMR31 on AVLIN-X (R441). -/
def isPrecision (b : Build) (n : Nat) : Bool := b == .x && decide (16 ≤ n)

/-- The units of R263, by class and index: is the index in range? -/
def unitValid (cls idx : Nat) : Bool :=
  match cls with
  | 1 => idx < 16 | 2 => idx < 2 | 3 => idx < 64 | 4 => idx < 64 | 5 => idx < 32
  | 6 => idx < 2 | 7 => idx < 2 | 8 => idx < 1 | 9 => idx < 16 | _ => false

/-- Is the unit present on the build (R5, R263)?
[DEDUCED, unsafe, log 37] -/
def unitPresent (b : Build) (cls idx : Nat) : Bool :=
  unitValid cls idx && (match cls with
    | 1 => decide (idx < seCount b)
    | 7 => decide (idx < mptCount b)
    | _ => true)

/-- The owner codes of R111 that a write may place. -/
def ownerCodeOk (v : Nat) : Bool :=
  v == 0 || v == 1 || (decide (0x10 ≤ v) && decide (v ≤ 0x1F)) || v == 0x20 || v == 0x21 || v == 0x30

/-- TRIPk_CFG.BLKSRC (R453). -/
def blkSrcOk (v : Nat) : Bool :=
  v == 0 || (decide (0x20 ≤ v) && decide (v < 0x40)) || (decide (0x40 ≤ v) && decide (v < 0x80))

/-- TMRn_CFG.CSEL (R456). -/
def cselOk (v : Nat) : Bool :=
  decide (v ≤ 0x0A) || (decide (0x20 ≤ v) && decide (v < 0x80))

/-- CC_VBASE lies in HB or ROM (R219). -/
def vbaseOk (v : Nat) : Bool :=
  (decide (0x00600000 ≤ v) && decide (v < 0x00640000)) || (decide (0x01000000 ≤ v) && decide (v < 0x01010000))

/-- The register block of sequencer s of R139: CSQ, PSQn (s = 1 + n), LSQm (s = 17 + m) (R176). -/
def seqBase (s : Nat) : Nat :=
  if s = 0 then 0x080000 else if s ≤ 16 then 0x081000 + 0x100 * (s - 1) else 0x082000 + 0x100 * (s - 17)

namespace F

abbrev ENG_ID_SPM_BANKS : FRef := ⟨0x000000, 48, 8⟩
abbrev ENG_ID_SE_COUNT : FRef := ⟨0x000000, 40, 8⟩
abbrev ENG_ID_MPT_COUNT : FRef := ⟨0x000000, 36, 4⟩
abbrev ENG_ID_MPT_WIDTH : FRef := ⟨0x000000, 32, 4⟩
abbrev ENG_ID_FAMILY : FRef := ⟨0x000000, 16, 16⟩
abbrev ENG_ID_STEPPING : FRef := ⟨0x000000, 8, 8⟩
abbrev ENG_ID_BUILD : FRef := ⟨0x000000, 4, 4⟩
abbrev ENG_BUMPST_PWRGOOD : FRef := ⟨0x000010, 41, 1⟩
abbrev ENG_BUMPST_SNS_ALERT : FRef := ⟨0x000010, 40, 1⟩
abbrev ENG_BUMPST_WAKE_LVL : FRef := ⟨0x000010, 32, 8⟩
abbrev ENG_BUMPST_TRIP_LVL : FRef := ⟨0x000010, 0, 32⟩
abbrev HPT_ERR_VALID : FRef := ⟨0x000018, 63, 1⟩
abbrev HPT_ERR_OVF : FRef := ⟨0x000018, 62, 1⟩
abbrev HPT_ERR_CAUSE : FRef := ⟨0x000018, 52, 4⟩
abbrev HPT_ERR_TID : FRef := ⟨0x000018, 24, 8⟩
abbrev HPT_ERR_OFFSET : FRef := ⟨0x000018, 0, 24⟩
abbrev AO_MODE_DCAUSE : FRef := ⟨0x010000, 16, 8⟩
abbrev AO_MODE_LAST : FRef := ⟨0x010000, 12, 4⟩
abbrev AO_MODE_BUSY : FRef := ⟨0x010000, 7, 1⟩
abbrev AO_MODE_MODE : FRef := ⟨0x010000, 0, 4⟩
abbrev AO_CLKCFG_LOCK : FRef := ⟨0x010008, 32, 1⟩
abbrev AO_CLKCFG_PN_MUL : FRef := ⟨0x010008, 16, 12⟩
abbrev AO_CLKCFG_CCLK_MUL : FRef := ⟨0x010008, 0, 6⟩
abbrev AO_CLKST_PN_MEAS : FRef := ⟨0x010010, 32, 16⟩
abbrev AO_CLKST_PN_RELOCKS : FRef := ⟨0x010010, 16, 8⟩
abbrev AO_CLKST_PN_FAIL : FRef := ⟨0x010010, 6, 1⟩
abbrev AO_CLKST_REF_LOST : FRef := ⟨0x010010, 5, 1⟩
abbrev AO_CLKST_PN_SAFE : FRef := ⟨0x010010, 3, 1⟩
abbrev AO_CLKST_PN_OK : FRef := ⟨0x010010, 2, 1⟩
abbrev AO_CLKST_CC_SAFE : FRef := ⟨0x010010, 1, 1⟩
abbrev AO_CLKST_CC_OK : FRef := ⟨0x010010, 0, 1⟩
abbrev AO_WAKEEN_REWATCH : FRef := ⟨0x010018, 19, 1⟩
abbrev AO_WAKEEN_WATCHER : FRef := ⟨0x010018, 18, 1⟩
abbrev AO_WAKEEN_RING : FRef := ⟨0x010018, 17, 1⟩
abbrev AO_WAKEEN_HPT : FRef := ⟨0x010018, 16, 1⟩
abbrev AO_WAKEEN_PIN_POL : FRef := ⟨0x010018, 8, 8⟩
abbrev AO_WAKEEN_PIN_EN : FRef := ⟨0x010018, 0, 8⟩
abbrev AO_WAKEST_WSRC : FRef := ⟨0x010020, 16, 12⟩
abbrev AO_WAKEST_AUTHFAIL : FRef := ⟨0x010020, 12, 1⟩
abbrev AO_WAKEST_WATCHER : FRef := ⟨0x010020, 11, 1⟩
abbrev AO_WAKEST_RING : FRef := ⟨0x010020, 10, 1⟩
abbrev AO_WAKEST_HPT : FRef := ⟨0x010020, 9, 1⟩
abbrev AO_WAKEST_PIN : FRef := ⟨0x010020, 0, 8⟩
abbrev AO_RSTCAUSE_DBG : FRef := ⟨0x010028, 5, 1⟩
abbrev AO_RSTCAUSE_WDOG : FRef := ⟨0x010028, 4, 1⟩
abbrev AO_RSTCAUSE_SOFT : FRef := ⟨0x010028, 3, 1⟩
abbrev AO_RSTCAUSE_ENG : FRef := ⟨0x010028, 2, 1⟩
abbrev AO_RSTCAUSE_PWRLOSS : FRef := ⟨0x010028, 1, 1⟩
abbrev AO_RSTCAUSE_POR : FRef := ⟨0x010028, 0, 1⟩
abbrev AO_WDOG_LOCK : FRef := ⟨0x010030, 63, 1⟩
abbrev AO_WDOG_WARNED : FRef := ⟨0x010030, 32, 1⟩
abbrev AO_WDOG_KICK : FRef := ⟨0x010030, 16, 16⟩
abbrev AO_WDOG_PERIOD : FRef := ⟨0x010030, 0, 16⟩
abbrev DIC_DOORBELL_ADD : FRef := ⟨0x020000, 16, 4⟩
abbrev DIC_DOORBELL_SRC : FRef := ⟨0x020000, 0, 12⟩
abbrev DIC_STAT_DBREJ : FRef := ⟨0x020008, 48, 16⟩
abbrev DIC_STAT_BADCOMP : FRef := ⟨0x020008, 32, 16⟩
abbrev DIC_EDGE_EDGE : FRef := ⟨0x020010, 0, 8⟩
abbrev DIC_CLAIM_VALID (t : Nat) : FRef := ⟨0x020100 + 0x8 * t, 63, 1⟩
abbrev DIC_CLAIM_FAST (t : Nat) : FRef := ⟨0x020100 + 0x8 * t, 62, 1⟩
abbrev DIC_CLAIM_COUNT (t : Nat) : FRef := ⟨0x020100 + 0x8 * t, 16, 4⟩
abbrev DIC_CLAIM_SRC (t : Nat) : FRef := ⟨0x020100 + 0x8 * t, 0, 12⟩
abbrev DIC_COMPLETE_SRC (t : Nat) : FRef := ⟨0x020200 + 0x8 * t, 0, 12⟩
abbrev DIC_TGTCFG_EN (t : Nat) : FRef := ⟨0x020300 + 0x8 * t, 63, 1⟩
abbrev DIC_TGTCFG_FFULL (t : Nat) : FRef := ⟨0x020300 + 0x8 * t, 1, 1⟩
abbrev DIC_TGTCFG_NFULL (t : Nat) : FRef := ⟨0x020300 + 0x8 * t, 0, 1⟩
abbrev DIC_GRP_FAST (g : Nat) : FRef := ⟨0x020400 + 0x8 * g, 63, 1⟩
abbrev DIC_GRP_TGTMASK (g : Nat) : FRef := ⟨0x020400 + 0x8 * g, 48, 9⟩
abbrev DIC_GRP_RRPTR (g : Nat) : FRef := ⟨0x020400 + 0x8 * g, 40, 4⟩
abbrev DIC_GRP_HOLDOFF (g : Nat) : FRef := ⟨0x020400 + 0x8 * g, 0, 16⟩
abbrev DIC_WATCH_EN (w : Nat) : FRef := ⟨0x020800 + 0x8 * w, 63, 1⟩
abbrev DIC_WATCH_HIT (w : Nat) : FRef := ⟨0x020800 + 0x8 * w, 62, 1⟩
abbrev DIC_WATCH_SRC (w : Nat) : FRef := ⟨0x020800 + 0x8 * w, 0, 12⟩
abbrev DIC_SRC_EN (s : Nat) : FRef := ⟨0x028000 + 0x8 * s, 63, 1⟩
abbrev DIC_SRC_MC (s : Nat) : FRef := ⟨0x028000 + 0x8 * s, 62, 1⟩
abbrev DIC_SRC_LVL (s : Nat) : FRef := ⟨0x028000 + 0x8 * s, 61, 1⟩
abbrev DIC_SRC_PEND (s : Nat) : FRef := ⟨0x028000 + 0x8 * s, 60, 1⟩
abbrev DIC_SRC_INFL (s : Nat) : FRef := ⟨0x028000 + 0x8 * s, 59, 1⟩
abbrev DIC_SRC_SWA (s : Nat) : FRef := ⟨0x028000 + 0x8 * s, 58, 1⟩
abbrev DIC_SRC_TGT (s : Nat) : FRef := ⟨0x028000 + 0x8 * s, 48, 4⟩
abbrev DIC_SRC_GROUP (s : Nat) : FRef := ⟨0x028000 + 0x8 * s, 8, 6⟩
abbrev DIC_SRC_CLR (s : Nat) : FRef := ⟨0x028000 + 0x8 * s, 4, 1⟩
abbrev DIC_SRC_COUNT (s : Nat) : FRef := ⟨0x028000 + 0x8 * s, 0, 4⟩
abbrev CMD_CFG_EN (k : Nat) : FRef := ⟨0x030000 + 0x40 * k, 63, 1⟩
abbrev CMD_CFG_STOPPED (k : Nat) : FRef := ⟨0x030000 + 0x40 * k, 62, 1⟩
abbrev CMD_CFG_PRIO (k : Nat) : FRef := ⟨0x030000 + 0x40 * k, 60, 2⟩
abbrev CMD_CFG_SQLOG (k : Nat) : FRef := ⟨0x030000 + 0x40 * k, 52, 4⟩
abbrev CMD_CFG_CQLOG (k : Nat) : FRef := ⟨0x030000 + 0x40 * k, 48, 4⟩
abbrev CMD_CFG_CQSRC (k : Nat) : FRef := ⟨0x030000 + 0x40 * k, 32, 12⟩
abbrev CMD_CFG_INFLIGHT (k : Nat) : FRef := ⟨0x030000 + 0x40 * k, 0, 7⟩
abbrev CMD_SQPTR_HEAD (k : Nat) : FRef := ⟨0x030010 + 0x40 * k, 32, 20⟩
abbrev CMD_SQPTR_TAIL (k : Nat) : FRef := ⟨0x030010 + 0x40 * k, 0, 20⟩
abbrev CMD_CQPTR_TAIL (k : Nat) : FRef := ⟨0x030020 + 0x40 * k, 32, 20⟩
abbrev CMD_CQPTR_HEAD (k : Nat) : FRef := ⟨0x030020 + 0x40 * k, 0, 20⟩
abbrev CMD_SQBASE_BASE (k : Nat) : FRef := ⟨0x030008 + 0x40 * k, 12, 36⟩
abbrev CMD_CQBASE_BASE (k : Nat) : FRef := ⟨0x030018 + 0x40 * k, 12, 36⟩
abbrev CMD_GWCFG_EN : FRef := ⟨0x030400, 63, 1⟩
abbrev CMD_GWCFG_MSLOT : FRef := ⟨0x030400, 48, 4⟩
abbrev CMD_GWCFG_RTMO : FRef := ⟨0x030400, 32, 16⟩
abbrev CMD_KEYCTL_LOCK : FRef := ⟨0x030408, 63, 1⟩
abbrev CMD_KEYCTL_PLAINOK : FRef := ⟨0x030408, 0, 1⟩
abbrev CMD_MGSTAT_LATE : FRef := ⟨0x030410, 48, 16⟩
abbrev CMD_MGSTAT_DROP : FRef := ⟨0x030410, 32, 16⟩
abbrev CMD_MGSTAT_REPLAY : FRef := ⟨0x030410, 16, 16⟩
abbrev CMD_MGSTAT_AUTH : FRef := ⟨0x030410, 0, 16⟩
abbrev CMD_UST_CAUSE (u : Nat) : FRef := ⟨0x038000 + 0x8 * u, 48, 8⟩
abbrev CMD_UST_DIV (u : Nat) : FRef := ⟨0x038000 + 0x8 * u, 32, 1⟩
abbrev CMD_UST_FRAME (u : Nat) : FRef := ⟨0x038000 + 0x8 * u, 16, 16⟩
abbrev CMD_UST_OBS (u : Nat) : FRef := ⟨0x038000 + 0x8 * u, 8, 4⟩
abbrev CMD_UST_DECL (u : Nat) : FRef := ⟨0x038000 + 0x8 * u, 0, 4⟩
abbrev MPT_CFG_TMO (n : Nat) : FRef := ⟨0x040000 + 0x1000 * n, 40, 16⟩
abbrev MPT_CFG_CHN (n : Nat) : FRef := ⟨0x040000 + 0x1000 * n, 32, 3⟩
abbrev MPT_CFG_CHLO (n : Nat) : FRef := ⟨0x040000 + 0x1000 * n, 24, 6⟩
abbrev MPT_CFG_SLOT (n : Nat) : FRef := ⟨0x040000 + 0x1000 * n, 16, 8⟩
abbrev MPT_CFG_SHAPE (n : Nat) : FRef := ⟨0x040000 + 0x1000 * n, 1, 1⟩
abbrev MPT_CFG_EN (n : Nat) : FRef := ⟨0x040000 + 0x1000 * n, 0, 1⟩
abbrev MPT_STAT_FAILED (n : Nat) : FRef := ⟨0x040008 + 0x1000 * n, 16, 1⟩
abbrev MPT_STAT_OVERDUE (n : Nat) : FRef := ⟨0x040008 + 0x1000 * n, 8, 6⟩
abbrev MPT_STAT_OUTSTANDING (n : Nat) : FRef := ⟨0x040008 + 0x1000 * n, 0, 7⟩
abbrev MPT_ERR_VALID (n : Nat) : FRef := ⟨0x040010 + 0x1000 * n, 63, 1⟩
abbrev MPT_ERR_OVF (n : Nat) : FRef := ⟨0x040010 + 0x1000 * n, 62, 1⟩
abbrev MPT_ERR_CAUSE (n : Nat) : FRef := ⟨0x040010 + 0x1000 * n, 52, 4⟩
abbrev MPT_ERR_AID (n : Nat) : FRef := ⟨0x040010 + 0x1000 * n, 42, 6⟩
abbrev MPT_ERR_LINE (n : Nat) : FRef := ⟨0x040010 + 0x1000 * n, 0, 42⟩
abbrev MPT_DEVCNT_COUNT (n d : Nat) : FRef := ⟨0x040040 + 0x1000 * n + 8 * d, 0, 32⟩
abbrev MPT_CWIN_EN (n k : Nat) : FRef := ⟨0x040100 + 0x1000 * n + 8 * k, 63, 1⟩
abbrev MPT_CWIN_LIMIT (n k : Nat) : FRef := ⟨0x040100 + 0x1000 * n + 8 * k, 32, 28⟩
abbrev MPT_CWIN_BASE (n k : Nat) : FRef := ⟨0x040100 + 0x1000 * n + 8 * k, 0, 28⟩
abbrev HB_COLL_VALID : FRef := ⟨0x048000, 63, 1⟩
abbrev HB_COLL_OVF : FRef := ⟨0x048000, 62, 1⟩
abbrev HB_COLL_BYTES : FRef := ⟨0x048000, 48, 8⟩
abbrev HB_COLL_OFFSET : FRef := ⟨0x048000, 0, 18⟩
abbrev SCRUB_ERR_VALID : FRef := ⟨0x048008, 63, 1⟩
abbrev SCRUB_ERR_OVF : FRef := ⟨0x048008, 62, 1⟩
abbrev SCRUB_ERR_STORE : FRef := ⟨0x048008, 61, 1⟩
abbrev SCRUB_ERR_BYTES : FRef := ⟨0x048008, 48, 8⟩
abbrev SCRUB_ERR_OFFSET : FRef := ⟨0x048008, 0, 23⟩
abbrev SCRUB_CCNT_HB : FRef := ⟨0x048010, 32, 32⟩
abbrev SCRUB_CCNT_SPM : FRef := ⟨0x048010, 0, 32⟩
abbrev SCRUB_INJ_ARM : FRef := ⟨0x048018, 63, 1⟩
abbrev SCRUB_INJ_DEV : FRef := ⟨0x048018, 56, 4⟩
abbrev SCRUB_INJ_NSYM : FRef := ⟨0x048018, 52, 4⟩
abbrev SCRUB_INJ_BITS : FRef := ⟨0x048018, 32, 13⟩
abbrev SCRUB_INJ_TARGET : FRef := ⟨0x048018, 0, 2⟩
abbrev SCRUB_OWN_OWNER (b : Nat) : FRef := ⟨0x048100 + 0x8 * b, 0, 8⟩
abbrev SCRUB_SUM_SUM (s w : Nat) : FRef := ⟨0x04C000 + 0x200 * s + 8 * w, 0, 64⟩
abbrev SQ_STAT_MCAUSE (s : Nat) : FRef := ⟨seqBase s + 0x0, 32, 4⟩
abbrev SQ_STAT_UPC (s : Nat) : FRef := ⟨seqBase s + 0x0, 16, 14⟩
abbrev SQ_STAT_CVALID (s : Nat) : FRef := ⟨seqBase s + 0x0, 11, 1⟩
abbrev SQ_STAT_EVOVR (s : Nat) : FRef := ⟨seqBase s + 0x0, 10, 1⟩
abbrev SQ_STAT_STRLOST (s : Nat) : FRef := ⟨seqBase s + 0x0, 9, 1⟩
abbrev SQ_STAT_VALID (s : Nat) : FRef := ⟨seqBase s + 0x0, 8, 1⟩
abbrev SQ_STAT_STATE (s : Nat) : FRef := ⟨seqBase s + 0x0, 0, 3⟩
abbrev SQ_CTL_RETIRE (s : Nat) : FRef := ⟨seqBase s + 0x8, 63, 1⟩
abbrev SQ_CTL_STOP (s : Nat) : FRef := ⟨seqBase s + 0x8, 62, 1⟩
abbrev SQ_CTL_START (s : Nat) : FRef := ⟨seqBase s + 0x8, 61, 1⟩
abbrev SQ_CTL_CROSS (s : Nat) : FRef := ⟨seqBase s + 0x8, 60, 1⟩
abbrev SQ_CTL_HANGLIM (s : Nat) : FRef := ⟨seqBase s + 0x8, 32, 24⟩
abbrev SQ_CTL_ENTRY (s : Nat) : FRef := ⟨seqBase s + 0x8, 0, 14⟩
abbrev SQ_MCINFO_PGRP (s : Nat) : FRef := ⟨seqBase s + 0x10, 56, 8⟩
abbrev SQ_MCINFO_RETRY (s : Nat) : FRef := ⟨seqBase s + 0x10, 48, 8⟩
abbrev SQ_MCINFO_MCUPC (s : Nat) : FRef := ⟨seqBase s + 0x10, 16, 14⟩
abbrev SQ_CRC_CUST (s : Nat) : FRef := ⟨seqBase s + 0x18, 32, 32⟩
abbrev SQ_CRC_CRC (s : Nat) : FRef := ⟨seqBase s + 0x18, 0, 32⟩
abbrev CSQ_PATCH_EN (k : Nat) : FRef := ⟨0x080100 + 0x8 * k, 63, 1⟩
abbrev CSQ_PATCH_TO (k : Nat) : FRef := ⟨0x080100 + 0x8 * k, 16, 14⟩
abbrev CSQ_PATCH_FROM (k : Nat) : FRef := ⟨0x080100 + 0x8 * k, 0, 13⟩
abbrev SYN_MASK (f : Nat) : FRef := ⟨0x083000 + 0x8 * f, 32, 19⟩
abbrev SYN_OVF (f : Nat) : FRef := ⟨0x083000 + 0x8 * f, 31, 1⟩
abbrev SYN_ARRIVED (f : Nat) : FRef := ⟨0x083000 + 0x8 * f, 8, 19⟩
abbrev SYN_COUNT (f : Nat) : FRef := ⟨0x083000 + 0x8 * f, 0, 8⟩
abbrev SEQ_UWSEL_SEQ : FRef := ⟨0x083100, 16, 5⟩
abbrev SEQ_UWSEL_ADDR : FRef := ⟨0x083100, 0, 14⟩
abbrev SEQ_UWD0_F_LO : FRef := ⟨0x083108, 0, 64⟩
abbrev SEQ_UWD1_F_MID : FRef := ⟨0x083110, 0, 64⟩
abbrev SEQ_UWD2_PAR : FRef := ⟨0x083118, 48, 8⟩
abbrev SEQ_UWD2_F_HI : FRef := ⟨0x083118, 0, 48⟩
abbrev SEQ_CFG_LOCK : FRef := ⟨0x083120, 63, 1⟩
abbrev SEQ_CFG_UAUTH : FRef := ⟨0x083120, 0, 1⟩
abbrev CC_STAT_HOOKTMO : FRef := ⟨0x084000, 15, 1⟩
abbrev CC_STAT_CXTMO : FRef := ⟨0x084000, 14, 1⟩
abbrev CC_STAT_DBL : FRef := ⟨0x084000, 13, 1⟩
abbrev CC_STAT_MCACT : FRef := ⟨0x084000, 12, 1⟩
abbrev CC_STAT_STATV : FRef := ⟨0x084000, 0, 12⟩
abbrev CC_VBASE_VBASE : FRef := ⟨0x084008, 0, 32⟩
abbrev CC_TSBP_TSBP : FRef := ⟨0x084010, 0, 32⟩
abbrev CC_TSBLIM_TOP : FRef := ⟨0x084018, 32, 32⟩
abbrev CC_TSBLIM_LIM : FRef := ⟨0x084018, 0, 32⟩
abbrev CC_MCTSB_MCTSB : FRef := ⟨0x084020, 0, 32⟩
abbrev CC_CFG_CXLIM : FRef := ⟨0x084028, 0, 12⟩
abbrev CC_TWIN_LIMIT (k : Nat) : FRef := ⟨0x084040 + 0x8 * k, 44, 20⟩
abbrev CC_TWIN_X (k : Nat) : FRef := ⟨0x084040 + 0x8 * k, 34, 1⟩
abbrev CC_TWIN_W (k : Nat) : FRef := ⟨0x084040 + 0x8 * k, 33, 1⟩
abbrev CC_TWIN_R (k : Nat) : FRef := ⟨0x084040 + 0x8 * k, 32, 1⟩
abbrev CC_TWIN_BASE (k : Nat) : FRef := ⟨0x084040 + 0x8 * k, 12, 20⟩
abbrev CC_CX_EN (k : Nat) : FRef := ⟨0x085000 + 0x8 * k, 63, 1⟩
abbrev CC_CX_MINPL (k : Nat) : FRef := ⟨0x085000 + 0x8 * k, 48, 2⟩
abbrev CC_CX_ENTRY (k : Nat) : FRef := ⟨0x085000 + 0x8 * k, 0, 14⟩
abbrev SE_BANDCFG_BANDT : FRef := ⟨0x110000, 32, 24⟩
abbrev SE_BANDCFG_BSTART : FRef := ⟨0x110000, 0, 24⟩
abbrev SE_BGCOL_B : FRef := ⟨0x110008, 24, 12⟩
abbrev SE_BGCOL_G : FRef := ⟨0x110008, 12, 12⟩
abbrev SE_BGCOL_R : FRef := ⟨0x110008, 0, 12⟩
abbrev SE_RFCFG_EN : FRef := ⟨0x110010, 8, 1⟩
abbrev SE_RFCFG_HOLDOFF : FRef := ⟨0x110010, 0, 8⟩
abbrev SE_SPMCFG_NREC : FRef := ⟨0x110018, 48, 9⟩
abbrev SE_SPMCFG_RECBASE : FRef := ⟨0x110018, 32, 13⟩
abbrev SE_SPMCFG_MAPBASE : FRef := ⟨0x110018, 16, 13⟩
abbrev SE_SPMCFG_BANDBANK : FRef := ⟨0x110018, 0, 6⟩
abbrev SE_WCFG_EN (k : Nat) : FRef := ⟨0x110100 + 0x8 * k, 63, 1⟩
abbrev SE_WCFG_TENANT (k : Nat) : FRef := ⟨0x110100 + 0x8 * k, 42, 10⟩
abbrev SE_WCFG_Z (k : Nat) : FRef := ⟨0x110100 + 0x8 * k, 36, 3⟩
abbrev SE_WCFG_CH (k : Nat) : FRef := ⟨0x110100 + 0x8 * k, 30, 6⟩
abbrev SE_WCFG_CW (k : Nat) : FRef := ⟨0x110100 + 0x8 * k, 24, 6⟩
abbrev SE_WCFG_CY0 (k : Nat) : FRef := ⟨0x110100 + 0x8 * k, 18, 6⟩
abbrev SE_WCFG_CX0 (k : Nat) : FRef := ⟨0x110100 + 0x8 * k, 12, 6⟩
abbrev SE_WREF_PORT (k : Nat) : FRef := ⟨0x110400 + 0x8 * k, 63, 1⟩
abbrev SE_WREF_BASE (k : Nat) : FRef := ⟨0x110400 + 0x8 * k, 12, 36⟩
abbrev SE_WREF_CUR (k : Nat) : FRef := ⟨0x110400 + 0x8 * k, 0, 1⟩
abbrev SE_WSTAT_REFFRAME (k : Nat) : FRef := ⟨0x110800 + 0x8 * k, 32, 32⟩
abbrev SE_WSTAT_REFOK (k : Nat) : FRef := ⟨0x110800 + 0x8 * k, 31, 1⟩
abbrev SE_WSTAT_HELD (k : Nat) : FRef := ⟨0x110800 + 0x8 * k, 30, 1⟩
abbrev SE_WSTAT_CAUSES (k : Nat) : FRef := ⟨0x110800 + 0x8 * k, 16, 8⟩
abbrev SE_WSTAT_CONC (k : Nat) : FRef := ⟨0x110800 + 0x8 * k, 0, 11⟩
abbrev SE_WERR_LATE (k : Nat) : FRef := ⟨0x110C00 + 0x8 * k, 48, 16⟩
abbrev SE_WERR_QFULL (k : Nat) : FRef := ⟨0x110C00 + 0x8 * k, 32, 16⟩
abbrev SE_WERR_DISC (k : Nat) : FRef := ⟨0x110C00 + 0x8 * k, 24, 8⟩
abbrev SE_WERR_VIOL (k : Nat) : FRef := ⟨0x110C00 + 0x8 * k, 16, 8⟩
abbrev SE_WERR_RANSEND (k : Nat) : FRef := ⟨0x110C00 + 0x8 * k, 0, 16⟩
abbrev SEN_CTL_ENC (n : Nat) : FRef := ⟨0x100000 + 0x1000 * n, 0, 1⟩
abbrev SEN_STAT_RETIRED (n : Nat) : FRef := ⟨0x100008 + 0x1000 * n, 32, 1⟩
abbrev SEN_STAT_BUSY (n : Nat) : FRef := ⟨0x100008 + 0x1000 * n, 16, 12⟩
abbrev SEN_STAT_WIN (n : Nat) : FRef := ⟨0x100008 + 0x1000 * n, 10, 6⟩
abbrev SEN_STAT_BAND (n : Nat) : FRef := ⟨0x100008 + 0x1000 * n, 5, 5⟩
abbrev SEN_STAT_CELL (n : Nat) : FRef := ⟨0x100008 + 0x1000 * n, 0, 5⟩
abbrev SEN_CNT_ROWS (n : Nat) : FRef := ⟨0x100010 + 0x1000 * n, 32, 32⟩
abbrev SEN_CNT_CELLS (n : Nat) : FRef := ⟨0x100010 + 0x1000 * n, 0, 32⟩
abbrev FEED_CFG_EN (f : Nat) : FRef := ⟨0x120000 + 0x40 * f, 63, 1⟩
abbrev FEED_CFG_WHOLE (f : Nat) : FRef := ⟨0x120000 + 0x40 * f, 62, 1⟩
abbrev FEED_CFG_TENANT (f : Nat) : FRef := ⟨0x120000 + 0x40 * f, 50, 10⟩
abbrev FEED_CFG_SHARE (f : Nat) : FRef := ⟨0x120000 + 0x40 * f, 32, 16⟩
abbrev FEED_CFG_KEYINT (f : Nat) : FRef := ⟨0x120000 + 0x40 * f, 24, 8⟩
abbrev FEED_CFG_SEGW (f : Nat) : FRef := ⟨0x120000 + 0x40 * f, 16, 6⟩
abbrev FEED_CFG_SH (f : Nat) : FRef := ⟨0x120000 + 0x40 * f, 8, 6⟩
abbrev FEED_CFG_SPAN (f : Nat) : FRef := ⟨0x120000 + 0x40 * f, 0, 7⟩
abbrev FEED_SRC_FMT (f : Nat) : FRef := ⟨0x120008 + 0x40 * f, 61, 3⟩
abbrev FEED_SRC_NBUF (f : Nat) : FRef := ⟨0x120008 + 0x40 * f, 58, 3⟩
abbrev FEED_SRC_BASE (f : Nat) : FRef := ⟨0x120008 + 0x40 * f, 6, 42⟩
abbrev FEED_GEOM_CH (f : Nat) : FRef := ⟨0x120010 + 0x40 * f, 45, 15⟩
abbrev FEED_GEOM_CW (f : Nat) : FRef := ⟨0x120010 + 0x40 * f, 30, 15⟩
abbrev FEED_GEOM_CY0 (f : Nat) : FRef := ⟨0x120010 + 0x40 * f, 15, 15⟩
abbrev FEED_GEOM_CX0 (f : Nat) : FRef := ⟨0x120010 + 0x40 * f, 0, 15⟩
abbrev FEED_PITCH_FRAME (f : Nat) : FRef := ⟨0x120018 + 0x40 * f, 32, 32⟩
abbrev FEED_PITCH_LINE (f : Nat) : FRef := ⟨0x120018 + 0x40 * f, 0, 32⟩
abbrev FEED_REF_PORT (f : Nat) : FRef := ⟨0x120020 + 0x40 * f, 63, 1⟩
abbrev FEED_REF_BASE (f : Nat) : FRef := ⟨0x120020 + 0x40 * f, 12, 36⟩
abbrev FEED_REF_CUR (f : Nat) : FRef := ⟨0x120020 + 0x40 * f, 0, 1⟩
abbrev FEED_RC_QPMAX (f : Nat) : FRef := ⟨0x120028 + 0x40 * f, 48, 6⟩
abbrev FEED_RC_QPMIN (f : Nat) : FRef := ⟨0x120028 + 0x40 * f, 40, 6⟩
abbrev FEED_RC_QPINIT (f : Nat) : FRef := ⟨0x120028 + 0x40 * f, 32, 6⟩
abbrev FEED_RC_SRX (f : Nat) : FRef := ⟨0x120028 + 0x40 * f, 8, 8⟩
abbrev FEED_RC_SRY (f : Nat) : FRef := ⟨0x120028 + 0x40 * f, 0, 8⟩
abbrev FEED_POST_BUF (f : Nat) : FRef := ⟨0x120030 + 0x40 * f, 0, 3⟩
abbrev FEED_STAT_INUSE (f : Nat) : FRef := ⟨0x120038 + 0x40 * f, 56, 8⟩
abbrev FEED_STAT_CFGERR (f : Nat) : FRef := ⟨0x120038 + 0x40 * f, 52, 4⟩
abbrev FEED_STAT_NOSRC (f : Nat) : FRef := ⟨0x120038 + 0x40 * f, 49, 1⟩
abbrev FEED_STAT_POSTERR (f : Nat) : FRef := ⟨0x120038 + 0x40 * f, 48, 1⟩
abbrev FEED_STAT_DROPS (f : Nat) : FRef := ⟨0x120038 + 0x40 * f, 32, 16⟩
abbrev FEED_STAT_SRCPEN (f : Nat) : FRef := ⟨0x120038 + 0x40 * f, 24, 8⟩
abbrev FEED_STAT_RFRQ (f : Nat) : FRef := ⟨0x120038 + 0x40 * f, 16, 8⟩
abbrev FEED_STAT_QP (f : Nat) : FRef := ⟨0x120038 + 0x40 * f, 0, 6⟩
abbrev PLY_CAT_EN : FRef := ⟨0x130000, 63, 1⟩
abbrev PLY_CAT_INIT : FRef := ⟨0x130000, 62, 1⟩
abbrev PLY_CAT_BASE : FRef := ⟨0x130000, 21, 27⟩
abbrev PLY_STAT_STATE (c : Nat) : FRef := ⟨0x130100 + 0x8 * c, 62, 2⟩
abbrev PLY_STAT_PEND (c : Nat) : FRef := ⟨0x130100 + 0x8 * c, 61, 1⟩
abbrev PLY_STAT_CLIP (c : Nat) : FRef := ⟨0x130100 + 0x8 * c, 32, 16⟩
abbrev PLY_STAT_FRAME (c : Nat) : FRef := ⟨0x130100 + 0x8 * c, 0, 32⟩
abbrev PLY_ERR_LATE (c : Nat) : FRef := ⟨0x130200 + 0x8 * c, 48, 16⟩
abbrev PLY_ERR_PENN (c : Nat) : FRef := ⟨0x130200 + 0x8 * c, 32, 16⟩
abbrev LP_CFG_AUTOMASK : FRef := ⟨0x200000, 63, 1⟩
abbrev LP_CFG_PROBE : FRef := ⟨0x200000, 16, 8⟩
abbrev LP_CFG_SEGLOG : FRef := ⟨0x200000, 8, 3⟩
abbrev LP_CFG_DITHER : FRef := ⟨0x200000, 0, 1⟩
abbrev LP_TIME_LATCHT : FRef := ⟨0x200008, 32, 16⟩
abbrev LP_TIME_RSLAG : FRef := ⟨0x200008, 16, 8⟩
abbrev LP_TIME_RSLEAD : FRef := ⟨0x200008, 0, 7⟩
abbrev LP_CALBASE_PORT : FRef := ⟨0x200010, 63, 1⟩
abbrev LP_CALBASE_BASE : FRef := ⟨0x200010, 16, 32⟩
abbrev LP_PAT_PY : FRef := ⟨0x200018, 48, 8⟩
abbrev LP_PAT_PX : FRef := ⟨0x200018, 40, 8⟩
abbrev LP_PAT_SY : FRef := ⟨0x200018, 32, 8⟩
abbrev LP_PAT_SX : FRef := ⟨0x200018, 24, 8⟩
abbrev LP_PAT_RAW : FRef := ⟨0x200018, 3, 1⟩
abbrev LP_PAT_PATTERN : FRef := ⟨0x200018, 0, 3⟩
abbrev LP_PATLVL_B : FRef := ⟨0x200020, 24, 12⟩
abbrev LP_PATLVL_G : FRef := ⟨0x200020, 12, 12⟩
abbrev LP_PATLVL_R : FRef := ⟨0x200020, 0, 12⟩
abbrev LP_STAT_GERR : FRef := ⟨0x200028, 40, 1⟩
abbrev LP_STAT_GDIV : FRef := ⟨0x200028, 32, 8⟩
abbrev LP_CUT_CUT : FRef := ⟨0x200030, 0, 10⟩
abbrev LP_FLT_VALID : FRef := ⟨0x200038, 63, 1⟩
abbrev LP_FLT_OVF : FRef := ⟨0x200038, 62, 1⟩
abbrev LP_FLT_KIND : FRef := ⟨0x200038, 56, 2⟩
abbrev LP_FLT_MOD : FRef := ⟨0x200038, 48, 8⟩
abbrev LP_FLT_INDEX : FRef := ⟨0x200038, 0, 16⟩
abbrev LP_MOD_GEOM_EN (m : Nat) : FRef := ⟨0x201000 + 0x40 * m, 63, 1⟩
abbrev LP_MOD_GEOM_CSEL (m : Nat) : FRef := ⟨0x201000 + 0x40 * m, 62, 1⟩
abbrev LP_MOD_GEOM_CALOK (m : Nat) : FRef := ⟨0x201000 + 0x40 * m, 61, 1⟩
abbrev LP_MOD_GEOM_FLIPY (m : Nat) : FRef := ⟨0x201000 + 0x40 * m, 60, 1⟩
abbrev LP_MOD_GEOM_FLIPX (m : Nat) : FRef := ⟨0x201000 + 0x40 * m, 59, 1⟩
abbrev LP_MOD_GEOM_NCHM1 (m : Nat) : FRef := ⟨0x201000 + 0x40 * m, 49, 10⟩
abbrev LP_MOD_GEOM_MH (m : Nat) : FRef := ⟨0x201000 + 0x40 * m, 38, 11⟩
abbrev LP_MOD_GEOM_MW (m : Nat) : FRef := ⟨0x201000 + 0x40 * m, 27, 11⟩
abbrev LP_MOD_GEOM_MY0 (m : Nat) : FRef := ⟨0x201000 + 0x40 * m, 17, 10⟩
abbrev LP_MOD_GEOM_MX0 (m : Nat) : FRef := ⟨0x201000 + 0x40 * m, 7, 10⟩
abbrev LP_MOD_CM0_C10 (m : Nat) : FRef := ⟨0x201008 + 0x40 * m, 48, 16⟩
abbrev LP_MOD_CM0_C02 (m : Nat) : FRef := ⟨0x201008 + 0x40 * m, 32, 16⟩
abbrev LP_MOD_CM0_C01 (m : Nat) : FRef := ⟨0x201008 + 0x40 * m, 16, 16⟩
abbrev LP_MOD_CM0_C00 (m : Nat) : FRef := ⟨0x201008 + 0x40 * m, 0, 16⟩
abbrev LP_MOD_CM1_C21 (m : Nat) : FRef := ⟨0x201010 + 0x40 * m, 48, 16⟩
abbrev LP_MOD_CM1_C20 (m : Nat) : FRef := ⟨0x201010 + 0x40 * m, 32, 16⟩
abbrev LP_MOD_CM1_C12 (m : Nat) : FRef := ⟨0x201010 + 0x40 * m, 16, 16⟩
abbrev LP_MOD_CM1_C11 (m : Nat) : FRef := ⟨0x201010 + 0x40 * m, 0, 16⟩
abbrev LP_MOD_CM2_CG_B (m : Nat) : FRef := ⟨0x201018 + 0x40 * m, 48, 10⟩
abbrev LP_MOD_CM2_CG_G (m : Nat) : FRef := ⟨0x201018 + 0x40 * m, 38, 10⟩
abbrev LP_MOD_CM2_CG_R (m : Nat) : FRef := ⟨0x201018 + 0x40 * m, 28, 10⟩
abbrev LP_MOD_CM2_GDEF (m : Nat) : FRef := ⟨0x201018 + 0x40 * m, 16, 12⟩
abbrev LP_MOD_CM2_C22 (m : Nat) : FRef := ⟨0x201018 + 0x40 * m, 0, 16⟩
abbrev LP_MOD_SCL_K (m : Nat) : FRef := ⟨0x201020 + 0x40 * m, 0, 16⟩
abbrev LP_MOD_CSUM0_GSUM (m : Nat) : FRef := ⟨0x201028 + 0x40 * m, 32, 32⟩
abbrev LP_MOD_CSUM0_RSUM (m : Nat) : FRef := ⟨0x201028 + 0x40 * m, 0, 32⟩
abbrev LP_MOD_CSUM1_FRAME (m : Nat) : FRef := ⟨0x201030 + 0x40 * m, 48, 16⟩
abbrev LP_MOD_CSUM1_BSUM (m : Nat) : FRef := ⟨0x201030 + 0x40 * m, 0, 32⟩
abbrev LP_MOD_UID_UID (m : Nat) : FRef := ⟨0x201038 + 0x40 * m, 0, 64⟩
abbrev ZLL_STAT_TXINV (n : Nat) : FRef := ⟨0x202000 + 0x20 * n, 63, 1⟩
abbrev ZLL_STAT_REMAP (n : Nat) : FRef := ⟨0x202000 + 0x20 * n, 62, 1⟩
abbrev ZLL_STAT_OPENCHAIN (n : Nat) : FRef := ⟨0x202000 + 0x20 * n, 61, 1⟩
abbrev ZLL_STAT_SHORT (n : Nat) : FRef := ⟨0x202000 + 0x20 * n, 60, 1⟩
abbrev ZLL_STAT_MOD (n : Nat) : FRef := ⟨0x202000 + 0x20 * n, 48, 8⟩
abbrev ZLL_STAT_REASON (n : Nat) : FRef := ⟨0x202000 + 0x20 * n, 32, 4⟩
abbrev ZLL_STAT_CHIPS (n : Nat) : FRef := ⟨0x202000 + 0x20 * n, 16, 11⟩
abbrev ZLL_STAT_STATE (n : Nat) : FRef := ⟨0x202000 + 0x20 * n, 0, 3⟩
abbrev ZLL_CNT_RETRAIN (n : Nat) : FRef := ⟨0x202008 + 0x20 * n, 48, 16⟩
abbrev ZLL_CNT_UNARMED (n : Nat) : FRef := ⟨0x202008 + 0x20 * n, 32, 16⟩
abbrev ZLL_CNT_STLOST (n : Nat) : FRef := ⟨0x202008 + 0x20 * n, 16, 16⟩
abbrev ZLL_CNT_LAMPFLT (n : Nat) : FRef := ⟨0x202008 + 0x20 * n, 0, 16⟩
abbrev ZLL_RT_RXINV (k : Nat) : FRef := ⟨0x202800 + 0x8 * k, 63, 1⟩
abbrev ZLL_RT_SHORT (k : Nat) : FRef := ⟨0x202800 + 0x8 * k, 62, 1⟩
abbrev ZLL_RT_CODEERR (k : Nat) : FRef := ⟨0x202800 + 0x8 * k, 32, 16⟩
abbrev ZLL_RT_CRCERR (k : Nat) : FRef := ⟨0x202800 + 0x8 * k, 16, 16⟩
abbrev ZLL_RT_TMO (k : Nat) : FRef := ⟨0x202800 + 0x8 * k, 0, 16⟩
abbrev GCLK_CTL_EN : FRef := ⟨0x202900, 0, 16⟩
abbrev PU_CFG_SW (n : Nat) : FRef := ⟨0x280000 + 0x40 * n, 63, 1⟩
abbrev PU_CFG_MINMODE (n : Nat) : FRef := ⟨0x280000 + 0x40 * n, 62, 1⟩
abbrev PU_CFG_BSTW (n : Nat) : FRef := ⟨0x280000 + 0x40 * n, 48, 8⟩
abbrev PU_CFG_BSTP (n : Nat) : FRef := ⟨0x280000 + 0x40 * n, 32, 16⟩
abbrev PU_CFG_MINP (n : Nat) : FRef := ⟨0x280000 + 0x40 * n, 16, 8⟩
abbrev PU_CFG_DT (n : Nat) : FRef := ⟨0x280000 + 0x40 * n, 0, 8⟩
abbrev PU_PER_IMM (n : Nat) : FRef := ⟨0x280008 + 0x40 * n, 63, 1⟩
abbrev PU_PER_PHASE (n : Nat) : FRef := ⟨0x280008 + 0x40 * n, 32, 17⟩
abbrev PU_PER_PERACT (n : Nat) : FRef := ⟨0x280008 + 0x40 * n, 16, 16⟩
abbrev PU_PER_PER (n : Nat) : FRef := ⟨0x280008 + 0x40 * n, 0, 16⟩
abbrev PU_DUTY_DUTYD (n : Nat) : FRef := ⟨0x280010 + 0x40 * n, 32, 16⟩
abbrev PU_DUTY_DUTYU (n : Nat) : FRef := ⟨0x280010 + 0x40 * n, 0, 16⟩
abbrev PU_FORCE_FL (n : Nat) : FRef := ⟨0x280018 + 0x40 * n, 2, 2⟩
abbrev PU_FORCE_FH (n : Nat) : FRef := ⟨0x280018 + 0x40 * n, 0, 2⟩
abbrev PU_STAT_CNT (n : Nat) : FRef := ⟨0x280020 + 0x40 * n, 16, 16⟩
abbrev PU_STAT_OFF (n : Nat) : FRef := ⟨0x280020 + 0x40 * n, 8, 1⟩
abbrev PU_STAT_DIR (n : Nat) : FRef := ⟨0x280020 + 0x40 * n, 7, 1⟩
abbrev PU_STAT_FERR (n : Nat) : FRef := ⟨0x280020 + 0x40 * n, 6, 1⟩
abbrev PU_STAT_PSHORT (n : Nat) : FRef := ⟨0x280020 + 0x40 * n, 5, 1⟩
abbrev PU_STAT_MINHIT (n : Nat) : FRef := ⟨0x280020 + 0x40 * n, 4, 1⟩
abbrev PU_STAT_SHORTL (n : Nat) : FRef := ⟨0x280020 + 0x40 * n, 2, 1⟩
abbrev PU_STAT_SHORTH (n : Nat) : FRef := ⟨0x280020 + 0x40 * n, 1, 1⟩
abbrev PU_SYNC_MASK : FRef := ⟨0x281000, 0, 64⟩
abbrev TRIP_CFG_EN (k : Nat) : FRef := ⟨0x2A0000 + 0x8 * k, 63, 1⟩
abbrev TRIP_CFG_MODE (k : Nat) : FRef := ⟨0x2A0000 + 0x8 * k, 62, 1⟩
abbrev TRIP_CFG_BLKSRC (k : Nat) : FRef := ⟨0x2A0000 + 0x8 * k, 48, 8⟩
abbrev TRIP_CFG_BLKW (k : Nat) : FRef := ⟨0x2A0000 + 0x8 * k, 32, 8⟩
abbrev TRIP_MAP_MAP (k : Nat) : FRef := ⟨0x2A0100 + 0x8 * k, 0, 64⟩
abbrev TRIP_LATCH_SW : FRef := ⟨0x2A0200, 32, 1⟩
abbrev TRIP_LATCH_LATCH : FRef := ⟨0x2A0200, 0, 32⟩
abbrev TRIP_SW_SET : FRef := ⟨0x2A0208, 0, 1⟩
abbrev TRIP_LOCK_LOCK : FRef := ⟨0x2A0210, 63, 1⟩
abbrev TMR_CFG_CSEL (n : Nat) : FRef := ⟨0x2C0000 + 0x80 * n, 24, 8⟩
abbrev TMR_CFG_CEDGE (n : Nat) : FRef := ⟨0x2C0000 + 0x80 * n, 22, 2⟩
abbrev TMR_CFG_OUTPOL (n : Nat) : FRef := ⟨0x2C0000 + 0x80 * n, 21, 1⟩
abbrev TMR_CFG_SRC (n : Nat) : FRef := ⟨0x2C0000 + 0x80 * n, 16, 3⟩
abbrev TMR_CFG_CPIN (n : Nat) : FRef := ⟨0x2C0000 + 0x80 * n, 13, 3⟩
abbrev TMR_CFG_PSC (n : Nat) : FRef := ⟨0x2C0000 + 0x80 * n, 8, 4⟩
abbrev TMR_CFG_IE (n : Nat) : FRef := ⟨0x2C0000 + 0x80 * n, 4, 4⟩
abbrev TMR_CFG_LOSTW (n : Nat) : FRef := ⟨0x2C0000 + 0x80 * n, 0, 4⟩
abbrev TMR_DIV_DIV (n : Nat) : FRef := ⟨0x2C0008 + 0x80 * n, 0, 32⟩
abbrev TMR_TOPL_TOP_LO (n : Nat) : FRef := ⟨0x2C0010 + 0x80 * n, 0, 32⟩
abbrev TMR_TOPH_TOP_HI (n : Nat) : FRef := ⟨0x2C0018 + 0x80 * n, 0, 16⟩
abbrev TMR_CMPL_CMP_LO (n : Nat) : FRef := ⟨0x2C0020 + 0x80 * n, 0, 32⟩
abbrev TMR_CMPH_CMP_HI (n : Nat) : FRef := ⟨0x2C0028 + 0x80 * n, 0, 16⟩
abbrev TMR_PHL_PH_LO (n : Nat) : FRef := ⟨0x2C0030 + 0x80 * n, 0, 32⟩
abbrev TMR_PHH_PH_HI (n : Nat) : FRef := ⟨0x2C0038 + 0x80 * n, 0, 17⟩
abbrev TMR_CNTL_CNT_LO (n : Nat) : FRef := ⟨0x2C0040 + 0x80 * n, 0, 32⟩
abbrev TMR_CNTH_DIR (n : Nat) : FRef := ⟨0x2C0048 + 0x80 * n, 31, 1⟩
abbrev TMR_CNTH_CNT_HI (n : Nat) : FRef := ⟨0x2C0048 + 0x80 * n, 0, 16⟩
abbrev TMR_CAPL_CAP_LO (n : Nat) : FRef := ⟨0x2C0050 + 0x80 * n, 0, 32⟩
abbrev TMR_CAPH_VALID (n : Nat) : FRef := ⟨0x2C0058 + 0x80 * n, 31, 1⟩
abbrev TMR_CAPH_OVR (n : Nat) : FRef := ⟨0x2C0058 + 0x80 * n, 30, 1⟩
abbrev TMR_CAPH_STALE (n : Nat) : FRef := ⟨0x2C0058 + 0x80 * n, 29, 1⟩
abbrev TMR_CAPH_DIR (n : Nat) : FRef := ⟨0x2C0058 + 0x80 * n, 28, 1⟩
abbrev TMR_CAPH_CAP_HI (n : Nat) : FRef := ⟨0x2C0058 + 0x80 * n, 0, 16⟩
abbrev TMR_STAT_FULL (n : Nat) : FRef := ⟨0x2C0060 + 0x80 * n, 3, 1⟩
abbrev TMR_STAT_SRCLOST (n : Nat) : FRef := ⟨0x2C0060 + 0x80 * n, 2, 1⟩
abbrev TMR_STAT_LOSTEV (n : Nat) : FRef := ⟨0x2C0060 + 0x80 * n, 1, 1⟩
abbrev TMR_STAT_PREC (n : Nat) : FRef := ⟨0x2C0060 + 0x80 * n, 0, 1⟩
abbrev TMR_SYNC_MASK : FRef := ⟨0x2C1000, 0, 32⟩
abbrev TMR_SWCAP_MASK : FRef := ⟨0x2C1008, 0, 32⟩
abbrev TOUT_SEL0_PINS : FRef := ⟨0x2C1010, 0, 32⟩
abbrev TOUT_SEL1_PINS : FRef := ⟨0x2C1018, 0, 32⟩
abbrev BA_CFG_STATIC : FRef := ⟨0x300000, 32, 32⟩
abbrev BA_CFG_GROUP : FRef := ⟨0x300000, 24, 6⟩
abbrev BA_CFG_KSLOT : FRef := ⟨0x300000, 20, 4⟩
abbrev BA_CFG_FMAX10 : FRef := ⟨0x300000, 0, 16⟩
abbrev BA_LIM_CEIL : FRef := ⟨0x300008, 48, 16⟩
abbrev BA_LIM_HARD : FRef := ⟨0x300008, 32, 16⟩
abbrev BA_LIM_SAFE : FRef := ⟨0x300008, 16, 16⟩
abbrev BA_SLEW_HMEXIT : FRef := ⟨0x300010, 56, 8⟩
abbrev BA_SLEW_HMENT : FRef := ⟨0x300010, 48, 8⟩
abbrev BA_SLEW_DSLEW : FRef := ⟨0x300010, 32, 16⟩
abbrev BA_SLEW_USLEW : FRef := ⟨0x300010, 16, 16⟩
abbrev BA_SLEW_NSTEP : FRef := ⟨0x300010, 0, 16⟩
abbrev BA_WIN_UPOFF : FRef := ⟨0x300018, 48, 16⟩
abbrev BA_WIN_RCUT : FRef := ⟨0x300018, 32, 16⟩
abbrev BA_WIN_DNOFF : FRef := ⟨0x300018, 16, 16⟩
abbrev BA_WIN_LDOFF : FRef := ⟨0x300018, 0, 16⟩
abbrev BA_LOCK_LOCK : FRef := ⟨0x300020, 63, 1⟩
abbrev BA_STAT_EMERG : FRef := ⟨0x300028, 63, 1⟩
abbrev BA_STAT_OPENLOOP : FRef := ⟨0x300028, 62, 1⟩
abbrev BA_STAT_LIMITED : FRef := ⟨0x300028, 61, 1⟩
abbrev BA_STAT_LATESUM : FRef := ⟨0x300028, 60, 1⟩
abbrev BA_STAT_DEMAND : FRef := ⟨0x300028, 32, 16⟩
abbrev BA_STAT_LEASE : FRef := ⟨0x300028, 16, 16⟩
abbrev BA_STAT_GEFF : FRef := ⟨0x300028, 0, 16⟩
abbrev BA_TRIM_MEAS : FRef := ⟨0x300030, 32, 16⟩
abbrev BA_TRIM_FRAME : FRef := ⟨0x300030, 16, 16⟩
abbrev BA_TRIM_TRIM : FRef := ⟨0x300030, 0, 16⟩
abbrev BA_CNT_LMISS : FRef := ⟨0x300038, 48, 16⟩
abbrev BA_CNT_LDIFF : FRef := ⟨0x300038, 32, 16⟩
abbrev BA_CNT_LINVAL : FRef := ⟨0x300038, 16, 16⟩
abbrev BA_CNT_LLATE : FRef := ⟨0x300038, 0, 16⟩
abbrev BA_SNS_EN : FRef := ⟨0x300400, 63, 1⟩
abbrev BA_SNS_SDIV : FRef := ⟨0x300400, 48, 8⟩
abbrev BA_SNS_CHEN : FRef := ⟨0x300400, 32, 8⟩
abbrev BA_SNS_FDIV : FRef := ⟨0x300400, 0, 16⟩
abbrev BA_SNSERR_FROZEN : FRef := ⟨0x300448, 56, 8⟩
abbrev BA_SNSERR_LOST : FRef := ⟨0x300448, 48, 8⟩
abbrev BA_SNSERR_CHKERR : FRef := ⟨0x300448, 0, 16⟩
abbrev BA_SOLV_ACTIVE : FRef := ⟨0x301000, 63, 1⟩
abbrev BA_SOLV_OVC : FRef := ⟨0x301000, 62, 1⟩
abbrev BA_SOLV_TBLDIFF : FRef := ⟨0x301000, 61, 1⟩
abbrev BA_SOLV_SLDIFF : FRef := ⟨0x301000, 32, 16⟩
abbrev BA_SOLV_LCRC : FRef := ⟨0x301000, 0, 32⟩
abbrev BA_MOD_MLIM (m : Nat) : FRef := ⟨0x300100 + 0x8 * m, 48, 16⟩
abbrev BA_MOD_IFS_B (m : Nat) : FRef := ⟨0x300100 + 0x8 * m, 32, 16⟩
abbrev BA_MOD_IFS_G (m : Nat) : FRef := ⟨0x300100 + 0x8 * m, 16, 16⟩
abbrev BA_MOD_IFS_R (m : Nat) : FRef := ⟨0x300100 + 0x8 * m, 0, 16⟩
abbrev BA_SNSCH_LAST (k : Nat) : FRef := ⟨0x300408 + 0x8 * k, 48, 16⟩
abbrev BA_SNSCH_SCALE (k : Nat) : FRef := ⟨0x300408 + 0x8 * k, 16, 16⟩
abbrev BA_SNSCH_OFFSET (k : Nat) : FRef := ⟨0x300408 + 0x8 * k, 0, 16⟩
abbrev BA_GRP_CAP10 (g : Nat) : FRef := ⟨0x301100 + 0x8 * g, 32, 32⟩
abbrev BA_GRP_OVC (g : Nat) : FRef := ⟨0x301100 + 0x8 * g, 31, 1⟩
abbrev BA_GRP_LAMBDA (g : Nat) : FRef := ⟨0x301100 + 0x8 * g, 0, 16⟩
abbrev BA_CAB_EN (c : Nat) : FRef := ⟨0x310000 + 0x8 * c, 63, 1⟩
abbrev BA_CAB_USED (c : Nat) : FRef := ⟨0x310000 + 0x8 * c, 62, 1⟩
abbrev BA_CAB_REJ (c : Nat) : FRef := ⟨0x310000 + 0x8 * c, 61, 1⟩
abbrev BA_CAB_GROUP (c : Nat) : FRef := ⟨0x310000 + 0x8 * c, 48, 6⟩
abbrev BA_CAB_REC (c : Nat) : FRef := ⟨0x310000 + 0x8 * c, 32, 16⟩
abbrev BA_CAB_SAFE (c : Nat) : FRef := ⟨0x310000 + 0x8 * c, 16, 16⟩
abbrev BA_CAB_W (c : Nat) : FRef := ⟨0x310000 + 0x8 * c, 0, 16⟩
abbrev RING_ID_STANDBY : FRef := ⟨0x400000, 48, 16⟩
abbrev RING_ID_ENSIGN : FRef := ⟨0x400000, 32, 16⟩
abbrev RING_ID_CABID : FRef := ⟨0x400000, 16, 16⟩
abbrev RING_ID_ROLES : FRef := ⟨0x400000, 8, 5⟩
abbrev RING_ID_MSLOT : FRef := ⟨0x400000, 4, 4⟩
abbrev RING_ID_GCLTRUNC : FRef := ⟨0x400000, 3, 1⟩
abbrev RING_AREA_NENG : FRef := ⟨0x400008, 48, 16⟩
abbrev RING_AREA_HC : FRef := ⟨0x400008, 42, 6⟩
abbrev RING_AREA_WC : FRef := ⟨0x400008, 36, 6⟩
abbrev RING_AREA_Y0C : FRef := ⟨0x400008, 15, 15⟩
abbrev RING_AREA_X0C : FRef := ⟨0x400008, 0, 15⟩
abbrev RING_ADM_SUMRATE : FRef := ⟨0x400010, 0, 25⟩
abbrev RING_AUTH_VREPLAY : FRef := ⟨0x400018, 32, 16⟩
abbrev RING_AUTH_VPOOL : FRef := ⟨0x400018, 16, 16⟩
abbrev RING_AUTH_AUTHFAIL : FRef := ⟨0x400018, 0, 16⟩
abbrev RING_PORT_CFG_EN (n : Nat) : FRef := ⟨0x400100 + 0x100 * n, 63, 1⟩
abbrev RING_PORT_CFG_FEC (n : Nat) : FRef := ⟨0x400100 + 0x100 * n, 62, 1⟩
abbrev RING_PORT_CFG_DASYM (n : Nat) : FRef := ⟨0x400100 + 0x100 * n, 0, 16⟩
abbrev RING_PORT_STAT_LINK (n : Nat) : FRef := ⟨0x400108 + 0x100 * n, 63, 1⟩
abbrev RING_PORT_STAT_PREEMPT (n : Nat) : FRef := ⟨0x400108 + 0x100 * n, 62, 1⟩
abbrev RING_PORT_STAT_PARTNER (n : Nat) : FRef := ⟨0x400108 + 0x100 * n, 32, 16⟩
abbrev RING_PORT_STAT_MLD (n : Nat) : FRef := ⟨0x400108 + 0x100 * n, 0, 32⟩
abbrev RING_PORT_CNT0_FCSERR (n : Nat) : FRef := ⟨0x400110 + 0x100 * n, 48, 16⟩
abbrev RING_PORT_CNT0_DUPDISC (n : Nat) : FRef := ⟨0x400110 + 0x100 * n, 32, 16⟩
abbrev RING_PORT_CNT0_EXPIRED (n : Nat) : FRef := ⟨0x400110 + 0x100 * n, 16, 16⟩
abbrev RING_PORT_CNT0_HOLDDROP (n : Nat) : FRef := ⟨0x400110 + 0x100 * n, 0, 16⟩
abbrev RING_PORT_CNT1_LINKDOWNS (n : Nat) : FRef := ⟨0x400118 + 0x100 * n, 48, 16⟩
abbrev RING_PORT_CNT1_NOTAG (n : Nat) : FRef := ⟨0x400118 + 0x100 * n, 32, 16⟩
abbrev RING_POL_OPEN (t : Nat) : FRef := ⟨0x410000 + 0x8 * t, 63, 1⟩
abbrev RING_POL_DROPS (t : Nat) : FRef := ⟨0x410000 + 0x8 * t, 0, 32⟩
abbrev TSU_STAT_SYNC : FRef := ⟨0x408000, 63, 1⟩
abbrev TSU_STAT_HOLDOVER : FRef := ⟨0x408000, 62, 1⟩
abbrev TSU_STAT_GM : FRef := ⟨0x408000, 61, 1⟩
abbrev TSU_STAT_ACTING : FRef := ⟨0x408000, 60, 1⟩
abbrev TSU_STAT_DVALID : FRef := ⟨0x408000, 59, 1⟩
abbrev TSU_STAT_DOM : FRef := ⟨0x408000, 58, 1⟩
abbrev TSU_STAT_GMID : FRef := ⟨0x408000, 32, 16⟩
abbrev TSU_STAT_OFFSET : FRef := ⟨0x408000, 0, 32⟩
abbrev TSU_TIME_TIME : FRef := ⟨0x408008, 0, 64⟩
abbrev TSU_SCHED0_EPOCH : FRef := ⟨0x408010, 0, 64⟩
abbrev TSU_SCHED1_PERIOD : FRef := ⟨0x408018, 16, 48⟩
abbrev TSU_SCHED1_SSEQ : FRef := ⟨0x408018, 0, 16⟩
abbrev TSU_SCHED2_LATENCY : FRef := ⟨0x408020, 32, 32⟩
abbrev TSU_SCHED2_N0 : FRef := ⟨0x408020, 0, 32⟩
abbrev TSU_FRAME_N : FRef := ⟨0x408028, 0, 32⟩
abbrev TDU_CTL_HALT : FRef := ⟨0x500000, 63, 1⟩
abbrev TDU_CTL_RESUME : FRef := ⟨0x500000, 62, 1⟩
abbrev TDU_CTL_STEP : FRef := ⟨0x500000, 61, 1⟩
abbrev TDU_CTL_HALTONRST : FRef := ⟨0x500000, 0, 1⟩
abbrev TDU_STAT_HALTED : FRef := ⟨0x500008, 63, 1⟩
abbrev TDU_STAT_HALTLOST : FRef := ⟨0x500008, 62, 1⟩
abbrev TDU_STAT_TRERR : FRef := ⟨0x500008, 61, 1⟩
abbrev TDU_STAT_HIT : FRef := ⟨0x500008, 8, 8⟩
abbrev TDU_STAT_CAUSE : FRef := ⟨0x500008, 0, 3⟩
abbrev TDU_CFG_LOCK : FRef := ⟨0x500010, 63, 1⟩
abbrev TDU_CFG_STIMEN : FRef := ⟨0x500010, 16, 32⟩
abbrev TDU_CFG_SEQTR : FRef := ⟨0x500010, 8, 8⟩
abbrev TDU_CFG_TRDIV : FRef := ⟨0x500010, 5, 3⟩
abbrev TDU_CFG_SINK : FRef := ⟨0x500010, 3, 2⟩
abbrev TDU_TRST_WRAP : FRef := ⟨0x500018, 63, 1⟩
abbrev TDU_TRST_WPTR : FRef := ⟨0x500018, 32, 14⟩
abbrev TDU_TRST_FREE : FRef := ⟨0x500018, 16, 13⟩
abbrev TDU_TRST_LOST : FRef := ⟨0x500018, 0, 16⟩
abbrev TDU_ECHO_ECHO : FRef := ⟨0x500020, 0, 64⟩
abbrev TDU_CMP_EN (k : Nat) : FRef := ⟨0x500100 + 0x8 * k, 63, 1⟩
abbrev TDU_CMP_ACTION (k : Nat) : FRef := ⟨0x500100 + 0x8 * k, 61, 2⟩
abbrev TDU_CMP_KIND (k : Nat) : FRef := ⟨0x500100 + 0x8 * k, 58, 3⟩
abbrev TDU_CMP_PLMASK (k : Nat) : FRef := ⟨0x500100 + 0x8 * k, 55, 3⟩
abbrev TDU_CMP_SEQ (k : Nat) : FRef := ⟨0x500100 + 0x8 * k, 50, 5⟩
abbrev TDU_CMP_MASK (k : Nat) : FRef := ⟨0x500100 + 0x8 * k, 45, 5⟩
abbrev TDU_CMP_HIT (k : Nat) : FRef := ⟨0x500100 + 0x8 * k, 44, 1⟩
abbrev TDU_CMP_ADDR (k : Nat) : FRef := ⟨0x500100 + 0x8 * k, 0, 32⟩
abbrev TDU_STIM_DATA (k : Nat) : FRef := ⟨0x500200 + 0x8 * k, 0, 32⟩
abbrev TDU_CCR_VALUE (r : Nat) : FRef := ⟨0x500400 + 0x8 * r, 0, 32⟩

end F

/-- The identity and global registers (R63 block 0x000000 to 0x00FFFF). -/
def regsEng : List RegGrp :=
  [/- ENG_ID -/ ⟨0x000000, 0x8, 1, never, fun b _ => engIdReset b,
    [⟨48, 8, .ro, .fixed, anyEnc, fullMask⟩,
     ⟨40, 8, .ro, .fixed, anyEnc, fullMask⟩,
     ⟨36, 4, .ro, .fixed, anyEnc, fullMask⟩,
     ⟨32, 4, .ro, .fixed, anyEnc, fullMask⟩,
     ⟨16, 16, .ro, .fixed, anyEnc, fullMask⟩,
     ⟨8, 8, .ro, .fixed, anyEnc, fullMask⟩,
     ⟨4, 4, .ro, .fixed, anyEnc, fullMask⟩]⟩,
   /- ENG_BUMPST -/ ⟨0x000010, 0x8, 1, never, zeroReset,
    [⟨41, 1, .ro, .fixed, anyEnc, fullMask⟩,
     ⟨40, 1, .ro, .fixed, anyEnc, fullMask⟩,
     ⟨32, 8, .ro, .fixed, anyEnc, fullMask⟩,
     ⟨0, 32, .ro, .fixed, anyEnc, fullMask⟩]⟩,
   /- HPT_ERR -/ ⟨0x000018, 0x8, 1, never, zeroReset,
    [⟨63, 1, .w1c, .hptErr, anyEnc, fullMask⟩,
     ⟨62, 1, .ro, .hptErr, anyEnc, fullMask⟩,
     ⟨52, 4, .ro, .hptErr, anyEnc, fullMask⟩,
     ⟨24, 8, .ro, .hptErr, anyEnc, fullMask⟩,
     ⟨0, 24, .ro, .hptErr, anyEnc, 0xfffff8⟩]⟩]

/-- The clocks, power and modes registers (R63 block 0x010000 to 0x01FFFF). -/
def regsAo : List RegGrp :=
  [/- AO_MODE -/ ⟨0x010000, 0x8, 1, never, fun _ _ => 0x83,
    [⟨16, 8, .ro, .aoMode, anyEnc, fullMask⟩,
     ⟨12, 4, .ro, .aoMode, anyEnc, fullMask⟩,
     ⟨7, 1, .ro, .aoMode, anyEnc, fullMask⟩,
     ⟨0, 4, .ro, .aoMode, anyEnc, fullMask⟩]⟩,
   /- AO_CLKCFG -/ ⟨0x010008, 0x8, 1, never, fun _ _ => 0x4000020,
    [⟨32, 1, .rwl, .ao, anyEnc, fullMask⟩,
     ⟨16, 12, .rw, .ao, fun _i v => 0x100 ≤ v && v ≤ 0x400, fullMask⟩,
     ⟨0, 6, .rwl, .ao, fun _i v => 8 ≤ v && v ≤ 0x20, fullMask⟩]⟩,
   /- AO_CLKST -/ ⟨0x010010, 0x8, 1, never, zeroReset,
    [⟨32, 16, .ro, .live, anyEnc, fullMask⟩,
     ⟨16, 8, .ro, .live, anyEnc, fullMask⟩,
     ⟨6, 1, .w1c, .aoRec, anyEnc, fullMask⟩,
     ⟨5, 1, .w1c, .aoRec, anyEnc, fullMask⟩,
     ⟨3, 1, .ro, .live, anyEnc, fullMask⟩,
     ⟨2, 1, .ro, .live, anyEnc, fullMask⟩,
     ⟨1, 1, .ro, .live, anyEnc, fullMask⟩,
     ⟨0, 1, .ro, .live, anyEnc, fullMask⟩]⟩,
   /- AO_WAKEEN -/ ⟨0x010018, 0x8, 1, never, fun _ _ => 0x10000,
    [⟨19, 1, .rw, .ao, anyEnc, fullMask⟩,
     ⟨18, 1, .rw, .ao, anyEnc, fullMask⟩,
     ⟨17, 1, .rw, .ao, anyEnc, fullMask⟩,
     ⟨16, 1, .rw, .ao, anyEnc, fullMask⟩,
     ⟨8, 8, .rw, .ao, anyEnc, fullMask⟩,
     ⟨0, 8, .rw, .ao, anyEnc, fullMask⟩]⟩,
   /- AO_WAKEST -/ ⟨0x010020, 0x8, 1, never, zeroReset,
    [⟨16, 12, .ro, .aoRec, anyEnc, fullMask⟩,
     ⟨12, 1, .w1c, .aoRec, anyEnc, fullMask⟩,
     ⟨11, 1, .w1c, .aoRec, anyEnc, fullMask⟩,
     ⟨10, 1, .w1c, .aoRec, anyEnc, fullMask⟩,
     ⟨9, 1, .w1c, .aoRec, anyEnc, fullMask⟩,
     ⟨0, 8, .w1c, .aoRec, anyEnc, fullMask⟩]⟩,
   /- AO_RSTCAUSE -/ ⟨0x010028, 0x8, 1, never, fun _ _ => 0x1,
    [⟨5, 1, .w1c, .aoRec, anyEnc, fullMask⟩,
     ⟨4, 1, .w1c, .aoRec, anyEnc, fullMask⟩,
     ⟨3, 1, .w1c, .aoRec, anyEnc, fullMask⟩,
     ⟨2, 1, .w1c, .aoRec, anyEnc, fullMask⟩,
     ⟨1, 1, .w1c, .aoRec, anyEnc, fullMask⟩,
     ⟨0, 1, .w1c, .aoRec, anyEnc, fullMask⟩]⟩,
   /- AO_WDOG -/ ⟨0x010030, 0x8, 1, never, zeroReset,
    [⟨63, 1, .rwl, .ao, anyEnc, fullMask⟩,
     ⟨32, 1, .w1c, .ao, anyEnc, fullMask⟩,
     ⟨16, 16, .wo, .ao, anyEnc, fullMask⟩,
     ⟨0, 16, .rwl, .ao, anyEnc, fullMask⟩]⟩]

/-- The doorbell interrupt controller registers (R63 block 0x020000 to 0x02FFFF). -/
def regsDic : List RegGrp :=
  [/- DIC_DOORBELL -/ ⟨0x020000, 0x8, 1, never, zeroReset,
    [⟨16, 4, .wo, .dicSet, anyEnc, fullMask⟩,
     ⟨0, 12, .wo, .dicSet, anyEnc, fullMask⟩]⟩,
   /- DIC_STAT -/ ⟨0x020008, 0x8, 1, never, zeroReset,
    [⟨48, 16, .rw, .dicEvt, anyEnc, fullMask⟩,
     ⟨32, 16, .rw, .dicEvt, anyEnc, fullMask⟩]⟩,
   /- DIC_EDGE -/ ⟨0x020010, 0x8, 1, never, zeroReset,
    [⟨0, 8, .w1c, .ao, anyEnc, fullMask⟩]⟩,
   /- DIC_CLAIM -/ ⟨0x020100, 0x8, 9, fun i => i == 8, zeroReset,
    [⟨63, 1, .ro, .dicEvt, anyEnc, fullMask⟩,
     ⟨62, 1, .ro, .dicEvt, anyEnc, fullMask⟩,
     ⟨16, 4, .ro, .dicEvt, anyEnc, fullMask⟩,
     ⟨0, 12, .ro, .dicEvt, anyEnc, fullMask⟩]⟩,
   /- DIC_COMPLETE -/ ⟨0x020200, 0x8, 9, fun i => i == 8, zeroReset,
    [⟨0, 12, .wo, .dicEvt, anyEnc, fullMask⟩]⟩,
   /- DIC_TGTCFG -/ ⟨0x020300, 0x8, 9, fun i => i == 8, fun _ i => if i = 8 then 0x8000000000000000 else 0,
    [⟨63, 1, .rw, .dicSet, anyEnc, fullMask⟩,
     ⟨1, 1, .ro, .dicEvt, anyEnc, fullMask⟩,
     ⟨0, 1, .ro, .dicEvt, anyEnc, fullMask⟩]⟩,
   /- DIC_GRP -/ ⟨0x020400, 0x8, 64, fun i => decide (i < 8), fun _ i => if i = 0 then 0x8100080000000000 else 0x0000080000000000,
    [⟨63, 1, .rw, .dicSet, anyEnc, fullMask⟩,
     ⟨48, 9, .rw, .dicSet, anyEnc, fullMask⟩,
     ⟨40, 4, .ro, .dicEvt, anyEnc, fullMask⟩,
     ⟨0, 16, .rw, .dicSet, anyEnc, fullMask⟩]⟩,
   /- DIC_WATCH -/ ⟨0x020800, 0x8, 64, never, zeroReset,
    [⟨63, 1, .rw, .ao, anyEnc, fullMask⟩,
     ⟨62, 1, .w1c, .ao, anyEnc, fullMask⟩,
     ⟨0, 12, .rw, .ao, anyEnc, fullMask⟩]⟩,
   /- DIC_SRC -/ ⟨0x028000, 0x8, 4096, fun i => decide (i < 32), fun _ i => if i = 0 then 0xE000000000000000 else if i < 32 then 0xA000000000000000 else 0x100,
    [⟨63, 1, .rw, .dicSet, anyEnc, fullMask⟩,
     ⟨62, 1, .rw, .dicSet, anyEnc, fullMask⟩,
     ⟨61, 1, .ro, .dicSet, anyEnc, fullMask⟩,
     ⟨60, 1, .ro, .dicEvt, anyEnc, fullMask⟩,
     ⟨59, 1, .ro, .dicEvt, anyEnc, fullMask⟩,
     ⟨58, 1, .ro, .dicEvt, anyEnc, fullMask⟩,
     ⟨48, 4, .ro, .dicEvt, anyEnc, fullMask⟩,
     ⟨8, 6, .rw, .dicSet, fun i v => decide (32 ≤ i) || decide (v < 8), fullMask⟩,
     ⟨4, 1, .wo, .dicSet, anyEnc, fullMask⟩,
     ⟨0, 4, .ro, .dicEvt, anyEnc, fullMask⟩]⟩]

/-- The command rings registers (R63 block 0x030000 to 0x03FFFF). -/
def regsCmd : List RegGrp :=
  [/- CMD_CFG -/ ⟨0x030000, 0x40, 8, never, zeroReset,
    [⟨63, 1, .rw, .cmd, anyEnc, fullMask⟩,
     ⟨62, 1, .ro, .cmd, anyEnc, fullMask⟩,
     ⟨60, 2, .rw, .cmd, anyEnc, fullMask⟩,
     ⟨52, 4, .rw, .cmd, fun _i v => v ≤ 8, fullMask⟩,
     ⟨48, 4, .rw, .cmd, fun _i v => v ≤ 8, fullMask⟩,
     ⟨32, 12, .rw, .cmd, fun _i v => v == 0 || 2048 ≤ v, fullMask⟩,
     ⟨0, 7, .ro, .cmd, anyEnc, fullMask⟩]⟩,
   /- CMD_SQBASE -/ ⟨0x030008, 0x40, 8, never, zeroReset,
    [⟨12, 36, .rw, .cmd, anyEnc, fullMask⟩]⟩,
   /- CMD_SQPTR -/ ⟨0x030010, 0x40, 8, never, zeroReset,
    [⟨32, 20, .ro, .cmd, anyEnc, fullMask⟩,
     ⟨0, 20, .rw, .cmd, anyEnc, fullMask⟩]⟩,
   /- CMD_CQBASE -/ ⟨0x030018, 0x40, 8, never, zeroReset,
    [⟨12, 36, .rw, .cmd, anyEnc, fullMask⟩]⟩,
   /- CMD_CQPTR -/ ⟨0x030020, 0x40, 8, never, zeroReset,
    [⟨32, 20, .ro, .cmd, anyEnc, fullMask⟩,
     ⟨0, 20, .rw, .cmd, anyEnc, fullMask⟩]⟩,
   /- CMD_GWCFG -/ ⟨0x030400, 0x8, 1, never, fun _ _ => 0x6400000000,
    [⟨63, 1, .rw, .cmd, anyEnc, fullMask⟩,
     ⟨48, 4, .rw, .cmd, anyEnc, fullMask⟩,
     ⟨32, 16, .rw, .cmd, fun _i v => 0 < v, fullMask⟩]⟩,
   /- CMD_KEYCTL -/ ⟨0x030408, 0x8, 1, never, fun _ _ => 0x1,
    [⟨63, 1, .rwl, .cmd, anyEnc, fullMask⟩,
     ⟨0, 1, .rwl, .cmd, anyEnc, fullMask⟩]⟩,
   /- CMD_MGSTAT -/ ⟨0x030410, 0x8, 1, never, zeroReset,
    [⟨48, 16, .rw, .cmd, anyEnc, fullMask⟩,
     ⟨32, 16, .rw, .cmd, anyEnc, fullMask⟩,
     ⟨16, 16, .rw, .cmd, anyEnc, fullMask⟩,
     ⟨0, 16, .rw, .cmd, anyEnc, fullMask⟩]⟩,
   /- CMD_UST -/ ⟨0x038000, 0x8, 640, never, fun b i => if unitPresent b (i / 64) (i % 64) then 0x102 else 0,
    [⟨48, 8, .ro, .cmd, anyEnc, fullMask⟩,
     ⟨32, 1, .ro, .cmd, anyEnc, fullMask⟩,
     ⟨16, 16, .ro, .cmd, anyEnc, fullMask⟩,
     ⟨8, 4, .ro, .cmd, anyEnc, fullMask⟩,
     ⟨0, 4, .ro, .cmd, anyEnc, fullMask⟩]⟩]

/-- The memory ports, code and scrubber registers (R63 block 0x040000 to 0x07FFFF). -/
def regsMpt : List RegGrp :=
  [/- MPT_CFG -/ ⟨0x040000, 0x1000, 2, never, fun b i => if b == .d && i == 1 then 0x100000B300002 else 0x100000B300003,
    [⟨40, 16, .rw, .mpt, fun _i v => 0 < v, fullMask⟩,
     ⟨32, 3, .rw, .mpt, fun _i v => v ≤ 4, fullMask⟩,
     ⟨24, 6, .rw, .mpt, fun _i v => 11 ≤ v && v ≤ 43, fullMask⟩,
     ⟨16, 8, .rw, .mpt, fun _i v => 8 ≤ v, fullMask⟩,
     ⟨1, 1, .rw, .mpt, anyEnc, fullMask⟩,
     ⟨0, 1, .rw, .mpt, anyEnc, fullMask⟩]⟩,
   /- MPT_STAT -/ ⟨0x040008, 0x1000, 2, never, zeroReset,
    [⟨16, 1, .ro, .mpt, anyEnc, fullMask⟩,
     ⟨8, 6, .ro, .mpt, anyEnc, fullMask⟩,
     ⟨0, 7, .ro, .mpt, anyEnc, fullMask⟩]⟩,
   /- MPT_ERR -/ ⟨0x040010, 0x1000, 2, never, zeroReset,
    [⟨63, 1, .w1c, .mpt, anyEnc, fullMask⟩,
     ⟨62, 1, .ro, .mpt, anyEnc, fullMask⟩,
     ⟨52, 4, .ro, .mpt, anyEnc, fullMask⟩,
     ⟨42, 6, .ro, .mpt, anyEnc, fullMask⟩,
     ⟨0, 42, .ro, .mpt, anyEnc, fullMask⟩]⟩,
   /- MPT_DEVCNT -/ ⟨0x040040, 0x8, 10, never, zeroReset,
    [⟨0, 32, .rw, .mpt, anyEnc, fullMask⟩]⟩,
   /- MPT_CWIN -/ ⟨0x040100, 0x8, 8, never, zeroReset,
    [⟨63, 1, .rw, .mpt, anyEnc, fullMask⟩,
     ⟨32, 28, .rw, .mpt, anyEnc, fullMask⟩,
     ⟨0, 28, .rw, .mpt, anyEnc, fullMask⟩]⟩,
   /- MPT_DEVCNT -/ ⟨0x041040, 0x8, 10, never, zeroReset,
    [⟨0, 32, .rw, .mpt, anyEnc, fullMask⟩]⟩,
   /- MPT_CWIN -/ ⟨0x041100, 0x8, 8, never, zeroReset,
    [⟨63, 1, .rw, .mpt, anyEnc, fullMask⟩,
     ⟨32, 28, .rw, .mpt, anyEnc, fullMask⟩,
     ⟨0, 28, .rw, .mpt, anyEnc, fullMask⟩]⟩,
   /- HB_COLL -/ ⟨0x048000, 0x8, 1, never, zeroReset,
    [⟨63, 1, .w1c, .scrubSum, anyEnc, fullMask⟩,
     ⟨62, 1, .ro, .scrubSum, anyEnc, fullMask⟩,
     ⟨48, 8, .ro, .scrubSum, anyEnc, fullMask⟩,
     ⟨0, 18, .ro, .scrubSum, anyEnc, 0x3fff8⟩]⟩,
   /- SCRUB_ERR -/ ⟨0x048008, 0x8, 1, never, zeroReset,
    [⟨63, 1, .w1c, .scrubSum, anyEnc, fullMask⟩,
     ⟨62, 1, .ro, .scrubSum, anyEnc, fullMask⟩,
     ⟨61, 1, .ro, .scrubSum, anyEnc, fullMask⟩,
     ⟨48, 8, .ro, .scrubSum, anyEnc, fullMask⟩,
     ⟨0, 23, .ro, .scrubSum, anyEnc, 0x7ffff8⟩]⟩,
   /- SCRUB_CCNT -/ ⟨0x048010, 0x8, 1, never, zeroReset,
    [⟨32, 32, .rw, .scrubSum, anyEnc, fullMask⟩,
     ⟨0, 32, .rw, .scrubSum, anyEnc, fullMask⟩]⟩,
   /- SCRUB_INJ -/ ⟨0x048018, 0x8, 1, never, zeroReset,
    [⟨63, 1, .rw, .mpt, anyEnc, fullMask⟩,
     ⟨56, 4, .rw, .mpt, fun _i v => v ≤ 9, fullMask⟩,
     ⟨52, 4, .rw, .mpt, fun _i v => 1 ≤ v && v ≤ 8, fullMask⟩,
     ⟨32, 13, .rw, .mpt, anyEnc, fullMask⟩,
     ⟨0, 2, .rw, .mpt, anyEnc, fullMask⟩]⟩,
   /- SCRUB_OWN -/ ⟨0x048100, 0x8, 64, always, zeroReset,
    [⟨0, 8, .rw, .mpt, fun _i v => ownerCodeOk v, fullMask⟩]⟩,
   /- SCRUB_SUM -/ ⟨0x04C000, 0x8, 36, never, zeroReset,
    [⟨0, 64, .ro, .scrubSum, anyEnc, fullMask⟩]⟩,
   /- SCRUB_SUM -/ ⟨0x04C200, 0x8, 36, never, zeroReset,
    [⟨0, 64, .ro, .scrubSum, anyEnc, fullMask⟩]⟩,
   /- SCRUB_SUM -/ ⟨0x04C400, 0x8, 36, never, zeroReset,
    [⟨0, 64, .ro, .scrubSum, anyEnc, fullMask⟩]⟩,
   /- SCRUB_SUM -/ ⟨0x04C600, 0x8, 36, never, zeroReset,
    [⟨0, 64, .ro, .scrubSum, anyEnc, fullMask⟩]⟩]

/-- The sequencers registers (R63 block 0x080000 to 0x083FFF). -/
def regsSeq : List RegGrp :=
  [/- SQ_STAT -/ ⟨0x080000, 0x100, 1, never, fun _ _ => 0x1,
    [⟨32, 4, .ro, .seqState, anyEnc, fullMask⟩,
     ⟨16, 14, .ro, .seqState, anyEnc, fullMask⟩,
     ⟨11, 1, .ro, .cvalid, anyEnc, fullMask⟩,
     ⟨10, 1, .w1c, .seqState, anyEnc, fullMask⟩,
     ⟨9, 1, .w1c, .seqState, anyEnc, fullMask⟩,
     ⟨8, 1, .ro, .cvalid, anyEnc, fullMask⟩,
     ⟨0, 3, .ro, .seqState, anyEnc, fullMask⟩]⟩,
   /- SQ_CTL -/ ⟨0x080008, 0x100, 1, always, fun _ _ => 0x10000000000000,
    [⟨63, 1, .wo, .seqState, anyEnc, fullMask⟩,
     ⟨62, 1, .wo, .seqState, anyEnc, fullMask⟩,
     ⟨61, 1, .wo, .seqState, anyEnc, fullMask⟩,
     ⟨60, 1, .rw, .seqState, anyEnc, fullMask⟩,
     ⟨32, 24, .rw, .seqSet, anyEnc, fullMask⟩,
     ⟨0, 14, .rw, .seqSet, anyEnc, fullMask⟩]⟩,
   /- SQ_MCINFO -/ ⟨0x080010, 0x100, 1, never, zeroReset,
    [⟨56, 8, .ro, .seqState, anyEnc, fullMask⟩,
     ⟨48, 8, .ro, .seqState, anyEnc, fullMask⟩,
     ⟨16, 14, .ro, .seqState, anyEnc, fullMask⟩]⟩,
   /- SQ_CRC -/ ⟨0x080018, 0x100, 1, never, zeroReset,
    [⟨32, 32, .ro, .cstore, anyEnc, fullMask⟩,
     ⟨0, 32, .ro, .cstore, anyEnc, fullMask⟩]⟩,
   /- CSQ_PATCH -/ ⟨0x080100, 0x8, 16, never, zeroReset,
    [⟨63, 1, .rwl, .seqSet, anyEnc, fullMask⟩,
     ⟨16, 14, .rwl, .seqSet, fun _i v => 0x2000 ≤ v && v ≤ 0x37FF, fullMask⟩,
     ⟨0, 13, .rwl, .seqSet, anyEnc, fullMask⟩]⟩,
   /- SQ_STAT -/ ⟨0x081000, 0x100, 16, never, zeroReset,
    [⟨32, 4, .ro, .seqState, anyEnc, fullMask⟩,
     ⟨16, 14, .ro, .seqState, anyEnc, fullMask⟩,
     ⟨11, 1, .ro, .cvalid, anyEnc, fullMask⟩,
     ⟨10, 1, .w1c, .seqState, anyEnc, fullMask⟩,
     ⟨9, 1, .w1c, .seqState, anyEnc, fullMask⟩,
     ⟨8, 1, .ro, .cvalid, anyEnc, fullMask⟩,
     ⟨0, 3, .ro, .seqState, anyEnc, fullMask⟩]⟩,
   /- SQ_CTL -/ ⟨0x081008, 0x100, 16, always, fun _ _ => 0x10000000000000,
    [⟨63, 1, .wo, .seqState, anyEnc, fullMask⟩,
     ⟨62, 1, .wo, .seqState, anyEnc, fullMask⟩,
     ⟨61, 1, .wo, .seqState, anyEnc, fullMask⟩,
     ⟨60, 1, .rw, .seqState, anyEnc, fullMask⟩,
     ⟨32, 24, .rw, .seqSet, anyEnc, fullMask⟩,
     ⟨0, 14, .rw, .seqSet, anyEnc, fullMask⟩]⟩,
   /- SQ_MCINFO -/ ⟨0x081010, 0x100, 16, never, zeroReset,
    [⟨56, 8, .ro, .seqState, anyEnc, fullMask⟩,
     ⟨48, 8, .ro, .seqState, anyEnc, fullMask⟩,
     ⟨16, 14, .ro, .seqState, anyEnc, fullMask⟩]⟩,
   /- SQ_CRC -/ ⟨0x081018, 0x100, 16, never, zeroReset,
    [⟨32, 32, .ro, .cstore, anyEnc, fullMask⟩,
     ⟨0, 32, .ro, .cstore, anyEnc, fullMask⟩]⟩,
   /- SQ_STAT -/ ⟨0x082000, 0x100, 2, never, zeroReset,
    [⟨32, 4, .ro, .seqState, anyEnc, fullMask⟩,
     ⟨16, 14, .ro, .seqState, anyEnc, fullMask⟩,
     ⟨11, 1, .ro, .cvalid, anyEnc, fullMask⟩,
     ⟨10, 1, .w1c, .seqState, anyEnc, fullMask⟩,
     ⟨9, 1, .w1c, .seqState, anyEnc, fullMask⟩,
     ⟨8, 1, .ro, .cvalid, anyEnc, fullMask⟩,
     ⟨0, 3, .ro, .seqState, anyEnc, fullMask⟩]⟩,
   /- SQ_CTL -/ ⟨0x082008, 0x100, 2, always, fun _ _ => 0x10000000000000,
    [⟨63, 1, .wo, .seqState, anyEnc, fullMask⟩,
     ⟨62, 1, .wo, .seqState, anyEnc, fullMask⟩,
     ⟨61, 1, .wo, .seqState, anyEnc, fullMask⟩,
     ⟨60, 1, .rw, .seqState, anyEnc, fullMask⟩,
     ⟨32, 24, .rw, .seqSet, anyEnc, fullMask⟩,
     ⟨0, 14, .rw, .seqSet, anyEnc, fullMask⟩]⟩,
   /- SQ_MCINFO -/ ⟨0x082010, 0x100, 2, never, zeroReset,
    [⟨56, 8, .ro, .seqState, anyEnc, fullMask⟩,
     ⟨48, 8, .ro, .seqState, anyEnc, fullMask⟩,
     ⟨16, 14, .ro, .seqState, anyEnc, fullMask⟩]⟩,
   /- SQ_CRC -/ ⟨0x082018, 0x100, 2, never, zeroReset,
    [⟨32, 32, .ro, .cstore, anyEnc, fullMask⟩,
     ⟨0, 32, .ro, .cstore, anyEnc, fullMask⟩]⟩,
   /- SYN -/ ⟨0x083000, 0x8, 8, never, zeroReset,
    [⟨32, 19, .rw, .seqSet, anyEnc, fullMask⟩,
     ⟨31, 1, .w1c, .seqState, anyEnc, fullMask⟩,
     ⟨8, 19, .ro, .seqState, anyEnc, fullMask⟩,
     ⟨0, 8, .rw, .seqState, anyEnc, fullMask⟩]⟩,
   /- SEQ_UWSEL -/ ⟨0x083100, 0x8, 1, never, zeroReset,
    [⟨16, 5, .rw, .seqSet, fun _i v => v ≤ 18, fullMask⟩,
     ⟨0, 14, .rw, .seqSet, anyEnc, fullMask⟩]⟩,
   /- SEQ_UWD0 -/ ⟨0x083108, 0x8, 1, never, zeroReset,
    [⟨0, 64, .ro, .seqState, anyEnc, fullMask⟩]⟩,
   /- SEQ_UWD1 -/ ⟨0x083110, 0x8, 1, never, zeroReset,
    [⟨0, 64, .ro, .seqState, anyEnc, fullMask⟩]⟩,
   /- SEQ_UWD2 -/ ⟨0x083118, 0x8, 1, never, zeroReset,
    [⟨48, 8, .ro, .seqState, anyEnc, fullMask⟩,
     ⟨0, 48, .ro, .seqState, anyEnc, fullMask⟩]⟩,
   /- SEQ_CFG -/ ⟨0x083120, 0x8, 1, never, zeroReset,
    [⟨63, 1, .rwl, .seqSet, anyEnc, fullMask⟩,
     ⟨0, 1, .rwl, .seqSet, anyEnc, fullMask⟩]⟩]

/-- The command core registers (R63 block 0x084000 to 0x0FFFFF). -/
def regsCc : List RegGrp :=
  [/- CC_STAT -/ ⟨0x084000, 0x8, 1, always, fun _ _ => 0x42,
    [⟨15, 1, .w1c, .cc, anyEnc, fullMask⟩,
     ⟨14, 1, .w1c, .cc, anyEnc, fullMask⟩,
     ⟨13, 1, .ro, .cc, anyEnc, fullMask⟩,
     ⟨12, 1, .ro, .cc, anyEnc, fullMask⟩,
     ⟨0, 12, .ro, .cc, anyEnc, fullMask⟩]⟩,
   /- CC_VBASE -/ ⟨0x084008, 0x8, 1, always, fun _ _ => 0x100FE00,
    [⟨0, 32, .rw, .cc, fun _i v => vbaseOk v, 0xfffffe00⟩]⟩,
   /- CC_TSBP -/ ⟨0x084010, 0x8, 1, always, fun _ _ => 0x640000,
    [⟨0, 32, .rw, .cc, fun _i v => 0x00600000 ≤ v / 8 * 8 && v / 8 * 8 ≤ 0x00640000, 0xfffffff8⟩]⟩,
   /- CC_TSBLIM -/ ⟨0x084018, 0x8, 1, always, fun _ _ => 0x64000000620000,
    [⟨32, 32, .rw, .cc, fun _i v => 0x00600000 ≤ v / 8 * 8 && v / 8 * 8 ≤ 0x00640000, 0xfffffff8⟩,
     ⟨0, 32, .rw, .cc, fun _i v => 0x00600000 ≤ v / 8 * 8 && v / 8 * 8 ≤ 0x0063FFF8, 0xfffffff8⟩]⟩,
   /- CC_MCTSB -/ ⟨0x084020, 0x8, 1, always, fun _ _ => 0x61FF60,
    [⟨0, 32, .rw, .cc, fun _i v => 0x00600000 ≤ v / 8 * 8 && v / 8 * 8 ≤ 0x0063FF60, 0xfffffff8⟩]⟩,
   /- CC_CFG -/ ⟨0x084028, 0x8, 1, always, fun _ _ => 0x100,
    [⟨0, 12, .rw, .cc, fun _i v => 16 ≤ v, fullMask⟩]⟩,
   /- CC_TWIN -/ ⟨0x084040, 0x8, 4, always, zeroReset,
    [⟨44, 20, .rw, .cc, anyEnc, fullMask⟩,
     ⟨34, 1, .rw, .cc, anyEnc, fullMask⟩,
     ⟨33, 1, .rw, .cc, anyEnc, fullMask⟩,
     ⟨32, 1, .rw, .cc, anyEnc, fullMask⟩,
     ⟨12, 20, .rw, .cc, anyEnc, fullMask⟩]⟩,
   /- CC_CX -/ ⟨0x085000, 0x8, 64, always, zeroReset,
    [⟨63, 1, .ro, .cstore, anyEnc, fullMask⟩,
     ⟨48, 2, .ro, .cstore, anyEnc, fullMask⟩,
     ⟨0, 14, .ro, .cstore, anyEnc, fullMask⟩]⟩]

/-- The slice engines, feeds and playout registers (R63 block 0x100000 to 0x1FFFFF). -/
def regsSe : List RegGrp :=
  [/- SEN_CTL -/ ⟨0x100000, 0x1000, 16, always, zeroReset,
    [⟨0, 1, .rw, .se, anyEnc, fullMask⟩]⟩,
   /- SEN_STAT -/ ⟨0x100008, 0x1000, 16, never, zeroReset,
    [⟨32, 1, .ro, .se, anyEnc, fullMask⟩,
     ⟨16, 12, .ro, .se, anyEnc, fullMask⟩,
     ⟨10, 6, .ro, .se, anyEnc, fullMask⟩,
     ⟨5, 5, .ro, .se, anyEnc, fullMask⟩,
     ⟨0, 5, .ro, .se, anyEnc, fullMask⟩]⟩,
   /- SEN_CNT -/ ⟨0x100010, 0x1000, 16, never, zeroReset,
    [⟨32, 32, .rw, .se, anyEnc, fullMask⟩,
     ⟨0, 32, .rw, .se, anyEnc, fullMask⟩]⟩,
   /- SE_BANDCFG -/ ⟨0x110000, 0x8, 1, never, fun _ _ => 0x1388000000000,
    [⟨32, 24, .rw, .se, fun _i v => 1000 ≤ v, fullMask⟩,
     ⟨0, 24, .rw, .se, anyEnc, fullMask⟩]⟩,
   /- SE_BGCOL -/ ⟨0x110008, 0x8, 1, never, zeroReset,
    [⟨24, 12, .rw, .se, anyEnc, fullMask⟩,
     ⟨12, 12, .rw, .se, anyEnc, fullMask⟩,
     ⟨0, 12, .rw, .se, anyEnc, fullMask⟩]⟩,
   /- SE_RFCFG -/ ⟨0x110010, 0x8, 1, never, fun _ _ => 0x104,
    [⟨8, 1, .rw, .se, anyEnc, fullMask⟩,
     ⟨0, 8, .rw, .se, anyEnc, fullMask⟩]⟩,
   /- SE_SPMCFG -/ ⟨0x110018, 0x8, 1, always, zeroReset,
    [⟨48, 9, .rw, .se, fun _i v => v ≤ 256, fullMask⟩,
     ⟨32, 13, .rw, .se, anyEnc, fullMask⟩,
     ⟨16, 13, .rw, .se, anyEnc, fullMask⟩,
     ⟨0, 6, .rw, .se, anyEnc, fullMask⟩]⟩,
   /- SE_WCFG -/ ⟨0x110100, 0x8, 64, always, zeroReset,
    [⟨63, 1, .rw, .se, anyEnc, fullMask⟩,
     ⟨42, 10, .rw, .se, anyEnc, fullMask⟩,
     ⟨36, 3, .rw, .se, anyEnc, fullMask⟩,
     ⟨30, 6, .rw, .se, anyEnc, fullMask⟩,
     ⟨24, 6, .rw, .se, anyEnc, fullMask⟩,
     ⟨18, 6, .rw, .se, anyEnc, fullMask⟩,
     ⟨12, 6, .rw, .se, anyEnc, fullMask⟩]⟩,
   /- SE_WREF -/ ⟨0x110400, 0x8, 64, always, zeroReset,
    [⟨63, 1, .rw, .se, anyEnc, fullMask⟩,
     ⟨12, 36, .rw, .se, anyEnc, fullMask⟩,
     ⟨0, 1, .ro, .se, anyEnc, fullMask⟩]⟩,
   /- SE_WSTAT -/ ⟨0x110800, 0x8, 64, never, zeroReset,
    [⟨32, 32, .ro, .se, anyEnc, fullMask⟩,
     ⟨31, 1, .ro, .se, anyEnc, fullMask⟩,
     ⟨30, 1, .ro, .se, anyEnc, fullMask⟩,
     ⟨16, 8, .ro, .se, anyEnc, fullMask⟩,
     ⟨0, 11, .ro, .se, anyEnc, fullMask⟩]⟩,
   /- SE_WERR -/ ⟨0x110C00, 0x8, 64, never, zeroReset,
    [⟨48, 16, .rw, .se, anyEnc, fullMask⟩,
     ⟨32, 16, .rw, .se, anyEnc, fullMask⟩,
     ⟨24, 8, .rw, .se, anyEnc, fullMask⟩,
     ⟨16, 8, .rw, .se, anyEnc, fullMask⟩,
     ⟨0, 16, .rw, .se, anyEnc, fullMask⟩]⟩,
   /- FEED_CFG -/ ⟨0x120000, 0x40, 16, never, fun _ _ => 0x200840,
    [⟨63, 1, .rw, .se, anyEnc, fullMask⟩,
     ⟨62, 1, .ro, .se, anyEnc, fullMask⟩,
     ⟨50, 10, .rw, .se, anyEnc, fullMask⟩,
     ⟨32, 16, .rw, .se, anyEnc, fullMask⟩,
     ⟨24, 8, .rw, .se, anyEnc, fullMask⟩,
     ⟨16, 6, .rw, .se, fun _i v => 1 ≤ v && v ≤ 32, fullMask⟩,
     ⟨8, 6, .rw, .se, fun _i v => 1 ≤ v && v ≤ 32, fullMask⟩,
     ⟨0, 7, .rw, .se, fun _i v => 1 ≤ v && v ≤ 64, fullMask⟩]⟩,
   /- FEED_SRC -/ ⟨0x120008, 0x40, 16, never, fun _ _ => 0x400000000000000,
    [⟨61, 3, .rw, .se, fun _i v => v ≤ 3, fullMask⟩,
     ⟨58, 3, .rw, .se, fun _i v => 1 ≤ v, fullMask⟩,
     ⟨6, 42, .rw, .se, anyEnc, fullMask⟩]⟩,
   /- FEED_GEOM -/ ⟨0x120010, 0x40, 16, never, zeroReset,
    [⟨45, 15, .rw, .se, anyEnc, fullMask⟩,
     ⟨30, 15, .rw, .se, anyEnc, fullMask⟩,
     ⟨15, 15, .rw, .se, anyEnc, fullMask⟩,
     ⟨0, 15, .rw, .se, anyEnc, fullMask⟩]⟩,
   /- FEED_PITCH -/ ⟨0x120018, 0x40, 16, never, zeroReset,
    [⟨32, 32, .rw, .se, anyEnc, fullMask⟩,
     ⟨0, 32, .rw, .se, anyEnc, 0xffffffc0⟩]⟩,
   /- FEED_REF -/ ⟨0x120020, 0x40, 16, never, zeroReset,
    [⟨63, 1, .rw, .se, anyEnc, fullMask⟩,
     ⟨12, 36, .rw, .se, anyEnc, fullMask⟩,
     ⟨0, 1, .ro, .se, anyEnc, fullMask⟩]⟩,
   /- FEED_RC -/ ⟨0x120028, 0x40, 16, never, fun _ _ => 0x33042000008040,
    [⟨48, 6, .rw, .se, anyEnc, fullMask⟩,
     ⟨40, 6, .rw, .se, anyEnc, fullMask⟩,
     ⟨32, 6, .rw, .se, anyEnc, fullMask⟩,
     ⟨8, 8, .rw, .se, fun _i v => v % 8 == 0 && 8 ≤ v && v ≤ 128, fullMask⟩,
     ⟨0, 8, .rw, .se, fun _i v => v % 8 == 0 && 8 ≤ v && v ≤ 64, fullMask⟩]⟩,
   /- FEED_POST -/ ⟨0x120030, 0x40, 16, never, zeroReset,
    [⟨0, 3, .wo, .se, anyEnc, fullMask⟩]⟩,
   /- FEED_STAT -/ ⟨0x120038, 0x40, 16, never, zeroReset,
    [⟨56, 8, .ro, .se, anyEnc, fullMask⟩,
     ⟨52, 4, .ro, .se, anyEnc, fullMask⟩,
     ⟨49, 1, .w1c, .se, anyEnc, fullMask⟩,
     ⟨48, 1, .w1c, .se, anyEnc, fullMask⟩,
     ⟨32, 16, .rw, .se, anyEnc, fullMask⟩,
     ⟨24, 8, .rw, .se, anyEnc, fullMask⟩,
     ⟨16, 8, .rw, .se, anyEnc, fullMask⟩,
     ⟨0, 6, .ro, .se, anyEnc, fullMask⟩]⟩,
   /- PLY_CAT -/ ⟨0x130000, 0x8, 1, never, zeroReset,
    [⟨63, 1, .rw, .se, anyEnc, fullMask⟩,
     ⟨62, 1, .wo, .se, anyEnc, fullMask⟩,
     ⟨21, 27, .rw, .se, anyEnc, fullMask⟩]⟩,
   /- PLY_STAT -/ ⟨0x130100, 0x8, 16, never, zeroReset,
    [⟨62, 2, .ro, .se, anyEnc, fullMask⟩,
     ⟨61, 1, .ro, .se, anyEnc, fullMask⟩,
     ⟨32, 16, .ro, .se, anyEnc, fullMask⟩,
     ⟨0, 32, .ro, .se, anyEnc, fullMask⟩]⟩,
   /- PLY_ERR -/ ⟨0x130200, 0x8, 16, never, zeroReset,
    [⟨48, 16, .rw, .se, anyEnc, fullMask⟩,
     ⟨32, 16, .rw, .se, anyEnc, fullMask⟩]⟩]

/-- The light path and Lamp Link registers (R63 block 0x200000 to 0x27FFFF). -/
def regsLp : List RegGrp :=
  [/- LP_CFG -/ ⟨0x200000, 0x8, 1, never, fun _ _ => 0x80000000000A0501,
    [⟨63, 1, .rw, .lp, anyEnc, fullMask⟩,
     ⟨16, 8, .rw, .lp, anyEnc, fullMask⟩,
     ⟨8, 3, .rw, .lp, fun _i v => v ≤ 6, fullMask⟩,
     ⟨0, 1, .rw, .lp, anyEnc, fullMask⟩]⟩,
   /- LP_TIME -/ ⟨0x200008, 0x8, 1, never, fun _ _ => 0x6400100010,
    [⟨32, 16, .rw, .lp, fun _i v => 8 ≤ v && v ≤ 4000, fullMask⟩,
     ⟨16, 8, .rw, .lp, anyEnc, fullMask⟩,
     ⟨0, 7, .rw, .lp, fun _i v => v ≤ 64, fullMask⟩]⟩,
   /- LP_CALBASE -/ ⟨0x200010, 0x8, 1, never, zeroReset,
    [⟨63, 1, .rw, .lp, anyEnc, fullMask⟩,
     ⟨16, 32, .rw, .lp, anyEnc, fullMask⟩]⟩,
   /- LP_PAT -/ ⟨0x200018, 0x8, 1, never, fun _ _ => 0x101000000,
    [⟨48, 8, .rw, .lp, anyEnc, fullMask⟩,
     ⟨40, 8, .rw, .lp, anyEnc, fullMask⟩,
     ⟨32, 8, .rw, .lp, fun _i v => 1 ≤ v, fullMask⟩,
     ⟨24, 8, .rw, .lp, fun _i v => 1 ≤ v, fullMask⟩,
     ⟨3, 1, .rw, .lp, anyEnc, fullMask⟩,
     ⟨0, 3, .rw, .lp, fun _i v => v ≤ 4, fullMask⟩]⟩,
   /- LP_PATLVL -/ ⟨0x200020, 0x8, 1, never, zeroReset,
    [⟨24, 12, .rw, .lp, anyEnc, fullMask⟩,
     ⟨12, 12, .rw, .lp, anyEnc, fullMask⟩,
     ⟨0, 12, .rw, .lp, anyEnc, fullMask⟩]⟩,
   /- LP_STAT -/ ⟨0x200028, 0x8, 1, never, zeroReset,
    [⟨40, 1, .ro, .lp, anyEnc, fullMask⟩,
     ⟨32, 8, .ro, .lp, anyEnc, fullMask⟩]⟩,
   /- LP_CUT -/ ⟨0x200030, 0x8, 1, never, fun _ _ => 0x3FF,
    [⟨0, 10, .ro, .baState, anyEnc, fullMask⟩]⟩,
   /- LP_FLT -/ ⟨0x200038, 0x8, 1, never, zeroReset,
    [⟨63, 1, .w1c, .lp, anyEnc, fullMask⟩,
     ⟨62, 1, .ro, .lp, anyEnc, fullMask⟩,
     ⟨56, 2, .ro, .lp, anyEnc, fullMask⟩,
     ⟨48, 8, .ro, .lp, anyEnc, fullMask⟩,
     ⟨0, 16, .ro, .lp, anyEnc, fullMask⟩]⟩,
   /- LP_MOD_GEOM -/ ⟨0x201000, 0x40, 64, never, zeroReset,
    [⟨63, 1, .rw, .lp, anyEnc, fullMask⟩,
     ⟨62, 1, .ro, .lp, anyEnc, fullMask⟩,
     ⟨61, 1, .ro, .lp, anyEnc, fullMask⟩,
     ⟨60, 1, .rw, .lp, anyEnc, fullMask⟩,
     ⟨59, 1, .rw, .lp, anyEnc, fullMask⟩,
     ⟨49, 10, .ro, .lp, anyEnc, fullMask⟩,
     ⟨38, 11, .rw, .lp, anyEnc, fullMask⟩,
     ⟨27, 11, .rw, .lp, anyEnc, fullMask⟩,
     ⟨17, 10, .rw, .lp, anyEnc, fullMask⟩,
     ⟨7, 10, .rw, .lp, anyEnc, fullMask⟩]⟩,
   /- LP_MOD_CM0 -/ ⟨0x201008, 0x40, 64, never, zeroReset,
    [⟨48, 16, .ro, .lp, anyEnc, fullMask⟩,
     ⟨32, 16, .ro, .lp, anyEnc, fullMask⟩,
     ⟨16, 16, .ro, .lp, anyEnc, fullMask⟩,
     ⟨0, 16, .ro, .lp, anyEnc, fullMask⟩]⟩,
   /- LP_MOD_CM1 -/ ⟨0x201010, 0x40, 64, never, zeroReset,
    [⟨48, 16, .ro, .lp, anyEnc, fullMask⟩,
     ⟨32, 16, .ro, .lp, anyEnc, fullMask⟩,
     ⟨16, 16, .ro, .lp, anyEnc, fullMask⟩,
     ⟨0, 16, .ro, .lp, anyEnc, fullMask⟩]⟩,
   /- LP_MOD_CM2 -/ ⟨0x201018, 0x40, 64, never, fun _ _ => 0x3FFFFFFFFFF0000,
    [⟨48, 10, .ro, .lp, anyEnc, fullMask⟩,
     ⟨38, 10, .ro, .lp, anyEnc, fullMask⟩,
     ⟨28, 10, .ro, .lp, anyEnc, fullMask⟩,
     ⟨16, 12, .ro, .lp, anyEnc, fullMask⟩,
     ⟨0, 16, .ro, .lp, anyEnc, fullMask⟩]⟩,
   /- LP_MOD_SCL -/ ⟨0x201020, 0x40, 64, never, fun _ _ => 0x8000,
    [⟨0, 16, .ro, .baState, anyEnc, fullMask⟩]⟩,
   /- LP_MOD_CSUM0 -/ ⟨0x201028, 0x40, 64, never, zeroReset,
    [⟨32, 32, .ro, .lp, anyEnc, fullMask⟩,
     ⟨0, 32, .ro, .lp, anyEnc, fullMask⟩]⟩,
   /- LP_MOD_CSUM1 -/ ⟨0x201030, 0x40, 64, never, zeroReset,
    [⟨48, 16, .ro, .lp, anyEnc, fullMask⟩,
     ⟨0, 32, .ro, .lp, anyEnc, fullMask⟩]⟩,
   /- LP_MOD_UID -/ ⟨0x201038, 0x40, 64, never, zeroReset,
    [⟨0, 64, .rw, .lp, anyEnc, fullMask⟩]⟩,
   /- ZLL_STAT -/ ⟨0x202000, 0x20, 64, never, fun _ _ => 0xFF000000000000,
    [⟨63, 1, .ro, .train, anyEnc, fullMask⟩,
     ⟨62, 1, .ro, .train, anyEnc, fullMask⟩,
     ⟨61, 1, .ro, .lp, anyEnc, fullMask⟩,
     ⟨60, 1, .ro, .lp, anyEnc, fullMask⟩,
     ⟨48, 8, .ro, .train, anyEnc, fullMask⟩,
     ⟨32, 4, .ro, .lp, anyEnc, fullMask⟩,
     ⟨16, 11, .ro, .train, anyEnc, fullMask⟩,
     ⟨0, 3, .ro, .lp, anyEnc, fullMask⟩]⟩,
   /- ZLL_CNT -/ ⟨0x202008, 0x20, 64, never, zeroReset,
    [⟨48, 16, .rw, .lp, anyEnc, fullMask⟩,
     ⟨32, 16, .rw, .lp, anyEnc, fullMask⟩,
     ⟨16, 16, .rw, .lp, anyEnc, fullMask⟩,
     ⟨0, 16, .rw, .lp, anyEnc, fullMask⟩]⟩,
   /- ZLL_RT -/ ⟨0x202800, 0x8, 8, never, zeroReset,
    [⟨63, 1, .ro, .lp, anyEnc, fullMask⟩,
     ⟨62, 1, .ro, .lp, anyEnc, fullMask⟩,
     ⟨32, 16, .rw, .lp, anyEnc, fullMask⟩,
     ⟨16, 16, .rw, .lp, anyEnc, fullMask⟩,
     ⟨0, 16, .rw, .lp, anyEnc, fullMask⟩]⟩,
   /- GCLK_CTL -/ ⟨0x202900, 0x8, 1, never, fun _ _ => 0xFFFF,
    [⟨0, 16, .rw, .pu, anyEnc, fullMask⟩]⟩]

/-- The pulse units and trips registers (R63 block 0x280000 to 0x2BFFFF). -/
def regsPu : List RegGrp :=
  [/- PU_CFG -/ ⟨0x280000, 0x40, 64, never, fun _ _ => 0x10000000000008,
    [⟨63, 1, .rw, .pu, anyEnc, fullMask⟩,
     ⟨62, 1, .rw, .pu, anyEnc, fullMask⟩,
     ⟨48, 8, .rw, .pu, anyEnc, fullMask⟩,
     ⟨32, 16, .rw, .pu, anyEnc, fullMask⟩,
     ⟨16, 8, .rw, .pu, anyEnc, fullMask⟩,
     ⟨0, 8, .rw, .pu, anyEnc, fullMask⟩]⟩,
   /- PU_PER -/ ⟨0x280008, 0x40, 64, never, fun _ _ => 0x4000400,
    [⟨63, 1, .wo, .pu, anyEnc, fullMask⟩,
     ⟨32, 17, .rw, .pu, anyEnc, fullMask⟩,
     ⟨16, 16, .ro, .pu, anyEnc, fullMask⟩,
     ⟨0, 16, .rw, .pu, fun _i v => 1 ≤ v, fullMask⟩]⟩,
   /- PU_DUTY -/ ⟨0x280010, 0x40, 64, never, zeroReset,
    [⟨32, 16, .rw, .pu, anyEnc, fullMask⟩,
     ⟨0, 16, .rw, .pu, anyEnc, fullMask⟩]⟩,
   /- PU_FORCE -/ ⟨0x280018, 0x40, 64, never, zeroReset,
    [⟨2, 2, .rw, .pu, fun _i v => v ≤ 2, fullMask⟩,
     ⟨0, 2, .rw, .pu, fun _i v => v ≤ 2, fullMask⟩]⟩,
   /- PU_STAT -/ ⟨0x280020, 0x40, 64, never, fun _ _ => 0x100,
    [⟨16, 16, .ro, .pu, anyEnc, fullMask⟩,
     ⟨8, 1, .ro, .pu, anyEnc, fullMask⟩,
     ⟨7, 1, .ro, .pu, anyEnc, fullMask⟩,
     ⟨6, 1, .w1c, .pu, anyEnc, fullMask⟩,
     ⟨5, 1, .w1c, .pu, anyEnc, fullMask⟩,
     ⟨4, 1, .w1c, .pu, anyEnc, fullMask⟩,
     ⟨2, 1, .w1c, .pu, anyEnc, fullMask⟩,
     ⟨1, 1, .w1c, .pu, anyEnc, fullMask⟩]⟩,
   /- PU_SYNC -/ ⟨0x281000, 0x8, 1, never, zeroReset,
    [⟨0, 64, .wo, .pu, anyEnc, fullMask⟩]⟩,
   /- TRIP_CFG -/ ⟨0x2A0000, 0x8, 32, never, fun _ _ => 0x8000000000000000,
    [⟨63, 1, .rwl, .trip, anyEnc, fullMask⟩,
     ⟨62, 1, .rwl, .trip, anyEnc, fullMask⟩,
     ⟨48, 8, .rwl, .trip, fun _i v => blkSrcOk v, fullMask⟩,
     ⟨32, 8, .rwl, .trip, anyEnc, fullMask⟩]⟩,
   /- TRIP_MAP -/ ⟨0x2A0100, 0x8, 32, never, fun _ _ => 0xFFFFFFFFFFFFFFFF,
    [⟨0, 64, .rwl, .trip, anyEnc, fullMask⟩]⟩,
   /- TRIP_LATCH -/ ⟨0x2A0200, 0x8, 1, never, zeroReset,
    [⟨32, 1, .w1c, .trip, anyEnc, fullMask⟩,
     ⟨0, 32, .w1c, .trip, anyEnc, fullMask⟩]⟩,
   /- TRIP_SW -/ ⟨0x2A0208, 0x8, 1, never, zeroReset,
    [⟨0, 1, .wo, .trip, anyEnc, fullMask⟩]⟩,
   /- TRIP_LOCK -/ ⟨0x2A0210, 0x8, 1, never, zeroReset,
    [⟨63, 1, .rwl, .trip, anyEnc, fullMask⟩]⟩]

/-- The timers registers (R63 block 0x2C0000 to 0x2FFFFF). -/
def regsTmr : List RegGrp :=
  [/- TMR_CFG -/ ⟨0x2C0000, 0x80, 32, never, zeroReset,
    [⟨24, 8, .rw, .tmr, fun _i v => cselOk v, fullMask⟩,
     ⟨22, 2, .rw, .tmr, fun _i v => v ≤ 2, fullMask⟩,
     ⟨21, 1, .rw, .tmr, anyEnc, fullMask⟩,
     ⟨16, 3, .rw, .tmr, fun _i v => v ≤ 4, fullMask⟩,
     ⟨13, 3, .rw, .tmr, anyEnc, fullMask⟩,
     ⟨8, 4, .rw, .tmr, anyEnc, fullMask⟩,
     ⟨4, 4, .rw, .tmr, anyEnc, fullMask⟩,
     ⟨0, 4, .rw, .tmr, anyEnc, fullMask⟩]⟩,
   /- TMR_DIV -/ ⟨0x2C0008, 0x80, 32, never, fun b i => if isPrecision b i then 0x10000 else 0,
    [⟨0, 32, .rw, .tmr, fun _i v => 0x10000 ≤ v, fullMask⟩]⟩,
   /- TMR_TOPL -/ ⟨0x2C0010, 0x80, 32, never, fun _ _ => 0xFFFFFFFF,
    [⟨0, 32, .rw, .tmr, anyEnc, fullMask⟩]⟩,
   /- TMR_TOPH -/ ⟨0x2C0018, 0x80, 32, never, fun _ _ => 0xFFFF,
    [⟨0, 16, .rw, .tmr, anyEnc, fullMask⟩]⟩,
   /- TMR_CMPL -/ ⟨0x2C0020, 0x80, 32, never, zeroReset,
    [⟨0, 32, .rw, .tmr, anyEnc, fullMask⟩]⟩,
   /- TMR_CMPH -/ ⟨0x2C0028, 0x80, 32, never, zeroReset,
    [⟨0, 16, .rw, .tmr, anyEnc, fullMask⟩]⟩,
   /- TMR_PHL -/ ⟨0x2C0030, 0x80, 32, never, zeroReset,
    [⟨0, 32, .rw, .tmr, anyEnc, fullMask⟩]⟩,
   /- TMR_PHH -/ ⟨0x2C0038, 0x80, 32, never, zeroReset,
    [⟨0, 17, .rw, .tmr, anyEnc, fullMask⟩]⟩,
   /- TMR_CNTL -/ ⟨0x2C0040, 0x80, 32, never, zeroReset,
    [⟨0, 32, .ro, .tmr, anyEnc, fullMask⟩]⟩,
   /- TMR_CNTH -/ ⟨0x2C0048, 0x80, 32, never, zeroReset,
    [⟨31, 1, .ro, .tmr, anyEnc, fullMask⟩,
     ⟨0, 16, .ro, .tmr, anyEnc, fullMask⟩]⟩,
   /- TMR_CAPL -/ ⟨0x2C0050, 0x80, 32, never, zeroReset,
    [⟨0, 32, .ro, .tmr, anyEnc, fullMask⟩]⟩,
   /- TMR_CAPH -/ ⟨0x2C0058, 0x80, 32, never, zeroReset,
    [⟨31, 1, .ro, .tmr, anyEnc, fullMask⟩,
     ⟨30, 1, .ro, .tmr, anyEnc, fullMask⟩,
     ⟨29, 1, .ro, .tmr, anyEnc, fullMask⟩,
     ⟨28, 1, .ro, .tmr, anyEnc, fullMask⟩,
     ⟨0, 16, .ro, .tmr, anyEnc, fullMask⟩]⟩,
   /- TMR_STAT -/ ⟨0x2C0060, 0x80, 32, never, fun b i => if isPrecision b i then 1 else 0,
    [⟨3, 1, .ro, .tmr, anyEnc, fullMask⟩,
     ⟨2, 1, .ro, .tmr, anyEnc, fullMask⟩,
     ⟨1, 1, .w1c, .tmr, anyEnc, fullMask⟩,
     ⟨0, 1, .ro, .tmr, anyEnc, fullMask⟩]⟩,
   /- TMR_SYNC -/ ⟨0x2C1000, 0x8, 1, never, zeroReset,
    [⟨0, 32, .wo, .tmr, anyEnc, fullMask⟩]⟩,
   /- TMR_SWCAP -/ ⟨0x2C1008, 0x8, 1, never, zeroReset,
    [⟨0, 32, .wo, .tmr, anyEnc, fullMask⟩]⟩,
   /- TOUT_SEL0 -/ ⟨0x2C1010, 0x8, 1, never, zeroReset,
    [⟨0, 32, .rw, .tmr, anyEnc, 0x9f9f9f9f⟩]⟩,
   /- TOUT_SEL1 -/ ⟨0x2C1018, 0x8, 1, never, zeroReset,
    [⟨0, 32, .rw, .tmr, anyEnc, 0x9f9f9f9f⟩]⟩]

/-- The budget arbiter and SENSE registers (R63 block 0x300000 to 0x3FFFFF). -/
def regsBa : List RegGrp :=
  [/- BA_CFG -/ ⟨0x300000, 0x8, 1, never, zeroReset,
    [⟨32, 32, .ro, .baSet, anyEnc, fullMask⟩,
     ⟨24, 6, .ro, .baSet, anyEnc, fullMask⟩,
     ⟨20, 4, .ro, .baSet, anyEnc, fullMask⟩,
     ⟨0, 16, .ro, .baSet, anyEnc, fullMask⟩]⟩,
   /- BA_LIM -/ ⟨0x300008, 0x8, 1, never, fun _ _ => 0xFFFFFFFF00000000,
    [⟨48, 16, .ro, .baSet, anyEnc, fullMask⟩,
     ⟨32, 16, .ro, .baSet, anyEnc, fullMask⟩,
     ⟨16, 16, .ro, .baSet, anyEnc, fullMask⟩]⟩,
   /- BA_SLEW -/ ⟨0x300010, 0x8, 1, never, fun _ _ => 0x7808080002000800,
    [⟨56, 8, .ro, .baSet, anyEnc, fullMask⟩,
     ⟨48, 8, .ro, .baSet, anyEnc, fullMask⟩,
     ⟨32, 16, .ro, .baSet, anyEnc, fullMask⟩,
     ⟨16, 16, .ro, .baSet, anyEnc, fullMask⟩,
     ⟨0, 16, .ro, .baSet, anyEnc, fullMask⟩]⟩,
   /- BA_WIN -/ ⟨0x300018, 0x8, 1, never, fun _ _ => 0x5DC041A03E800FA,
    [⟨48, 16, .ro, .baSet, anyEnc, fullMask⟩,
     ⟨32, 16, .ro, .baSet, anyEnc, fullMask⟩,
     ⟨16, 16, .ro, .baSet, anyEnc, fullMask⟩,
     ⟨0, 16, .ro, .baSet, anyEnc, fullMask⟩]⟩,
   /- BA_LOCK -/ ⟨0x300020, 0x8, 1, never, zeroReset,
    [⟨63, 1, .rwl, .baSet, anyEnc, fullMask⟩]⟩,
   /- BA_STAT -/ ⟨0x300028, 0x8, 1, never, fun _ _ => 0x4000000000000000,
    [⟨63, 1, .w1c, .baState, anyEnc, fullMask⟩,
     ⟨62, 1, .ro, .baState, anyEnc, fullMask⟩,
     ⟨61, 1, .ro, .baState, anyEnc, fullMask⟩,
     ⟨60, 1, .w1c, .baState, anyEnc, fullMask⟩,
     ⟨32, 16, .ro, .baState, anyEnc, fullMask⟩,
     ⟨16, 16, .ro, .baState, anyEnc, fullMask⟩,
     ⟨0, 16, .ro, .baState, anyEnc, fullMask⟩]⟩,
   /- BA_TRIM -/ ⟨0x300030, 0x8, 1, never, fun _ _ => 0xFFFF00009000,
    [⟨32, 16, .ro, .baState, anyEnc, fullMask⟩,
     ⟨16, 16, .ro, .baState, anyEnc, fullMask⟩,
     ⟨0, 16, .ro, .baState, anyEnc, fullMask⟩]⟩,
   /- BA_CNT -/ ⟨0x300038, 0x8, 1, never, zeroReset,
    [⟨48, 16, .rw, .baState, anyEnc, fullMask⟩,
     ⟨32, 16, .rw, .baState, anyEnc, fullMask⟩,
     ⟨16, 16, .rw, .baState, anyEnc, fullMask⟩,
     ⟨0, 16, .rw, .baState, anyEnc, fullMask⟩]⟩,
   /- BA_MOD -/ ⟨0x300100, 0x8, 64, never, zeroReset,
    [⟨48, 16, .ro, .baSet, anyEnc, fullMask⟩,
     ⟨32, 16, .ro, .baSet, anyEnc, fullMask⟩,
     ⟨16, 16, .ro, .baSet, anyEnc, fullMask⟩,
     ⟨0, 16, .ro, .baSet, anyEnc, fullMask⟩]⟩,
   /- BA_SNS -/ ⟨0x300400, 0x8, 1, never, fun _ _ => 0x10000000000C4,
    [⟨63, 1, .rw, .baSet, anyEnc, fullMask⟩,
     ⟨48, 8, .rw, .baSet, anyEnc, fullMask⟩,
     ⟨32, 8, .rw, .baSet, anyEnc, fullMask⟩,
     ⟨0, 16, .rw, .baSet, anyEnc, fullMask⟩]⟩,
   /- BA_SNSCH -/ ⟨0x300408, 0x8, 8, never, zeroReset,
    [⟨48, 16, .ro, .baState, anyEnc, fullMask⟩,
     ⟨16, 16, .rw, .baSet, anyEnc, fullMask⟩,
     ⟨0, 16, .rw, .baSet, anyEnc, fullMask⟩]⟩,
   /- BA_SNSERR -/ ⟨0x300448, 0x8, 1, never, zeroReset,
    [⟨56, 8, .ro, .baState, anyEnc, fullMask⟩,
     ⟨48, 8, .ro, .baState, anyEnc, fullMask⟩,
     ⟨0, 16, .rw, .baState, anyEnc, fullMask⟩]⟩,
   /- BA_SOLV -/ ⟨0x301000, 0x8, 1, never, zeroReset,
    [⟨63, 1, .ro, .baState, anyEnc, fullMask⟩,
     ⟨62, 1, .ro, .baState, anyEnc, fullMask⟩,
     ⟨61, 1, .w1c, .baState, anyEnc, fullMask⟩,
     ⟨32, 16, .rw, .baState, anyEnc, fullMask⟩,
     ⟨0, 32, .ro, .baState, anyEnc, fullMask⟩]⟩,
   /- BA_GRP -/ ⟨0x301100, 0x8, 64, never, zeroReset,
    [⟨32, 32, .ro, .baSet, anyEnc, fullMask⟩,
     ⟨31, 1, .ro, .baState, anyEnc, fullMask⟩,
     ⟨0, 16, .ro, .baState, anyEnc, fullMask⟩]⟩,
   /- BA_CAB -/ ⟨0x310000, 0x8, 1024, never, fun _ _ => 0xFFFF00000000,
    [⟨63, 1, .ro, .baSet, anyEnc, fullMask⟩,
     ⟨62, 1, .ro, .baState, anyEnc, fullMask⟩,
     ⟨61, 1, .ro, .baState, anyEnc, fullMask⟩,
     ⟨48, 6, .ro, .baSet, anyEnc, fullMask⟩,
     ⟨32, 16, .ro, .baState, anyEnc, fullMask⟩,
     ⟨16, 16, .ro, .baSet, anyEnc, fullMask⟩,
     ⟨0, 16, .ro, .baSet, anyEnc, fullMask⟩]⟩]

/-- The ring, time unit and policers registers (R63 block 0x400000 to 0x4FFFFF). -/
def regsRing : List RegGrp :=
  [/- RING_ID -/ ⟨0x400000, 0x8, 1, never, fun _ _ => 0xFFFFFFFFFFFF0000,
    [⟨48, 16, .ro, .ringSet, anyEnc, fullMask⟩,
     ⟨32, 16, .ro, .ringSet, anyEnc, fullMask⟩,
     ⟨16, 16, .ro, .ringSet, anyEnc, fullMask⟩,
     ⟨8, 5, .ro, .ringSet, anyEnc, fullMask⟩,
     ⟨4, 4, .ro, .ringSet, anyEnc, fullMask⟩,
     ⟨3, 1, .w1c, .ringSet, anyEnc, fullMask⟩]⟩,
   /- RING_AREA -/ ⟨0x400008, 0x8, 1, never, fun _ _ => 0x2000000000000,
    [⟨48, 16, .ro, .ringSet, anyEnc, fullMask⟩,
     ⟨42, 6, .ro, .ringSet, anyEnc, fullMask⟩,
     ⟨36, 6, .ro, .ringSet, anyEnc, fullMask⟩,
     ⟨15, 15, .ro, .ringSet, anyEnc, fullMask⟩,
     ⟨0, 15, .ro, .ringSet, anyEnc, fullMask⟩]⟩,
   /- RING_ADM -/ ⟨0x400010, 0x8, 1, never, zeroReset,
    [⟨0, 25, .ro, .ringState, anyEnc, fullMask⟩]⟩,
   /- RING_AUTH -/ ⟨0x400018, 0x8, 1, never, zeroReset,
    [⟨32, 16, .rw, .ringState, anyEnc, fullMask⟩,
     ⟨16, 16, .rw, .ringState, anyEnc, fullMask⟩,
     ⟨0, 16, .rw, .ringState, anyEnc, fullMask⟩]⟩,
   /- RING_PORT_CFG -/ ⟨0x400100, 0x100, 2, never, zeroReset,
    [⟨63, 1, .ro, .ringSet, anyEnc, fullMask⟩,
     ⟨62, 1, .ro, .ringSet, anyEnc, fullMask⟩,
     ⟨0, 16, .ro, .ringSet, anyEnc, fullMask⟩]⟩,
   /- RING_PORT_STAT -/ ⟨0x400108, 0x100, 2, never, fun _ _ => 0xFFFF00000000,
    [⟨63, 1, .ro, .ringState, anyEnc, fullMask⟩,
     ⟨62, 1, .ro, .ringState, anyEnc, fullMask⟩,
     ⟨32, 16, .ro, .ringState, anyEnc, fullMask⟩,
     ⟨0, 32, .ro, .ringState, anyEnc, fullMask⟩]⟩,
   /- RING_PORT_CNT0 -/ ⟨0x400110, 0x100, 2, never, zeroReset,
    [⟨48, 16, .rw, .ringState, anyEnc, fullMask⟩,
     ⟨32, 16, .rw, .ringState, anyEnc, fullMask⟩,
     ⟨16, 16, .rw, .ringState, anyEnc, fullMask⟩,
     ⟨0, 16, .rw, .ringState, anyEnc, fullMask⟩]⟩,
   /- RING_PORT_CNT1 -/ ⟨0x400118, 0x100, 2, never, zeroReset,
    [⟨48, 16, .rw, .ringState, anyEnc, fullMask⟩,
     ⟨32, 16, .rw, .ringState, anyEnc, fullMask⟩]⟩,
   /- TSU_STAT -/ ⟨0x408000, 0x8, 1, never, fun _ _ => 0xFFFF00000000,
    [⟨63, 1, .ro, .ringState, anyEnc, fullMask⟩,
     ⟨62, 1, .ro, .ringState, anyEnc, fullMask⟩,
     ⟨61, 1, .ro, .ringState, anyEnc, fullMask⟩,
     ⟨60, 1, .ro, .ringState, anyEnc, fullMask⟩,
     ⟨59, 1, .ro, .ringState, anyEnc, fullMask⟩,
     ⟨58, 1, .ro, .ringState, anyEnc, fullMask⟩,
     ⟨32, 16, .ro, .ringState, anyEnc, fullMask⟩,
     ⟨0, 32, .ro, .ringState, anyEnc, fullMask⟩]⟩,
   /- TSU_TIME -/ ⟨0x408008, 0x8, 1, never, zeroReset,
    [⟨0, 64, .ro, .ringState, anyEnc, fullMask⟩]⟩,
   /- TSU_SCHED0 -/ ⟨0x408010, 0x8, 1, never, zeroReset,
    [⟨0, 64, .ro, .ringState, anyEnc, fullMask⟩]⟩,
   /- TSU_SCHED1 -/ ⟨0x408018, 0x8, 1, never, zeroReset,
    [⟨16, 48, .ro, .ringState, anyEnc, fullMask⟩,
     ⟨0, 16, .ro, .ringState, anyEnc, fullMask⟩]⟩,
   /- TSU_SCHED2 -/ ⟨0x408020, 0x8, 1, never, zeroReset,
    [⟨32, 32, .ro, .ringState, anyEnc, fullMask⟩,
     ⟨0, 32, .ro, .ringState, anyEnc, fullMask⟩]⟩,
   /- TSU_FRAME -/ ⟨0x408028, 0x8, 1, never, zeroReset,
    [⟨0, 32, .ro, .ringState, anyEnc, fullMask⟩]⟩,
   /- RING_POL -/ ⟨0x410000, 0x8, 1024, never, zeroReset,
    [⟨63, 1, .ro, .ringState, anyEnc, fullMask⟩,
     ⟨0, 32, .rw, .ringState, anyEnc, fullMask⟩]⟩]

/-- The test and debug registers (R63 block 0x500000 to 0x5FFFFF). -/
def regsTdu : List RegGrp :=
  [/- TDU_CTL -/ ⟨0x500000, 0x8, 1, never, zeroReset,
    [⟨63, 1, .wo, .tdu, anyEnc, fullMask⟩,
     ⟨62, 1, .wo, .tdu, anyEnc, fullMask⟩,
     ⟨61, 1, .wo, .tdu, anyEnc, fullMask⟩,
     ⟨0, 1, .rw, .tdu, anyEnc, fullMask⟩]⟩,
   /- TDU_STAT -/ ⟨0x500008, 0x8, 1, never, zeroReset,
    [⟨63, 1, .ro, .tdu, anyEnc, fullMask⟩,
     ⟨62, 1, .w1c, .tdu, anyEnc, fullMask⟩,
     ⟨61, 1, .w1c, .tdu, anyEnc, fullMask⟩,
     ⟨8, 8, .ro, .tdu, anyEnc, fullMask⟩,
     ⟨0, 3, .ro, .tdu, anyEnc, fullMask⟩]⟩,
   /- TDU_CFG -/ ⟨0x500010, 0x8, 1, never, fun _ _ => 0x40,
    [⟨63, 1, .rwl, .tdu, anyEnc, fullMask⟩,
     ⟨16, 32, .rw, .tdu, anyEnc, fullMask⟩,
     ⟨8, 8, .rw, .tdu, anyEnc, 0x7⟩,
     ⟨5, 3, .rw, .tdu, anyEnc, fullMask⟩,
     ⟨3, 2, .rw, .tdu, anyEnc, fullMask⟩]⟩,
   /- TDU_TRST -/ ⟨0x500018, 0x8, 1, never, fun _ _ => 0x10000000,
    [⟨63, 1, .w1c, .tdu, anyEnc, fullMask⟩,
     ⟨32, 14, .rw, .tdu, anyEnc, fullMask⟩,
     ⟨16, 13, .ro, .tdu, anyEnc, fullMask⟩,
     ⟨0, 16, .rw, .tdu, anyEnc, fullMask⟩]⟩,
   /- TDU_ECHO -/ ⟨0x500020, 0x8, 1, never, fun _ _ => 0xFFFFFFFFFFFFFFFF,
    [⟨0, 64, .rw, .tdu, anyEnc, fullMask⟩]⟩,
   /- TDU_CMP -/ ⟨0x500100, 0x8, 8, never, fun _ _ => 0x380000000000000,
    [⟨63, 1, .rw, .tdu, anyEnc, fullMask⟩,
     ⟨61, 2, .rw, .tdu, fun _i v => v ≤ 2, fullMask⟩,
     ⟨58, 3, .rw, .tdu, fun _i v => v ≤ 4, fullMask⟩,
     ⟨55, 3, .rw, .tdu, anyEnc, fullMask⟩,
     ⟨50, 5, .rw, .tdu, fun _i v => v ≤ 18, fullMask⟩,
     ⟨45, 5, .rw, .tdu, anyEnc, fullMask⟩,
     ⟨44, 1, .w1c, .tdu, anyEnc, fullMask⟩,
     ⟨0, 32, .rw, .tdu, anyEnc, fullMask⟩]⟩,
   /- TDU_STIM -/ ⟨0x500200, 0x8, 32, never, zeroReset,
    [⟨0, 32, .wo, .tdu, anyEnc, fullMask⟩]⟩,
   /- TDU_CCR -/ ⟨0x500400, 0x8, 52, never, zeroReset,
    [⟨0, 32, .rw, .tdu, anyEnc, fullMask⟩]⟩]

/-- The groups of the block that holds a window offset (R63). -/
def blockOf (off : Nat) : List RegGrp :=
  if off < 0x010000 then regsEng else
  if off < 0x020000 then regsAo else
  if off < 0x030000 then regsDic else
  if off < 0x040000 then regsCmd else
  if off < 0x080000 then regsMpt else
  if off < 0x084000 then regsSeq else
  if off < 0x100000 then regsCc else
  if off < 0x200000 then regsSe else
  if off < 0x280000 then regsLp else
  if off < 0x2C0000 then regsPu else
  if off < 0x300000 then regsTmr else
  if off < 0x400000 then regsBa else
  if off < 0x500000 then regsRing else
  if off < 0x600000 then regsTdu else
  []

/-- The register at a window offset, with its instance number.
[DEDUCED, unsafe, log 18] -/
def regAt (off : Nat) : Option (RegGrp × Nat) :=
  ((blockOf off).find? fun g =>
      decide (g.base ≤ off) && (off - g.base) % g.stride == 0 && decide ((off - g.base) / g.stride < g.count)).map
    fun g => (g, (off - g.base) / g.stride)

/-- The reset value of the register at a window offset; an offset that holds no register reads as zero (R22, R64).
[DEDUCED, unsafe, log 18] -/
def regReset (b : Build) (off : Nat) : BitVec 64 :=
  match regAt off with
  | some (g, i) => BitVec.ofNat 64 (g.reset b i)
  | none => 0

end Sys2Proof.Machine
end

