-- ==== Sys2Proof/Machine/Codec.lean ====
section
/-!
DEFINITION. The Zenlith Light Codec (R286 to R310): bins, contexts, the syntax of a cell, prediction, residual, transform.
The parse of a cell row does not read samples; the reconstruction follows it.
-/

namespace Sys2Proof.Machine

/-- What a decoded cell leaves to its neighbours (R292, R321): mode (0 SKIP, 1 INTER, 2 FLAT, 3 INTRA, 4 PALETTE), MV, cell
alpha, the CBF values of its bottom row and of its right column of blocks (bit 3 × position + component). -/
structure NbCell where
  mode : Nat
  mvx : Int
  mvy : Int
  alpha : Nat
  cbfB : Nat
  cbfR : Nat
  deriving DecidableEq, Repr

/-- The decoding state of a segment (R292), with its payload words and the width of its rows in cells.
[DESIGN CHOICE, unsafe, log 50] -/
structure SegState where
  x : List Nat
  pos : Nat
  j : Nat
  ctx : List Nat
  qp : Int
  f : List Int
  cache : List (List Nat)
  pa : Nat
  words : List Nat
  above : List NbCell
  cur : List NbCell
  deriving DecidableEq, Repr

/-- A decoding step; an exception is a violation of R310, which keeps the state in which it arose. -/
abbrev Dec := ExceptT Unit (StateM SegState)

def violation {α : Type} : Dec α := throw ()

/-! ### Bins (R286 to R290) -/

/-- The initial probabilities of the 226 contexts, in the order of the table of R289. -/
def ctxInit : List Nat :=
  let r := List.range
  ((r 4).flatMap fun _ => (r 3).map fun n => 2560 - 512 * n)
    ++ [1024, 3584, 2048, 2048, 2048, 2048, 2048, 2048, 1024, 1024, 1024, 2048, 2048, 2048]
    ++ ((r 2).flatMap fun _ => (r 3).map fun k => 3072 - 512 * k)
    ++ List.replicate 126 2048
    ++ ((r 2).flatMap fun _ => (r 8).flatMap fun b => (r 3).map fun g => 2560 + 128 * b - 512 * g)
    ++ ((r 2).flatMap fun _ => (r 2).flatMap fun _ => (r 4).map fun n => 2560 - 384 * n)
    ++ List.replicate 4 2560

/-! The first context of each group. -/
namespace Ctx
abbrev mode : Nat := 0
abbrev alpha : Nat := 12
abbrev dqp : Nat := 13
abbrev mvz : Nat := 14
abbrev flz : Nat := 16
abbrev palc : Nat := 19
abbrev pix : Nat := 20
abbrev imode : Nat := 23
abbrev cbf : Nat := 26
abbrev last : Nat := 32
abbrev sig : Nat := 158
abbrev gt1 : Nat := 206
abbrev gt2 : Nat := 222
end Ctx

/-- The adaptation rate of a context (R289). -/
def ctxRate (k : Nat) : Nat := if k < Ctx.cbf then 4 else 5

/-- One bin with probability `p0` of a 0 (R287). -/
def binP (p0 : Nat) : Dec Bool := do
  let s ← get
  let k := s.j % 4
  let xs := s.x.getD k 0
  let slot := xs % 4096
  let q := xs / 4096
  let b := !decide (slot < p0)
  let x1 := if b then (4096 - p0) * q + slot - p0 else p0 * q + slot
  if x1 < 0x10000 then
    match s.words[s.pos]? with
    | none => violation
    | some w =>
      set { s with x := s.x.set k (x1 * 65536 + w), pos := s.pos + 1, j := s.j + 1 }
      pure b
  else
    set { s with x := s.x.set k x1, j := s.j + 1 }
    pure b

def bypass : Dec Bool := binP 2048

/-- A bin of context k, which adapts (R288). -/
def ctxBin (k : Nat) : Dec Bool := do
  let p0 := (← get).ctx.getD k 2048
  let b ← binP p0
  let r := ctxRate k
  let p1 := if b then p0 - p0 / 2 ^ r else p0 + (4096 - p0) / 2 ^ r
  modify fun s => { s with ctx := s.ctx.set k (satN p1 32 4064) }
  pure b

/-- fixed(n) of R290. -/
def fixedBits : Nat → Dec Nat
  | 0 => pure 0
  | n + 1 => do
    let v ← fixedBits n
    let b ← bypass
    pure (2 * v + b2n b)

/-- The prefix of an Exp-Golomb code: more than 20 ones are a violation. -/
def egPrefix : Nat → Dec Nat
  | 0 => violation
  | fuel + 1 => do
    if ← bypass then
      let n ← egPrefix fuel
      pure (n + 1)
    else pure 0

/-- eg(k) of R290. -/
def egCode (k : Nat) : Dec Nat := do
  let n ← egPrefix 21
  let v ← fixedBits (n + k)
  pure ((2 ^ n - 1) * 2 ^ k + v)

/-- sval(z, k) of R290. -/
def svalCode (z k : Nat) : Dec Int := do
  if ← ctxBin z then pure 0
  else
    let neg ← bypass
    let m ← egCode k
    pure (if neg then -((1 + m : Nat) : Int) else ((1 + m : Nat) : Int))

/-- tb(m) of R290. -/
def tbCode (m : Nat) : Dec Nat := do
  let k := Nat.log2 m
  let u := 2 * 2 ^ k - m
  let v ← fixedBits k
  if v < u then pure v
  else
    let b ← bypass
    pure (2 * v + b2n b - u)

/-! ### Cell syntax (R293 to R301, R305) -/

/-- The levels of a block and component, by frequency position 8v + u; the intra mode of the block. -/
structure BlockSyn where
  imode : Nat
  cbf : List Bool
  levels : List (List Int)
  deriving DecidableEq, Repr

/-- The syntax of one cell. -/
structure CellSyn where
  mode : Nat
  alpha : Nat
  /-- alpha is taken from the co-located reference cell (R296, R326) -/
  alphaRef : Bool
  qp : Int
  mvx : Int
  mvy : Int
  flat : List Nat
  palette : List (List Nat)
  indices : List Nat
  blocks : List BlockSyn
  deriving DecidableEq, Repr

/-- The parameters of the slice that the syntax needs: KEY or DELTA, AMODE, FALPHA, row width in cells. -/
structure SliceCtx where
  delta : Bool
  amode : Nat
  falpha : Nat
  width : Nat
  qpoff : List Int
  lweight : Bool
  deriving DecidableEq, Repr

def medianI (a b c : Int) : Int := a + b + c - min a (min b c) - max a (max b c)

/-- The left and above neighbours of the cell in hand. -/
def nbs (s : SegState) : List NbCell := s.cur.getLast?.toList ++ (s.above[s.cur.length]?).toList

/-- The mode bins (R295). -/
def modeBins : List Nat → Dec Nat
  | [] => pure 4
  | k :: t => do
    let n := ((nbs (← get)).filter fun c => c.mode == k).length
    if ← ctxBin (Ctx.mode + 3 * k + n) then pure k else modeBins t

/-- The cell alpha of R296 and R309. -/
def alphaSyn (sc : SliceCtx) (mode refAlpha : Nat) : Dec (Nat × Bool) := do
  match sc.amode with
  | 0 => pure (4095, false)
  | 1 => pure (sc.falpha, false)
  | _ =>
    let r ← (do
      if mode = 0 then pure (refAlpha, true)
      else if ← ctxBin Ctx.alpha then
        if sc.delta then pure (refAlpha, true) else pure ((← get).pa, false)
      else
        let v ← fixedBits 12
        pure (v, false) : Dec (Nat × Bool))
    modify fun s => { s with pa := r.1 }
    pure r

/-- The QP delta (R297). -/
def qpSyn : Dec Unit := do
  if ← ctxBin Ctx.dqp then
    let neg ← bypass
    let m ← egCode 0
    let d : Int := if neg then -((1 + m : Nat) : Int) else ((1 + m : Nat) : Int)
    let q := (← get).qp + d
    if q < 0 ∨ 63 < q then violation else modify fun s => { s with qp := q }
  else pure ()

/-- The motion vector (R303). -/
def mvSyn (width : Nat) : Dec (Int × Int) := do
  let dx ← svalCode Ctx.mvz 1
  let dy ← svalCode (Ctx.mvz + 1) 1
  let s ← get
  let i := s.cur.length
  let mv := fun (c : Option NbCell) => match c with
    | some c => if c.mode = 1 then (c.mvx, c.mvy) else (0, 0)
    | none => (0, 0)
  let l := mv s.cur.getLast?
  let a := mv s.above[i]?
  let d := mv (if i + 1 < width ∧ i + 1 < s.above.length then s.above[i + 1]? else if i = 0 then none else s.above[i - 1]?)
  let x := medianI l.1 a.1 d.1 + dx
  let y := medianI l.2 a.2 d.2 + dy
  if x < -256 ∨ 256 < x ∨ y < -128 ∨ 128 < y then violation else pure (x, y)

/-- The flat deltas (R299). -/
def flatSyn : List Nat → Dec (List Nat)
  | [] => pure []
  | c :: t => do
    let d ← svalCode (Ctx.flz + c) 2
    let v := (← get).f.getD c 0 + d
    if v < 0 ∨ 4095 < v then violation
    else
      modify fun s => { s with f := s.f.set c v }
      let r ← flatSyn t
      pure (v.toNat :: r)

/-- One palette entry (R300). -/
def palEntry : Dec (List Nat) := do
  if ← ctxBin Ctx.palc then
    let i ← fixedBits 3
    match (← get).cache[i]? with
    | none => violation
    | some e => pure e
  else
    let r ← fixedBits 12
    let g ← fixedBits 12
    let b ← fixedBits 12
    pure [r, g, b]

def palEntries : Nat → List (List Nat) → Dec (List (List Nat))
  | 0, acc => pure acc
  | n + 1, acc => do
    let e ← palEntry
    if acc.contains e then violation else palEntries n (acc ++ [e])

/-- One index (R301); `row` holds the indices of the row so far, last first, `up` those of the row above. -/
def palIndex (n x : Nat) (left : Option Nat) (up : Option Nat) : Dec Nat := do
  let _ := x
  let excl ← (match left with
    | some l => do
      if ← ctxBin (Ctx.pix + (if up = some l then 1 else 0)) then pure (Sum.inl l) else pure (Sum.inr [l])
    | none => pure (Sum.inr []) : Dec (Nat ⊕ List Nat))
  match excl with
  | .inl i => pure i
  | .inr ex =>
    let r ← (match up with
      | some a =>
        if left = some a then pure (Sum.inr ex)
        else do
          if ← ctxBin (Ctx.pix + 2) then pure (Sum.inl a) else pure (Sum.inr (ex ++ [a]))
      | none => pure (Sum.inr ex) : Dec (Nat ⊕ List Nat))
    match r with
    | .inl i => pure i
    | .inr ex =>
      let cand := (List.range n).filter fun k => !ex.contains k
      if cand.isEmpty then violation
      else
        let k ← tbCode cand.length
        match cand[k]? with
        | some i => pure i
        | none => violation

/-- The 1,024 indices in raster order, given the count still to come and those decoded. -/
def palIndices (n : Nat) : Nat → Array Nat → Dec (Array Nat)
  | 0, acc => pure acc
  | k + 1, acc => do
    let p := acc.size
    let left := if p % 32 = 0 then none else acc[p - 1]?
    let up := if p < 32 then none else acc[p - 32]?
    let i ← palIndex n (p % 32) left up
    palIndices n k (acc.push i)

/-- The scan order of R306: (u, v) by scan index. -/
def scanOrder : List (Nat × Nat) :=
  (List.range 15).flatMap fun d =>
    let lo := d - 7
    let hi := min d 7
    let up := (List.range (hi + 1 - lo)).map fun i => (d - (lo + i), lo + i)
    if d % 2 = 1 then up else up.reverse

/-- The levels of one block and component, from scan index i down (R305). -/
def levelSyn (cls last : Nat) : Nat → Nat → List (Nat × Int) → Dec (List (Nat × Int))
  | 0, _, acc => pure acc
  | i + 1, n1, acc => do
    let nz := fun k => acc.any fun p => p.1 == k
    let s ← (do
      if i = last then pure true
      else ctxBin (Ctx.sig + 24 * cls + 3 * min 7 (i / 8) + (b2n (nz (i + 1)) + b2n (decide (i + 2 ≤ last) && nz (i + 2)))) : Dec Bool)
    if s then
      let b := if i = 0 then 0 else 1
      let (mag, n1') ← (do
        if ← ctxBin (Ctx.gt1 + 8 * cls + 4 * b + min 3 n1) then
          if ← ctxBin (Ctx.gt2 + 2 * cls + b) then
            let e ← egCode 0
            pure (3 + e, n1 + 1)
          else pure (2, n1 + 1)
        else pure (1, n1) : Dec (Nat × Nat))
      if 32767 < mag then violation
      else
        let neg ← bypass
        levelSyn cls last i n1' ((i, if neg then -(mag : Int) else (mag : Int)) :: acc)
    else levelSyn cls last i n1 acc

/-- The node walk of LAST (R305). -/
def lastSyn (cls : Nat) : Nat → Nat → Dec Nat
  | 0, node => pure (node - 64)
  | t + 1, node => do
    let b ← ctxBin (Ctx.last + 63 * cls + node - 1)
    lastSyn cls t (2 * node + b2n b)

/-- The residual of one block and component: CBF and the 64 levels at 8v + u. -/
def residualSyn (c kc : Nat) : Dec (Bool × List Int) := do
  let cls := if c = 1 then 0 else 1
  if ← ctxBin (Ctx.cbf + 3 * cls + kc) then
    let last ← lastSyn cls 6 1
    let l ← levelSyn cls last (last + 1) 0 []
    let at_ := fun (u v : Nat) => match l.find? fun p => scanOrder.getD p.1 (0, 0) == (u, v) with
      | some p => p.2
      | none => 0
    pure (true, (List.range 64).map fun p => at_ (p % 8) (p / 8))
  else pure (false, [])

/-- The number of coded left and above blocks of block b and component c (R305). `done` are the blocks of the cell so far. -/
def cbfCtx (s : SegState) (done : List BlockSyn) (b c : Nat) : Nat :=
  let own := fun k => match done[k]? with | some d => b2n (d.cbf.getD c false) | none => 0
  let coded := fun (n : NbCell) => n.mode == 1 || n.mode == 3
  let left := if b % 4 ≠ 0 then own (b - 1)
    else match s.cur.getLast? with
      | some n => if coded n then b2n (bitOf n.cbfR (3 * (b / 4) + c)) else 0
      | none => 0
  let up := if 4 ≤ b then own (b - 4)
    else match s.above[s.cur.length]? with
      | some n => if coded n then b2n (bitOf n.cbfB (3 * b + c)) else 0
      | none => 0
  left + up

/-- The 16 blocks of an INTRA or INTER cell (R293 step 7). -/
def blocksSyn (intra : Bool) : Nat → List BlockSyn → Dec (List BlockSyn)
  | 0, acc => pure acc
  | k + 1, acc => do
    let im ← (do
      if intra then
        let m1 ← ctxBin Ctx.imode
        let m0 ← ctxBin (Ctx.imode + 1 + b2n m1)
        pure (2 * b2n m1 + b2n m0)
      else pure 0 : Dec Nat)
    let b := acc.length
    let s ← get
    let r0 ← residualSyn 0 (cbfCtx s acc b 0)
    let r1 ← residualSyn 1 (cbfCtx s acc b 1)
    let r2 ← residualSyn 2 (cbfCtx s acc b 2)
    blocksSyn intra k (acc ++ [⟨im, [r0.1, r1.1, r2.1], [r0.2, r1.2, r2.2]⟩])

/-- The neighbour entry of a cell. -/
def CellSyn.nb (c : CellSyn) : NbCell :=
  let bits := fun (pick : Nat → Nat) => ((List.range 4).flatMap fun k => (List.range 3).map fun j => (k, j)).foldl (fun m p =>
    match c.blocks[pick p.1]? with
    | some b => if b.cbf.getD p.2 false then setBit m (3 * p.1 + p.2) else m
    | none => m) 0
  { mode := c.mode, mvx := if c.mode = 1 then c.mvx else 0, mvy := if c.mode = 1 then c.mvy else 0, alpha := c.alpha,
    cbfB := bits fun k => 12 + k, cbfR := bits fun k => 4 * k + 3 }

/-- One cell (R293). `refAlpha` is the co-located reference cell's alpha. -/
def cellSyn (sc : SliceCtx) (refAlpha : Nat) : Dec CellSyn := do
  let mode ← modeBins (if sc.delta then [0, 1, 2, 3] else [2, 3])
  let (alpha, aref) ← alphaSyn sc mode refAlpha
  if mode = 1 ∨ mode = 3 then qpSyn
  let (mvx, mvy) ← (if mode = 1 then mvSyn sc.width else pure (0, 0) : Dec (Int × Int))
  let flat ← (if mode = 2 then flatSyn [0, 1, 2] else pure [] : Dec (List Nat))
  let (pal, idx) ← (do
    if mode = 4 then
      let n ← fixedBits 3
      let es ← palEntries (n + 1) []
      let ix ← (if n = 0 then pure (List.replicate 1024 0) else do
        let a ← palIndices (n + 1) 1024 #[]
        pure a.toList : Dec (List Nat))
      modify fun s => { s with cache := (es ++ s.cache.filter fun e => !es.contains e).take 8 }
      pure (es, ix)
    else pure ([], []) : Dec (List (List Nat) × List Nat))
  let blocks ← (if mode = 1 ∨ mode = 3 then blocksSyn (mode == 3) 16 [] else pure [] : Dec (List BlockSyn))
  let c : CellSyn := ⟨mode, alpha, aref, (← get).qp, mvx, mvy, flat, pal, idx, blocks⟩
  modify fun s => { s with cur := s.cur ++ [c.nb] }
  pure c

/-- The state at the start of a segment (R286, R292), where every initial state is at least 0x0001_0000. -/
def segStart (words : List Nat) (qp : Nat) : Option SegState :=
  if words.length < 8 then none else
  let x := (List.range 4).map fun s => words.getD (2 * s) 0 * 65536 + words.getD (2 * s + 1) 0
  if x.any (· < 0x10000) then none
  else some ⟨x, 8, 0, ctxInit, qp, [0, 0, 0], [], 4095, words, [], []⟩

/-- The cells of one cell row, up to a violation: the syntax of each cell, the state after the row when none arose, the words of
the payload consumed by then. The list gives the co-located reference alphas of the row. -/
def rowSyn (sc : SliceCtx) : List Nat → SegState → List CellSyn × Option SegState × Nat
  | [], s => ([], some { s with above := s.cur, cur := [] }, s.pos)
  | a :: t, s =>
    match Id.run ((cellSyn sc a).run.run s) with
    | (.error _, s') => ([], none, s'.pos)
    | (.ok c, s') => let r := rowSyn sc t s'; (c :: r.1, r.2)

/-- The end test of R291. -/
def SegState.ended (s : SegState) : Bool := s.x.all (· == 0x10000) && s.pos == s.words.length

/-! ### Samples (R294, R298 to R308) -/

/-- The samples of a cell: component c of pixel (x, y) at 1,024c + 32y + x. -/
abbrev CellPix := Array Nat

def pixAt (p : CellPix) (c x y : Nat) : Nat := p.getD (1024 * c + 32 * y + x) 0

/-- The transform matrix (R308). -/
def transformT : List (List Int) :=
  [[64, 64, 64, 64, 64, 64, 64, 64], [89, 75, 50, 18, -18, -50, -75, -89], [84, 35, -35, -84, -84, -35, 35, 84],
   [75, -18, -89, -50, 50, 89, 18, -75], [64, -64, -64, 64, 64, -64, -64, 64], [50, -89, 18, 75, -75, -18, 89, -50],
   [35, -84, 84, -35, -35, 84, -84, 35], [18, -50, 75, -89, 89, -75, 50, -18]]

def tAt (k n : Nat) : Int := (transformT.getD k []).getD n 0

/-- The inverse transform of coefficients at 8v + u (R308). -/
def inverseT (c : List Int) : List Int :=
  let r8 := List.range 8
  let t := r8.flatMap fun y => r8.map fun x =>
    satI (rshrI ((r8.map fun k => tAt k y * c.getD (8 * k + x) 0).sum) 8) (-32768) 32767
  r8.flatMap fun y => r8.map fun x =>
    satI (rshrI ((r8.map fun k => tAt k x * t.getD (8 * y + k) 0).sum) 7) (-8192) 8191

/-- The quantiser step of R307. -/
def qstep (qpc : Nat) : Nat := ([16, 17, 19, 21, 23, 25, 27, 29].getD (qpc % 8) 16) * 2 ^ (qpc / 8)

/-- Dequantisation of one block's levels under a prediction (R307). -/
def dequant (qpc : Nat) (lweight : Bool) (pred : List Nat) (levels : List Int) : List Int :=
  let m := (pred.sum + 32) / 64
  let lw := if lweight then min 64 (8 + 4 * (m / 256)) else 64
  levels.map fun l =>
    let mag : Int := ((l.natAbs * qstep qpc * lw + 512) / 1024 : Nat)
    satI (if l < 0 then -mag else mag) (-32768) 32767

/-- The intra prediction of one block and component (R302). -/
def intraPred (mode : Nat) (up left : Option (List Nat)) (corner : Option Nat) : List Nat :=
  let a := match up, left with
    | some a, _ => a
    | none, some l => List.replicate 8 (l.headD 0)
    | none, none => List.replicate 8 0
  let l := match left, up with
    | some l, _ => l
    | none, some a => List.replicate 8 (a.headD 0)
    | none, none => List.replicate 8 0
  let c := match corner, up, left with
    | some c, _, _ => c
    | none, some a, _ => a.headD 0
    | none, none, some l => l.headD 0
    | none, none, none => 0
  let dc := (a.sum + l.sum + 8) / 16
  (List.range 64).map fun p =>
    let x := p % 8
    let y := p / 8
    match mode with
    | 0 => dc
    | 1 => a.getD x 0
    | 2 => l.getD y 0
    | _ => (satI ((a.getD x 0 : Int) + (l.getD y 0 : Int) - (c : Int)) 0 4095).toNat

/-- The samples around a cell that prediction may use: bottom sample row of the cell above, right column of the cell to the
left, corner sample, each by component. -/
structure Around where
  up : Option (List (List Nat))
  left : Option CellPix
  corner : Option (List Nat)

/-- Place a block into a cell. -/
def putBlock (pix : CellPix) (b c : Nat) (v : List Nat) : CellPix :=
  (v.zipIdx).foldl (fun p e =>
    p.setIfInBounds (1024 * c + 32 * (8 * (b / 4) + e.2 / 8) + 8 * (b % 4) + e.2 % 8) e.1) pix

/-- The intra prediction of block b, component c, from the cell so far and what is around it. -/
def blockIntra (ar : Around) (pix : CellPix) (mode b c : Nat) : List Nat :=
  let bx := 8 * (b % 4)
  let by_ := 8 * (b / 4)
  let up := if by_ = 0 then ar.up.map fun u => (List.range 8).map fun i => (u.getD c []).getD (bx + i) 0
    else some ((List.range 8).map fun i => pixAt pix c (bx + i) (by_ - 1))
  let left := if bx = 0 then ar.left.map fun l => (List.range 8).map fun i => pixAt l c 31 (by_ + i)
    else some ((List.range 8).map fun i => pixAt pix c (bx - 1) (by_ + i))
  let corner :=
    if by_ = 0 then (if bx = 0 then ar.corner.map fun k => k.getD c 0 else ar.up.map fun u => (u.getD c []).getD (bx - 1) 0)
    else if bx = 0 then ar.left.map fun l => pixAt l c 31 (by_ - 1)
    else some (pixAt pix c (bx - 1) (by_ - 1))
  intraPred mode up left corner

/-- Add a block's residual to its prediction (R294). -/
def addResidual (sc : SliceCtx) (qp : Int) (c : Nat) (pred : List Nat) (blk : BlockSyn) : List Nat :=
  if blk.cbf.getD c false then
    let qpc := (satI (qp + sc.qpoff.getD c 0) 0 63).toNat
    let res := inverseT (dequant qpc sc.lweight pred (blk.levels.getD c []))
    (List.range 64).map fun p => (satI ((pred.getD p 0 : Int) + res.getD p 0) 0 4095).toNat
  else pred

/-- The reconstruction of a cell (R294, R298 to R304). `ref c u v` is the clamped reference sample at window column u and
row v; (wx, wy) is the cell's top-left window pixel. -/
def reconCell (sc : SliceCtx) (ar : Around) (ref : Nat → Int → Int → Nat) (wx wy : Nat) (cs : CellSyn) : CellPix :=
  let inter := fun (mvx mvy : Int) (c x y : Nat) =>
    let ix : Int := (wx + x : Nat) + mvx / 2
    let iy : Int := (wy + y : Nat) + mvy / 2
    let fx := mvx % 2 == 1
    let fy := mvy % 2 == 1
    if fx && fy then (ref c ix iy + ref c (ix + 1) iy + ref c ix (iy + 1) + ref c (ix + 1) (iy + 1) + 2) / 4
    else if fx then (ref c ix iy + ref c (ix + 1) iy + 1) / 2
    else if fy then (ref c ix iy + ref c ix (iy + 1) + 1) / 2
    else ref c ix iy
  let all := fun (f : Nat → Nat → Nat → Nat) =>
    ((List.range 3072).map fun p => f (p / 1024) (p % 32) (p / 32 % 32)).toArray
  match cs.mode with
  | 0 => all fun c x y => ref c (wx + x : Nat) (wy + y : Nat)
  | 2 => all fun c _ _ => cs.flat.getD c 0
  | 4 =>
    let ix := cs.indices.toArray
    all fun c x y => (cs.palette.getD (ix.getD (32 * y + x) 0) []).getD c 0
  | m =>
    (cs.blocks.zipIdx).foldl (fun pix e =>
      [0, 1, 2].foldl (fun pix c =>
        let b := e.2
        let pred := if m = 1 then
            (List.range 64).map fun p => inter cs.mvx cs.mvy c (8 * (b % 4) + p % 8) (8 * (b / 4) + p / 8)
          else blockIntra ar pix e.1.imode b c
        putBlock pix b c (addResidual sc cs.qp c pred e.1)) pix) (Array.replicate 3072 0)

end Sys2Proof.Machine
end

