-- ==== Sys2Proof/Machine/State.lean ====
section
/-!
DEFINITION. The machine's state (R2 to R598): every register of the window in one sparse register file, and beside it, unit
by unit, the state that the spec gives the engine outside its registers. State is plain data.
-/

namespace Sys2Proof.Machine

/-- The reasons a step can stop the machine. -/
inductive Fault where
  /-- Raised by no meaning: the spec answers every fault of the engine with an effect (a bus error, a reply, a trap, a machine
  check, a mode); kept so that the type is inhabited. Safe. -/
  | none
  deriving DecidableEq, Repr

/-- The reasons a step can refuse a command. -/
inductive Refusal where
  /-- Raised by exec's arm of a command that has no meaning yet. Safe. -/
  | notModelled (mnemonic : String)
  deriving DecidableEq, Repr

/-- One message of the DIC: the source and the snapshot of its COUNT (R544). -/
structure DicMsg where
  src : Nat
  count : Nat
  deriving DecidableEq, Repr

/-- A message selected and not yet landed: its target's slot is reserved (R544). -/
structure DicFlight where
  target : Nat
  fast : Bool
  msg : DicMsg
  /-- the target has been disabled meanwhile: the message returns to its source (R550) -/
  recalled : Bool
  deriving DecidableEq, Repr

/-- The DIC beyond its registers (R543 to R549): the full slots by target, the messages in flight to a slot, the
machine-check slot of the command core, the groups whose hold-off runs. -/
structure Dic where
  normal : List (Nat × DicMsg)
  fast : List (Nat × DicMsg)
  flights : List DicFlight
  mcSlot : Option Nat
  held : List Nat
  deriving DecidableEq, Repr

/-- SPM or HB (R104): the data bits of every byte, and where the stored check bits differ from those that R105 gives for
the stored data bits. An unlisted address is a zero byte with valid check bits. -/
structure Store where
  data : List Host.Cell
  chk : List (Nat × BitVec 5)
  deriving DecidableEq, Repr

/-- A byte of SPM or HB whose corrected form waits to be written back (R109). -/
structure Fixup where
  st : StoreSel
  addr : Nat
  deriving DecidableEq, Repr

/-- A request that HPT has accepted and that waits for the fill or for a bank release (R52, R117). -/
structure HptReq where
  wr : Bool
  off : Nat
  be : Nat
  wdata : W64
  tid : BitVec 8
  deriving DecidableEq, Repr

/-- One place of HPT's response queue: a response that is ready, or a request that waits. -/
inductive HptSlot where
  | ready (tid : BitVec 8) (rdata : W64) (err : Bool)
  | waiting (r : HptReq)
  deriving DecidableEq, Repr

/-- The host port (R46 to R54). -/
structure Hpt where
  awake : Bool
  slpReq : Bool
  slots : List HptSlot
  deriving DecidableEq, Repr

/-- Who made a memory request, and so who takes its lines or hears of its failure. -/
inductive MptUse where
  /-- a write of lines of completion ring `k` (R226) -/
  | cqWrite (k : Nat)
  /-- the read of the line of completion ring `k` that holds TAIL (R226) -/
  | cqFill (k : Nat)
  /-- a line move of the command core, number `id` (R198) -/
  | lmov (id : Nat)
  /-- the scrubber in space 0 or 1 (R136) -/
  | scrub (space : Nat)
  /-- the write-back of a scrubbed line (R136) -/
  | scrubWrite (space : Nat)
  /-- a microcode image (R167) -/
  | ucode (id : Nat)
  /-- samples of decode window `w` for the motion cache of slice engine `n` (R314, R336) -/
  | ref (n : Nat) (w : Nat)
  /-- a reconstructed reference cell of window `w`, frame `n`, cell row and column -/
  | refWrite (w : Nat) (n : Nat) (cy : Nat) (cx : Nat)
  /-- calibration records of module `m` (R382) -/
  | cal (m : Nat)
  /-- the line or lines of a lamp's record that is to be masked, and the write of the masked line (R386) -/
  | mask (m : Nat) (i : Nat)
  | maskWrite (m : Nat)
  /-- CAL_LOAD or another command copying lines, by command id -/
  | cmdRead (id : Nat)
  | cmdWrite (id : Nat)
  /-- source buffer `b` of feed `f`, or its reference (R344) -/
  | feed (f : Nat) (b : Nat)
  | feedRef (f : Nat)
  | feedWrite (f : Nat) (cell : Nat)
  /-- the playout catalogue, or a clip of channel `c` (R363, R366) -/
  | cat
  | clip (c : Nat)
  /-- a memory loopback or self-test (R562, R565) -/
  | test (id : Nat)
  /-- a read that its unit has given up -/
  | gone
  deriving DecidableEq, Repr

/-- A quad request of a memory port (R46, R55, R57): address bits [47:8], line mask, raw data of a write (its data bytes in
place; the port codes it when it issues the request, R118), the lines written in pennant form. -/
structure MptReq where
  write : Bool
  quad : Nat
  mask : Nat
  raw : List Byte
  use : MptUse
  pens : Nat := 0
  deriving DecidableEq, Repr

/-- A request that has transferred: its MPTn_AID, the raw bytes of a write as the port sent them (R120, R134), and whether it is
overdue (R128). -/
structure MptOut where
  aid : Nat
  req : MptReq
  sent : List Byte
  overdue : Bool
  deriving DecidableEq, Repr

/-- A memory port beyond its registers: the requests that units have queued, those outstanding, whether it still waits for
MPTn_IDLE after a reset (R60), the current shaping slot and the bank keys used in it (R125). -/
structure MptPort where
  queue : List MptReq
  out : List MptOut
  waitIdle : Bool
  slot : Nat
  keys : List Nat
  deriving DecidableEq, Repr

/-- A 64-byte data line as it is delivered to a requester. -/
structure Line where
  data : List Byte
  pen : Bool
  deriving DecidableEq, Repr

/-- Lines delivered and not yet consumed: who asked, the byte address of the first, the lines. -/
structure Delivery where
  use : MptUse
  port : Nat
  addr : Nat
  lines : List Line
  deriving DecidableEq, Repr

/-- A scrub in progress or ended (R135 to R137): parameters, the next address to read, and the summary so far. -/
structure ScrubRun where
  cmd : Nat
  action : Nat
  start : Nat
  len : Nat
  pos : Nat
  stopping : Option Nat
  uncorr : Nat
  penn : Nat
  first : Option Nat
  last : Option Nat
  corr : List (Nat × Nat)
  deriving DecidableEq, Repr

/-- A MEM read that a sequencer has issued and whose data has not landed (R151, R152): bits [31:0] of the word read, and whether
one of their bytes is pennanted. -/
structure SeqMem where
  data : W32
  pen : Bool
  deriving DecidableEq, Repr

/-- A fixed-function stage as its sequencer sees it (R145, R153): an operation in progress, an operation finished and not
started again, the parameters loaded by S1. -/
structure Stage where
  busy : Bool
  done : Bool
  params : List (Nat × W32)
  deriving DecidableEq, Repr

/-- The execution state of one sequencer beyond its registers (R143 to R158). -/
structure Seq where
  lc0 : BitVec 16
  lc1 : BitVec 16
  z : Bool
  n : Bool
  c : Bool
  v : Bool
  mdr : W32
  mar : W32
  memRdy : Bool
  memPen : Bool
  w : List (Nat × W32)
  p : List (Nat × W32)
  stack : List Nat
  latch : Nat
  mem : List SeqMem
  barrier : Option Nat
  stages : List (Nat × Stage)
  deriving DecidableEq, Repr

/-- A power-on or relocking clock domain (R71 to R73): relock in progress, consecutive windows passed, whether the
2 ms limit of R75 has passed in this relock, whether the target changed since the last release. -/
structure ClkState where
  relocking : Bool
  passes : Nat
  late : Bool
  changed : Bool
  deriving DecidableEq, Repr

/-- The phases of entry to Furled or Watch (R85). -/
inductive SleepPhase where
  | none
  /-- HPT_SLP_REQ is raised, the host's acknowledge is awaited -/
  | handshake
  /-- the handshake is done, the reply is being written -/
  | replying
  deriving DecidableEq, Repr

/-- A MODE_SET that has been accepted and waits for its hoist (R83, R81): the command, the target and the first frame that
may carry it out. -/
structure ModeWait where
  cmd : Nat
  target : Nat
  frame : Nat
  deriving DecidableEq, Repr

/-- The always-on island, the clocks and the mode controller beyond their registers (R67 to R99). -/
structure Ao where
  supplies : Bool
  porHeld : Bool
  engHeld : Bool
  engDis : Bool
  pwrgood : Bool
  /-- the levels of WAKE0 to WAKE7 and of SNS_ALERT_N (1 = low) as ENG_BUMPST reports them (R65) -/
  wakeLvl : Nat
  snsAlert : Bool
  filling : Bool
  coreHeld : Bool
  wdogExpired : Bool
  cclk : ClkState
  pnclk : ClkState
  refAbsent : Bool
  modeWait : Option ModeWait
  sleep : SleepPhase
  sleepCmd : Option Nat
  /-- the mode that the sleep leads to -/
  sleepTo : Nat
  /-- the settings saved under R102; where in HB firmware has put them, and the bytes it wrote -/
  saved : Option (List (Nat × W64))
  savedAt : Nat
  savedHb : List Byte
  /-- wake events held since step 3 of R85, or that have started a wake -/
  wakeHeld : Bool
  waking : Bool
  heldFrame : Option (List Byte)
  /-- the mode that Halt holds (R81, R577) -/
  heldMode : Nat
  softPending : Option Nat
  deriving DecidableEq, Repr

/-- A reply to be written into completion ring k: its bytes, whether it is the final one, whether it raises CQSRC, and the
part of the reservation that it releases. -/
structure Reply where
  cmd : Nat
  bytes : List Byte
  final : Bool
  quiet : Bool
  deriving DecidableEq, Repr

/-- The writer of a completion ring (R226): replies in order, the engine's copy of the line that holds TAIL, the quad
writes of the reply in hand that have no response yet, the quads whose write has been repeated, whether the reply is lost. -/
structure CqWriter where
  queue : List Reply
  copy : Option (List Byte)
  filling : Bool
  left : Nat
  retried : List Nat
  lost : Bool
  deriving DecidableEq, Repr

/-- How a ring-sourced command came in, so that its reply goes back (R244). -/
structure MgmtInfo where
  mslot : Nat
  keyid : Nat
  sender : Nat
  xid : Nat
  deriving DecidableEq, Repr

/-- The progress of an accepted command. -/
inductive CmdPhase where
  /-- accepted, not started (R260) -/
  | waiting
  /-- orders 1 to 6 passed, the work of its opcode is due (R237) -/
  | started
  /-- its work is in progress -/
  | running
  /-- its final reply is queued or being written -/
  | replying
  deriving DecidableEq, Repr

/-- An accepted command (R228, R260): its number in the order of acceptance, its source, its header and parameter bytes,
the reservation it still holds, how far it is. -/
structure Cmd where
  id : Nat
  src : CmdSrc
  hdr : List Byte
  params : List Byte
  parPen : Bool
  resv : Nat
  phase : CmdPhase
  mgmt : Option MgmtInfo
  /-- the status decided at acceptance (orders 1 to 5 of R233, R230, pennanted header) -/
  early : Option Nat
  /-- the wall frame at acceptance (R83) -/
  frame : Nat
  /-- TARGET named every cabinet at acceptance: the aggregate reply of R248 -/
  wide : Bool := false
  deriving DecidableEq, Repr

/-- A command sent to other cabinets by the gateway (R246, R248). -/
structure GwEntry where
  xid : Nat
  cmd : Nat
  target : Nat
  ok : List Nat
  fail : List Nat
  deriving DecidableEq, Repr

/-- A management frame to be sent (R242): its kind, the slot and KEYID used, transaction number, target cabinet (0xFFFF for
every one), header and parameter bytes, whether the parameters go encrypted. COUNTER is drawn when it is sent (R250). -/
structure MgmtTx where
  kind : Nat
  mslot : Nat
  keyid : Option Nat
  xid : Nat
  target : Nat
  hdr : List Byte
  params : List Byte
  enc : Bool
  deriving DecidableEq, Repr

/-- A management command that passed checks 1 to 3 of R247 and waits in the intake (R249). -/
structure MgmtRx where
  info : MgmtInfo
  hdr : List Byte
  params : List Byte
  deriving DecidableEq, Repr

/-- The command machinery beyond its registers (R221 to R262). -/
structure Cmds where
  nextId : Nat
  list : List Cmd
  lastSrc : Nat
  cq : List (Nat × CqWriter)
  gw : List GwEntry
  nextXid : Nat
  /-- broadcast commands whose aggregate reply is written while the own execution goes on (R248) -/
  after : List Cmd
  /-- unit-state reports still to be sent (R265), the last report of each cabinet (diverged units, the lowest unit ID, its CAUSE), and
  when each cabinet was heard last (R268) -/
  reportDue : Bool
  reports : List (Nat × (Nat × Nat × Nat))
  heard : List (Nat × Nat)
  /-- UNIT_SET commands waiting for their hoist, TENANT_CLOSE likewise: command numbers -/
  atHoist : List Nat
  /-- management frames waiting to be sent, and the intake of ring-sourced commands (R249) -/
  tx : List MgmtTx
  rx : List MgmtRx
  deriving DecidableEq, Repr

/-- One entry of a key slot (R253, R250): key, KEYID, USE, send counter. -/
structure KeyEntry where
  keyid : Nat
  use : Nat
  key : BitVec 256
  sent : Nat
  deriving DecidableEq, Repr

/-- A key slot: up to two entries, and whether B was loaded after A (R258). -/
structure KeySlot where
  a : Option KeyEntry
  b : Option KeyEntry
  bLater : Bool
  deriving DecidableEq, Repr

/-- A replay record (R250): slot, KEYID, sender, highest COUNTER accepted, which of the 64 below it were accepted. -/
structure Replay where
  slot : Nat
  keyid : Nat
  sender : Nat
  hi : Nat
  seen : List Nat
  deriving DecidableEq, Repr

/-- A tenant of TENANT_OPEN (R239, R240): its window on the wall, and how far its opening or closing is. -/
inductive TenantPhase where
  | opening | opened | closing
  deriving DecidableEq, Repr

structure Tenant where
  x0 : Nat
  y0 : Nat
  w : Nat
  h : Nat
  z : Nat
  sec : Nat
  rate : Nat
  burst : Nat
  win : Nat
  phase : TenantPhase
  deriving DecidableEq, Repr

/-- The trip inputs beyond their registers (R433 to R436): pin levels (bit k = 1: TRPk_N is low), the trips asserted, the
inputs whose present blanking window the delay element has ended, the units that a cause of R435 holds low until they resume
under R436.
[DESIGN CHOICE, unsafe, log 8] -/
structure Trips where
  pins : Nat
  asserted : Nat
  ended : Nat
  held : Nat
  deriving DecidableEq, Repr


/-- A PU_CFG that waits for its instant (R451): the command, its frame, its parameters. -/
structure PuCfgReq where
  cmd : Nat
  at_ : Option Int
  params : List Byte
  deriving DecidableEq, Repr

/-- A pulse unit beyond its registers (R423 to R432): the carrier and the values in force, hraw and the PNCLK since it
changed, how long the present output has been asserted, a dropped interval, the refresh of R428, the carrier outputs, the
pads, the PNCLK since each pad turned off and since PUn_H rose, the pad mismatches that persist. -/
structure Pu where
  cnt : Nat
  up : Bool
  per : Nat
  dutyU : Nat
  dutyD : Nat
  dt : Nat
  minp : Nat
  minmode : Bool
  bstp : Nat
  bstw : Nat
  running : Bool
  imm : Bool
  raw : Bool
  run : Nat
  asserted : Nat
  dropping : Bool
  lSeen : Bool
  bstCnt : Nat
  refresh : Nat
  h : Bool
  l : Bool
  padH : Bool
  padL : Bool
  offH : Nat
  offL : Nat
  sinceRise : Nat
  mismH : Bool
  mismL : Bool
  late : Bool
  cfg : Option PuCfgReq
  deriving DecidableEq, Repr

/-- The capture register of a timer (R449). -/
structure TmrCap where
  cnt : Nat
  down : Bool
  stale : Bool
  ovr : Bool
  deriving DecidableEq, Repr

/-- A timer beyond its registers (R441 to R450): count, direction, TOP and CMP in force, the committed TOP, CMP and PHASE, the
prescaler or accumulator, the capture register while FULL, its last contents. -/
structure Tmr where
  cnt : Nat
  up : Bool
  top : Nat
  cmp : Nat
  topC : Nat
  cmpC : Nat
  phC : Nat
  acc : Nat
  full : Bool
  cap : TmrCap
  deriving DecidableEq, Repr

/-- A timer after a reset that covers it (R442, R457). -/
def Tmr.reset : Tmr :=
  ⟨0, true, 2 ^ 48 - 1, 0, 2 ^ 48 - 1, 0, 0, 0, false, ⟨0, false, false, false⟩⟩


/-- A parameter set of a tenant (R274). -/
structure PSet where
  pset : Nat
  flags : Nat
  wc : Nat
  hc : Nat
  qpoff : List Int
  deriving DecidableEq, Repr

/-- The member's own segment of a slice, once SLI has read the header (R280, R316, R321): its rectangle in cells of the
window's region, the slice's parameters and parameter set, the next row to decode, the engine that published the row before it and
still has it, which slot of the record pair is current, the cause that ends the segment, whether its violation is counted. -/
structure Segment where
  x : Nat
  y : Nat
  w : Nat
  h : Nat
  delta : Bool
  qp : Nat
  refnum : Nat
  falpha : Nat
  ps : PSet
  next : Nat
  eng : Option Nat
  slot : Bool
  dead : Option Nat
  viol : Bool
  deriving DecidableEq, Repr

/-- A SLICE unit in a slice queue (R315): its frame, the place of its first byte in the running count of the queue's bytes, the
bytes of header and table and of all it stores, its segment once SLI has read the header, the parameter set it is bound to once SLI
has started it (R275), the resume record pair it holds (R316). -/
structure SliceUnit where
  id : Nat
  frame : Nat
  off : Nat
  headLen : Nat
  len : Nat
  seg : Option Segment
  bound : Option (Option PSet)
  pair : Option Nat
  deriving DecidableEq, Repr

/-- The rectangle of a slice that gives no cell, in cells of the window's region, for a frame, with its cause (R327). -/
structure LostRect where
  frame : Nat
  cause : Nat
  x : Nat
  y : Nat
  w : Nat
  h : Nat
  deriving DecidableEq, Repr

/-- The final edge samples of a cell of the open frame, by component (R328, R302). -/
structure EdgeCell where
  x : Nat
  y : Nat
  bottom : List (List Nat)
  right : List (List Nat)
  left : List (List Nat)
  alpha : Nat
  decoded : Bool
  deriving DecidableEq, Repr

/-- A window on the member (R315, R325, R327, R336): its configuration in force, parameter sets (the one taken in earlier first),
the place of its slice queue in SPM and the count of bytes it has taken, the units in it, the slices taken of each frame, HOLD
units (frame, REFNUM), discarded rectangles; for the open frame the cells covered by slices, the lost cells with
their causes, the published cells, their edges, the cells whose build-buffer write failed; the frame of the last refresh
request. Cells are numbered in raster order of the region. -/
structure Win where
  cfg : W64
  ref : W64
  psets : List PSet
  qbase : Nat
  qsize : Nat
  tail : Nat
  queue : List SliceUnit
  taken : List (Nat × Nat)
  holds : List (Nat × Nat)
  discs : List LostRect
  covered : List Nat
  lost : List (Nat × Nat)
  pub : List Nat
  edges : List EdgeCell
  bads : List Nat
  asked : Option Nat
  deriving DecidableEq, Repr

/-- A cell in row staging (R320): samples (while they are computed, and where the engine owns no staging banks), alpha, map STATE,
the cause if it is lost. -/
structure StagedCell where
  pix : Array Nat
  alpha : Nat
  state : Nat
  cause : Option Nat
  deriving DecidableEq, Repr

/-- What a row in an engine is. -/
inductive RowKind where
  /-- a slice row of a unit -/
  | decode (unit : Nat)
  /-- concealment of lost cells of a closed band (R328) -/
  | conceal
  /-- the reference shown again by a HOLD (R325) -/
  | hold
  deriving DecidableEq, Repr

/-- A row in a slice engine (R320): frame, window, kind, band, region row, the region columns of its cells, the stage slots that
have done their part, whether CNC has a part in it, its staging half, the decoding state it starts from, whether SLI read a
pennant, the parsed cells, the state after the row, the staged cells, P5's result.
[DESIGN CHOICE, unsafe, log 50] -/
structure RowJob where
  frame : Nat
  win : Nat
  kind : RowKind
  band : Nat
  y : Nat
  cols : List Nat
  ended : Nat
  conc : Bool
  half : Nat
  start : Option SegState
  pen : Bool
  syn : List CellSyn
  after : Option SegState
  cells : List StagedCell
  res : Nat
  deriving DecidableEq, Repr

/-- A band buffer in use (R317): its frame and band, RANK and SEL by cabinet column (unlisted: 0 and slot 0).
[DESIGN CHOICE, unsafe, log 50] -/
structure BandBuf where
  frame : Nat
  band : Nat
  tab : List (Nat × (Nat × Bool))
  deriving DecidableEq, Repr

/-- A refresh request that is to be sent as a ring frame, under an entry of the engine's management slot (R255, R330, R531). -/
structure RefreshReq where
  mslot : Nat
  keyid : Option Nat
  tenant : Nat
  fnum : Nat
  causes : Nat
  count : Nat
  x0 : Nat
  y0 : Nat
  x1 : Nat
  y1 : Nat
  deriving DecidableEq, Repr

/-- The decode side of the slice engines (R312 to R339): the frame whose D(N) is open, the windows, the band buffers, the bands
closed and the bands the light path has started, the rows in each engine, the engines whose row in hand a band close abandoned,
what has been raised in this frame, whether the references still have to exchange roles.
[DESIGN CHOICE, unsafe, log 50] -/
structure DecSt where
  open_ : Option Nat
  wins : List (Nat × Win)
  bufs : List (Nat × BandBuf)
  closed : List Nat
  started : List Nat
  engines : List (Nat × List RowJob)
  late : List Nat
  nextUnit : Nat
  raised : List Nat
  swapDue : Bool
  refresh : List RefreshReq
  deriving DecidableEq, Repr

def DecSt.reset : DecSt := ⟨none, [], [], [], [], [], [], 0, [], false, []⟩



/-- A frame in an egress queue (R491, R504): its class rank 1 to 5, whether it is in transit, its bytes without the FCS, and
whether it ends with an inverted FCS (R501). -/
structure RFrame where
  cls : Nat
  transit : Bool
  bytes : List Byte
  bad : Bool
  deriving DecidableEq, Repr

/-- Preemption verification of a port (R487). -/
inductive Verify where
  | none | running | verified | failed
  deriving DecidableEq, Repr

/-- A ring port beyond its registers (R487, R503, R504, R507): the frames queued for it, whether a hold runs and has raised
source 105, verification and the verify mPackets sent, the gate list (duration in ticks, gates) with the entry that it is at, the
list that waits for its cycle, the frame started last, the wall-frame range of a planned break (R563). -/
structure RingPort where
  queue : List RFrame
  holding : Bool
  verify : Verify
  verifies : Nat
  gcl : List (Nat × Nat)
  entry : Nat
  gclNext : Option (List (Nat × Nat))
  tx : Option RFrame
  deriving DecidableEq, Repr

/-- A duplicate window (R500): port 0 or 1, or 2 for local delivery; the source address; the highest number marked; the numbers
marked. -/
structure DupWin where
  who : Nat
  src : Nat
  hi : Nat
  marks : List Nat
  deriving DecidableEq, Repr

/-- An entry of the wall map (R524). -/
structure MapEntry where
  x0 : Nat
  y0 : Nat
  wc : Nat
  hc : Nat
  en : Nat
  deriving DecidableEq, Repr

/-- A VIDEO replay record (R495). -/
structure VReplay where
  sender : Nat
  tenant : Nat
  keyid : Nat
  hi : Nat
  seen : List Nat
  deriving DecidableEq, Repr

/-- The reassembly of a sender and tenant (R493): KEYID and COUNTER of the last frame taken, the bytes of the unit in hand,
whether bytes are discarded until the next UOFF. -/
structure Reasm where
  sender : Nat
  tenant : Nat
  keyid : Nat
  ctr : Nat
  buf : List Byte
  skip : Bool
  deriving DecidableEq, Repr

/-- The ring unit beyond its registers: the HSR sequence number of the last frame, the wall map, the ports, the duplicate windows,
the node table, the token buckets of the policers (tokens in millionths of a bit, time of the last count), whether this frame
period has raised sources 98 and 99, the VIDEO replay pool, reassembly, the counters of unauthenticated VIDEO by tenant, the
BULK payloads delivered to the command core (sender, bytes); parameters of RING_CFG SUB 0 and 1 that wait for their hoist (R28). -/
structure RingSt where
  seqNo : Nat
  map : List (Nat × MapEntry)
  p0 : RingPort
  p1 : RingPort
  dups : List DupWin
  nodes : List Nat
  pols : List (Nat × (Nat × Nat))
  polDrop : Bool
  authDrop : Bool
  period : Nat
  vreps : List VReplay
  reas : List Reasm
  uctr : List (Nat × Nat)
  bulk : List (Nat × List Byte)
  cfgDue : List (List Byte)
  deriving DecidableEq, Repr

def RingPort.reset : RingPort := ⟨[], false, .none, 0, [(0, 0x1F)], 0, none, none⟩

def RingSt.reset : RingSt := ⟨0, [], .reset, .reset, [], [], [], false, false, 0, [], [], [], [], []⟩

/-- A hoist schedule (R517, R518), with the first frame that it governs as a whole frame number. -/
structure Sched where
  sseq : Nat
  epoch : Nat
  period : Nat
  latency : Nat
  n0 : Nat
  suml : Nat
  deriving DecidableEq, Repr

/-- The TSU beyond its registers (R514 to R519): the ring time known last, whether the TSU holds time, the whole N0 and SUML of
the schedule in force, whether source 102 is still to be raised for it, the schedules that govern next, one taken in before time is
held, whether a hoist has come since a schedule is in force, the LATENCY in use, the live domains with stepsRemoved, the
consecutive good Syncs, whether Sync from the standby ensign is accepted, the sequence number of the last Sync sent. -/
structure Tsu where
  now : Nat
  held : Bool
  n0 : Nat
  suml : Nat
  fresh : Bool
  next : List Sched
  waiting : Option Sched
  ran : Bool
  lat : Nat
  doms : List (Nat × Nat)
  good : Nat
  acting : Bool
  syncSeq : Nat
  deriving DecidableEq, Repr

def Tsu.reset : Tsu := ⟨0, false, 0, 0, false, [], none, false, 0, [], 0, false, 0⟩


/-- A band load of a lane (R380): band, first lamp index, number of codes, where its codes lie in SPM; beside SPM the codes of a load
for which the half owns no bank with room. -/
structure BandLoad where
  band : Nat
  start : Nat
  count : Nat
  place : Option Nat
  codes : List Nat
  deriving DecidableEq, Repr

/-- A forward lane beyond its registers (R380, R396, R400 to R412): the next SEQ, its FIFO, whether its data of this frame is
discarded, the bands sent, whether SET_CURRENT of the frame is sent, armed, UNARMED counted in this frame, SEGLOG and the colour
gains sent last, the training attempt, a passage through ALIGN alone, TXINV before the training, consecutive READ_STATUS
time-outs, whether OPENCHAIN lets a READ_STATUS go, raw commands waiting (CMD, ADDR, operands), training wanted, the packets of
the last sending event, its symbols in the line code of R387 (ten bits each, the first sent first, idle runs before a packet shown
by their last one or two). -/
structure Lane where
  seq : Nat
  fifo : List BandLoad
  dropped : Bool
  sent : Nat
  cur : Bool
  armed : Bool
  counted : Bool
  segSent : Nat
  cgSent : List Nat
  attempt : Nat
  alignOnly : Bool
  txBefore : Bool
  missed : Nat
  probe : Bool
  raw : List (Nat × Nat × List Byte)
  want : Bool
  tx : List (List Byte)
  sym : List Nat
  deriving DecidableEq, Repr

/-- The command outstanding on a return lane (R398). -/
inductive LaneCmd where
  | enum (token : Nat)
  | status (first : Nat) (count : Nat)
  deriving DecidableEq, Repr

/-- A band that the light path has started and not read whole (R319): the band table as it stood, the halves that have read it. -/
structure LpBand where
  frame : Nat
  band : Nat
  tab : List (Nat × (Nat × Bool))
  halves : Nat
  deriving DecidableEq, Repr

/-- A CAL_LOAD in progress (R385): command, module, header, line writes without response, whether the copy is whole. -/
structure CalRun where
  cmd : Nat
  mod : Nat
  hdr : List Byte
  left : Nat
  ready : Bool
  deriving DecidableEq, Repr

/-- The light path beyond its registers: lanes, outstanding commands by return lane, bands started, bands of the frame started (mask),
sums and bands packed by module, K as it stood when D(N) opened, LP_PAT and LP_PATLVL in force, generators held by a short, the
frame and subperiod whose pulses run, whether LATCH of the frame is past, the first frame that may be latched after PNCLK's
release, calibration loads, lamps to be masked (module, index), the frames for whose hoist the panel was being loaded when the LSQs
were retired (by half, R174). -/
structure LpSt where
  lanes : List (Nat × Lane)
  rets : List (Nat × (Nat × LaneCmd))
  bands : List LpBand
  started : Nat
  sums : List (Nat × (Nat × Nat × Nat))
  packed : List (Nat × Nat)
  ks : List (Nat × Nat)
  pat : W64
  lvl : W64
  shortG : Nat
  sub : Option (Nat × Nat)
  latched : Bool
  firstFrame : Nat
  cals : List CalRun
  masks : List (Nat × Nat)
  retired : List (Nat × Nat)
  deriving DecidableEq, Repr

def Lane.reset : Lane := ⟨0, [], false, 0, false, false, false, 7, [], 0, false, false, 0, false, [], false, [], []⟩

def LpSt.reset : LpSt := ⟨[], [], [], 0, [], [], [], 0, 0, 0, none, false, 0, [], [], []⟩

/-- A channel of the SENSE port (R474 to R478): the sum and number of its samples in this frame, its run of identical samples, its
valid samples since OPENLOOP set, its last sixteen samples. -/
structure SenseCh where
  sum : Nat
  count : Nat
  run : Nat
  valid : Nat
  recent : List Nat
  deriving DecidableEq, Repr

/-- The budget arbiter beyond its registers (R459 to R481): BUDGET_CFG SUB 0 completed; the lease in hand for the next frame; the
last LEASE fixed; the frame whose grant is fixed; the frame last reported; the figures mled of the frame reported and of the
frame before; figures and CUT of the frame that is lit; runs of budget-limited and of not limited frames; Half-Mast due for
EMERG; the reports of the frame in hand and the cabinets whose report failed the echo check; the leases of the own last solve and of the
last blocks of each solver (sender, frame, by cabinet);
whether SLDIFF has counted this frame; the sources raised in this frame; BUDGET_CFG forms that wait; the first frame of a Show
mode; the SENSE channels; consecutive low reads of SNS_ALERT_N, over-limit reads, words that failed. -/
structure BaSt where
  configured : Bool
  lease : Option Nat
  last : Option Nat
  fixed : Option Nat
  reported : Option Nat
  mled : List (Nat × Nat)
  mledOld : List (Nat × Nat)
  lit : Option (Nat × List (Nat × Nat) × Nat)
  limRun : Nat
  freeRun : Nat
  emergDue : Bool
  reports : List (Nat × Nat)
  rejs : List Nat
  own : Option (Nat × List (Nat × Nat))
  other : List (Nat × Nat × List (Nat × Nat))
  slCounted : Bool
  raised : List Nat
  pend : List (List Byte)
  first : Bool
  chans : List (Nat × SenseCh)
  alert : Nat
  overRun : Nat
  bad : Nat
  deriving DecidableEq, Repr

def SenseCh.reset : SenseCh := ⟨0, 0, 0, 0, []⟩

def BaSt.reset : BaSt :=
  ⟨false, none, none, none, none, [], [], none, 0, 0, false, [], [], none, [], false, [], [], true, [], 0, 0, 0⟩


/-- A unit in a send queue (R354, R366): its frame, its bytes, each with whether it lies in a segment payload; the bits that the
policer counts for it; of a feed's slice, its cells and those that are SHARED once it is sent. -/
structure SendUnit where
  frame : Nat
  bytes : List (Byte × Bool)
  bits : Nat
  slice : Bool
  cells : List Nat
  mends : List Nat
  deriving DecidableEq, Repr

/-- What a feed and a playout channel have in common (R357, R493): the send queue, the bytes queued for the frame in hand, the token
bucket in units of 1/65,536 bit with the time of its last count, the bytes of the frame that have left the queue and not yet gone
in a VIDEO frame, the offsets in them at which units start, the time at which the last STREAM unit left.
[DESIGN CHOICE, unsafe, log 59] -/
structure Sender where
  queue : List SendUnit
  qbytes : Nat
  tokens : Option Nat
  tlast : Nat
  pack : List (Byte × Bool)
  starts : List Nat
  stream : Option Nat
  deriving DecidableEq, Repr

/-- A slice of a feed's frame (R348): its number, its rectangle in window cells, its segments (cabinet, left edge, width). -/
structure FSlice where
  idx : Nat
  x : Nat
  y : Nat
  w : Nat
  h : Nat
  segs : List (Nat × Nat × Nat)
  deriving DecidableEq, Repr

/-- A feed beyond its registers (R341 to R360): the first frame it may bind, whether it has passed the checks and has not ended, a
stop to come, the buffer posted last, its first frame, the frame in hand with its buffer, whether it is KEY, whether it has no
source, the frame its DELTA slices refer to; the last frame with slices; slices in dispatch order; qpf, b_done, t_done; DESYNC cells, those mended and those broken in
this frame; rectangles of refresh requests; cell alphas of the reference and of the build buffer; the proxies of this frame and of the one before
(R350: the mean of G over each 8 × 8 block, numbered in raster order of the region); the sources raised. -/
structure Feed where
  start : Nat
  live : Bool
  stopping : Bool
  posted : Option Nat
  first : Option Nat
  cur : Option Nat
  buf : Option Nat
  key : Bool
  nosrc : Bool
  refF : Option Nat
  lastF : Option Nat
  slices : List FSlice
  qpf : Nat
  bDone : Nat
  tDone : Nat
  desync : List Nat
  mended : List Nat
  broken : List Nat
  rects : List (Nat × Nat × Nat × Nat)
  alphas : List (Nat × Nat)
  build : List (Nat × Nat)
  proxy : List (Nat × Nat)
  proxyPrev : List (Nat × Nat)
  raised90 : Bool
  raised94 : Bool
  out : Sender
  deriving DecidableEq, Repr

/-- A slice in an encode engine: feed, slice, its QP, its target bits. -/
structure EncJob where
  feed : Nat
  slice : FSlice
  qp : Nat
  target : Nat
  deriving DecidableEq, Repr

/-- A clip as PLAY has found it (R361, R363). -/
structure Clip where
  num : Nat
  addr : Nat
  len : Nat
  nframes : Nat
  index : Nat
  tenant : Nat
  stream : List Byte
  deriving DecidableEq, Repr

/-- A pending PLAY (R365): command, action, END, REPEAT, SHARE, Ns (none: at once), start frame, clip. -/
structure Play where
  cmd : Nat
  action : Nat
  end_ : Nat
  rept : Nat
  share : Nat
  ns : Option Nat
  start : Nat
  clip : Option Clip
  deriving DecidableEq, Repr

/-- A playout channel beyond its registers (R366, R367): the clip in hand with END, REPEAT and SHARE, the next clip frame and how many
wall frames have shown it, L, a pending PLAY, the frame in hand, the index entry and units awaited for it, whether source 94 is raised. -/
structure Ply where
  clip : Option Clip
  end_ : Nat
  rept : Nat
  share : Nat
  i : Nat
  r : Nat
  l : Option Nat
  pend : Option Play
  cur : Option Nat
  index : Bool
  units : Option (Nat × Nat)
  raised94 : Bool
  out : Sender
  deriving DecidableEq, Repr

/-- A CLIP_ADD or PLAY that reads DRAM (R364, R365): command, how far it is (0 catalogue line, 1 header, 2 index, 3 catalogue write),
the catalogue entry, the header, the index entry that is looked at, Ns of a PLAY, whether a read was pennanted. -/
structure ClipRun where
  cmd : Nat
  phase : Nat
  entry : List Byte
  hdr : List Byte
  i : Nat
  ns : Option Nat
  bad : Bool
  deriving DecidableEq, Repr

def Sender.reset : Sender := ⟨[], 0, none, 0, [], [], none⟩

def Feed.reset : Feed :=
  ⟨0, false, false, none, none, none, none, false, false, none, none, [], 0, 0, 0, [], [], [], [], [], [], [], [], false, false, .reset⟩

def Ply.reset : Ply := ⟨none, 0, 1, 0, 0, 0, none, none, none, false, none, false, .reset⟩


/-- A multiply or a divide in flight (R194, R195): the product, or quotient, remainder and whether the divisor is zero. -/
inductive CcFlight where
  | mul (lo hi : W32)
  | div (q r : W32) (dz : Bool)
  deriving DecidableEq, Repr

/-- The instructions that wait (R190, R198). -/
inductive CcWait where
  | wfi | fence | lmov
  deriving DecidableEq, Repr

/-- A line move in progress (R198): its number, the address of its descriptor in HB, whether DRAM is written, the DRAM address, the
local store and address in it, the lines, the requests without response, whether a line was pennanted, whether one failed. -/
structure Lmov where
  id : Nat
  desc : Nat
  out : Bool
  daddr : Nat
  st : StoreSel
  laddr : Nat
  count : Nat
  left : Nat
  pen : Bool
  failed : Bool
  deriving DecidableEq, Repr

/-- A hook that is due (R215): its number, g5, the command of CMD. -/
structure HookDue where
  k : Nat
  arg : Nat
  cmd : Option Nat
  deriving DecidableEq, Repr

/-- A hook that runs: the return address in g31, the PC and level that it interrupted, whether it has issued a write that R119 or R597
discards. -/
structure HookRun where
  due : HookDue
  ret : W32
  pc : W32
  pl : Nat
  busy : Bool
  deriving DecidableEq, Repr

/-- A customer instruction in progress (R211): opcode, rd, its address, the address after it, the
PC that the microcode has set, the instruction word, the way by which its microcode has come to a service entry of the ROM
(R212: true by CALL), the RBUS strobes that have not acted yet (R153). -/
structure CxRun where
  cx : Nat
  rd : Nat
  pc : W32
  next : W32
  target : Option W32
  word : W32
  entry : Option Bool
  rbus : Nat
  deriving DecidableEq, Repr

/-- The command core beyond its registers (R183 to R216): g registers (0 to 15, 16 to 31 main bank, 32 to 47 shadow bank), PC, STAT,
MQL, MQH, multiplies and divides in flight in the order of their starts, line moves, what the instruction in hand waits for, a
customer instruction, hooks due and the one that runs, whether BOOT is still to return, whether no instruction has completed since
RTT, whether a STEP runs, whether it has completed its instruction (R576); MODEL: the HB word and byte mask that the core's port
wrote in the present CCLK, for R114; STAT[11:0] as of the last completed instruction (R218). -/
structure CcSt where
  g : List (Nat × W32)
  pc : W32
  stat : W32
  mql : W32
  mqh : W32
  flights : List CcFlight
  lmovs : List Lmov
  nextLmov : Nat
  wait : Option CcWait
  cx : Option CxRun
  hooks : List HookDue
  hook : Option HookRun
  booting : Bool
  afterRtt : Bool
  step : Bool
  stepped : Bool
  portA : Option (Nat × Nat)
  statv : BitVec 12
  deriving DecidableEq, Repr

/-- The command core at its release (R183). -/
def CcSt.reset : CcSt :=
  ⟨[], 0x01000000, 0x42, 0, 0, [], [], 0, none, none, [], none, false, false, false, false, none, 0x42⟩

/-- A loopback in progress (R558 to R562): kind, depth, unit, command, its 32 parameter bytes; of a memory depth the next line
(writes first, then reads), the state of its pattern generator, lines in error, the first of them, symbols corrected; whether it has
met a fault, whether a stop has come, requests without response. -/
structure Loop where
  kind : Nat
  depth : Nat
  unit : Nat
  cmd : Nat
  params : List Byte
  pos : Nat
  lfsr : Nat
  errors : Nat
  first : Option Nat
  corr : Nat
  fault : Bool
  stopping : Bool
  left : Nat
  deriving DecidableEq, Repr

/-- A planned break (R563): cabinet, port, first frame, frames. -/
structure Grant where
  cab : Nat
  port : Nat
  first : Nat
  frames : Nat
  deriving DecidableEq, Repr

/-- The self-test in progress (R565): its command, its items, the slice engines and the SPM banks under test. -/
structure SelfTest where
  cmd : Nat
  items : Nat
  engines : Nat
  banks : List Nat
  deriving DecidableEq, Repr

/-- DBGACC (R571): DONE, ERR and DATA of the previous access, and the access that waits for its answer. -/
structure DbgAcc where
  done : Bool
  err : Bool
  data : W64
  wait : Option HptReq
  deriving DecidableEq, Repr

/-- The TDU beyond its registers (R558 to R583): the trace FIFO, packets lost and not reported, bytes since the last Sync packet, the
trace buffer; a Halt request that waits for BUSY; the JTAG instruction, the boundary cells, the result of the last DBGACC (busy,
error, data); loopbacks, grants of this engine's ports, grants held by the wall, the self-test in progress. -/
structure TduSt where
  fifo : List Byte
  owed : Nat
  sinceSync : Nat
  buf : List (Nat × Byte)
  haltReq : Option Nat
  ir : Nat
  cells : BitVec 290
  acc : DbgAcc
  loops : List Loop
  grants : List Grant
  walls : List Grant
  selftest : Option SelfTest
  deriving DecidableEq, Repr

def TduSt.reset : TduSt := ⟨[], 0, 0, [], none, 0x3F, 0, ⟨false, false, 0, none⟩, [], [], [], none⟩

/-- The whole state of the block. -/
structure State where
  /-- the build the engine was delivered as (R2) -/
  build : Build
  /-- the register file: window offset and value; an offset that is not listed holds its reset value -/
  rf : List (Nat × W64)
  ao : Ao
  hpt : Hpt
  dic : Dic
  hb : Store
  spm : Store
  /-- corrected bytes waiting to be written back (R109) -/
  fixups : List Fixup
  /-- scrubs in progress, by space (R135) -/
  scrubs : List (Nat × ScrubRun)
  mpt0 : MptPort
  mpt1 : MptPort
  /-- lines delivered to a unit and not yet consumed -/
  lines : List Delivery
  /-- the writable control stores: sequencer * 2^14 + address; an unlisted word is the fill word (R161) -/
  cstore : List (Nat × BitVec 184)
  seqs : List (Nat × Seq)
  cmds : Cmds
  keys : List (Nat × KeySlot)
  replays : List Replay
  tenants : List (Nat × Tenant)
  trip : Trips
  /-- the pulse units, by number -/
  pus : List (Nat × Pu)
  /-- the timers, by number -/
  tmrs : List (Nat × Tmr)
  /-- the timers whose capture event has occurred and whose capture is due (R449) -/
  tmrDue : Nat
  /-- the decode side of the slice engines -/
  dec : DecSt
  /-- the ring unit -/
  ring : RingSt
  /-- the time unit -/
  tsu : Tsu
  /-- the light path and the Lamp Link -/
  lp : LpSt
  /-- the budget arbiter -/
  ba : BaSt
  /-- the feeds, the slices in encode engines, the playout channels, the commands that read clips -/
  feeds : List (Nat × Feed)
  encs : List (Nat × EncJob)
  plys : List (Nat × Ply)
  clipRuns : List ClipRun
  /-- the command core -/
  cc : CcSt
  /-- the test and debug unit -/
  tdu : TduSt
  /-- units whose declared OFF is in effect (R267), as 64 × CLASS + INDEX -/
  unitOff : List Nat
  /-- the wall frame of the last hoist (R520) -/
  frame : Nat
  /-- the commands that wait, first in, first out -/
  pending : List Instr
  /-- MODEL: the number of free values drawn so far -/
  freeCtr : Nat
  deriving DecidableEq, Repr

/-- A store after the fill (R116). -/
def Store.zero : Store := ⟨[], []⟩

/-- A memory port after a reset: nothing is requested, and it waits for MPTn_IDLE (R60). -/
def MptPort.idle : MptPort := ⟨[], [], true, 0, []⟩

/-- A clock domain that has not been released yet. -/
def ClkState.unlocked : ClkState := ⟨true, 0, false, false⟩

/-- The always-on island after the release of a power-on reset, before PWRGOOD rises (R94).
[DESIGN CHOICE, unsafe, log 8] -/
def Ao.reset : Ao :=
  { supplies := true, porHeld := false, engHeld := false, engDis := false, pwrgood := false, wakeLvl := 0, snsAlert := false,
    filling := false, coreHeld := true, wdogExpired := false, cclk := .unlocked, pnclk := .unlocked, refAbsent := false,
    modeWait := none, sleep := .none, sleepCmd := none, sleepTo := 1, saved := none, savedAt := 0, savedHb := [], wakeHeld := false, waking := false, heldFrame := none,
    heldMode := 3, softPending := none }

def Hpt.reset : Hpt := ⟨false, false, []⟩

def Dic.reset : Dic := ⟨[], [], [], none, []⟩

def Cmds.reset : Cmds := ⟨0, [], 8, [], [], 0, [], false, [], [], [], [], []⟩

/-- The state right after a power-on reset has been released and before PWRGOOD has risen (R94): every register at the value of
its Reset column, the stores empty, nothing in flight.
[DESIGN CHOICE, unsafe, log 8] -/
def State.reset : State :=
  { build := Config.build, rf := [], ao := .reset, hpt := .reset, dic := .reset, hb := .zero, spm := .zero, fixups := [],
    scrubs := [], mpt0 := .idle, mpt1 := .idle, lines := [], cstore := [], seqs := [], cmds := .reset, keys := [],
    replays := [], tenants := [], trip := ⟨0, 0, 0, 0⟩, pus := [], tmrs := [], tmrDue := 0, dec := .reset, ring := .reset, tsu := .reset, lp := .reset, ba := .reset,
    feeds := [], encs := [], plys := [], clipRuns := [],
    cc := .reset, tdu := .reset, unitOff := [], frame := 0, pending := [], freeCtr := 0 }

end Sys2Proof.Machine
end

