-- ==== Sys2Proof/Machine/Ops.lean ====
section
/-!
DEFINITION. The named operations that every unit uses: the register file, the modes, free values, the doorbell sources and
the wake events.
-/

namespace Sys2Proof.Machine

/-- The answer of a meaning that has its effect. -/
abbrev Answer := Host.Outcome State Fault Refusal

/-! ### The register file (R18 to R22, R64) -/

/-- The value of the register at a window offset. -/
def State.reg (s : State) (off : Nat) : W64 := SMap.get (regReset s.build) s.rf off

/-- Set the register at a window offset. -/
def State.setReg (s : State) (off : Nat) (v : W64) : State :=
  { s with rf := SMap.put (regReset s.build) s.rf off v }

/-- The value of a register field. -/
def State.fld (s : State) (f : FRef) : Nat := getBits (s.reg f.off) f.lo f.w

/-- Is a register field not zero? -/
def State.flag (s : State) (f : FRef) : Bool := s.fld f != 0

/-- Set a register field. -/
def State.setFld (s : State) (f : FRef) (v : Nat) : State :=
  s.setReg f.off (setBits (s.reg f.off) f.lo f.w v)

/-- Set or clear a one-bit field. -/
def State.setFlag (s : State) (f : FRef) (b : Bool) : State := s.setFld f (b2n b)

/-- Count in a field that saturates at its largest value. -/
def State.bump (s : State) (f : FRef) (d : Nat) : State := s.setFld f (satAdd (s.fld f) d (2 ^ f.w - 1))

/-! ### Free values -/

/-- The next free value, `w` bits wide.
[DESIGN CHOICE, safe, log 2] -/
def State.free (s : State) (w : Nat) : Nat := (Config.freeValue w s.freeCtr).toNat

/-- One free value has been drawn.
[DESIGN CHOICE, safe, log 2] -/
def State.drew (s : State) : State := { s with freeCtr := s.freeCtr + 1 }

/-! ### Modes (R80) -/

namespace Mode
abbrev off : Nat := 0x0
abbrev furled : Nat := 0x1
abbrev watch : Nat := 0x2
abbrev rigging : Nat := 0x3
abbrev standby : Nat := 0x4
abbrev relay : Nat := 0x5
abbrev display : Nat := 0x6
abbrev halfMast : Nat := 0x7
abbrev calibrate : Nat := 0x8
abbrev test : Nat := 0x9
abbrev dark : Nat := 0xA
abbrev halt : Nat := 0xB
end Mode

/-- The present mode. -/
def State.mode (s : State) : Nat := s.fld F.AO_MODE_MODE

/-- Make a transition: LAST takes the mode before it (R80). -/
def State.setMode (s : State) (m : Nat) : State :=
  (s.setFld F.AO_MODE_LAST s.mode).setFld F.AO_MODE_MODE m

/-- The Show modes of R43: Display, Half-Mast and Calibrate. -/
def showMode (m : Nat) : Bool := m == Mode.display || m == Mode.halfMast || m == Mode.calibrate

/-- The mode whose rules govern: in Halt, the mode that it holds. -/
def State.heldOrMode (s : State) : Nat := if s.mode = Mode.halt then s.ao.heldMode else s.mode

/-- Furled and Watch, in which CCLK is stopped (R68). -/
def State.asleep (s : State) : Bool := s.mode == Mode.furled || s.mode == Mode.watch

/-- Is a reset in effect that covers the core: the power-on reset, the engine reset, the time before PWRGOOD, ENG_DIS, or no
supply at all (R60, R61, R79, R94)? -/
def State.inReset (s : State) : Bool :=
  s.ao.porHeld || s.ao.engHeld || s.ao.engDis || !s.ao.pwrgood || !s.ao.supplies

/-- Does CCLK run, with the core out of reset (R68, R94)?
[DEDUCED, unsafe, log 69] -/
def State.cclkOn (s : State) : Bool := !s.inReset && !s.asleep && s.mode != Mode.off

/-- Do the units that Halt stops do their work: CCLK runs and the engine is not in Halt (R574)? -/
def State.live (s : State) : Bool := s.cclkOn && s.mode != Mode.halt

/-- The work of the CCLK domain, register accesses and commands included: none while CCLK stands still or a reset holds the core
(R60, R61, R68).
[DEDUCED, unsafe, log 69] -/
def whileClocked (s t : State) : State := if s.cclkOn then t else s

/-- Is the AO island powered and out of power-on reset (R61, R79)?
[DEDUCED, unsafe, log 69] -/
def State.aoOn (s : State) : Bool := s.ao.supplies && !s.ao.porHeld && !s.ao.engDis

/-- The work of what goes on while CCLK stands still: the AO island, the clocks, the timers, the TAP.
[DEDUCED, unsafe, log 69] -/
def whilePowered (s t : State) : State := if s.aoOn then t else s

/-- The work of a unit that Halt stops.
[DEDUCED, unsafe, log 69] -/
def whileLive (s t : State) : State := if s.live then t else s

/-! ### The roles (R12, R91) -/

/-- RING_ID.ROLES as RING_CFG byte 1: bit 0 member, bit 1 ensign, bit 2 standby ensign, bit 3 feeder, bit 4 playout. -/
def State.role (s : State) (b : Nat) : Bool := bitOf (s.fld F.RING_ID_ROLES) b

/-- Are the ensign's and the standby ensign's duties active (R91)? -/
def ensignModes (m : Nat) : Bool := m == Mode.relay || showMode m || m == Mode.dark

/-- Are the feeder's and playout's duties active (R91)? -/
def feederModes (m : Nat) : Bool := showMode m || m == Mode.dark

/-- The own cabinet ID, when RING_CFG has set one. -/
def State.cabId (s : State) : Option Nat :=
  if s.fld F.RING_ID_CABID = 0xFFFF then none else some (s.fld F.RING_ID_CABID)

/-! ### Wake events (R87, R88) -/

/-- A wake event has been recorded: in Furled or Watch it starts a wake, while the port goes to sleep it is held, and
otherwise it has no further effect (R87). -/
def State.wakeEvent (s : State) : State :=
  if s.asleep then { s with ao := { s.ao with waking := true } }
  else if s.ao.sleep = .none then s
  else { s with ao := { s.ao with wakeHeld := true } }

/-- Does the AO watcher know the source: the privileged sources, 224 to 287 and 288 to 319 (R551)? -/
def watchable (src : Nat) : Bool := decide (src < 32) || (decide (224 ≤ src) && decide (src < 320))

/-- The enabled watcher entries that name a source. -/
def State.watchers (s : State) (src : Nat) : List Nat :=
  (List.range 64).filter fun w => s.flag (F.DIC_WATCH_EN w) && s.fld (F.DIC_WATCH_SRC w) == src

/-- A raising or assertion of a source in Furled or Watch: HIT, and for the first such raising WSRC; with AO_WAKEEN.WATCHER it
wakes the engine (R551). -/
def State.watchHit (s : State) (src : Nat) : State :=
  if s.asleep && watchable src && !(s.watchers src).isEmpty then
    let first := (List.range 64).all fun w => !s.flag (F.DIC_WATCH_HIT w)
    let s1 := (s.watchers src).foldl (fun t w => t.setFlag (F.DIC_WATCH_HIT w) true) s
    let s2 := if first then s1.setFld F.AO_WAKEST_WSRC src else s1
    if s2.flag F.AO_WAKEEN_WATCHER then (s2.setFlag F.AO_WAKEST_WATCHER true).wakeEvent else s2
  else s

/-! ### Doorbell sources (R537 to R541) -/

/-- Sources that no writer may raise (R541). -/
def reservedSource (src : Nat) : Bool :=
  src == 7 || (decide (16 ≤ src) && decide (src < 32)) || (decide (384 ≤ src) && decide (src < 1024)) || decide (4096 ≤ src)

/-- Add events to a counting source, with saturation at 15 (R539, R540). While CCLK is stopped only the watcher sees a
raising (R551). -/
def State.raiseN (s : State) (src add : Nat) : State :=
  if s.asleep then s.watchHit src
  else if s.inReset then s
  else if decide (src < 32) || reservedSource src then s
  else s.setFld (F.DIC_SRC_COUNT src) (satAdd (s.fld (F.DIC_SRC_COUNT src)) add 15)

/-- A unit raises a counting source once (R540). -/
def State.raise (s : State) (src : Nat) : State := s.raiseN src 1

/-- The conditions of the privileged level sources (R538), SWA apart. -/
def State.condition (s : State) (src : Nat) : Bool :=
  match src with
  | 0 => (List.range 18).any fun k => s.fld (F.SQ_STAT_STATE (k + 1)) == 3
  | 1 => s.trip.asserted != 0 || s.fld F.TRIP_LATCH_LATCH != 0 || s.flag F.TRIP_LATCH_SW
  | 2 => s.flag F.BA_STAT_EMERG
  | 3 => s.flag F.AO_CLKST_PN_FAIL || s.flag F.AO_CLKST_REF_LOST
  | 4 => s.flag F.AO_WDOG_WARNED
  | 5 => s.flag F.AO_WAKEST_AUTHFAIL || s.flag F.AO_WAKEST_WATCHER || s.flag F.AO_WAKEST_RING || s.flag F.AO_WAKEST_HPT
      || s.flag F.AO_WAKEST_PIN
  | 6 => s.mode == Mode.dark
  | 8 | 9 | 10 | 11 | 12 | 13 | 14 | 15 => bitOf (s.fld F.DIC_EDGE_EDGE) (src - 8)
  | _ => false

/-- Is a level source asserted: by its condition, or by a doorbell write (R538)? -/
def State.asserted (s : State) (src : Nat) : Bool := s.condition src || s.flag (F.DIC_SRC_SWA src)

/-- Is a source pending (R539)? -/
def State.pend (s : State) (src : Nat) : Bool :=
  if src < 32 then s.asserted src else s.fld (F.DIC_SRC_COUNT src) != 0

/-- The privileged level sources may be watched in Furled and Watch: an assertion hits (R551). -/
def State.assertWatch (s : State) (src : Nat) : State := s.watchHit src

/-! ### Memory ports -/

/-- The state of memory port n. -/
def State.port (s : State) (n : Nat) : MptPort := if n = 0 then s.mpt0 else s.mpt1

def State.setPort (s : State) (n : Nat) (p : MptPort) : State :=
  if n = 0 then { s with mpt0 := p } else { s with mpt1 := p }

/-- A unit queues a request for a memory port (R57). -/
def State.mptQueue (s : State) (n : Nat) (r : MptReq) : State :=
  s.setPort n { s.port n with queue := (s.port n).queue ++ [r] }

/-! ### Sequencers -/

/-- A stage that has never been started. -/
def Stage.idle : Stage := ⟨false, false, []⟩

/-- A sequencer after a reset (R101: sequencer state is D). -/
def Seq.reset : Seq :=
  { lc0 := 0, lc1 := 0, z := false, n := false, c := false, v := false, mdr := 0, mar := 0, memRdy := false, memPen := false,
    w := [], p := [], stack := [], latch := 0, mem := [], barrier := none, stages := [] }

def State.seq (s : State) (q : Nat) : Seq := SMap.get (fun _ => Seq.reset) s.seqs q

def State.setSeq (s : State) (q : Nat) (x : Seq) : State :=
  { s with seqs := SMap.put (fun _ => Seq.reset) s.seqs q x }

/-- Is sequencer q present on the build (R139)? -/
def seqPresent (b : Build) (q : Nat) : Bool :=
  q == 0 || (decide (1 ≤ q) && decide (q ≤ seCount b)) || q == 17 || q == 18

end Sys2Proof.Machine
end

