-- ==== Sys2Proof/Machine/RegBase.lean ====
section
/-!
DEFINITION. The plain semantics of a register write (R18 to R21, R50, R64): access codes, locks, reserved encodings, byte
enables, and the registers of absent units (R5).
-/

namespace Sys2Proof.Machine

/-- The 64 bits that a byte-enable pattern covers. -/
def beMask (be : Nat) : W64 :=
  BitVec.ofNat 64 (((List.range 8).filter (bitOf be)).foldl (fun a k => a + 0xFF * 2 ^ (8 * k)) 0)

/-- A register of a unit that the build lacks (SE4 to SE15, PSQ4 to PSQ15, MPT1, the feeds and playout): it reads as zero and
discards writes (R5, R340). -/
def absentReg (b : Build) (off : Nat) : Bool :=
  b == .d && ((decide (0x104000 ≤ off) && decide (off < 0x110000)) || (decide (0x081400 ≤ off) && decide (off < 0x082000))
    || (decide (0x041000 ≤ off) && decide (off < 0x042000)) || (decide (0x120000 ≤ off) && decide (off < 0x140000)))

/-- The lock of the RWL fields of the register at an offset (R18, R19). -/
def lockOf (off : Nat) : FRef :=
  if off = 0x010008 then F.AO_CLKCFG_LOCK
  else if off < 0x020000 then F.AO_WDOG_LOCK
  else if off < 0x040000 then F.CMD_KEYCTL_LOCK
  else if off < 0x100000 then F.SEQ_CFG_LOCK
  else if off < 0x300000 then F.TRIP_LOCK_LOCK
  else if off < 0x400000 then F.BA_LOCK_LOCK
  else F.TDU_CFG_LOCK

/-- The new contents of one field under its access code: `old` is the register before the write (R18, R21).
[DEDUCED, unsafe, log 18] -/
def mergeFld (locked : Bool) (i : Nat) (f : FDesc) (en data old acc : W64) : W64 :=
  let fm : W64 := BitVec.ofNat 64 ((2 ^ f.w - 1) * 2 ^ f.lo)
  if fm &&& en = 0 then acc else
  let merged := (old &&& ~~~en) ||| (data &&& en)
  let v := getBits merged f.lo f.w &&& f.mask
  let place := fun (x : Nat) => (acc &&& ~~~fm) ||| BitVec.ofNat 64 (x * 2 ^ f.lo)
  match f.acc with
  | .ro => acc
  | .wo => acc
  | .rw => if f.enc i v then place v else acc
  | .rwl => if locked then acc else if f.enc i v then place v else acc
  | .w1c => acc &&& ~~~(data &&& en &&& fm)

/-- May the writer write the register at all (R186)? -/
def mayWrite (w : Writer) (g : RegGrp) (i : Nat) : Bool := !g.machineOnly i || w == .core 2

/-- The value of a register after a write that has no behaviour of its own.
[DEDUCED, unsafe, log 18] -/
def State.written (s : State) (w : Writer) (off be : Nat) (data : W64) : W64 :=
  match regAt off with
  | none => s.reg off
  | some (g, i) =>
    if !mayWrite w g i || absentReg s.build off then s.reg off
    else g.flds.foldl (fun acc f => mergeFld (s.flag (lockOf off)) i f (beMask be) data (s.reg off) acc) (s.reg off)

/-- A write of a register without behaviour of its own. -/
def State.plainWrite (s : State) (w : Writer) (off be : Nat) (data : W64) : State := s.setReg off (s.written w off be data)

/-- The present wall frame number, the frame of the last hoist, and R283: the frame nearest to it that a 32-bit field can
mean; the later one when two are equally near. -/
def resolveFrame (cur fnum : Nat) : Int :=
  let c : Int := cur
  let base : Int := c - c % 4294967296 + fnum
  let d : Int := base - c
  if d > 2147483648 then base - 4294967296
  else if d ≤ -2147483648 then base + 4294967296
  else base

end Sys2Proof.Machine
end

