-- ==== Sys2Proof/Machine/Unit.lean ====
section
/-!
DEFINITION. Unit states (R263 to R266): observed states, divergence, its cause and its report.
-/

namespace Sys2Proof.Machine

/-! The classes of units (R263). -/
namespace Cls
abbrev se : Nat := 1
abbrev lp : Nat := 2
abbrev lane : Nat := 3
abbrev pu : Nat := 4
abbrev tmr : Nat := 5
abbrev ring : Nat := 6
abbrev mpt : Nat := 7
abbrev ba : Nat := 8
abbrev gclk : Nat := 9
end Cls

/-! The state codes (R264). -/
namespace Obs
abbrev absent : Nat := 0
abbrev off : Nat := 1
abbrev on : Nat := 2
abbrev failed : Nat := 3
abbrev retired : Nat := 4
end Obs

/-! The codes of causes (R588). -/
namespace Cause
abbrev modeset : Nat := 0x00
abbrev pnfail : Nat := 0x01
abbrev reflost : Nat := 0x02
abbrev mptfail : Nat := 0x03
abbrev lsqall : Nat := 0x04
abbrev seall : Nat := 0x05
abbrev mchk : Nat := 0x10
abbrev retired : Nat := 0x11
abbrev noreply : Nat := 0x12
abbrev count : Nat := 0x13
abbrev cableReversed : Nat := 0x14
abbrev laneShort : Nat := 0x15
abbrev gclkShort : Nat := 0x16
abbrev trip : Nat := 0x17
abbrev swtrip : Nat := 0x18
abbrev pushort : Nat := 0x19
abbrev srclost : Nat := 0x1A
abbrev linkdown : Nat := 0x1B
abbrev senselost : Nat := 0x1C
abbrev sensefrozen : Nat := 0x1D
abbrev selftest : Nat := 0x1E
abbrev stopping : Nat := 0x1F
end Cause

/-- The number of a unit's CMD_UST register (R266). -/
def ustIdx (cls idx : Nat) : Nat := 64 * cls + idx

/-- Do a declared and an observed state agree (R264)? -/
def statesAgree (decl obs : Nat) : Bool :=
  (decl == 0 && obs == 0) || (decl == 1 && obs == 1) || (decl == 2 && (obs == 1 || obs == 2))

def State.decl (s : State) (cls idx : Nat) : Nat := s.fld (F.CMD_UST_DECL (ustIdx cls idx))
def State.obs (s : State) (cls idx : Nat) : Nat := s.fld (F.CMD_UST_OBS (ustIdx cls idx))

/-- Compare a unit's states: when DIV changes, FRAME follows, source 159 is raised and a report becomes due; the cause of a new divergence
is recorded (R252, R265, R266, R588). -/
def judgeUnit (cls idx cause : Nat) (s : State) : State :=
  let u := ustIdx cls idx
  let div := !statesAgree (s.fld (F.CMD_UST_DECL u)) (s.fld (F.CMD_UST_OBS u))
  if div == s.flag (F.CMD_UST_DIV u) then s
  else
    let s1 := (s.setFlag (F.CMD_UST_DIV u) div).setFld (F.CMD_UST_FRAME u) (s.frame % 65536)
    let s2 := { s1 with cmds := { s1.cmds with reportDue := true } }.raise 159
    if div then
      let c := if s2.fld (F.CMD_UST_OBS u) = Obs.on ∧ s2.fld (F.CMD_UST_DECL u) = Obs.off then Cause.stopping else cause
      s2.setFld (F.CMD_UST_CAUSE u) c
    else s2

/-- A unit is observed in a state, for a cause. -/
def observe (cls idx obs cause : Nat) (s : State) : State :=
  if unitPresent s.build cls idx then judgeUnit cls idx cause (s.setFld (F.CMD_UST_OBS (ustIdx cls idx)) obs) else s

/-- Is a slice engine under self-test, item 3: it is unavailable meanwhile (R565)? -/
def State.seTested (s : State) (n : Nat) : Bool :=
  match s.tdu.selftest with
  | some x => bitOf x.engines n
  | none => false

/-- Is a unit in service: not declared OFF with effect, which it takes at the hoist (R267), not observed FAILED or RETIRED (R265), not
under self-test (R565)? -/
def State.inService (s : State) (cls idx : Nat) : Bool :=
  unitPresent s.build cls idx && s.obs cls idx != Obs.failed && s.obs cls idx != Obs.retired
    && !s.unitOff.contains (ustIdx cls idx) && !(cls == Cls.se && s.seTested idx)

/-- Do hoists run: a schedule is in force (R518, R520)?
[DEDUCED, unsafe, log 47]
[DEDUCED, unsafe, log 70] -/
def State.hoists (s : State) : Bool := s.fld F.TSU_SCHED1_PERIOD != 0

end Sys2Proof.Machine
end

