-- ==== Sys2Proof/Machine/Trace.lean ====
section
/-!
DEFINITION. The trace port (R580 to R583): packets, the FIFO, the trace buffer.
-/

namespace Sys2Proof.Machine

/-- Reading the TSU's time: a free value that does not lie before the time known last (R516).
[DESIGN CHOICE, safe, log 2]
[DESIGN CHOICE, safe, log 6] -/
def timeRead (s : State) : Nat × State :=
  let t := max s.tsu.now (s.free 64)
  (t, { s.drew with tsu := { s.tsu with now := t } })

/-- Is trace enabled: does TDU_CFG.SINK name a sink (R582)?
[DESIGN CHOICE, unsafe, log 3] -/
def State.tracing (s : State) : Bool := s.fld F.TDU_CFG_SINK != 0

/-- The free bytes of the trace FIFO: TDU_TRST.FREE (R582, R586). -/
def State.traceFree (s : State) : Nat := 4096 - s.tdu.fifo.length

/-- The bytes of a packet: its header, then its payload (R581). -/
def packetBytes (ty : Nat) (payload : List Byte) : List Byte := BitVec.ofNat 8 (16 * ty + payload.length) :: payload

/-- Bytes enter the FIFO.
[DEDUCED, unsafe, log 34] -/
def tracePut (l : List Byte) (s : State) : State :=
  { s with tdu := { s.tdu with fifo := s.tdu.fifo ++ l, sinceSync := s.tdu.sinceSync + l.length } }

/-- A Sync packet, and the TSU_TIME packet after it (R581).
[DEDUCED, unsafe, log 34] -/
def traceSync (s : State) : State :=
  if s.traceFree < 14 then s
  else
    let (t, s1) := timeRead s
    let s2 := tracePut (packetBytes 1 [0xFF, 0xFF, 0xFF, 0x7F] ++ packetBytes 4 (leBytes 8 t)) s1
    { s2 with tdu := { s2.tdu with sinceSync := 0 } }

/-- A packet enters the FIFO whole, or is dropped and counted; after an overflow the TYPE 0x5 packet goes ahead of the next packet
once 16 bytes are free, with a Sync packet (R581, R582).
[DEDUCED, unsafe, log 34] -/
def traceEmit (ty : Nat) (payload : List Byte) (s : State) : State :=
  if !s.tracing then s
  else
    let s1 := if s.tdu.owed != 0 && decide (16 ≤ s.traceFree) then
        let t := tracePut (packetBytes 5 (leBytes 2 (min s.tdu.owed 65535))) s
        traceSync { t with tdu := { t.tdu with owed := 0 } }
      else s
    let b := packetBytes ty payload
    if s1.tdu.owed != 0 || decide (s1.traceFree < b.length) then
      let s2 := s1.bump F.TDU_TRST_LOST 1
      { s2 with tdu := { s2.tdu with owed := s2.tdu.owed + 1 } }
    else
      let s2 := tracePut b s1
      if 4096 ≤ s2.tdu.sinceSync then traceSync s2 else s2

/-- Would TRCLK run above 100 MHz (R580)?
[DESIGN CHOICE, unsafe, log 3] -/
def State.trclkFast (s : State) : Bool :=
  let mhz := if s.flag F.AO_CLKST_CC_SAFE then 100 else 25 * s.fld F.AO_CLKCFG_CCLK_MUL
  decide (100 * 2 ^ (s.fld F.TDU_CFG_TRDIV + 1) < mhz)

/-- Bytes go into the circular trace buffer of 16 KiB (R582).
[DESIGN CHOICE, unsafe, log 3] -/
def traceStore (l : List Byte) (s : State) : State :=
  l.foldl (fun (t : State) (b : Byte) =>
    let p := t.fld F.TDU_TRST_WPTR
    let t1 := { t with tdu := { t.tdu with buf := SMap.put (fun _ => (0 : Byte)) t.tdu.buf p b } }
    let t2 := t1.setFld F.TDU_TRST_WPTR ((p + 1) % 16384)
    if p = 16383 then t2.setFlag F.TDU_TRST_WRAP true else t2) s

/-- The FIFO drains into its sinks (R580, R582). It takes place while no command waits.
[DESIGN CHOICE, unsafe, log 3] -/
def traceDrain (s : State) : State :=
  if s.tdu.fifo.isEmpty || !s.tracing || !s.cclkOn then s
  else if bitOf (s.fld F.TDU_CFG_SINK) 0 && s.trclkFast then s.setFlag F.TDU_STAT_TRERR true
  else
    let s1 := if bitOf (s.fld F.TDU_CFG_SINK) 1 then traceStore s.tdu.fifo s else s
    { s1 with tdu := { s1.tdu with fifo := [] } }

/-- Writes of TDU_STIMk: bits 31:0 with bit k of STIMEN set emit one TYPE 0x3 packet (R583).
[DEDUCED, unsafe, log 66] -/
def stimWrite (k data : Nat) (s : State) : State :=
  if bitOf (s.fld F.TDU_CFG_STIMEN) k then traceEmit 3 (leBytes 1 k ++ leBytes 4 data) s else s

end Sys2Proof.Machine
end

