-- ==== Sys2Proof/Machine/Ecc.lean ====
section
/-!
DEFINITION. Per-byte SEC-DED of SPM and HB (R105 to R109, R131, R134) and the accesses to those stores.
-/

namespace Sys2Proof.Machine

/-- The check bits c4 to c0 of a data byte (R105). -/
def checkBits (d : Byte) : BitVec 5 :=
  let b := fun k => d.getLsbD k
  let c0 := b 0 ^^ b 1 ^^ b 3 ^^ b 4 ^^ b 6
  let c1 := b 0 ^^ b 2 ^^ b 3 ^^ b 5 ^^ b 6
  let c2 := b 1 ^^ b 2 ^^ b 3 ^^ b 7
  let c3 := b 4 ^^ b 5 ^^ b 6 ^^ b 7
  let c4 := b 0 ^^ b 1 ^^ b 2 ^^ b 3 ^^ b 4 ^^ b 5 ^^ b 6 ^^ b 7 ^^ c0 ^^ c1 ^^ c2 ^^ c3
  BitVec.ofNat 5 (b2n c0 + 2 * b2n c1 + 4 * b2n c2 + 8 * b2n c3 + 16 * b2n c4)

/-- How a read classifies a byte (R106). -/
inductive EccOutcome where
  | clean
  | corrected
  | pennant
  | uncorrectable
  deriving DecidableEq, Repr

/-- The data bit at a Hamming position of R105, if the position holds one. -/
def hammingData (pos : Nat) : Option Nat :=
  match pos with
  | 3 => some 0 | 5 => some 1 | 6 => some 2 | 7 => some 3 | 9 => some 4 | 10 => some 5 | 11 => some 6 | 12 => some 7
  | _ => none

/-- The classification of R106. `e` is the stored check bits XOR the recomputed ones: its low four bits are the syndrome s,
and its parity is p, because the check bits of R105 give every byte even parity over 13 bits. The data is returned
corrected. -/
def eccRead (d : Byte) (e : BitVec 5) : EccOutcome × Byte :=
  let syn := e.toNat % 16
  let p := parity e.toNat 5
  if p then
    if syn ≤ 12 then
      (.corrected, match hammingData syn with | some k => d ^^^ (1#8 <<< k) | none => d)
    else (.uncorrectable, d)
  else if syn = 0 then (.clean, d)
  else if syn = 3 then (.pennant, d)
  else (.uncorrectable, d)

/-- The stored check-bit pattern of a pennanted byte: c0 and c1 inverted (R107). -/
def pennantMark : BitVec 5 := 3

/-- The stored data bits of a byte. -/
def Store.dataAt (m : Store) (a : Nat) : Byte := SMap.get (fun _ => (0 : Byte)) m.data a

/-- Stored check bits XOR those that R105 gives for the stored data bits. -/
def Store.chkAt (m : Store) (a : Nat) : BitVec 5 := SMap.get (fun _ => (0 : BitVec 5)) m.chk a

/-- Set both parts of a stored byte. -/
def Store.set (m : Store) (a : Nat) (d : Byte) (e : BitVec 5) : Store :=
  ⟨SMap.put (fun _ => (0 : Byte)) m.data a d, SMap.put (fun _ => (0 : BitVec 5)) m.chk a e⟩

/-- Write one byte with newly computed check bits, or in pennant form (R107, R108). -/
def Store.write (m : Store) (a : Nat) (b : PByte) : Store := m.set a b.v (if b.pen then pennantMark else 0)

/-- Write consecutive bytes (R108). -/
def Store.writeRange (m : Store) (a : Nat) (l : List PByte) : Store :=
  ⟨SMap.splice (fun _ => (0 : Byte)) m.data a (l.map (·.v)),
   SMap.splice (fun _ => (0 : BitVec 5)) m.chk a (l.map fun b => if b.pen then pennantMark else 0)⟩

/-- Invert stored bits of a byte: bits 7:0 are d7 to d0, bits 12:8 are c4 to c0 (R134).
[DEDUCED, unsafe, log 19] -/
def Store.invert (m : Store) (a bits : Nat) : Store :=
  let d := m.dataAt a
  let d' := d ^^^ BitVec.ofNat 8 bits
  m.set a d' (m.chkAt a ^^^ checkBits d ^^^ checkBits d' ^^^ BitVec.ofNat 5 (bits / 256))

/-- What a read of a byte delivers: its corrected data, and a pennant where it could not be corrected (R106, R132). -/
def Store.read (m : Store) (a : Nat) : PByte :=
  let r := eccRead (m.dataAt a) (m.chkAt a)
  ⟨r.2, r.1 == .pennant || r.1 == .uncorrectable⟩

/-- The canonical form of a store. -/
def Store.wf (m : Store) : Bool := SMap.wf (fun _ => (0 : Byte)) m.data && SMap.wf (fun _ => (0 : BitVec 5)) m.chk

def State.store (s : State) : StoreSel → Store
  | .spm => s.spm
  | .hb => s.hb

def State.setStore (s : State) (x : StoreSel) (m : Store) : State :=
  match x with
  | .spm => { s with spm := m }
  | .hb => { s with hb := m }

/-- Count a corrected byte and leave its corrected form for write-back (R109, R131). -/
def noteCorrected (x : StoreSel) (a : Nat) (s : State) : State :=
  let s1 := match x with
    | .spm => s.bump F.SCRUB_CCNT_SPM 1
    | .hb => s.bump F.SCRUB_CCNT_HB 1
  if s1.fixups.contains ⟨x, a⟩ then s1 else { s1 with fixups := s1.fixups ++ [⟨x, a⟩] }

/-- Record the uncorrectable bytes of a word and raise source 327 or 328 (R131, R138). -/
def noteUncorrectable (x : StoreSel) (word bytes : Nat) (s : State) : State :=
  if bytes = 0 then s else
  let s1 := if s.flag F.SCRUB_ERR_VALID then s.setFlag F.SCRUB_ERR_OVF true
    else (((s.setFlag F.SCRUB_ERR_VALID true).setFld F.SCRUB_ERR_STORE (match x with | .spm => 0 | .hb => 1)).setFld
      F.SCRUB_ERR_BYTES bytes).setFld F.SCRUB_ERR_OFFSET (word / 8 * 8)
  s1.raiseN (match x with | .spm => 327 | .hb => 328) (popCount bytes 8)

/-- The effects of a read of the enabled bytes of one 64-bit word: corrections counted and queued, uncorrectable bytes
recorded. -/
def noteRead (x : StoreSel) (word mask : Nat) (s : State) : State :=
  let outcome := fun k => (eccRead ((s.store x).dataAt (word + k)) ((s.store x).chkAt (word + k))).1
  let s1 := ((bitsSet mask 8).filter fun k => outcome k == .corrected).foldl (fun t k => noteCorrected x (word + k) t) s
  noteUncorrectable x word (((bitsSet mask 8).filter fun k => outcome k == .uncorrectable).foldl setBit 0) s1

/-- Read `n` bytes from address `a` of a store. -/
def readBytes (x : StoreSel) (a n : Nat) (s : State) : List PByte :=
  (List.range n).map fun k => (s.store x).read (a + k)

/-- The words that `n` bytes from `a` touch, each with its byte mask. -/
def wordsOf (a n : Nat) : List (Nat × Nat) :=
  if n = 0 then [] else
  (List.range ((a + n - 1) / 8 - a / 8 + 1)).map fun i =>
    let w := (a / 8 + i) * 8
    (w, ((List.range 8).filter fun k => decide (a ≤ w + k) && decide (w + k < a + n)).foldl setBit 0)

/-- The effects of reading `n` bytes from `a`. -/
def noteReads (x : StoreSel) (a n : Nat) (s : State) : State :=
  (wordsOf a n).foldl (fun t p => noteRead x p.1 p.2 t) s

/-- Write bytes to a store; a write cancels a write-back that waits for the byte (R108, R109), and an armed injection corrupts
byte 0 of the written word (R134). -/
def writeBytes (x : StoreSel) (a : Nat) (l : List PByte) (s : State) : State :=
  if l.isEmpty then s else
  let m := (s.store x).writeRange a l
  let s1 := { s.setStore x m with
    fixups := s.fixups.filter fun f => !(f.st == x && decide (a ≤ f.addr) && decide (f.addr < a + l.length)) }
  let tgt := match x with | .spm => 0 | .hb => 1
  if s1.flag F.SCRUB_INJ_ARM && s1.fld F.SCRUB_INJ_TARGET == tgt then
    (s1.setStore x (m.invert (a / 8 * 8) (s1.fld F.SCRUB_INJ_BITS))).setFlag F.SCRUB_INJ_ARM false
  else s1

/-- Plain bytes without pennants. -/
def plain (l : List Byte) : List PByte := l.map fun b => ⟨b, false⟩

/-- Does any byte carry a pennant? -/
def anyPen (l : List PByte) : Bool := l.any (·.pen)

/-- The values of marked bytes. -/
def vals (l : List PByte) : List Byte := l.map (·.v)

/-- The size of SPM on the build, in bytes (R110). -/
def spmSize (b : Build) : Nat := spmBanks b * 0x20000

/-- The size of HB. -/
def hbSize : Nat := 0x40000

def storeSize (b : Build) : StoreSel → Nat
  | .spm => spmSize b
  | .hb => hbSize

/-- The size of the store is that of the build. -/
def zeroBank (b : Nat) (s : State) : State :=
  let out := fun (k : Nat) => !(decide (b * 0x20000 ≤ k) && decide (k < (b + 1) * 0x20000))
  { s with
    spm := ⟨s.spm.data.filter fun p => out p.1, s.spm.chk.filter fun p => out p.1⟩
    fixups := s.fixups.filter fun f => f.st == .hb || out f.addr }

/-- The correction of a byte is written back in a free cycle (R109). -/
def correctionWriteBack (x : StoreSel) (a : Nat) (s : State) : State :=
  if s.fixups.contains ⟨x, a⟩ then
    let r := eccRead ((s.store x).dataAt a) ((s.store x).chkAt a)
    let s1 := { s with fixups := s.fixups.filter fun f => !(f == ⟨x, a⟩) }
    if r.1 = .corrected then s1.setStore x ((s1.store x).set a r.2 0) else s1
  else s

/-- Begin the release of SPM bank b, or give it an owner (R111). -/
def scrubOwnWrite (b v : Nat) (s : State) : State :=
  let own := s.fld (F.SCRUB_OWN_OWNER b)
  if spmBanks s.build ≤ b || own == 0xFF || !ownerCodeOk v then s
  else if v = 0 then (if own = 0 then s else s.setFld (F.SCRUB_OWN_OWNER b) 0xFF)
  else s.setFld (F.SCRUB_OWN_OWNER b) v

/-- The zero fill of a released bank ends: the bank is zero, free, and source 330 is raised (R111, R138). -/
def bankReleaseDone (b : Nat) (s : State) : State :=
  if s.fld (F.SCRUB_OWN_OWNER b) = 0xFF && !(match s.tdu.selftest with | some x => x.banks.contains b | none => false) then ((zeroBank b s).setFld (F.SCRUB_OWN_OWNER b) 0).raise 330 else s

end Sys2Proof.Machine
end

