-- ==== Sys2Proof/Machine/Reply.lean ====
section
/-!
DEFINITION. Accepted commands, their replies, and the writing of replies into the completion rings (R223 to R234, R237,
R244, R248, R259).
-/

namespace Sys2Proof.Machine

/-! ### The status codes of R234 -/

namespace Status
abbrev ok : Nat := 0x00
abbrev accepted : Nat := 0x01
abbrev clipped : Nat := 0x02
abbrev busy : Nat := 0x10
abbrev deferred : Nat := 0x11
abbrev cancelled : Nat := 0x12
abbrev badOpc : Nat := 0x20
abbrev badParam : Nat := 0x21
abbrev badTenant : Nat := 0x22
abbrev denied : Nat := 0x23
abbrev authFail : Nat := 0x24
abbrev fault : Nat := 0x30
abbrev stale : Nat := 0x31
abbrev diverged : Nat := 0x32
abbrev internal : Nat := 0x3F
end Status

/-! ### The packet header (R231) -/

def Cmd.opc (c : Cmd) : Nat := leAt c.hdr 0 2
def Cmd.flags (c : Cmd) : Nat := byteAt c.hdr 2
def Cmd.order (c : Cmd) : Bool := bitOf c.flags 0
def Cmd.quiet (c : Cmd) : Bool := bitOf c.flags 1
def Cmd.enc (c : Cmd) : Bool := bitOf c.flags 2
def Cmd.interim (c : Cmd) : Bool := bitOf c.flags 3
def Cmd.tag (c : Cmd) : Nat := leAt c.hdr 4 2
def Cmd.tenant (c : Cmd) : Nat := leAt c.hdr 6 2
def Cmd.plen (c : Cmd) : Nat := leAt c.hdr 8 2
def Cmd.target (c : Cmd) : Nat := leAt c.hdr 10 2

/-- The accepted command with a number; one whose aggregate reply is written counts while its own execution goes on (R248). -/
def State.cmd? (s : State) (id : Nat) : Option Cmd := (s.cmds.list ++ s.cmds.after).find? fun c => c.id == id

/-- Replace an accepted command. -/
def State.setCmd (s : State) (c : Cmd) : State :=
  let put := fun (d : Cmd) => if d.id = c.id then c else d
  { s with cmds := { s.cmds with list := s.cmds.list.map put, after := s.cmds.after.map put } }

/-- Is a command's work begun and not ended? -/
def Cmd.works (c : Cmd) : Bool := c.phase == .started || c.phase == .running

/-- A command has its final reply: it is no longer accepted (R228, R261). An own execution that has not ended goes on (R248). -/
def State.dropCmd (s : State) (id : Nat) : State :=
  { s with cmds := { s.cmds with
    list := s.cmds.list.filter fun d => d.id != id
    after := s.cmds.after ++ s.cmds.list.filter fun d => d.id == id && d.works } }

/-- An own execution that outlived its aggregate reply has ended (R248).
[DEDUCED, unsafe, log 42] -/
def State.dropAfter (s : State) (id : Nat) : State :=
  { s with cmds := { s.cmds with after := s.cmds.after.filter fun d => d.id != id } }

/-- CMDk_CFG.INFLIGHT (R223). -/
def State.inflight (s : State) (k : Nat) : Nat := (s.cmds.list.filter fun c => c.src == .ring k).length

/-- Is the command addressed to another cabinet? -/
def State.remote (s : State) (c : Cmd) : Bool :=
  match c.src with
  | .cab _ => false
  | .ring _ => c.target != 0xFFFF && s.cabId != some c.target

/-- Does the command come from a host ring? -/
def Cmd.onRing (c : Cmd) : Bool := match c.src with | .ring _ => true | .cab _ => false

/-- The size of a ring from its log code (R223). -/
def ringSize (log : Nat) : Nat := 4096 * 2 ^ log

def State.sqSize (s : State) (k : Nat) : Nat := ringSize (s.fld (F.CMD_CFG_SQLOG k))
def State.cqSize (s : State) (k : Nat) : Nat := ringSize (s.fld (F.CMD_CFG_CQLOG k))

/-- The bytes of a reply header (R232).
[DEDUCED, unsafe, log 36] -/
def replyHeader (s : State) (hdr : List Byte) (status plen : Nat) : List Byte :=
  hdr.take 2 ++ leBytes 1 status ++ [1] ++ (hdr.drop 4).take 4 ++ leBytes 2 plen
    ++ leBytes 2 (s.cabId.getD 0xFFFF) ++ (hdr.drop 12).take 4

/-! ### The writer of a completion ring (R226) -/

def CqWriter.idle : CqWriter := ⟨[], none, false, 0, [], false⟩

def State.cqw (s : State) (k : Nat) : CqWriter := SMap.get (fun _ => CqWriter.idle) s.cmds.cq k

def State.setCqw (s : State) (k : Nat) (w : CqWriter) : State :=
  { s with cmds := { s.cmds with cq := SMap.put (fun _ => CqWriter.idle) s.cmds.cq k w } }

/-- The DRAM address of an offset of completion ring k. -/
def State.cqAddr (s : State) (k off : Nat) : Nat := s.fld (F.CMD_CQBASE_BASE k) * 4096 + off % s.cqSize k

/-- The lines that a reply fills, whole: the bytes before it in its first line, the reply, zeros (R226). -/
def replyLines (before reply : List Byte) : List (List Byte) :=
  let l := before ++ reply
  let n := (l.length + 63) / 64
  chunksOf 64 n (l ++ List.replicate (64 * n - l.length) 0)
where
  chunksOf (n : Nat) : Nat → List Byte → List (List Byte)
    | 0, _ => []
    | k + 1, l => l.take n :: chunksOf n k (l.drop n)

/-- The raw bytes of a host-format quad write with the given lines in place (R55, R118). -/
def hostRaw (lines : List (Nat × List Byte)) : List Byte :=
  (List.range 4).flatMap fun i =>
    match lines.find? fun p => p.1 == i with
    | some p => p.2 ++ List.replicate (80 - p.2.length) 0
    | none => List.replicate 80 0

/-- Group consecutive lines, given by byte address, into quads: (quad, lines with their index in it). -/
def groupQuads (l : List (Nat × List Byte)) : List (Nat × List (Nat × List Byte)) :=
  l.foldl (fun acc p =>
    let q := p.1 / 256
    let i := p.1 / 64 % 4
    match acc.getLast? with
    | some (q', ls) => if q' = q then acc.dropLast ++ [(q, ls ++ [(i, p.2)])] else acc ++ [(q, [(i, p.2)])]
    | none => [(q, [(i, p.2)])]) []

/-- The write requests of lines of completion ring k. -/
def lineWrites (use : MptUse) (l : List (Nat × List Byte)) : List MptReq :=
  (groupQuads l).map fun g =>
    { write := true, quad := g.1, mask := (g.2.map (·.1)).foldl setBit 0, raw := hostRaw g.2, use := use }

/-- Write the reply at the head of the queue: the bytes before it are known (R226). -/
def cqWriteHead (k : Nat) (s : State) : State :=
  let w := s.cqw k
  match w.queue with
  | [] => s
  | r :: _ =>
    let tail := s.fld (F.CMD_CQPTR_TAIL k)
    let before := (w.copy.getD []).take (tail % 64)
    let lines := (replyLines before r.bytes).zipIdx.map fun p => (s.cqAddr k (tail / 64 * 64 + 64 * p.2), p.1)
    let reqs := lineWrites (.cqWrite k) lines
    reqs.foldl (fun t q => t.mptQueue 0 q) (s.setCqw k { w with left := reqs.length, retried := [], lost := false, filling := false })

/-- Begin to write the next reply of completion ring k if none is in hand: where the engine holds no copy of the line that
holds TAIL, it reads the line first (R226). -/
def cqStart (k : Nat) (s : State) : State :=
  let w := s.cqw k
  if w.left ≠ 0 || w.filling || w.queue.isEmpty then s
  else
    let tail := s.fld (F.CMD_CQPTR_TAIL k)
    if tail % 64 = 0 || w.copy.isSome then cqWriteHead k s
    else
      let q := s.cqAddr k (tail / 64 * 64) / 256
      (s.setCqw k { w with filling := true }).mptQueue 0 { write := false, quad := q, mask := 0xF, raw := [], use := .cqFill k }

/-- Queue a reply for completion ring k. -/
def cqPush (k : Nat) (r : Reply) (s : State) : State :=
  let w := s.cqw k
  cqStart k (s.setCqw k { w with queue := w.queue ++ [r] })

/-- The line that holds TAIL has been read; a pennanted or failed line gives zeros (R226). -/
def cqFilled (k : Nat) (line : Line) (s : State) : State :=
  let w := s.cqw k
  if w.filling then
    cqWriteHead k (s.setCqw k { w with copy := some (if line.pen then List.replicate 64 0 else line.data) })
  else s

/-- A reply is written whole: TAIL advances, its reservation is released, CQSRC is raised unless QUIET, the next reply
begins (R223, R226, R227). -/
def cqDone (k : Nat) (s : State) : State :=
  let w := s.cqw k
  match w.queue with
  | [] => s
  | r :: rest =>
    let tail := s.fld (F.CMD_CQPTR_TAIL k)
    let tail' := (tail + r.bytes.length) % s.cqSize k
    let lines := replyLines ((w.copy.getD []).take (tail % 64)) r.bytes
    let copy := if (tail % 64 + r.bytes.length) % 64 = 0 then none else lines.getLast?
    let s1 := (s.setFld (F.CMD_CQPTR_TAIL k) tail').setCqw k { w with queue := rest, copy := copy, left := 0, retried := [] }
    let s2 := match s1.cmd? r.cmd with
      | none => s1
      | some c => if r.final then s1.dropCmd r.cmd else s1.setCmd { c with resv := c.resv - r.bytes.length }
    let s3 := if r.quiet || s2.fld (F.CMD_CFG_CQSRC k) == 0 then s2 else s2.raise (s2.fld (F.CMD_CFG_CQSRC k))
    cqStart k s3

/-- A lost reply leaves the writer once every write of it has ended; the next reply begins (R226).
[DEDUCED, unsafe, log 36] -/
def cqLost (k : Nat) (s : State) : State :=
  let w := s.cqw k
  match w.queue with
  | [] => s
  | r :: rest =>
    let s1 := s.setCqw k { w with queue := rest, copy := none, left := 0, retried := [], lost := false }
    cqStart k (if r.final then s1.dropCmd r.cmd else s1)

/-- A write of the reply in hand has ended (R226).
[DEDUCED, unsafe, log 36] -/
def cqEnded (k : Nat) (s : State) : State :=
  let w := s.cqw k
  if 1 < w.left then s.setCqw k { w with left := w.left - 1 } else if w.lost then cqLost k s else cqDone k s

/-- A write of a reply failed: the engine writes those lines once more; when that fails too the reply is lost, STOPPED is set
and source 156 is raised (R226).
[DEDUCED, unsafe, log 36] -/
def cqFailed (k : Nat) (req : MptReq) (s : State) : State :=
  let w := s.cqw k
  if !w.lost && !w.retried.contains req.quad then (s.setCqw k { w with retried := req.quad :: w.retried }).mptQueue 0 req
  else cqEnded k (if w.lost then s else ((s.setCqw k { w with lost := true }).setFlag (F.CMD_CFG_STOPPED k) true).raise 156)

/-- A write response for lines of a reply (R226). -/
def cqWritten (k : Nat) (s : State) : State := cqEnded k s

/-! ### Final and interim replies -/

/-- Send a reply of a command to where the command came from: its completion ring, or its sender cabinet (R244).
[DEDUCED, unsafe, log 36] -/
def sendReply (c : Cmd) (status : Nat) (params : List Byte) (final : Bool) (s : State) : State :=
  let hdr := replyHeader s c.hdr status params.length
  match c.src with
  | .ring k => cqPush k ⟨c.id, hdr ++ params, final, c.quiet⟩ s
  | .cab sender =>
    let m : MgmtInfo := c.mgmt.getD ⟨0, 0, sender, 0⟩
    let s1 := { s with cmds := { s.cmds with
      tx := s.cmds.tx ++ [⟨2, m.mslot, some m.keyid, m.xid, sender, hdr, params, c.enc⟩] } }
    if final then s1.dropCmd c.id else s1

/-- The gateway's entry of a broadcast command (R248). -/
def State.broadcast? (s : State) (id : Nat) : Option GwEntry := s.cmds.gw.find? fun g => g.cmd == id && g.target == 0xFFFF

/-- Does a status count as success in the aggregate reply (R248)? -/
def okStatus (st : Nat) : Bool := st == Status.ok || st == Status.clipped || st == Status.diverged

/-- Record a cabinet's outcome in an aggregate entry. -/
def GwEntry.note (g : GwEntry) (cab st : Nat) : GwEntry :=
  if okStatus st then { g with ok := addOnce g.ok cab } else { g with fail := addOnce g.fail cab }

/-- Has the aggregate reply of a command been queued, or written (R248)? -/
def State.answered (s : State) (c : Cmd) : Bool :=
  s.cmds.after.any (fun d => d.id == c.id) || (match c.src with
    | .ring k => (s.cqw k).queue.any fun r => r.cmd == c.id && r.final
    | .cab _ => false)

/-- Complete a command with its final status. The engine's own execution of a broadcast command counts in the aggregate reply
instead, and where that reply has gone before it writes none (R245, R248).
[DEDUCED, unsafe, log 36] -/
def finish (id status : Nat) (params : List Byte) (s : State) : State :=
  match s.cmd? id with
  | none => s
  | some c =>
    let s1 := s.setCmd { c with phase := .replying }
    match s.broadcast? id with
    | some g =>
      { s1 with cmds := { s1.cmds with gw := s1.cmds.gw.map fun h => if h = g then g.note (s1.cabId.getD 0) status else h } }
    | none => if s.answered c then s1.dropAfter id else sendReply c status params true s1

/-- A command takes up work that ends later. -/
def State.running (s : State) (id : Nat) : State :=
  match s.cmd? id with
  | none => s
  | some c => s.setCmd { c with phase := .running }

/-- Is the command there, with this opcode, passed orders 1 to 6 and its work due (R260), and does firmware act (R574)? Then act on
it. -/
def withStarted (id opc : Nat) (s : State) (f : Cmd → State) : State :=
  match s.cmd? id with
  | none => s
  | some c => if c.opc = opc ∧ c.phase = .started ∧ s.live then f c else s

end Sys2Proof.Machine
end

