-- ==== Sys2Proof/Machine/Ucode.lean ====
section
/-!
DEFINITION. The microword (R140 to R159), its validation (R168), the control stores and their regions (R161, R162), machine
checks (R170, R171), retirement (R173, R174), barriers and the sequencer registers (R176 to R182).
-/

namespace Sys2Proof.Machine

/-- The function fields of a microword, its parity bits and its raw function bits (R140). -/
structure MicroWord where
  nxt : Nat
  bra : Nat
  cmx : Nat
  cpol : Bool
  lctl : Nat
  alu : Nat
  srca : Nat
  srcb : Nat
  dst : Nat
  imm : Nat
  mem : Nat
  stg : Nat
  evt : Nat
  syn : Nat
  trc : Nat
  cus : Nat
  rsv : Nat
  par : Nat
  f : Nat
  deriving DecidableEq, Repr

/-- Decode a stored word: F[175:0] below P[7:0] (R140). -/
def decodeMicro (w : BitVec 184) : MicroWord :=
  let x := w.toNat
  { nxt := bitsOf x 0 4, bra := bitsOf x 4 14, cmx := bitsOf x 18 6, cpol := bitOf x 24, lctl := bitsOf x 25 8,
    alu := bitsOf x 33 6, srca := bitsOf x 39 6, srcb := bitsOf x 45 6, dst := bitsOf x 51 6, imm := bitsOf x 57 16,
    mem := bitsOf x 73 12, stg := bitsOf x 85 48, evt := bitsOf x 133 12, syn := bitsOf x 145 8, trc := bitsOf x 153 4,
    cus := bitsOf x 157 9, rsv := bitsOf x 166 10, par := bitsOf x 176 8, f := bitsOf x 0 176 }

/-- The parity groups in error: bit k when group k with P[k] holds an even number of ones (R141). -/
def parityErrors (m : MicroWord) : Nat :=
  ((List.range 8).filter fun k => !(parity (bitsOf m.f (22 * k) 22) 22 ^^ bitOf m.par k)).foldl setBit 0

/-- The fill word: NXT = 0xF, every other function bit zero, P = 0xFF (R161). -/
def fillWord : BitVec 184 := BitVec.ofNat 184 (0xFF * 2 ^ 176 + 0xF)

/-- The kinds of sequencer (R139). -/
inductive SeqKind where
  | csq | psq | lsq
  deriving DecidableEq, Repr

/-- The kind of sequencer q. -/
def seqKind (q : Nat) : SeqKind := if q = 0 then .csq else if q ≤ 16 then .psq else .lsq

/-- The words of a store (R139). -/
def storeWords : SeqKind → Nat
  | .csq => 16384
  | .psq => 4096
  | .lsq => 2048

/-- The conditions that are reserved for a kind of sequencer (R145). -/
def cmxReserved : SeqKind → Nat → Bool
  | .csq, c => c == 25 || (decide (26 ≤ c) && decide (c ≤ 47)) || c == 53 || decide (56 ≤ c)
  | .psq, c => c == 46 || c == 47 || c == 53 || decide (56 ≤ c)
  | .lsq, c => (decide (41 ≤ c) && decide (c ≤ 47)) || c == 53 || decide (56 ≤ c)

/-- Group g of STG (R153). -/
def MicroWord.group (m : MicroWord) (g : Nat) : Nat := bitsOf m.stg (4 * g) 4

/-- Strobes that are reserved for a kind of sequencer (R153). -/
def strobeReserved (k : SeqKind) (m : MicroWord) : Bool :=
  match k with
  | .csq => bitOf (m.group 0) 3 || bitsOf (m.group 1) 2 2 != 0 || bitsOf (m.group 2) 2 2 != 0 || bitOf (m.group 3) 3
      || bitsOf (m.group 4) 2 2 != 0 || bitsOf m.stg 20 28 != 0
  | _ => false

/-- Is any reserved bit set or any reserved encoding used (R142, R143, R147 to R150, R154 to R159, R396)? -/
def reservedUse (k : SeqKind) (m : MicroWord) : Bool :=
  m.rsv != 0 || decide (0xC ≤ m.nxt) || (m.nxt == 9 && k != .csq) || cmxReserved k m.cmx
    || bitsOf m.lctl 6 2 == 3 || bitsOf m.lctl 1 3 != 0 || decide (0x13 ≤ m.alu)
    || (decide (8 ≤ m.srca) && decide (m.srca < 0x10)) || (decide (8 ≤ m.srcb) && decide (m.srcb < 0x10))
    || m.dst == 1 || m.dst == 2 || m.dst == 5 || (decide (8 ≤ m.dst) && decide (m.dst < 0x10))
    || decide (6 ≤ bitsOf m.mem 9 3) || (bitOf m.mem 8 && k != .csq) || strobeReserved k m
    || (decide (1 ≤ m.evt) && decide (m.evt < 32)) || bitsOf m.syn 0 3 != 0 || decide (5 ≤ bitsOf m.trc 0 3)
    || (match k with
      | .lsq => if bitOf m.cus 8 then decide (m.cus % 256 < 0x40) || decide (0x80 ≤ m.cus % 256) else m.cus != 0
      | _ => m.cus != 0)

/-- Does BRA break R144, or R143 for DISP? -/
def branchBad (k : SeqKind) (m : MicroWord) : Bool :=
  decide (storeWords k ≤ m.bra) || (m.nxt == 8 && m.bra % 64 != 0)

/-- The AVLIN-D rule of R154: slots 6, 10 and 11. -/
def strobesAbsentSlot (k : SeqKind) (m : MicroWord) : Bool :=
  k == .psq && (m.group 6 != 0 || m.group 10 != 0 || m.group 11 != 0)

/-- The further rules for a CSQ customer-region word (R168). -/
def customerBad (m : MicroWord) : Bool :=
  let service := decide (0x1F00 ≤ m.bra) && decide (m.bra ≤ 0x1F3F)
  let inRegion := decide (0x3800 ≤ m.bra)
  ((m.nxt == 1 || m.nxt == 3) && !inRegion && !service)
    || ((m.nxt == 2 || m.nxt == 4 || m.nxt == 7 || m.nxt == 8) && !inRegion)
    || (m.evt != 0 && decide (m.evt < 2048)) || bitsOf m.stg 12 36 != 0

/-- The REASON of R165 with which a word fails R168, 0 when it passes: parity, reserved use, branch target, the rule of the
build, the rules of the customer region, in this order.
[DEDUCED, unsafe, log 25] -/
def wordReason (k : SeqKind) (customer dBuild : Bool) (m : MicroWord) : Nat :=
  if parityErrors m ≠ 0 then 1
  else if reservedUse k m then 2
  else if branchBad k m then 3
  else if dBuild && strobesAbsentSlot k m then 5
  else if customer && customerBad m then 4
  else 0

/-! ### Control stores -/

/-- The key of a control-store word. -/
def csKey (q a : Nat) : Nat := q * 16384 + a

/-- The word of a control store: CSQ ROM below 0x2000, else the writable store (R139, R161). -/
def State.ucWord (s : State) (q a : Nat) : BitVec 184 :=
  if q = 0 ∧ a < 0x2000 then Config.csqRom a else SMap.get (fun _ => fillWord) s.cstore (csKey q a)

def State.setUcWord (s : State) (q a : Nat) (w : BitVec 184) : State :=
  { s with cstore := SMap.put (fun _ => fillWord) s.cstore (csKey q a) w }

/-- Fill the addresses from `lo` below `hi` of a store with the fill word. -/
def State.fillStore (s : State) (q lo hi : Nat) : State :=
  { s with cstore := s.cstore.filter fun p => !(decide (csKey q lo ≤ p.1) && decide (p.1 < csKey q hi)) }

/-- The loadable region of a sequencer: for the CSQ the customer region or the Sazosel region (R161). -/
def region (q : Nat) (customer : Bool) : Nat × Nat :=
  if q = 0 then (if customer then (0x3800, 0x4000) else (0x2000, 0x3800)) else (0, storeWords (seqKind q))

/-- The word that is about to be issued at an address: for a CSQ ROM word an enabled patch redirects it (R169). -/
def State.issueAddr (s : State) (q a : Nat) : Nat :=
  if q = 0 ∧ a < 0x2000 ∧ s.flag (F.SQ_STAT_VALID 0) then
    match (List.range 16).find? fun k => s.flag (F.CSQ_PATCH_EN k) && s.fld (F.CSQ_PATCH_FROM k) == a with
    | some k => s.fld (F.CSQ_PATCH_TO k)
    | none => a
  else a

/-- The validity mark of a region (R162). -/
def validRef (q : Nat) (customer : Bool) : FRef := if customer && q == 0 then F.SQ_STAT_CVALID 0 else F.SQ_STAT_VALID q

/-! ### States of a sequencer (R177) -/

namespace SeqState
abbrev stopped : Nat := 0
abbrev running : Nat := 1
abbrev stalled : Nat := 2
abbrev mchk : Nat := 3
abbrev retired : Nat := 4
abbrev loading : Nat := 5
end SeqState

def State.seqState (s : State) (q : Nat) : Nat := s.fld (F.SQ_STAT_STATE q)
def State.setSeqState (s : State) (q v : Nat) : State := s.setFld (F.SQ_STAT_STATE q) v
def State.upc (s : State) (q : Nat) : Nat := s.fld (F.SQ_STAT_UPC q)

/-- The stage slot k of the slice engine or light-path half that sequencer q drives. -/
def State.stage (s : State) (q k : Nat) : Stage := SMap.get (fun _ => Stage.idle) (s.seq q).stages k

def State.setStage (s : State) (q k : Nat) (g : Stage) : State :=
  s.setSeq q { s.seq q with stages := SMap.put (fun _ => Stage.idle) (s.seq q).stages k g }

/-- Abort every stage of a sequencer, as strobe S3 does (R153, R171). -/
def abortStages (q : Nat) (s : State) : State := s.setSeq q { s.seq q with stages := [] }

/-- A sequencer counts a discarded strobe (R154, R155). -/
def strobeLost (q : Nat) (s : State) : State := (s.setFlag (F.SQ_STAT_STRLOST q) true).raise (51 + q)

/-- A machine check on sequencer q (R170, R171): MCHK, its record with the parity groups in error, the stages of a PSQ aborted, SYN
waits withdrawn; a parity error makes the region of the word invalid, and a ROM word lies in none (R161, R162). The machine-check
source is the level of R538.
[DEDUCED, unsafe, log 71] -/
def machineCheck (q cause pgrp : Nat) (s : State) : State :=
  let upc := s.upc q
  let a := s.issueAddr q upc
  let s1 := (((s.setSeqState q SeqState.mchk).setFld (F.SQ_STAT_MCAUSE q) cause).setFld (F.SQ_MCINFO_MCUPC q) upc).setFld
    (F.SQ_MCINFO_PGRP q) pgrp
  let s2 := if cause = 1 && (q != 0 || decide (0x2000 ≤ a)) then s1.setFlag (validRef q (decide (0x3800 ≤ a))) false else s1
  let s3 := s2.setSeq q { s2.seq q with barrier := none }
  if seqKind q = .psq then abortStages q s3 else s3

/-- Barrier f completes: every waiting sequencer executes its word, ARRIVED clears (R156). The other fields of the waiting
words act when the words are executed: the sequencers are released here, at the word itself. -/
def barrierReady (f : Nat) (s : State) : Bool :=
  s.fld (F.SYN_MASK f) != 0 && s.fld (F.SYN_ARRIVED f) == s.fld (F.SYN_MASK f)

/-! ### Stopping, starting and retiring (R173, R174, R178) -/

/-- STOP: a stalled word is abandoned without effect, a barrier's arrival is withdrawn, UPC keeps its address.
[DEDUCED, unsafe, log 71] -/
def seqStop (q : Nat) (s : State) : State :=
  let st := s.seqState q
  if st = SeqState.running ∨ st = SeqState.stalled then
    let s1 := match (s.seq q).barrier with
      | some f => s.setFld (F.SYN_ARRIVED f) (clrBit (s.fld (F.SYN_ARRIVED f)) q)
      | none => s
    (s1.setSeq q { s1.seq q with barrier := none }).setSeqState q SeqState.stopped
  else s

/-- START: acts only in STOPPED with VALID = 1. -/
def seqStart (q : Nat) (s : State) : State :=
  if s.seqState q = SeqState.stopped ∧ s.flag (F.SQ_STAT_VALID q) then
    (s.setFld (F.SQ_STAT_UPC q) (s.fld (F.SQ_CTL_ENTRY q))).setSeqState q SeqState.running
  else s

/-- Take a sequencer out of every barrier mask (R173, R174). -/
def leaveBarriers (q : Nat) (s : State) : State :=
  (List.range 8).foldl (fun t f =>
    (t.setFld (F.SYN_MASK f) (clrBit (t.fld (F.SYN_MASK f)) q)).setFld (F.SYN_ARRIVED f) (clrBit (t.fld (F.SYN_ARRIVED f)) q)) s

/-- The SPM banks with an owner. -/
def State.banksOf (s : State) (owner : Nat) : List Nat :=
  (List.range (spmBanks s.build)).filter fun b => s.fld (F.SCRUB_OWN_OWNER b) == owner

end Sys2Proof.Machine
end

