-- ==== Sys2Proof/Machine/CcBase.lean ====
section
/-!
DEFINITION. The command core's registers, traps and the return from them (R183 to R186, R199 to R206).
-/

namespace Sys2Proof.Machine

/-! ### Registers (R183, R184) -/

/-- Where register gk of the bank in force is kept: 0 to 15, 16 to 31 in the main bank, 32 to 47 in the shadow bank. -/
def gSlot (sb : Bool) (k : Nat) : Nat := if k < 16 then k else if sb then k + 16 else k

def CcSt.slot (c : CcSt) (i : Nat) : W32 := SMap.get (fun _ => (0 : W32)) c.g i
def CcSt.setSlot (c : CcSt) (i : Nat) (v : W32) : CcSt := { c with g := SMap.put (fun _ => (0 : W32)) c.g i v }

/-- Bit k of STAT. -/
def CcSt.bit (c : CcSt) (k : Nat) : Bool := c.stat.getLsbD k
def CcSt.setStatBit (c : CcSt) (k : Nat) (b : Bool) : CcSt :=
  { c with stat := BitVec.ofNat 32 (if b then setBit c.stat.toNat k else clrBit c.stat.toNat k) }

def State.sb (s : State) : Bool := s.cc.bit 4

/-- Register gk of the bank in force; g0 reads zero. -/
def State.g (s : State) (k : Nat) : W32 := if k = 0 then 0 else s.cc.slot (gSlot s.sb k)

/-- Write register gk of the bank in force; writes of g0 are discarded. -/
def State.setG (s : State) (k : Nat) (v : W32) : State :=
  if k = 0 then s else { s with cc := s.cc.setSlot (gSlot s.sb k) v }

/-- The privilege level. -/
def CcSt.pl (c : CcSt) : Nat := bitsOf c.stat.toNat 0 2
def CcSt.setPl (c : CcSt) (v : Nat) : CcSt := { c with stat := BitVec.ofNat 32 (c.stat.toNat / 4 * 4 + v % 4) }

def State.setPc (s : State) (v : W32) : State := { s with cc := { s.cc with pc := v } }

/-- The flags of STAT[11:8]. -/
def CcSt.aluFlags (c : CcSt) : AluFlags := ⟨c.bit 8, c.bit 9, c.bit 10, c.bit 11⟩
def CcSt.setFlags (c : CcSt) (f : AluFlags) : CcSt :=
  (((c.setStatBit 8 f.z).setStatBit 9 f.n).setStatBit 10 f.c).setStatBit 11 f.v

/-- Is a divide in flight? -/
def CcSt.dividing (c : CcSt) : Bool :=
  c.flights.any fun (f : CcFlight) => match f with | .div _ _ _ => true | .mul _ _ => false

/-- STAT as it is saved, reported and read: DV is 1 while no divide is in flight (R184). -/
def CcSt.status (c : CcSt) : W32 := (c.setStatBit 6 (!c.dividing)).stat

/-- CC_STAT takes STAT[11:0] at the end of an instruction (R218).
[DEDUCED, unsafe, log 30] -/
def CcSt.noteStat (c : CcSt) : CcSt := { c with statv := c.status.setWidth 12 }

/-! ### Results of the multiplier and divider (R194, R195) -/

/-- A flight lands. -/
def CcSt.land (c : CcSt) (f : CcFlight) : CcSt :=
  match f with
  | .mul lo hi => { c with mql := lo, mqh := hi }
  | .div q r dz => { c with mql := q, mqh := r }.setStatBit 7 dz

/-- Every multiply and divide in flight lands: a multiply before the divide that it overlaps (R195, R203). -/
def CcSt.landAll (c : CcSt) : CcSt :=
  let isDiv := fun (f : CcFlight) => match f with | .div _ _ _ => true | .mul _ _ => false
  let l := (c.flights.filter fun f => !isDiv f) ++ c.flights.filter isDiv
  { l.foldl CcSt.land c with flights := [] }

/-! ### Memory that the core reaches without faults: HB and ROM (R185) -/

/-- `n` bytes of HB or ROM at a command core address; a byte outside them reads as pennanted. -/
def State.codeBytes (s : State) (a n : Nat) : List PByte :=
  (List.range n).map fun k =>
    let x := a + k
    if 0x600000 ≤ x ∧ x < 0x640000 then s.hb.read (x - 0x600000)
    else if 0x1000000 ≤ x ∧ x < 0x1010000 then ⟨Config.ccRom (x - 0x1000000), false⟩
    else ⟨0, true⟩

/-- The effects of such a read on HB's records (R109, R131). -/
def noteCode (a n : Nat) (s : State) : State :=
  if 0x600000 ≤ a ∧ a + n ≤ 0x640000 then noteReads .hb (a - 0x600000) n s else s

def word32 (v : W32) : List Byte := leBytes 4 v.toNat

/-! ### Trap entry (R199 to R204) -/

/-- A double machine check: the core stops (R204).
[DEDUCED, unsafe, log 31]
[DEDUCED, unsafe, log 71] -/
def doubleCheck (s : State) : State := (s.setFlag F.CC_STAT_DBL true).setSeqState 0 SeqState.mchk

/-- The words of a task-state block: the first 24 bytes, and of the full form the rest (R202). -/
def blockHead (s : State) (pc cause tval : W32) : List Byte :=
  word32 pc ++ word32 s.cc.status ++ word32 cause ++ word32 tval ++ word32 s.cc.mql ++ word32 s.cc.mqh

def blockTail (s : State) : List Byte :=
  word32 0 ++ (List.range 31).flatMap fun k => word32 (s.g (k + 1))

/-- CAUSE of a block (R201). -/
def causeWord (pl sub : Nat) (fast : Bool) (vec : Nat) : W32 := BitVec.ofNat 32 (pl * 4096 + sub * 256 + b2n fast * 64 + vec)

/-- Entry v of the vector table: the handler's address and level, or none when it is pennanted or reserved; LEVEL of entry 1 says nothing
(R199). -/
def State.vector (s : State) (v : Nat) : Option (Nat × Nat) :=
  let b := s.codeBytes (s.fld F.CC_VBASE_VBASE + 8 * v) 8
  let l := vals b
  let level := byteAt l 4
  if anyPen b || leAt l 0 1 % 2 == 1 || (v != 1 && (level == 0 || decide (2 < level))) then none else some (leAt l 0 4, level)

/-- A customer instruction is abandoned: its word executes nothing, a barrier's arrival is withdrawn, the CSQ runs on in ROM (R177,
R213).
[DEDUCED, unsafe, log 32] -/
def customAbandon (s : State) : State :=
  let s1 := match (s.seq 0).barrier with
    | some f => s.setFld (F.SYN_ARRIVED f) (clrBit (s.fld (F.SYN_ARRIVED f)) 0)
    | none => s
  let s2 := s1.setSeq 0 { s1.seq 0 with barrier := none }
  if s2.seqState 0 = SeqState.stalled then s2.setSeqState 0 SeqState.running else s2

/-- What every trap entry ends: waits, a customer instruction, the boundary after RTT. -/
def ccInterrupt (s : State) : State :=
  let s1 := if s.cc.cx.isSome then customAbandon s else s
  { s1 with cc := { s1.cc with wait := none, cx := none, afterRtt := false } }

/-- A machine check of the command core: the block at CC_MCTSB, vector 1 at Machine level; a second one stops the core (R199,
R202 to R204).
[DEDUCED, unsafe, log 31] -/
def coreMachineCheck (sub : Nat) (pc tval : W32) (s : State) : State :=
  let s0 := ccInterrupt { s with cc := s.cc.landAll }
  if s0.flag F.CC_STAT_MCACT then doubleCheck s0
  else
    let base := s0.fld F.CC_MCTSB_MCTSB - 0x600000
    let s1 := noteCode (s0.fld F.CC_VBASE_VBASE + 8) 8
      (writeBytes .hb base (plain (blockHead s0 pc (causeWord s0.cc.pl sub false 1) tval)) s0)
    match s1.vector 1 with
    | none => doubleCheck s1
    | some (h, _) =>
      let s2 := (writeBytes .hb (base + 0x18) (plain (blockTail s1)) s1).setFlag F.CC_STAT_MCACT true
      { s2 with cc := { ((((s2.cc.setPl 2).setStatBit 2 false).setStatBit 3 false).setStatBit 5 false) with pc := BitVec.ofNat 32 h } }

/-- Take the trap of a vector other than 1: the block on the stack, STAT under R204, the handler. A stack overflow or a bad vector
entry becomes a machine check.
[DEDUCED, unsafe, log 31] -/
def trapEnter (vec sub : Nat) (pc tval : W32) (s : State) : State :=
  let s0 := ccInterrupt { s with cc := s.cc.landAll }
  let tsbp := s0.fld F.CC_TSBP_TSBP
  if tsbp < s0.fld F.CC_TSBLIM_LIM + 0xA0 then coreMachineCheck 3 pc (BitVec.ofNat 32 tsbp) s0
  else
    let fast := vec == 17
    let base := tsbp - 0xA0 - 0x600000
    let s1 := s0.setFld F.CC_TSBP_TSBP (tsbp - 0xA0)
    let entry := s1.fld F.CC_VBASE_VBASE + 8 * vec
    let s2 := noteCode entry 8 (writeBytes .hb base (plain (blockHead s1 pc (causeWord s1.cc.pl sub fast vec) tval)) s1)
    match s2.vector vec with
    | none => coreMachineCheck 5 pc (BitVec.ofNat 32 entry) s2
    | some (h, level) =>
      let s3 := if fast then s2 else writeBytes .hb (base + 0x18) (plain (blockTail s2)) s2
      let c := ((s3.cc.setPl (max level s3.cc.pl)).setStatBit 2 false).setStatBit 5 false
      let c' := if fast then (c.setStatBit 3 false).setStatBit 4 true else c
      { s3 with cc := { c' with pc := BitVec.ofNat 32 h } }

/-! ### Return from a trap (R205, R206) -/

/-- RTT at Kernel or Machine level: through the block at TSBP, or at CC_MCTSB while MCACT is 1.
[DEDUCED, unsafe, log 31] -/
def returnFromTrap (s : State) : State :=
  let mc := s.flag F.CC_STAT_MCACT
  let tsbp := s.fld F.CC_TSBP_TSBP
  if !mc && decide (s.fld F.CC_TSBLIM_TOP < tsbp + 0xA0) then coreMachineCheck 4 s.cc.pc (BitVec.ofNat 32 tsbp) s
  else
    let a := if mc then s.fld F.CC_MCTSB_MCTSB else tsbp
    let form := bitOf (leAt (vals (s.codeBytes (a + 8) 4)) 0 4) 6
    let n := if form then 0x18 else 0x98
    let b := s.codeBytes a n
    let l := vals b
    let s1 := noteCode a n s
    if anyPen b then coreMachineCheck 5 s1.cc.pc (BitVec.ofNat 32 a) s1
    else
      let w := fun (o : Nat) => BitVec.ofNat 32 (leAt l o 4)
      let saved := w 4
      let pl := min (bitsOf saved.toNat 0 2) s1.cc.pl
      let c0 : CcSt := { s1.cc with
        stat := BitVec.ofNat 32 (saved.toNat % 4096), mql := w 0x10, mqh := w 0x14, pc := BitVec.ofNat 32 (leAt l 0 4 / 2 * 2)
        afterRtt := true, wait := none }
      let c1 := (c0.setPl pl).setStatBit 5 false
      let sb := saved.getLsbD 4
      let c2 := if form then c1
        else (List.range 31).foldl (fun (c : CcSt) k => c.setSlot (gSlot sb (k + 1)) (w (0x1C + 4 * k))) c1
      let s2 : State := { s1 with cc := c2.noteStat }
      if mc then s2.setFlag F.CC_STAT_MCACT false else s2.setFld F.CC_TSBP_TSBP (tsbp + 0xA0)

/-! ### When the core runs (R94, R204, R573) -/

/-- Is the command core out of reset, CSQ running, not stopped by a double machine check?
[DEDUCED, unsafe, log 71] -/
def State.coreUp (s : State) : Bool :=
  s.cclkOn && !s.ao.coreHeld && !s.flag F.CC_STAT_DBL && s.seqState 0 != SeqState.mchk && s.seqState 0 != SeqState.stopped

/-- Does the core execute instructions: up, and not halted but for a STEP (R576)? -/
def State.coreRuns (s : State) : Bool := s.coreUp && (s.mode != Mode.halt || s.cc.step)

/-- Does Sazosel firmware act: the core is up and the engine is not in Halt? -/
def State.firmware (s : State) : Bool := s.coreUp && s.mode != Mode.halt

/-! ### The end of an instruction -/

/-- An instruction or a trap entry has completed: a STEP has done its work (R576). -/
def ccMark (s : State) : State :=
  { s with cc := { s.cc with step := false, stepped := s.cc.stepped || s.cc.step } }

/-- An instruction has completed, so the boundary after RTT is past (R206). -/
def ccDone (s : State) : State := ccMark { s with cc := { s.cc.noteStat with afterRtt := false } }

/-- Execution goes on behind an instruction of `len` bytes. -/
def ccNext (len : Nat) (s : State) : State := ccDone (s.setPc (s.cc.pc + BitVec.ofNat 32 len))

/-- Execution goes on at an address. -/
def ccJump (a : W32) (s : State) : State := ccDone (s.setPc a)

/-- The instruction takes a synchronous trap. -/
def ccTrap (vec sub : Nat) (pc tval : W32) (s : State) : State := ccMark (trapEnter vec sub pc tval s)

/-- The trap of the instruction itself: the saved PC is its own address. -/
def ccFault (vec sub : Nat) (tval : W32) (s : State) : State := ccTrap vec sub s.cc.pc tval s

end Sys2Proof.Machine
end

