-- ==== Sys2Proof/Machine/LineCode.lean ====
section
/-!
DEFINITION. The line code of the Lamp Link (R387): the 8b/10b code of IEEE 802.3 clause 36, its four control symbols, packets as symbols,
packets from symbols.
-/

namespace Sys2Proof.Machine

/-- A symbol before coding: a data byte or one of the control symbols of R387. -/
inductive LineSym where
  | data (b : Byte)
  | idle
  | sop
  | eop
  | abort
  deriving DecidableEq, Repr

/-- The 5b/6b code at negative running disparity: abcdei of D.x.
[PRESUMED, unsafe, log 74] -/
def sixBits : List Nat :=
  [0b100111, 0b011101, 0b101101, 0b110001, 0b110101, 0b101001, 0b011001, 0b111000,
   0b111001, 0b100101, 0b010101, 0b110100, 0b001101, 0b101100, 0b011100, 0b010111,
   0b011011, 0b100011, 0b010011, 0b110010, 0b001011, 0b101010, 0b011010, 0b111010,
   0b110011, 0b100110, 0b010110, 0b110110, 0b001110, 0b101110, 0b011110, 0b101011]

/-- The 3b/4b code at negative running disparity: fghj of D.x.y.
[PRESUMED, unsafe, log 74] -/
def fourBits : List Nat := [0b1011, 0b1001, 0b0101, 0b1100, 0b1101, 0b1010, 0b0110, 0b1110]

/-- The running disparity after a sub-block of n bits; true is positive. -/
def disparityAfter (rd : Bool) (n c : Nat) : Bool :=
  let p := popCount c n
  if n < 2 * p || c == (if n = 6 then 0b000111 else 0b0011) then true
  else if 2 * p < n || c == (if n = 6 then 0b111000 else 0b1100) then false
  else rd

/-- D.x as six bits: the complement at positive running disparity where the block is unbalanced, and of D.7. -/
def sixOf (rd : Bool) (x : Nat) : Nat :=
  let c := sixBits.getD x 0
  if rd && (popCount c 6 != 3 || x == 7) then 63 - c else c

/-- The alternate form of y = 7, which keeps a run of five equal bits out of the data symbols. -/
def altSeven (rd : Bool) (x : Nat) : Bool := if rd then x == 11 || x == 13 || x == 14 else x == 17 || x == 18 || x == 20

/-- y as four bits, after the six bits of x. -/
def fourOf (rd : Bool) (x y : Nat) : Nat :=
  let c := if y = 7 && altSeven rd x then 0b0111 else fourBits.getD y 0
  if rd && (popCount c 4 != 2 || y == 3) then 15 - c else c

/-- The ten bits abcdeifghj of a symbol, a the most significant and the first sent. -/
def LineSym.bits (rd : Bool) : LineSym → Nat
  | .data b =>
    let x := b.toNat % 32
    let c := sixOf rd x
    16 * c + fourOf (disparityAfter rd 6 c) x (b.toNat / 32)
  | .idle => if rd then 0b1100000101 else 0b0011111010
  | .sop => if rd then 0b0010010111 else 0b1101101000
  | .eop => if rd then 0b0100010111 else 0b1011101000
  | .abort => if rd then 0b1000010111 else 0b0111101000

/-- The running disparity after the ten bits of a symbol. -/
def symbolDisparity (rd : Bool) (v : Nat) : Bool := disparityAfter (disparityAfter rd 6 (v / 16)) 4 (v % 16)

/-- Symbols coded one after the other. -/
def codeSymbols : Bool → List LineSym → List Nat
  | _, [] => []
  | rd, a :: l => let v := a.bits rd; v :: codeSymbols (symbolDisparity rd v) l

/-- The data symbols of a packet with a K28.5 after every 255 consecutive ones; `n` have gone since the last. -/
def fillSymbols : Nat → List Byte → List LineSym
  | _, [] => []
  | n, b :: l => if n + 1 = 255 then .data b :: .idle :: fillSymbols 0 l else .data b :: fillSymbols (n + 1) l

/-- A packet as symbols: SOP, its bytes, EOP. -/
def linePacketSymbols (b : List Byte) : List LineSym := .sop :: (fillSymbols 0 b ++ [.eop])

/-- Packets as they leave, each after idle symbols. How many idle symbols went out, and the running disparity they leave, is open: `f`
chooses the disparity of the first and, for each packet, an odd or even run, which one or two symbols stand for.
[DESIGN CHOICE, safe, log 75] -/
def sentSymbols (f : Nat) (l : List (List Byte)) : List Nat :=
  codeSymbols (bitOf f 0) (l.zipIdx.flatMap fun p => List.replicate (1 + b2n (bitOf f (p.2 + 1))) LineSym.idle ++ linePacketSymbols p.1)

/-- The symbol that ten bits stand for at a running disparity, none where they are no code of R387. -/
def symbolOf (rd : Bool) (v : Nat) : Option LineSym :=
  match [LineSym.idle, .sop, .eop, .abort].find? fun a => a.bits rd == v with
  | some a => some a
  | none =>
    match (List.range 32).find? fun x => sixOf rd x == v / 16 with
    | none => none
    | some x =>
      let rd' := disparityAfter rd 6 (v / 16)
      ((List.range 8).find? fun y => fourOf rd' x y == v % 16).map fun y => .data (BitVec.ofNat 8 (x + 32 * y))

/-- Symbols decoded one after the other. -/
def decodeSymbols : Bool → List Nat → List (Option LineSym)
  | _, [] => []
  | rd, v :: l => symbolOf rd v :: decodeSymbols (symbolDisparity rd v) l

/-- The bytes of a packet after its SOP, and whether its EOP has come: a K28.5 inside it is discarded, an ABORT ends it with no effect; a
symbol that is no code leaves an open byte.
[DESIGN CHOICE, safe, log 75] -/
def linePacketBytes : Nat → List (Option LineSym) → List Byte → Option (List Byte)
  | _, [], _ => none
  | f, some (.data b) :: l, acc => linePacketBytes f l (b :: acc)
  | f, some .idle :: l, acc => linePacketBytes f l acc
  | _, some .eop :: _, acc => some acc.reverse
  | _, some .abort :: _, _ => none
  | f, some .sop :: l, _ => linePacketBytes f l []
  | f, none :: l, acc => linePacketBytes (f / 256) l (BitVec.ofNat 8 f :: acc)

/-- What the return receiver takes from the symbols of a reply, from its preamble on: the packet's bytes, if it ends with EOP, and the
number of invalid symbols. The first symbol settles the running disparity. -/
def receiveSymbols (f : Nat) (l : List Nat) : Option (List Byte) × Nat :=
  let rd := match l with | [] => false | v :: _ => (symbolOf false v).isNone
  let d := decodeSymbols rd l
  let body := (d.dropWhile fun o => o != some .sop).drop 1
  (linePacketBytes f body [], (d.filter (·.isNone)).length)

/-- The running disparity after symbols that begin with a K28.5. -/
def disparityOf (l : List Nat) : Bool := l.foldl symbolDisparity false

/-- What has left of the symbols of a sending event when the lane goes quiet (R409): where a packet is in hand it ends with ABORT at the
next symbol boundary. How far they have come is open.
[DESIGN CHOICE, safe, log 75] -/
def cutSymbols (f : Nat) (l : List Nat) : List Nat :=
  let sent := l.take (f % (l.length + 1))
  let syms := decodeSymbols (match l with | [] => false | v :: _ => v == LineSym.idle.bits true) sent
  let inHand := syms.foldl (fun h o => if o = some .sop then true else if o = some .eop then false else h) false
  if inHand then sent ++ [LineSym.abort.bits (disparityOf sent)] else sent

end Sys2Proof.Machine
end

