-- ==== Sys2Proof/Machine/Pulse.lean ====
section
/-!
DEFINITION. Pulse units and trips (R422 to R439, R451 to R454).
-/

namespace Sys2Proof.Machine

/-- A pulse unit after a reset that covers it (R453). -/
def Pu.reset : Pu :=
  { cnt := 0, up := true, per := 0x400, dutyU := 0, dutyD := 0, dt := 8, minp := 0, minmode := false, bstp := 0, bstw := 0x10,
    running := false, imm := false, raw := false, run := 0, asserted := 0, dropping := false, lSeen := false, bstCnt := 0,
    refresh := 0, h := false, l := false, padH := false, padL := false, offH := 255, offL := 255, sinceRise := 255,
    mismH := false, mismL := false, late := false, cfg := none }

def State.pu (s : State) (n : Nat) : Pu := SMap.get (fun _ => Pu.reset) s.pus n
def State.setPu (s : State) (n : Nat) (p : Pu) : State := { s with pus := SMap.put (fun _ => Pu.reset) s.pus n p }

/-- Is unit n in software mode? -/
def State.puSw (s : State) (n : Nat) : Bool := s.flag (F.PU_CFG_SW n)

/-! ### The trip-disable path (R433 to R438) -/

/-- Does trip input k govern unit n (R433)? -/
def State.tripGoverns (s : State) (k n : Nat) : Bool := s.flag (F.TRIP_CFG_EN k) && bitOf (s.fld (F.TRIP_MAP_MAP k)) n

/-- The units that trip input k governs, as a mask. -/
def State.tripMap (s : State) (k : Nat) : Nat := if s.flag (F.TRIP_CFG_EN k) then s.fld (F.TRIP_MAP_MAP k) else 0

/-- The inputs that are asserted or latched. -/
def State.tripActive (s : State) : Nat := s.trip.asserted ||| s.fld F.TRIP_LATCH_LATCH

/-- Is unit n held low by a trip input (R435)? -/
def State.tripHolds (s : State) (n : Nat) : Bool := (bitsSet s.tripActive 32).any fun k => s.tripGoverns k n

/-- The causes of R435 that hold every unit. -/
def State.allHeld (s : State) : Bool :=
  s.flag F.TRIP_LATCH_SW || !s.ao.pwrgood || s.mode == Mode.dark || s.flag F.AO_CLKST_PN_SAFE || s.inReset

/-- Rank 1 of R429. -/
def State.puRank1 (s : State) (n : Nat) : Bool := s.allHeld || s.tripHolds n

/-- Rank 2 of R429, Halt apart: the mode, or UNIT_SET OFF. -/
def State.puRank2 (s : State) (n : Nat) : Bool :=
  !showMode s.heldOrMode || s.unitOff.contains (ustIdx Cls.pu n)

/-- Rank 3 of R429: the short hold. -/
def State.puShort (s : State) (n : Nat) : Bool := s.flag (F.PU_STAT_SHORTH n) || s.flag (F.PU_STAT_SHORTL n)

/-- PUn_STAT.OFF: the outputs are held low by ranks 1 to 3, or wait after rank 1 for the instant of R436. -/
def State.puOff (s : State) (n : Nat) : Bool := s.puRank1 n || s.puRank2 n || s.puShort n || bitOf s.trip.held n

/-- The pads of unit n fall together without dead time (R435). -/
def puDrop (p : Pu) : Pu :=
  { p with padH := false, padL := false, offH := if p.padH then 0 else p.offH, offL := if p.padL then 0 else p.offL }

/-- The observed state of a pulse unit (R263, R438, R432).
[UNVERIFIED, unsafe, log 38] -/
def observePu (n : Nat) (s : State) : State :=
  if s.tripHolds n then observe Cls.pu n Obs.failed Cause.trip s
  else if s.flag F.TRIP_LATCH_SW then observe Cls.pu n Obs.failed Cause.swtrip s
  else if s.puShort n then observe Cls.pu n Obs.failed Cause.pushort s
  else if !s.puOff n && (s.puSw n || s.flag (F.LP_MOD_GEOM_EN n)) then observe Cls.pu n Obs.on 0 s
  else observe Cls.pu n Obs.off 0 s

/-- Units named by a mask are held low until the instant of R436.
[DEDUCED, unsafe, log 61]
[DEDUCED, unsafe, log 62] -/
def puHold (mask : Nat) (s : State) : State :=
  { s with
    trip := { s.trip with held := s.trip.held ||| mask % 2 ^ 64 }
    pus := s.pus.map fun e => if bitOf mask e.1 then (e.1, puDrop e.2) else e }

/-- Every unit is held low: PWRGOOD low, Dark, PNCLK on the safe clock, a reset (R435). -/
def puHoldAll (s : State) : State := puHold (2 ^ 64 - 1) s

/-- The observed states of the units of a mask are evaluated again. -/
def observePus (mask : Nat) (s : State) : State := (bitsSet mask 64).foldl (fun t n => observePu n t) s

/-! ### Dead time, pads and forces (R426, R429) -/

/-- The forced or carrier level of one output; its complement's level and the PNCLK since the complement turned off.
[DEDUCED, unsafe, log 61] -/
def forcedLevel (force : Nat) (carrier other : Bool) (offOther dt : Nat) : Bool :=
  match force with
  | 0 => carrier
  | 1 => false
  | _ => !other && decide (dt ≤ offOther)

/-- Set the pads of unit n from its carrier outputs, its forces and the holds, at a PNCLK edge. -/
def puPads (s : State) (n : Nat) (p : Pu) : Pu :=
  if s.puOff n then puDrop { p with offH := satAdd p.offH 1 255, offL := satAdd p.offL 1 255, sinceRise := satAdd p.sinceRise 1 255 }
  else
    let fh := s.fld (F.PU_FORCE_FH n)
    let fl := s.fld (F.PU_FORCE_FL n)
    let both := fh == 2 && fl == 2
    let l0 := if both then false else if fl = 2 then p.padL else forcedLevel fl p.l false 255 0
    let offL := if l0 then p.offL else if p.padL then 0 else satAdd p.offL 1 255
    let h := if both then false else forcedLevel fh p.h l0 offL p.dt
    let offH := if h then p.offH else if p.padH then 0 else satAdd p.offH 1 255
    let l := if both then false else if fl = 2 then forcedLevel 2 p.l h offH p.dt else l0
    { p with
      padH := h, padL := l, offH := offH, offL := if l then p.offL else if p.padL then 0 else satAdd p.offL 1 255,
      sinceRise := if h && !p.padH then 0 else satAdd p.sinceRise 1 255 }

/-! ### The carrier (R423 to R428) -/

/-- hraw of R423. -/
def hraw (up : Bool) (cnt per dutyU dutyD : Nat) : Bool :=
  if up then decide (per - min dutyU per ≤ cnt) else decide (per - min dutyD per < cnt)

/-- The position in the period. -/
def Pu.pos (p : Pu) : Nat := if p.up then p.cnt else 2 * p.per - p.cnt

/-- A length that is not bounded. -/
def longInterval : Nat := 2 ^ 32

/-- The length of the interval of hraw = `v` that holds at position `pos`, from the values in force and those that the next
boundary loads (R427). -/
def rawLength (v : Bool) (pos per du dd per' du' dd' : Nat) (rowMode : Bool) : Nat :=
  let du := min du per
  let dd := min dd per
  let du' := min du' per'
  let dd' := min dd' per'
  if v then
    if pos < per + dd ∧ dd = per ∧ du' = per' ∧ !rowMode then
      if dd' = per' then longInterval else 2 * per - pos + per' + dd'
    else per + dd - pos
  else if pos < per - du then (if du = 0 ∧ dd = 0 then longInterval else per - du - pos)
  else if rowMode ∨ (du' = 0 ∧ dd' = 0) then longInterval
  else 2 * per - pos + (per' - du')

/-- The minimum-pulse filter (R427): the carrier asks for the raw level `c`. `len` is the predicted length of the interval of
that level. Answers the unit with hraw updated, and whether MINHIT is set. -/
def minFilter (p : Pu) (c : Bool) (len : Nat) : Pu × Bool :=
  if c == p.raw then ({ p with dropping := false, run := p.run + 1 }, false)
  else if p.dropping then ({ p with run := p.run + 1 }, false)
  else if p.minp ≠ 0 ∧ 0 < p.asserted ∧ p.asserted < p.minp then ({ p with run := p.run + 1 }, true)
  else if p.minp ≠ 0 ∧ !p.minmode ∧ p.dt < len ∧ len - p.dt < p.minp then ({ p with dropping := true, run := p.run + 1 }, true)
  else ({ p with raw := c, run := 0, asserted := 0 }, false)

/-- Dead time (R426), and how long the present output has been asserted. -/
def deadTime (p : Pu) : Pu :=
  let on := decide (p.dt ≤ p.run)
  { p with
    h := p.raw && on, l := !p.raw && on, asserted := if on then satAdd p.asserted 1 65535 else p.asserted,
    lSeen := p.lSeen || (!p.raw && on) }

/-- The shadow load at a boundary (R424): in row mode the period and duty are the light path's. -/
def puLoad (s : State) (n : Nat) (p : Pu) : Pu :=
  let q := { p with
    dt := s.fld (F.PU_CFG_DT n), minp := s.fld (F.PU_CFG_MINP n), minmode := s.flag (F.PU_CFG_MINMODE n),
    bstp := s.fld (F.PU_CFG_BSTP n), bstw := s.fld (F.PU_CFG_BSTW n), imm := false }
  if s.puSw n then
    { q with per := s.fld (F.PU_PER_PER n), dutyU := s.fld (F.PU_DUTY_DUTYU n), dutyD := s.fld (F.PU_DUTY_DUTYD n) }
  else q

/-- The refresh count at a boundary (R428): a forced H does not count. -/
def puRefreshCount (forcedH : Bool) (p : Pu) : Pu :=
  let c := if p.lSeen || forcedH then 0 else p.bstCnt + 1
  if p.bstp ≠ 0 ∧ p.bstp ≤ c then { p with bstCnt := 0, lSeen := false, refresh := max p.bstw (p.dt + p.minp) }
  else { p with bstCnt := c, lSeen := false }

/-- The count and direction after one edge (R423, R425): a count at or above PER counting up turns down. -/
def carrierStep (p : Pu) : Nat × Bool :=
  if p.up then
    if p.per ≤ p.cnt then (p.cnt - 1, decide (p.cnt - 1 = 0))
    else (p.cnt + 1, decide (p.cnt + 1 ≠ p.per))
  else (p.cnt - 1, decide (p.cnt - 1 = 0))

/-- May pulse unit n count: PNCLK runs, the unit is not frozen (R422, R439)? -/
def State.puClocked (s : State) (n : Nat) : Bool :=
  decide (n < 64) && !s.inReset && !s.asleep && s.mode != Mode.off && s.mode != Mode.halt

/-- OUT of timer n (R446): the count against CMP in force, with OUTPOL. -/
def State.tmrOut (s : State) (n : Nat) : Bool :=
  let t := SMap.get (fun _ => Tmr.reset) s.tmrs n
  (decide (t.cmp ≤ t.cnt)) ^^ s.flag (F.TMR_CFG_OUTPOL n)

/-- Is the source of a blanking window of input k active (R434)?
[DEDUCED, unsafe, log 62] -/
def State.blankSource (s : State) (k : Nat) : Bool :=
  let b := s.fld (F.TRIP_CFG_BLKSRC k)
  if 0x20 ≤ b ∧ b < 0x40 then s.tmrOut (b - 0x20) && !s.flag (F.TMR_STAT_SRCLOST (b - 0x20))
  else if 0x40 ≤ b then
    decide ((s.pu (b - 0x40)).sinceRise < s.fld (F.TRIP_CFG_BLKW k)) && s.puClocked (b - 0x40)
  else false

/-- A source that is no longer active has closed its window: what the delay element said of it is past (R434).
[DEDUCED, unsafe, log 62] -/
def endWindows (s : State) : State :=
  if s.trip.ended = 0 then s
  else { s with trip := { s.trip with ended := ((bitsSet s.trip.ended 32).filter s.blankSource).foldl setBit 0 } }

/-- The raw level, its filter, dead time and pads, for the cycle that the unit has entered.
[DEDUCED, unsafe, log 61] -/
def puSettle (n : Nat) (waiting : Bool) (p : Pu) (s : State) : State :=
  let sw := s.puSw n
  let c := !waiting && hraw p.up p.cnt p.per p.dutyU p.dutyD && p.refresh == 0
  let len :=
    if waiting then longInterval
    else rawLength c p.pos p.per p.dutyU p.dutyD (s.fld (F.PU_PER_PER n)) (s.fld (F.PU_DUTY_DUTYU n)) (s.fld (F.PU_DUTY_DUTYD n)) (!sw)
  let (q, hit) :=
    if p.refresh ≠ 0 then
      (if p.raw then { p with raw := false, run := 0, asserted := 0, dropping := false } else { p with run := p.run + 1 }, false)
    else minFilter p c len
  let q := deadTime { q with refresh := q.refresh - 1 }
  let s1 := endWindows (s.setPu n (puPads s n q))
  if hit then s1.setFlag (F.PU_STAT_MINHIT n) true else s1

/-- Mark the timers whose capture event has occurred (R449).
[DEDUCED, unsafe, log 63] -/
def tmrEvent (csel : Nat) (rising falling : Bool) (s : State) : State :=
  { s with tmrDue := (List.range 32).foldl (fun d n =>
      let e := s.fld (F.TMR_CFG_CEDGE n)
      let pin := decide (1 ≤ csel ∧ csel ≤ 8) || (decide (0x20 ≤ csel) && decide (csel < 0x40))
      if s.fld (F.TMR_CFG_CSEL n) = csel ∧ (!pin ∨ (rising ∧ e ≠ 1) ∨ (falling ∧ e ≠ 0)) then setBit d n else d) s.tmrDue }

/-- Effects of a PU_CFG whose instant has come (R451): force and mode. -/
def puCfgApply (n : Nat) (c : PuCfgReq) (s : State) : State :=
  let b := c.params
  let s1 := (s.setFld (F.PU_FORCE_FH n) (byteAt b 2 % 4)).setFld (F.PU_FORCE_FL n) (byteAt b 2 / 4 % 4)
  match byteAt b 1 with
  | 0 =>
    let s2 := (((s1.setFlag (F.PU_CFG_SW n) true).setFlag (F.PU_CFG_MINMODE n) (bitOf (byteAt b 3) 0)).setFld (F.PU_PER_PER n)
      (leAt b 4 2)).setFld (F.PU_DUTY_DUTYU n) (leAt b 6 2)
    let s3 := ((s2.setFld (F.PU_DUTY_DUTYD n) (leAt b 8 2)).setFld (F.PU_CFG_DT n) (byteAt b 10)).setFld (F.PU_CFG_MINP n) (byteAt b 11)
    ((s3.setFld (F.PU_CFG_BSTP n) (leAt b 12 2)).setFld (F.PU_CFG_BSTW n) (byteAt b 14)).setFld (F.PU_PER_PHASE n) (leAt b 16 4)
  | 1 => s1.setFlag (F.PU_CFG_SW n) false
  | _ => s1

/-- The restart position of R430. -/
def puRestart (phase : Nat) (p : Pu) : Pu :=
  let q := phase % (2 * p.per)
  { p with cnt := if q < p.per then q else 2 * p.per - q, up := decide (q < p.per), bstCnt := 0 }

/-- Set FERR when a force write forces both outputs (R429), and raise source 224 + n. -/
def puForceErr (n : Nat) (s : State) : State :=
  if s.fld (F.PU_FORCE_FH n) = 2 ∧ s.fld (F.PU_FORCE_FL n) = 2 ∧ !s.flag (F.PU_STAT_FERR n) then
    (s.setFlag (F.PU_STAT_FERR n) true).raise (224 + n)
  else s

/-- A pending PU_CFG takes effect at its instant, if that is now: action 1 at a hoist, the others at a period boundary of the
unit, at or after H(AT) (R451). -/
def puCfgEffect (n : Nat) (atHoist : Bool) (s : State) : State :=
  let p := s.pu n
  match p.cfg with
  | none => s
  | some c =>
    let due : Bool := match c.at_ with
      | none => true
      | some a => decide (a ≤ (s.frame : Int))
    if due && (byteAt c.params 1 == 1) == atHoist then
      let s1 := puForceErr n (puCfgApply n c (s.setPu n { p with cfg := none }))
      let p1 := s1.pu n
      let s2 := if byteAt c.params 1 = 0 then
          let p2 := puLoad s1 n p1
          s1.setPu n (if bitOf (byteAt c.params 3) 1 then puRestart (s1.fld (F.PU_PER_PHASE n)) p2 else p2)
        else if byteAt c.params 1 = 1 then s1.setPu n { p1 with running := false, cnt := 0, up := true }
        else s1
      finish c.cmd Status.ok (leBytes 4 (if s.hoists then s.frame % 2 ^ 32 else 0xFFFFFFFF) ++ leBytes 4 0) s2
    else s

/-- The actions of a period boundary: the shadow load, the resume of R436, the refresh count, a pending PU_CFG.
[DEDUCED, unsafe, log 61] -/
def puBoundary (n : Nat) (s : State) : State :=
  let p := puLoad s n (s.pu n)
  let s1 := s.setPu n (puRefreshCount (s.fld (F.PU_FORCE_FH n) == 2) p)
  let s2 := if s.puSw n && !s.puRank1 n then { s1 with trip := { s1.trip with held := clrBit s1.trip.held n } } else s1
  tmrEvent (0x40 + n) true true (puCfgEffect n false s2)

/-- A row-mode unit that waits stands at CNT = 0 counting up, which is its period boundary (R423, R431): it takes its shadow values, and a
PU_CFG whose instant has come takes effect.
[DEDUCED, unsafe, log 61] -/
def puWait (n : Nat) (s : State) : State := puCfgEffect n false (s.setPu n (puLoad s n (s.pu n)))

/-- One PNCLK edge of pulse unit n that does not begin a period boundary, or that does (R423 to R428).
[DEDUCED, unsafe, log 61] -/
def puEdge (n : Nat) (s : State) : State :=
  let p := s.pu n
  if !s.puSw n && !p.running then
    let s1 := puWait n s
    puSettle n (!s1.puSw n) (s1.pu n) s1
  else
    let p0 := if p.imm then { p with per := s.fld (F.PU_PER_PER n), imm := false } else p
    let short := p.imm && p.up && decide (p0.per ≤ p.cnt)
    let s0 := if short && !s.flag (F.PU_STAT_PSHORT n) then (s.setFlag (F.PU_STAT_PSHORT n) true).raise (224 + n)
      else if short then s.raise (224 + n) else s
    let (cnt, up) := carrierStep p0
    let p1 := { p0 with cnt := cnt, up := up }
    if cnt = 0 ∧ up then
      let ended := !s.puSw n
      let s1 := puBoundary n (s0.setPu n (if ended then { p1 with running := false } else p1))
      puSettle n ended (s1.pu n) s1
    else puSettle n false p1 (s0.setPu n p1)

/-- Does the next edge of unit n begin a period boundary? -/
def Pu.nextIsBoundary (p : Pu) : Bool := let c := carrierStep p; c.1 == 0 && c.2

/-- The length in PNCLK of the window of R408. -/
def rowWindow (s : State) : Nat :=
  let l := 65536 / 2 ^ s.fld F.LP_CFG_SEGLOG
  let g := s.fld F.LP_STAT_GDIV
  (l - 1) * g + g / 2 + s.fld F.LP_TIME_RSLEAD + s.fld F.LP_TIME_RSLAG

/-- The light path starts a row-mode period of unit n (R431, R408). A start during a period restarts the counter.
[DEDUCED, unsafe, log 61] -/
def rowStart (n : Nat) (s : State) : State :=
  if !s.puClocked n || s.puSw n || !showMode s.mode || !s.inService Cls.lane n || s.obs Cls.lane n != Obs.on then s else
  let w := rowWindow s
  let p := { puLoad s n (s.pu n) with per := (w + 1) / 2, dutyU := (w + 1) / 2, dutyD := w / 2, cnt := 0, up := true, running := true, imm := false }
  let s1 := if s.puRank1 n then s else { s with trip := { s.trip with held := clrBit s.trip.held n } }
  puSettle n false p (s1.setPu n p)

/-! ### Writes of pulse-unit registers (R424, R425, R429, R430, R439) -/

/-- A write of PUn_FORCE, R429; in Halt only forces to the deasserted level act (R439).
[DEDUCED, unsafe, log 61] -/
def puForceWrite (w : Writer) (n be : Nat) (data : W64) (s : State) : State :=
  let off := (F.PU_FORCE_FH n).off
  if s.mode = Mode.halt then
    let v := s.written w off be data
    let fh := getBits v 0 2
    let fl := getBits v 2 2
    if fh = 2 ∨ fl = 2 ∨ (fh ≠ 1 ∧ fl ≠ 1) then s
    else
      let p := s.pu n
      (s.setReg off v).setPu n { p with padH := p.padH && fh != 1, padL := p.padL && fl != 1 }
  else puForceErr n (s.plainWrite w off be data)

/-- A write of PUn_PER (R424, R425, R431): in row mode the fields PER and IMM are discarded.
[DEDUCED, unsafe, log 61] -/
def puPerWrite (w : Writer) (n be : Nat) (data : W64) (s : State) : State :=
  let off := (F.PU_PER_PER n).off
  if s.mode = Mode.halt then s
  else if s.puSw n then
    let v := s.written w off be data
    let s1 := s.setReg off v
    if bitOf be 7 ∧ data.getLsbD 63 then s1.setPu n { s1.pu n with imm := true } else s1
  else s.setReg off (setBits (s.written w off be data) 0 16 (s.fld (F.PU_PER_PER n)))

/-- A write of PUn_DUTY: discarded in row mode (R431). -/
def puDutyWrite (w : Writer) (n be : Nat) (data : W64) (s : State) : State :=
  if s.mode = Mode.halt || !s.puSw n then s else s.plainWrite w (F.PU_DUTY_DUTYU n).off be data

/-- A write of PUn_CFG: SW is kept in Show modes (R453). A change of SW leaves the counter in row mode's wait, or lets it
run. -/
def puCfgWrite (w : Writer) (n be : Nat) (data : W64) (s : State) : State :=
  if s.mode = Mode.halt then s else
  let off := (F.PU_CFG_SW n).off
  let v := s.written w off be data
  let v := if showMode s.mode then setBits v 63 1 (s.fld (F.PU_CFG_SW n)) else v
  let s1 := s.setReg off v
  if s.puSw n && !s1.puSw n then s1.setPu n { s1.pu n with running := false, cnt := 0, up := true } else s1

/-- A write of PU_SYNC: every software-mode unit named restarts at its phase, on one PNCLK edge (R430). -/
def puSync (mask : Nat) (s : State) : State :=
  if s.mode = Mode.halt ∨ s.inReset ∨ s.asleep then s else
  (bitsSet mask 64).foldl (fun t n =>
    if t.puSw n then puSettle n false (puRestart (t.fld (F.PU_PER_PHASE n)) (t.pu n)) t else t) s

/-! ### Readback (R432) -/

/-- The pad compare of one output reports a lasting mismatch, or that pad and level agree again. A detection in Furled or
Watch is reported at wake.
[DEDUCED, unsafe, log 61] -/
def padReadback (n : Nat) (high present : Bool) (s : State) : State :=
  if !decide (n < 64) || s.inReset then s else
  let p := s.pu n
  let s1 := s.setPu n (if high then { p with mismH := present } else { p with mismL := present })
  let f := if high then F.PU_STAT_SHORTH n else F.PU_STAT_SHORTL n
  if !present then s1
  else
    let s2 := s1.setPu n (puDrop { s1.pu n with late := s.asleep || (s1.pu n).late })
    let s3 := s2.setFlag f true
    if s.asleep then s3 else observePu n (if s.flag f then s3 else s3.raise (224 + n))

/-- A write of PUn_STAT: a short bit is not cleared while its mismatch persists.
[DEDUCED, unsafe, log 61] -/
def puStatWrite (w : Writer) (n be : Nat) (data : W64) (s : State) : State :=
  if s.mode = Mode.halt then s else
  let off := (F.PU_STAT_OFF n).off
  let v := s.written w off be data
  let v := if (s.pu n).mismH then setBits v 1 1 (s.fld (F.PU_STAT_SHORTH n)) else v
  let v := if (s.pu n).mismL then setBits v 2 1 (s.fld (F.PU_STAT_SHORTL n)) else v
  observePu n (s.setReg off v)

/-- At wake, shorts found in Furled or Watch are reported (R432). -/
def puWakeReport (s : State) : State :=
  (List.range 64).foldl (fun t n =>
    if (t.pu n).late then observePu n ((t.setPu n { t.pu n with late := false }).raise (224 + n)) else t) s

/-! ### Trips -/

/-- Is a blanking window of input k open: its source is active and the delay element has not ended it (R434)? -/
def State.blanked (s : State) (k : Nat) : Bool := s.blankSource k && !bitOf s.trip.ended k

/-- Trip input k becomes asserted (R434, R436, R438).
[DEDUCED, unsafe, log 62] -/
def tripAssertNow (k : Nat) (s : State) : State :=
  if !s.flag (F.TRIP_CFG_EN k) || bitOf s.trip.asserted k then s
  else
    let s1 := { s with trip := { s.trip with asserted := setBit s.trip.asserted k } }
    let s2 := if s.flag (F.TRIP_CFG_MODE k) then s1
      else s1.setFld F.TRIP_LATCH_LATCH (setBit (s1.fld F.TRIP_LATCH_LATCH) k)
    let s3 := observePus (s2.tripMap k) (puHold (s2.tripMap k) s2)
    tmrEvent (0x20 + k) true false (s3.assertWatch 1)

/-- Are the trip inputs ignored: no AO supply, or the engine absent (R43, R44)? -/
def State.tripsDead (s : State) : Bool := !s.ao.supplies || s.ao.engDis

/-- The pin of trip input k has been low for 20 ns.
[DEDUCED, unsafe, log 62] -/
def tripLow (k : Nat) (s : State) : State :=
  if s.tripsDead || decide (32 ≤ k) then s else
  let s1 := { s with trip := { s.trip with
    pins := setBit s.trip.pins k, ended := if s.blankSource k then s.trip.ended else clrBit s.trip.ended k } }
  if s1.blanked k then s1 else tripAssertNow k s1

/-- A blanking window of input k ends: a pin that is still low asserts the trip (R434).
[DEDUCED, unsafe, log 62] -/
def blankEnd (k : Nat) (s : State) : State :=
  if s.tripsDead || decide (32 ≤ k) then s else
  let s1 := { s with trip := { s.trip with ended := setBit s.trip.ended k } }
  if bitOf s1.trip.pins k then tripAssertNow k s1 else s1

/-- The pin of trip input k is high again: in cycle mode the trip ends (R436).
[DEDUCED, unsafe, log 62] -/
def tripHigh (k : Nat) (s : State) : State :=
  if s.tripsDead || decide (32 ≤ k) then s else
  let was := bitOf s.trip.asserted k
  let s1 := { s with trip := { s.trip with pins := clrBit s.trip.pins k, asserted := clrBit s.trip.asserted k } }
  if was then tmrEvent (0x20 + k) false true (observePus (s.tripMap k) s1) else s1

/-- A write of TRIP_LATCH: bit k clears only while its pin is high; bit 32 clears the software trip (R436, R437).
[DEDUCED, unsafe, log 62] -/
def tripLatchWrite (w : Writer) (be : Nat) (data : W64) (s : State) : State :=
  let v := s.written w F.TRIP_LATCH_LATCH.off be data
  let old := s.fld F.TRIP_LATCH_LATCH
  let s1 := s.setReg F.TRIP_LATCH_LATCH.off (setBits v 0 32 (getBits v 0 32 ||| (old &&& s.trip.pins)))
  let changed := (bitsSet old 32).filter fun k => !bitOf (s1.fld F.TRIP_LATCH_LATCH) k
  let mask := if s.flag F.TRIP_LATCH_SW && !s1.flag F.TRIP_LATCH_SW then 2 ^ 64 - 1
    else changed.foldl (fun m k => m ||| s.tripMap k) 0
  observePus mask s1

/-- A write of 1 to TRIP_SW.SET (R437, R438). -/
def tripSwSet (s : State) : State :=
  let s1 := puHoldAll (s.setFlag F.TRIP_LATCH_SW true)
  observePus (2 ^ 64 - 1) (s1.assertWatch 1)

/-- A write of TRIPk_CFG or TRIPk_MAP: an input enabled while its pin is low is judged at once (R433, R434). -/
def tripSetWrite (w : Writer) (off be : Nat) (data : W64) (s : State) : State :=
  let k := (off % 0x100) / 8
  let s1 := s.plainWrite w off be data
  let s2 := if s1.flag (F.TRIP_CFG_EN k) then s1 else { s1 with trip := { s1.trip with asserted := clrBit s1.trip.asserted k } }
  let s3 := if bitOf s2.trip.pins k && !s2.blanked k then tripAssertNow k s2 else s2
  let now := if bitOf s3.tripActive k then s3.tripMap k else 0
  observePus (s.tripMap k ||| s3.tripMap k) (puHold now s3)

/-! ### PU_CFG (R451) -/

/-- The parameter checks of PU_CFG. -/
def puCfgBad (hoists : Bool) (cur : Nat) (b : List Byte) : Bool :=
  let act := byteAt b 1
  let at_ := leAt b 20 4
  decide (64 ≤ byteAt b 0) || decide (2 < act) || decide (16 ≤ byteAt b 2) || byteAt b 2 % 4 == 3 || byteAt b 2 / 4 == 3
    || byteAt b 15 != 0 || !zeroAt b 24 8
    || (hoists && at_ != 0xFFFFFFFF && decide (resolveFrame cur at_ ≤ (cur : Int)))
    || (act == 0 && (decide (4 ≤ byteAt b 3) || leAt b 4 2 == 0 || decide (2 ^ 17 ≤ leAt b 16 4)))

/-- PU_CFG does its checks and waits for its instant.
[DEDUCED, unsafe, log 70] -/
def puCfg (id : Nat) (s : State) : State :=
  withStarted id 0x8001 s fun c =>
    let b := c.params
    let n := byteAt b 0
    if puCfgBad s.hoists s.frame b then finish id Status.badParam [] s
    else if !s.hoists && leAt b 20 4 != 0xFFFFFFFF then finish id Status.deferred [] s
    else if byteAt b 1 = 0 ∧ s.flag (F.LP_MOD_GEOM_EN n) then finish id Status.denied [] s
    else if (s.pu n).cfg.isSome then finish id Status.busy [] s
    else
      let at_ := leAt b 20 4
      let q : PuCfgReq := ⟨id, if at_ = 0xFFFFFFFF then none else some (resolveFrame s.frame at_), b⟩
      (s.running id).setPu n { s.pu n with cfg := some q }

/-! ### The commands -/

/-- A PNCLK edge of unit n. -/
def execPuCarrierEdge (n : Nat) (s : State) : Answer := .next (if s.puClocked n then puEdge n s else s)

/-- The PNCLK edge of unit n that begins a period boundary; at any other count it is not that edge, and nothing happens. -/
def execPuPeriodBoundary (n : Nat) (s : State) : Answer :=
  .next (if s.puClocked n && (s.puSw n || (s.pu n).running) && (s.pu n).nextIsBoundary then puEdge n s else s)

/-- PU_IMMEDIATE_PER (R425): A write of PUn_PER with IMM loads PER at the next edge and may cut the period. -/
def execPuImmediatePer (w : Writer) (n per : Nat) (s : State) : Answer :=
  .next (whileClocked s (puPerWrite w n 0xFF (setBits (setBits (s.reg (F.PU_PER_PER n).off) 0 16 per) 63 1 1) s))

/-- PU_FORCE_WRITE (R429): A write of PUn_FORCE forces outputs from the next PNCLK edge. -/
def execPuForceWrite (w : Writer) (n fh fl : Nat) (s : State) : Answer :=
  .next (whileClocked s (puForceWrite w n 0xFF (BitVec.ofNat 64 (fh % 4 + 4 * (fl % 4))) s))

/-- PU_SYNC (R430): A write of PU_SYNC restarts the named software-mode units at their phases on one edge. -/
def execPuSync (mask : Nat) (s : State) : Answer := .next (whileClocked s (puSync mask s))
/-- ROW_MODE_START (R431): The light path starts a row-mode period at S(N, k) − RSLEAD with the window length. -/
def execRowModeStart (m : Nat) (s : State) : Answer := .next (whilePowered s (rowStart m s))
/-- PAD_READBACK_MISMATCH (R432): A pulse pad mismatch for 32 PNCLK or 2 AOCLK compares sets SHORTH or SHORTL and holds the unit low. -/
def execPadReadbackMismatch (n : Nat) (high present : Bool) (s : State) : Answer := .next (whilePowered s (padReadback n high present s))
/-- TRIP_ASSERT (R434): A trip pin low for 20 ns outside blanking asserts TRIPk, holding governed outputs low.
[DESIGN CHOICE, safe, log 17] -/
def execTripAssert (k : Nat) (s : State) : Answer := .next (tripLow k s)
/-- BLANK_WINDOW_END (R434): A blanking window ends and a still-low trip pin asserts TRIPk.
[DESIGN CHOICE, safe, log 17] -/
def execBlankWindowEnd (k : Nat) (s : State) : Answer := .next (blankEnd k s)
/-- TRIP_DEASSERT (R436): In cycle mode a trip pin returning high releases the governed outputs. -/
def execTripDeassert (k : Nat) (s : State) : Answer := .next (tripHigh k s)

/-- TRIP_LATCH_CLEAR (R436): A write of 1 to a TRIP_LATCH bit clears a latched trip while its pin is high. -/
def execTripLatchClear (w : Writer) (mask : Nat) (s : State) : Answer :=
  .next (whileClocked s (tripLatchWrite w 0xFF (BitVec.ofNat 64 mask) s))

/-- TRIP_SW_SET (R437): A write of TRIP_SW.SET latches the software trip on every unit. -/
def execTripSwSet (s : State) : Answer := .next (whileClocked s (tripSwSet s))
/-- PU_CFG (R451): PU_CFG sets one pulse unit to software or row mode or sets its force at a chosen frame. -/
def execPuCfg (id : Nat) (s : State) : Answer := .next (whileClocked s (puCfg id s))

end Sys2Proof.Machine
end

