-- ==== Sys2Proof/Machine/HptMem.lean ====
section
/-!
DEFINITION. HPT's accesses to HB and SPM (R46 to R52, R66, R114, R115, R117): bus errors, the requests that wait for a fill or for the
release of a bank.
-/

namespace Sys2Proof.Machine

/-- What an access answers: read data, and whether it ends in a bus error. -/
abbrev HptAnswer := W64 × Bool

/-- A bus error is recorded (R66).
[DEDUCED, unsafe, log 20] -/
def hptError (cause : Nat) (r : HptReq) (s : State) : State :=
  if s.flag F.HPT_ERR_VALID then s.setFlag F.HPT_ERR_OVF true
  else (((s.setFlag F.HPT_ERR_VALID true).setFld F.HPT_ERR_CAUSE cause).setFld F.HPT_ERR_TID r.tid.toNat).setFld F.HPT_ERR_OFFSET (r.off / 8 * 8)

/-- Does an offset lie in HB or in SPM?
[DEDUCED, unsafe, log 20] -/
def hptMemory (off : Nat) : Bool := (decide (0x600000 ≤ off) && decide (off < 0x640000)) || decide (0x800000 ≤ off)

/-- Is an offset in the absent half of SPM (R6)?
[DEDUCED, unsafe, log 20] -/
def hptAbsent (b : Build) (off : Nat) : Bool := decide (0x800000 + spmSize b ≤ off)

/-- Must an access wait: for the fill at start-up, or for the release of its bank (R52, R111, R117)?
[DESIGN CHOICE, safe, log 9] -/
def State.hptWaits (s : State) (r : HptReq) : Bool :=
  hptMemory r.off && !hptAbsent s.build r.off
    && (s.ao.filling || (decide (0x800000 ≤ r.off) && s.fld (F.SCRUB_OWN_OWNER ((r.off - 0x800000) / 0x20000)) == 0xFF))

/-- Read data: the bytes that are not enabled are open.
[DESIGN CHOICE, safe, log 2]
[DEDUCED, unsafe, log 20] -/
def laneData (be : Nat) (v : W64) (s : State) : State × W64 :=
  if be = 0xFF then (s, v)
  else
    let m : W64 := BitVec.ofNat 64 (((List.range 8).filter (bitOf be)).foldl (fun a k => a + 0xFF * 2 ^ (8 * k)) 0)
    (s.drew, (v &&& m) ||| (BitVec.ofNat 64 (s.free 64) &&& ~~~m))

/-- A write collision in the bytes `lost` of a word of HB is recorded, and source 329 is raised (R114, R115, R138). -/
def hbColl (word lost : Nat) (s : State) : State :=
  (if s.flag F.HB_COLL_VALID then s.setFlag F.HB_COLL_OVF true
   else ((s.setFlag F.HB_COLL_VALID true).setFld F.HB_COLL_BYTES lost).setFld F.HB_COLL_OFFSET word).raise 329

/-- The byte lanes of a word in which a write through port B meets different data that port A has just stored.
[DESIGN CHOICE, unsafe, log 21] -/
def State.lostLanes (s : State) (word : Nat) (byte : Nat → Option Byte) : List Nat :=
  match s.cc.portA with
  | none => []
  | some (w, mask) => (List.range 8).filter fun k => w == word && bitOf mask k &&
      (match byte k with | some b => (s.hb.read (word + k)).v != b | none => false)

/-- A collision of writes from both ports in one CCLK: the bytes of port B that differ from those that port A has just stored are
discarded and recorded (R114, R115). Answers the byte enables that are left.
[DESIGN CHOICE, unsafe, log 21] -/
def hbClash (word be : Nat) (data : W64) (s : State) : State × Nat :=
  let lost := s.lostLanes word fun k => if bitOf be k then some (BitVec.ofNat 8 (data.toNat / 2 ^ (8 * k))) else none
  if lost.isEmpty then (s, be)
  else (hbColl word (lost.foldl setBit 0) s, ((bitsSet be 8).filter fun k => !lost.contains k).foldl setBit 0)

/-- Does an access to `n` bytes of HB through port B touch the word that port A has stored in last? Whether the two met in one CCLK is
then a free value.
[DESIGN CHOICE, safe, log 2]
[DESIGN CHOICE, unsafe, log 21] -/
def State.portBMeets (s : State) (a n : Nat) : Bool :=
  match s.cc.portA with
  | none => false
  | some (w, _) => decide (a < w + 8) && decide (w < a + n) && s.free 1 == 1

/-- A write of bytes into HB through port B by a unit other than the host: a transfer of a memory port.
[DESIGN CHOICE, unsafe, log 21] -/
def portBWrite (a : Nat) (l : List PByte) (s : State) : State :=
  match s.cc.portA with
  | none => writeBytes .hb a l s
  | some (w, _) =>
    if !s.portBMeets a l.length then writeBytes .hb a l s.drew
    else
      let byte := fun k => if a ≤ w + k ∧ w + k < a + l.length then (l[w + k - a]?).map (·.v) else none
      let lost := s.lostLanes w byte
      let keep := l.zipIdx.map fun p => if lost.any (fun k => w + k == a + p.2) then s.hb.read (a + p.2) else p.1
      let s1 := writeBytes .hb a keep s.drew
      if lost.isEmpty then s1 else hbColl w (lost.foldl setBit 0) s1

/-- A transfer of a memory port into a store. -/
def portWrite (x : StoreSel) (a : Nat) (l : List PByte) (s : State) : State :=
  match x with | .hb => portBWrite a l s | .spm => writeBytes .spm a l s

/-- The access to HB or SPM takes place.
[DEDUCED, unsafe, log 19]
[DEDUCED, unsafe, log 20]
[DESIGN CHOICE, unsafe, log 21] -/
def hptMemAccess (clash : Bool) (r : HptReq) (s : State) : State × HptAnswer :=
  let x : StoreSel := if r.off < 0x800000 then .hb else .spm
  let a := (match x with | .hb => r.off - 0x600000 | .spm => r.off - 0x800000) / 8 * 8
  if r.wr then
    let (s1, be) := if clash && x == .hb then hbClash a r.be r.wdata s else (s, r.be)
    ((bitsSet be 8).foldl (fun (t : State) k => writeBytes x (a + k) [⟨BitVec.ofNat 8 (r.wdata.toNat / 2 ^ (8 * k)), false⟩] t) s1, (0, false))
  else
    let b := readBytes x a 8 s
    let s1 := noteRead x a r.be s
    if (bitsSet r.be 8).any fun k => (b.getD k ⟨0, false⟩).pen then (hptError 2 r s1, (0, true))
    else
      let (s2, v) := laneData r.be (BitVec.ofNat 64 (leNat (vals b))) s1
      (s2, (v, false))

end Sys2Proof.Machine
end

