-- ==== Sys2Proof/Machine/Rs.lean ====
section
/-!
DEFINITION. RS(80,64) over GF(2^8) (R120 to R122) and CRC-32 of IEEE 802.3 (R164).
-/

namespace Sys2Proof.Machine

/-- Multiplication by x in GF(2^8) with field polynomial 0x11D. -/
def gfX (a : Byte) : Byte := if a.getLsbD 7 then (a <<< 1) ^^^ 0x1D#8 else a <<< 1

/-- Multiplication in GF(2^8): the low `n` bits of `b` are used. -/
def gfMulN (a : Byte) (b : Byte) : Nat → Byte
  | 0 => 0
  | n + 1 => gfX (gfMulN a b n) ^^^ (if b.getLsbD (7 - n) then a else 0)

def gfMul (a b : Byte) : Byte := gfMulN a b 8

/-- Powers. -/
def gfPow (a : Byte) : Nat → Byte
  | 0 => 1
  | n + 1 => gfMul a (gfPow a n)

/-- The primitive element to the n-th power; the order of the group is 255. -/
def alpha (n : Nat) : Byte := gfPow 2 (n % 255)

/-- The inverse (of 0: 0), a^254 by squaring. -/
def gfInv (a : Byte) : Byte :=
  let a2 := gfMul a a
  let a4 := gfMul a2 a2
  let a8 := gfMul a4 a4
  let a16 := gfMul a8 a8
  let a32 := gfMul a16 a16
  let a64 := gfMul a32 a32
  let a128 := gfMul a64 a64
  gfMul (gfMul (gfMul a128 a64) (gfMul a32 a16)) (gfMul (gfMul a8 a4) a2)

/-- Evaluate a polynomial given highest coefficient first. -/
def polyEval (l : List Byte) (x : Byte) : Byte := l.foldl (fun acc b => gfMul acc x ^^^ b) 0

/-- Syndrome Si = r(alpha^i) of the 80 raw bytes (R120). -/
def syndrome (raw : List Byte) (i : Nat) : Byte := polyEval raw (alpha i)

def syndromes (raw : List Byte) : List Byte := (List.range 16).map (syndrome raw)

/-- Multiply a polynomial (highest coefficient first) by (x - r). -/
def polyTimes (l : List Byte) (r : Byte) : List Byte :=
  List.zipWith (· ^^^ ·) (l ++ [0]) (0 :: l.map (gfMul r))

/-- The product of (x - alpha^i) for i below n, highest coefficient first. -/
def genPoly (n : Nat) : List Byte := (List.range n).foldl (fun l i => polyTimes l (alpha i)) [1]

/-- One step of the division by the monic polynomial x^16 + tail. -/
def rsShift (tail : List Byte) (reg : List Byte) (b : Byte) : List Byte :=
  let f := reg.headD 0 ^^^ b
  List.zipWith (· ^^^ ·) (reg.tail ++ [0]) (tail.map (gfMul f))

/-- The 16 check symbols of 64 data bytes in valid form (R120). -/
def rsCheck (data : List Byte) : List Byte :=
  data.foldl (rsShift (genPoly 16).tail) (List.replicate 16 0)

/-- The check-position pattern M of R120. -/
def rsPennantMask : List Byte :=
  let h := genPoly 15
  h.map (gfMul (gfInv (polyEval h (alpha 15))))

/-- The 80 raw bytes of a line in valid form, or in pennant form (R120). -/
def rsEncode (data : List Byte) (pen : Bool) : List Byte :=
  data ++ (if pen then List.zipWith (· ^^^ ·) (rsCheck data) rsPennantMask else rsCheck data)

/-- One step of the Berlekamp-Massey recursion over (step, connection polynomial, its length, previous polynomial, the steps
since, the previous discrepancy); polynomials lowest coefficient first. -/
structure BmState where
  c : List Byte
  l : Nat
  b : List Byte
  m : Nat
  d : Byte

def bmStep (syn : List Byte) (st : BmState) (n : Nat) : BmState :=
  let disc := (List.range (st.l + 1)).foldl (fun acc i => acc ^^^ gfMul (st.c.getD i 0) (syn.getD (n - i) 0)) 0
  if disc = 0 then { st with m := st.m + 1 }
  else
    let k := gfMul disc (gfInv st.d)
    let shifted := List.replicate st.m 0 ++ st.b.map (gfMul k)
    let len := max st.c.length shifted.length
    let c' := (List.range len).map fun i => st.c.getD i 0 ^^^ shifted.getD i 0
    if 2 * st.l ≤ n then { c := c', l := n + 1 - st.l, b := st.c, m := 1, d := disc }
    else { st with c := c', m := st.m + 1 }

/-- The error locator of a syndrome sequence. -/
def locator (syn : List Byte) : BmState :=
  (List.range 16).foldl (bmStep syn) { c := [1], l := 0, b := [1], m := 1, d := 1 }

/-- Evaluate a polynomial given lowest coefficient first. -/
def polyEvalLo (l : List Byte) (x : Byte) : Byte := polyEval l.reverse x

/-- The error value at raw byte k (Forney, syndromes from alpha^0). -/
def errorValue (syn c : List Byte) (k : Nat) : Byte :=
  let x := alpha (79 - k)
  let xi := gfInv x
  let omega := (List.range 16).map fun n =>
    (List.range (n + 1)).foldl (fun acc i => acc ^^^ gfMul (c.getD i 0) (syn.getD (n - i) 0)) 0
  let deriv := c.zipIdx.map fun p => if p.2 % 2 = 1 then p.1 else 0
  gfMul x (gfMul (polyEvalLo omega xi) (gfInv (polyEvalLo (deriv.drop 1) xi)))

/-- An error pattern: raw byte positions and the values to add. -/
abbrev ErrPattern := List (Nat × Byte)

/-- The syndromes of a pattern. -/
def patternSyndromes (p : ErrPattern) : List Byte :=
  (List.range 16).map fun i => p.foldl (fun acc e => acc ^^^ gfMul e.2 (gfPow (alpha (79 - e.1)) i)) 0

/-- The pattern of at most 8 symbols that a syndrome sequence identifies, if there is one (it is unique, R122). -/
def identify (syn : List Byte) : Option ErrPattern :=
  let bm := locator syn
  let c := bm.c.take (bm.l + 1)
  let pos := (List.range 80).filter fun k => polyEvalLo c (gfInv (alpha (79 - k))) == 0
  let pat := pos.map fun k => (k, errorValue syn c k)
  if bm.l ≤ 8 ∧ pos.length = bm.l ∧ patternSyndromes pat = syn ∧ pat.all (fun e => e.2 != 0) then some pat else none

/-- Apply a pattern. -/
def applyPattern (raw : List Byte) (p : ErrPattern) : List Byte :=
  raw.zipIdx.map fun b => p.foldl (fun v e => if e.1 = b.2 then v ^^^ e.2 else v) b.1

/-- The outcomes of R122: valid (with the corrected pattern), stored pennant (with its pattern), uncorrectable. -/
inductive LineOutcome where
  | valid (p : ErrPattern)
  | pennant (p : ErrPattern)
  | uncorrectable
  deriving DecidableEq, Repr

/-- The syndromes with S15 XOR 0x01. -/
def flipLast (syn : List Byte) : List Byte := syn.take 15 ++ [syn.getD 15 0 ^^^ 1]

/-- Decode a coded line (R122). -/
def decodeLine (raw : List Byte) : LineOutcome :=
  let syn := syndromes raw
  if syn.all (· == 0) then .valid []
  else
    match identify syn with
    | some p =>
      if p.length ≤ 7 then .valid p
      else match identify (flipLast syn) with
        | some _ => .uncorrectable
        | none => .valid p
    | none =>
      match identify (flipLast syn) with
      | some p => .pennant p
      | none => .uncorrectable

/-- One step of CRC-32, reflected polynomial 0xEDB88320. -/
def crcBit (c : BitVec 32) : BitVec 32 := if c.getLsbD 0 then (c >>> 1) ^^^ 0xEDB88320#32 else c >>> 1

def crcByte (c : BitVec 32) (b : Byte) : BitVec 32 :=
  let c0 := c ^^^ (b.zeroExtend 32)
  crcBit (crcBit (crcBit (crcBit (crcBit (crcBit (crcBit (crcBit c0)))))))

/-- CRC-32 of IEEE 802.3 (R164). -/
def crc32 (l : List Byte) : BitVec 32 := (l.foldl crcByte 0xFFFFFFFF#32) ^^^ 0xFFFFFFFF#32

end Sys2Proof.Machine
end

