-- ==== Sys2Proof/Machine/Scrub.lean ====
section
/-!
DEFINITION. The coded windows and the line formats of the memory ports (R118 to R122, R127 to R129), the scrubber (R135 to R137),
error injection into coded lines (R134), the ownership of SPM banks (R111).
-/

namespace Sys2Proof.Machine

/-! ### Line formats -/

/-- Does a quad lie in an enabled coded window of port n (R118, R119)? -/
def State.coded (s : State) (n quad : Nat) : Bool :=
  (List.range 8).any fun k => s.flag (F.MPT_CWIN_EN n k) && decide (s.fld (F.MPT_CWIN_BASE n k) ≤ quad / 4096)
    && decide (quad / 4096 ≤ s.fld (F.MPT_CWIN_LIMIT n k))

/-- Does a byte range lie wholly within one enabled coded window of port n (R135)? -/
def State.inWindow (s : State) (n addr len : Nat) : Bool :=
  (List.range 8).any fun k => s.flag (F.MPT_CWIN_EN n k) && decide (s.fld (F.MPT_CWIN_BASE n k) * 2 ^ 20 ≤ addr)
    && decide (addr + len ≤ (s.fld (F.MPT_CWIN_LIMIT n k) + 1) * 2 ^ 20)

/-- Is a port without service: disabled, failed (R597), or absent on the build? -/
def State.portDead (s : State) (n : Nat) : Bool := !s.flag (F.MPT_CFG_EN n) || s.flag (F.MPT_STAT_FAILED n)

/-- The lines that a request touches (R55). -/
def MptReq.lineMask (r : MptReq) : Nat := if r.write then r.mask else 0xF

/-- Do two requests touch a common line (R57)? -/
def MptReq.clash (a b : MptReq) : Bool := a.quad == b.quad && (a.lineMask &&& b.lineMask) != 0

/-- The 80 raw bytes of line i as they leave the port (R118, R120). -/
def MptReq.rawLine (coded : Bool) (r : MptReq) (i : Nat) : List Byte :=
  let l := (r.raw.drop (80 * i)).take 80
  if !bitOf r.mask i then List.replicate 80 0
  else if coded then rsEncode (l.take 64) (bitOf r.pens i) else l.take 64 ++ List.replicate 16 0

/-- Invert the lowest `nsym` symbols of device d in one raw line (R121, R134). -/
def invertSymbols (d nsym : Nat) (raw : List Byte) : List Byte :=
  raw.zipIdx.map fun p => if p.2 % 10 = d ∧ p.2 / 10 < nsym then ~~~p.1 else p.1

/-- Is an injection armed for the coded lines of port n (R134)? -/
def State.injects (s : State) (n : Nat) : Bool := s.flag F.SCRUB_INJ_ARM && s.fld F.SCRUB_INJ_TARGET == 2 + n

/-- The raw bytes of a write as the port sends them: the injection corrupts the first enabled line of the next coded write. -/
def State.sentRaw (s : State) (n : Nat) (r : MptReq) : List Byte :=
  let c := s.coded n r.quad
  let first := (bitsSet r.mask 4).headD 4
  (List.range 4).flatMap fun i =>
    let l := r.rawLine c i
    if c && s.injects n && i == first then invertSymbols (s.fld F.SCRUB_INJ_DEV) (s.fld F.SCRUB_INJ_NSYM) l else l

/-- Record an error of port n (R129). -/
def mptErr (n cause aid line : Nat) (s : State) : State :=
  if s.flag (F.MPT_ERR_VALID n) then s.setFlag (F.MPT_ERR_OVF n) true
  else (((s.setFlag (F.MPT_ERR_VALID n) true).setFld (F.MPT_ERR_CAUSE n) cause).setFld (F.MPT_ERR_AID n) aid).setFld
    (F.MPT_ERR_LINE n) line

/-- The address bits [47:6] of the first line of a request. -/
def MptReq.firstLine (r : MptReq) : Nat := 4 * r.quad + (bitsSet r.lineMask 4).headD 0

/-! ### One line read -/

/-- A line as it comes back: what the requester receives, and what the decoder found. -/
structure LineRead where
  line : Line
  out : LineOutcome
  deriving DecidableEq, Repr

/-- The corrected symbols of an outcome. -/
def LineOutcome.fixes : LineOutcome → ErrPattern
  | .valid p => p
  | .pennant p => p
  | .uncorrectable => []

/-- Decode one raw line under its format (R118, R122). -/
def readLine (coded : Bool) (raw : List Byte) : LineRead :=
  if coded then
    let o := decodeLine raw
    ⟨⟨(applyPattern raw o.fixes).take 64, match o with | .valid _ => false | _ => true⟩, o⟩
  else ⟨⟨raw.take 64, false⟩, .valid []⟩

/-- The pennanted answer for a line that was not read (R59, R128, R597). -/
def lostLine : LineRead := ⟨⟨List.replicate 64 0, true⟩, .uncorrectable⟩

/-- How many of the corrected symbols lie on device d (R121). -/
def onDevice (p : ErrPattern) (d : Nat) : Nat := (p.filter fun e => e.1 % 10 == d).length

/-- The counts, errors and sources of one decoded line (R122, R129, R130, R138); only data-path reads count per device. -/
def noteLine (n aid line : Nat) (dataPath : Bool) (o : LineOutcome) (s : State) : State :=
  let p := o.fixes
  let s1 := if dataPath then (List.range 10).foldl (fun t d => t.bump (F.MPT_DEVCNT_COUNT n d) (onDevice p d)) s else s
  let s2 := if (List.range 10).any fun d => decide (5 ≤ onDevice p d) then s1.raise 326 else s1
  match o with
  | .valid _ => s2
  | .pennant _ => mptErr n 6 aid line s2
  | .uncorrectable => (mptErr n 1 aid line s2).raise (320 + n)

/-! ### The scrubber (R135 to R137) -/

/-- The scrub in progress in a space. -/
def State.scrub? (s : State) (sp : Nat) : Option ScrubRun := (s.scrubs.find? fun p => p.1 == sp).map (·.2)

def State.setScrub (s : State) (sp : Nat) (r : Option ScrubRun) : State :=
  let rest := s.scrubs.filter fun p => p.1 != sp
  { s with scrubs := match r with | none => rest | some x => SMap.insert sp x rest }

/-- The parameter checks of SCRUB (R135); a stop names only its space.
[DEDUCED, unsafe, log 24] -/
def scrubBad (s : State) (b : List Byte) : Bool :=
  let sp := byteAt b 0
  let start := leAt b 8 8
  let len := leAt b 16 8
  decide (3 < sp) || (sp == 1 && s.build == .d) || decide (2 < byteAt b 1) || decide (64 < leAt b 2 2) || !zeroAt b 4 4
    || (len != 0 &&
      (if sp < 2 then start % 64 != 0 || len % 64 != 0 || !s.inWindow sp start len
       else start % 8 != 0 || len % 8 != 0 || decide (storeSize s.build (if sp = 2 then .spm else .hb) < start + len)))

/-- The read of the quad that holds the next address of a DRAM scrub. -/
def scrubAsk (sp : Nat) (r : ScrubRun) (s : State) : State :=
  s.mptQueue sp { write := false, quad := r.pos / 256, mask := 0xF, raw := [], use := .scrub sp }

/-- SCRUB starts or stops a scrub (R135, R136).
[DEDUCED, unsafe, log 24] -/
def scrub (id : Nat) (s : State) : State :=
  withStarted id 0x5001 s fun c =>
    let b := c.params
    let sp := byteAt b 0
    if scrubBad s b then finish id Status.badParam [] s
    else if leAt b 16 8 = 0 then
      let s1 := match s.scrub? sp with
        | none => s
        | some r =>
          let s2 := s.setScrub sp (some { r with stopping := some id })
          if sp < 2 then s2.setPort sp { s2.port sp with queue := (s2.port sp).queue.filter fun q => q.use != .scrub sp } else s2
      finish id Status.ok [] s1
    else if (s.scrub? sp).isSome then finish id Status.busy [] s
    else
      let r : ScrubRun :=
        { cmd := id, action := byteAt b 1, start := leAt b 8 8, len := leAt b 16 8, pos := leAt b 8 8,
          stopping := none, uncorr := 0, penn := 0, first := none, last := none, corr := [] }
      let s1 := (s.running id).setScrub sp (some r)
      if sp < 2 then scrubAsk sp r s1 else s1

/-- Note a faulting address (R137). -/
def ScrubRun.fault (r : ScrubRun) (a : Nat) : ScrubRun := { r with first := some (r.first.getD a), last := some a }

/-- Count corrections on a device or bank, saturating. -/
def ScrubRun.count (r : ScrubRun) (d n : Nat) : ScrubRun :=
  if n = 0 then r else
  { r with corr := SMap.put (fun _ => 0) r.corr d (satAdd (SMap.get (fun _ => 0) r.corr d) n 0xFFFFFFFF) }

/-- One line of a DRAM scrub enters the summary. -/
def ScrubRun.line (r : ScrubRun) (a : Nat) (l : LineRead) : ScrubRun :=
  let r1 := (List.range 10).foldl (fun t d => t.count d (onDevice l.out.fixes d)) r
  let r2 := if l.out = .valid [] then r1 else r1.fault a
  match l.out with
  | .valid _ => r2
  | .pennant _ => { r2 with penn := r2.penn + 1 }
  | .uncorrectable => { r2 with uncorr := r2.uncorr + 1 }

/-- Does the scrubber write a line back (R136)? A line found in pennant form is never rewritten, and a line that was not read
has no data to keep.
[DEDUCED, unsafe, log 24] -/
def scrubRewrites (action : Nat) (wasRead : Bool) (o : LineOutcome) : Bool :=
  match o with
  | .valid p => decide (1 ≤ action) && !p.isEmpty
  | .pennant _ => false
  | .uncorrectable => decide (2 ≤ action) && wasRead

/-- The quad of a DRAM scrub has been answered: its lines of the range enter the summary, the write-back and the next read are
asked for; the write-back goes before every request that waits, so that its lines stay held from their read on (R57, R136).
[DEDUCED, unsafe, log 24] -/
def scrubLines (sp quad : Nat) (wasRead : Bool) (ls : List LineRead) (s : State) : State :=
  match s.scrub? sp with
  | none => s
  | some r =>
    let mine := (ls.zipIdx.map fun p => (256 * quad + 64 * p.2, p.2, p.1)).filter fun p =>
      decide (r.pos ≤ p.1) && decide (p.1 < r.start + r.len)
    let r1 := mine.foldl (fun t p => t.line p.1 p.2.2) r
    let r2 := { r1 with pos := min (r.start + r.len) (256 * (quad + 1)) }
    let back := mine.filter fun p => scrubRewrites r.action wasRead p.2.2.out
    let s1 := s.setScrub sp (some r2)
    let write : MptReq :=
      { write := true, quad := quad, mask := (back.map (·.2.1)).foldl setBit 0,
        raw := (List.range 4).flatMap (fun i => (ls.getD i lostLine).line.data ++ List.replicate 16 0), use := .scrubWrite sp,
        pens := ((back.filter fun p => p.2.2.line.pen).map (·.2.1)).foldl setBit 0 }
    let s2 := if back.isEmpty then s1 else s1.setPort sp { s1.port sp with queue := write :: (s1.port sp).queue }
    if r2.pos < r2.start + r2.len ∧ r2.stopping = none then scrubAsk sp r2 s2 else s2

/-- One word of SPM or HB is scrubbed (R136): classified and counted; corrected bytes are left for the write-back of R109 with
ACTION 1 or 2, newly uncorrectable bytes are rewritten in pennant form with ACTION 2. -/
def scrubWord (x : StoreSel) (w : Nat) (p : ScrubRun × State) : ScrubRun × State :=
  let (r, s) := p
  let out := fun k => (eccRead ((s.store x).dataAt (w + k)) ((s.store x).chkAt (w + k))).1
  let of := fun o => (List.range 8).filter fun k => out k == o
  let n := (of .corrected).length
  let unc := of .uncorrectable
  let pen := of .pennant
  let r1 := r.count (match x with | .spm => w / 0x20000 | .hb => 0) n
  let r2 := { r1 with uncorr := r1.uncorr + unc.length, penn := r1.penn + pen.length }
  let r3 := if n + unc.length + pen.length = 0 then r2 else r2.fault w
  let s1 := noteRead x w 0xFF s
  let s2 := if r.action = 0 then { s1 with fixups := s.fixups } else s1
  let s3 := if r.action = 2 then
    unc.foldl (fun t k => writeBytes x (w + k) [⟨(t.store x).dataAt (w + k), true⟩] t) s2 else s2
  (r3, s3)

/-- The words of a range that hold a byte whose check bits do not fit, in rising order: every other word reads without error. -/
def suspectWords (m : Store) (start stop : Nat) : List Nat :=
  ((m.chk.filter fun p => decide (start ≤ p.1) && decide (p.1 < stop)).map fun p => p.1 / 8 * 8).dedup

/-- The reading of SPM or HB up to the end, or up to where a stop found it.
[DEDUCED, unsafe, log 24] -/
def scrubStore (x : StoreSel) (r : ScrubRun) (stop : Nat) (s : State) : ScrubRun × State :=
  let (r1, s1) := (suspectWords (s.store x) r.pos stop).foldl (fun p w => scrubWord x w p) (r, s)
  ({ r1 with pos := stop }, s1)

/-- The summary of R137, with the reply's length for the space. -/
def ScrubRun.summary (r : ScrubRun) (sp : Nat) : List Byte :=
  let addr := fun (a : Option Nat) => leBytes 8 (a.getD 0xFFFFFFFFFFFFFFFF)
  let n := if sp < 2 then 10 else if sp = 2 then 64 else 1
  let len := if sp < 2 then 72 else if sp = 2 then 288 else 40
  let l := leBytes 4 r.uncorr ++ leBytes 4 r.penn ++ leBytes 8 (r.pos - r.start) ++ addr r.first ++ addr r.last
    ++ (List.range n).flatMap fun d => leBytes 4 (SMap.get (fun _ => 0) r.corr d)
  l ++ List.replicate (len - l.length) 0

/-- Is a request of the scrubber of a space still with the port? -/
def State.scrubBusy (s : State) (sp : Nat) : Bool :=
  let mine := fun (q : MptReq) => q.use == .scrub sp || q.use == .scrubWrite sp
  decide (sp < 2) && ((s.port sp).queue.any mine || (s.port sp).out.any fun o => mine o.req && !o.overdue)

/-- The scrub of a space ends: its summary goes to the registers and to the reply (R137).
[DEDUCED, unsafe, log 24] -/
def scrubEnd (sp : Nat) (r : ScrubRun) (s : State) : State :=
  let l := r.summary sp
  let s1 := (List.range 36).foldl (fun t w => t.setReg (F.SCRUB_SUM_SUM sp w).off (BitVec.ofNat 64 (leAt l (8 * w) 8))) s
  finish r.cmd Status.ok l (s1.setScrub sp none)

/-- A scrub has reached its end, or has been stopped (R136, R137). How far the reading of SPM or HB had come when the stop arrived
is a free value.
[DESIGN CHOICE, safe, log 2]
[DEDUCED, unsafe, log 24] -/
def scrubDone (sp : Nat) (s : State) : State :=
  match s.scrub? sp with
  | none => s
  | some r =>
    if sp < 2 then
      if s.scrubBusy sp || (decide (r.pos < r.start + r.len) && r.stopping.isNone) then s else scrubEnd sp r s
    else
      let x := if sp = 2 then StoreSel.spm else StoreSel.hb
      if r.stopping.isSome then
        let stop := r.start + 8 * (s.free 32 % (r.len / 8 + 1))
        let q := scrubStore x r stop s.drew
        scrubEnd sp q.1 q.2
      else
        let q := scrubStore x r (r.start + r.len) s
        scrubEnd sp q.1 q.2

/-! ### Registers of the scrubber -/

/-- A write of SCRUB_INJ (R134); on AVLIN-D an MPTn target is discarded for TARGET. -/
def scrubInjWrite (w : Writer) (be : Nat) (data : W64) (s : State) : State :=
  let t := s.plainWrite w F.SCRUB_INJ_TARGET.off be data
  if s.build = .d ∧ 2 ≤ t.fld F.SCRUB_INJ_TARGET then t.setFld F.SCRUB_INJ_TARGET (s.fld F.SCRUB_INJ_TARGET) else t

/-- A write has been discarded because requests are outstanding: the hook of a command that issued it remembers (R119, R597). -/
def writeBusy (w : Writer) (s : State) : State :=
  match w, s.cc.hook with
  | .core _, some r => { s with cc := { s.cc with hook := some { r with busy := true } } }
  | _, _ => s

/-- A write of MPTn_CWINk (R119): discarded while requests are outstanding, for a change of EN, BASE or LIMIT. -/
def cwinWrite (w : Writer) (n k be : Nat) (data : W64) (s : State) : State :=
  let off := (F.MPT_CWIN_EN n k).off
  if (s.port n).out.isEmpty then s.plainWrite w off be data
  else if s.written w off be data = s.reg off then s
  else writeBusy w s

/-- A write of MPTn_CFG (R126, R597): EN = 0 is discarded for that field while requests are outstanding; an enabled port numbers
its slots from zero again. -/
def mptCfgWrite (w : Writer) (n be : Nat) (data : W64) (s : State) : State :=
  let was := s.flag (F.MPT_CFG_EN n)
  let s1 := s.plainWrite w (F.MPT_CFG_EN n).off be data
  let s2 := if was && !(s.port n).out.isEmpty && !s1.flag (F.MPT_CFG_EN n) then writeBusy w (s1.setFlag (F.MPT_CFG_EN n) true) else s1
  let s3 := if !was && s2.flag (F.MPT_CFG_EN n) then s2.setPort n { s2.port n with slot := 0, keys := [] } else s2
  if s3.flag (F.MPT_STAT_FAILED n) then s3 else observe Cls.mpt n (if s3.flag (F.MPT_CFG_EN n) then Obs.on else Obs.off) 0 s3

/-- A write of SCRUB_OWNb (R111): Machine level only. -/
def scrubOwnRegWrite (w : Writer) (b be : Nat) (data : W64) (s : State) : State :=
  if w = .core 2 ∧ bitOf be 0 then scrubOwnWrite b (getBits data 0 8) s else s

/-! ### The commands -/

/-- SCRUB (R135): SCRUB starts or stops a scrub of a range of a store or coded window. -/
def execScrub (id : Nat) (s : State) : Answer := .next (whileClocked s (scrub id s))
/-- SCRUB_DONE (R137): A scrub reaches the end of its range and completes OK with its summary. -/
def execScrubDone (space : Nat) (s : State) : Answer := .next (whileLive s (scrubDone space s))
/-- CORRECTION_WRITE_BACK (R109): A corrected SEC-DED byte is written back in the next free cycle of its bank or port unless a write comes first. -/
def execCorrectionWriteBack (x : StoreSel) (a : Nat) (s : State) : Answer := .next (whileClocked s (correctionWriteBack x a s))
/-- SCRUB_OWN_WRITE (R111): A Machine-level write of SCRUB_OWNb sets the bank owner, or with 0x00 starts a release by zero fill. -/
def execScrubOwnWrite (b v : Nat) (s : State) : Answer := .next (whileClocked s (scrubOwnRegWrite (.core 2) b 1 (BitVec.ofNat 64 v) s))
/-- SCRUB_INJ_ARM (R134): A write of SCRUB_INJ arms corruption of the stored form of the next write to the target store. -/
def execScrubInjArm (w : Writer) (v : W64) (s : State) : Answer := .next (whileClocked s (scrubInjWrite w 0xFF v s))
/-- MPT_CWIN_WRITE (R119): A write of a coded window changes its EN, BASE or LIMIT, discarded while requests are outstanding. -/
def execMptCwinWrite (w : Writer) (n k : Nat) (v : W64) (s : State) : Answer := .next (whileClocked s (cwinWrite w n k 0xFF v s))

end Sys2Proof.Machine
end

