-- ==== Sys2Proof/Machine/Gcm.lean ====
section
/-!
DEFINITION. AES-256-GCM with a 12-byte nonce and a 16-byte tag (R164, R243, R254), as the standard that the manual names.
-/

namespace Sys2Proof.Machine

/-- Multiplication by x in the field of AES (polynomial 0x11B). -/
def aesX (a : Byte) : Byte := if a.getLsbD 7 then (a <<< 1) ^^^ 0x1B#8 else a <<< 1

def aesMulN (a b : Byte) : Nat → Byte
  | 0 => 0
  | n + 1 => aesX (aesMulN a b n) ^^^ (if b.getLsbD (7 - n) then a else 0)

def aesMul (a b : Byte) : Byte := aesMulN a b 8

/-- The inverse, a^254. -/
def aesInv (a : Byte) : Byte :=
  let a2 := aesMul a a
  let a4 := aesMul a2 a2
  let a8 := aesMul a4 a4
  let a16 := aesMul a8 a8
  let a32 := aesMul a16 a16
  let a64 := aesMul a32 a32
  let a128 := aesMul a64 a64
  aesMul (aesMul (aesMul a128 a64) (aesMul a32 a16)) (aesMul (aesMul a8 a4) a2)

/-- The substitution of AES. -/
def subByte (a : Byte) : Byte :=
  let i := aesInv a
  i ^^^ i.rotateLeft 1 ^^^ i.rotateLeft 2 ^^^ i.rotateLeft 3 ^^^ i.rotateLeft 4 ^^^ 0x63#8

def xorBytes (a b : List Byte) : List Byte := List.zipWith (· ^^^ ·) a b

/-- The next eight words of the AES-256 key schedule from the last eight, each word four bytes. -/
def nextKeyWords (k : List (List Byte)) (rcon : Byte) : List (List Byte) :=
  let g := fun i => k.getD i []
  let t := (g 7).rotateLeft 1 |>.map subByte
  let w0 := xorBytes (g 0) (xorBytes t [rcon, 0, 0, 0])
  let w1 := xorBytes (g 1) w0
  let w2 := xorBytes (g 2) w1
  let w3 := xorBytes (g 3) w2
  let w4 := xorBytes (g 4) (w3.map subByte)
  let w5 := xorBytes (g 5) w4
  let w6 := xorBytes (g 6) w5
  let w7 := xorBytes (g 7) w6
  [w0, w1, w2, w3, w4, w5, w6, w7]

/-- Cut a byte string into pieces of `n` bytes; `fuel` bounds the number of pieces. -/
def chunks (n : Nat) : Nat → List Byte → List (List Byte)
  | 0, _ => []
  | _, [] => []
  | fuel + 1, l => l.take n :: chunks n fuel (l.drop n)

/-- The 15 round keys of a 32-byte key. -/
def roundKeys (key : List Byte) : List (List Byte) :=
  let w0 := chunks 4 8 key
  let step := fun (acc : List (List Byte) × List (List Byte) × Byte) (_ : Nat) =>
    let nx := nextKeyWords acc.2.1 acc.2.2
    (acc.1 ++ nx, nx, aesX acc.2.2)
  let all := ((List.range 7).foldl step (w0, w0, 1)).1
  (List.range 15).map fun r => ((all.drop (4 * r)).take 4).flatten

def shiftRows (s : List Byte) : List Byte :=
  (List.range 16).map fun i => s.getD ((i + 4 * (i % 4)) % 16) 0

def mixColumn (c : List Byte) : List Byte :=
  let b := fun i => c.getD i 0
  (List.range 4).map fun i =>
    aesX (b i) ^^^ (aesX (b ((i + 1) % 4)) ^^^ b ((i + 1) % 4)) ^^^ b ((i + 2) % 4) ^^^ b ((i + 3) % 4)

def mixColumns (s : List Byte) : List Byte := ((chunks 4 4 s).map mixColumn).flatten

/-- AES-256 on one 16-byte block, with the round keys. -/
def aesBlock (rk : List (List Byte)) (blk : List Byte) : List Byte :=
  let s0 := xorBytes blk (rk.getD 0 [])
  let s13 := (List.range 13).foldl
    (fun s r => xorBytes (mixColumns (shiftRows (s.map subByte))) (rk.getD (r + 1) [])) s0
  xorBytes (shiftRows (s13.map subByte)) (rk.getD 14 [])

/-- One step of multiplication in GF(2^128) as GCM orders its bits: (accumulator, shifted operand). -/
def ghashStep (x : BitVec 128) (zv : BitVec 128 × BitVec 128) (i : Nat) : BitVec 128 × BitVec 128 :=
  let z := if x.getLsbD (127 - i) then zv.1 ^^^ zv.2 else zv.1
  let v := if zv.2.getLsbD 0 then (zv.2 >>> 1) ^^^ (0xE1#128 <<< 120) else zv.2 >>> 1
  (z, v)

def ghashMul (x y : BitVec 128) : BitVec 128 := ((List.range 128).foldl (ghashStep x) (0, y)).1

def toBlock (l : List Byte) : BitVec 128 := BitVec.ofNat 128 (beNat (l ++ List.replicate (16 - l.length) 0))

/-- GHASH over data that is padded to whole blocks part by part. -/
def ghash (h : BitVec 128) (parts : List (List Byte)) : BitVec 128 :=
  (parts.flatMap fun p => chunks 16 (p.length / 16 + 1) p).foldl (fun y b => ghashMul (y ^^^ toBlock b) h) 0

/-- The counter block number `n` of a nonce. -/
def ctrBlock (nonce : List Byte) (n : Nat) : List Byte := nonce ++ beBytes 4 n

/-- Counter mode from counter 2. -/
def gcmCtr (rk : List (List Byte)) (nonce txt : List Byte) : List Byte :=
  ((chunks 16 (txt.length / 16 + 1) txt).zipIdx.map fun p => xorBytes p.1 (aesBlock rk (ctrBlock nonce (p.2 + 2)))).flatten

/-- The tag over additional data and ciphertext. -/
def gcmTag (rk : List (List Byte)) (nonce aad cipher : List Byte) : List Byte :=
  let h := toBlock (aesBlock rk (List.replicate 16 0))
  let len := beBytes 8 (8 * aad.length) ++ beBytes 8 (8 * cipher.length)
  xorBytes (beBytes 16 (ghash h [aad, cipher, len]).toNat) (aesBlock rk (ctrBlock nonce 1))

/-- The 32 bytes of a key. -/
def keyBytes (k : BitVec 256) : List Byte := beBytes 32 k.toNat

/-- Seal: ciphertext and tag. -/
def gcmSeal (key : BitVec 256) (nonce aad txt : List Byte) : List Byte × List Byte :=
  let rk := roundKeys (keyBytes key)
  let c := gcmCtr rk nonce txt
  (c, gcmTag rk nonce aad c)

/-- Open: the plaintext, if the tag verifies. -/
def gcmOpen (key : BitVec 256) (nonce aad cipher tag : List Byte) : Option (List Byte) :=
  let rk := roundKeys (keyBytes key)
  if gcmTag rk nonce aad cipher = tag then some (gcmCtr rk nonce cipher) else none

end Sys2Proof.Machine
end

