-- ==== Sys2Proof/Machine/UcodeLoad.lean ====
section
/-!
DEFINITION. UCODE_LOAD (R164 to R168): the checks in their order, the image, the load and the verify.
-/

namespace Sys2Proof.Machine

/-! ### The key store (R253) -/

def KeySlot.empty : KeySlot := ⟨none, none, false⟩

def State.keySlot (s : State) (t : Nat) : KeySlot := SMap.get (fun _ => KeySlot.empty) s.keys t

def State.setKeySlot (s : State) (t : Nat) (k : KeySlot) : State :=
  { s with keys := SMap.put (fun _ => KeySlot.empty) s.keys t k }

/-- The entries of a slot, the one loaded last first. -/
def KeySlot.entries (k : KeySlot) : List KeyEntry :=
  if k.bLater then k.b.toList ++ k.a.toList else k.a.toList ++ k.b.toList

/-- The most recently loaded entry (R256). -/
def KeySlot.latest (k : KeySlot) : Option KeyEntry := k.entries.head?

/-- The entry with a KEYID. -/
def KeySlot.byId (k : KeySlot) (keyid : Nat) : Option KeyEntry := k.entries.find? fun e => e.keyid == keyid

/-- The entry that the engine sends under: the most recently loaded one of a management slot whose USE holds the bits asked for. -/
def State.txEntry (s : State) (mslot : Nat) (need : List Nat) : Option KeyEntry :=
  ((s.keySlot (1024 + mslot)).entries).find? fun e => need.all (bitOf e.use)

/-! ### Lines delivered to a unit -/

/-- The bytes from a DRAM address that have been delivered for a use, if all are there. -/
def State.gather (s : State) (use : MptUse) (addr len : Nat) : Option (List PByte) :=
  let l := s.lines.filter fun d => d.use == use
  (List.range len).mapM fun i =>
    let a := addr + i
    (l.find? fun d => d.addr == a / 256 * 256).bind fun d =>
      (d.lines[(a / 64 % 4)]?).map fun ln => ⟨ln.data.getD (a % 64) 0, ln.pen⟩

/-- Lines of a use are consumed. -/
def State.dropLines (s : State) (use : MptUse) : State := { s with lines := s.lines.filter fun d => d.use != use }

/-- Lines of certain uses are given up, with the reads of them that are queued or outstanding. -/
def State.forget (s : State) (p : MptUse → Bool) : State :=
  let port := fun (x : MptPort) => { x with
    queue := x.queue.filter fun r => r.write || !p r.use
    out := x.out.map fun o => if !o.req.write && p o.req.use then { o with req := { o.req with use := .gone } } else o }
  { s with lines := s.lines.filter (fun d => !p d.use), mpt0 := port s.mpt0, mpt1 := port s.mpt1 }

/-- Read requests for every quad that holds a byte of a range. -/
def rangeReads (use : MptUse) (addr len : Nat) : List MptReq :=
  if len = 0 then [] else
  (List.range ((addr + len - 1) / 256 - addr / 256 + 1)).map fun i =>
    { write := false, quad := addr / 256 + i, mask := 0xF, raw := [], use := use }

/-! ### Parameters (R165) -/

structure UcodeParams where
  tmask : Nat
  base : Nat
  count : Nat
  src : Nat
  kslot : Nat
  mode : Nat
  crc : Nat
  addr : Nat
  deriving DecidableEq, Repr

def ucodeParams (p : List Byte) : UcodeParams :=
  { tmask := leAt p 0 4, base := leAt p 4 2, count := leAt p 6 2, src := byteAt p 8, kslot := byteAt p 9,
    mode := byteAt p 10, crc := leAt p 12 4, addr := leAt p 16 8 }

/-- The sequencers that TMASK names. -/
def UcodeParams.targets (u : UcodeParams) : List Nat := bitsSet u.tmask 19

/-- Does the load act on the CSQ customer region? -/
def UcodeParams.customer (u : UcodeParams) : Bool := u.targets == [0] && decide (0x3800 ≤ u.base)

/-- The reply bytes: FIRSTBAD, REASON (R165). -/
def ucodeReply (firstBad reason : Nat) : List Byte := leBytes 2 firstBad ++ leBytes 1 reason ++ List.replicate 5 0

def ucodePlain : List Byte := ucodeReply 0xFFFF 0

/-- The image's length in bytes. -/
def UcodeParams.imageLen (u : UcodeParams) : Nat := 48 + 24 * u.count

/-- Order 1 of R166; a TMASK that names no sequencer is refused there too.
[DEDUCED, unsafe, log 28] -/
def ucodeBadParam (s : State) (p : List Byte) (u : UcodeParams) : Bool :=
  let t := u.targets
  let q := t.headD 0
  let r := region q u.customer
  byteAt p 11 != 0 || bitsOf u.tmask 19 13 != 0 || t.isEmpty || decide (1 < u.src) || decide (1 < u.mode)
    || t.any (fun k => !seqPresent s.build k) || t.any (fun k => seqKind k != seqKind q)
    || u.count == 0 || decide (u.base < r.1) || decide (r.2 < u.base + u.count)
    || (u.mode == 0 && (u.addr % 8 != 0
      || (u.src == 1 && decide (hbSize < u.addr + u.imageLen)) || (u.src == 0 && decide (2 ^ 48 < u.addr + u.imageLen))))

/-- Another UCODE_LOAD in progress that names one of the same targets (R166, order 3). -/
def ucodeBusy (s : State) (id : Nat) (u : UcodeParams) : Bool :=
  u.targets.any (fun q => q != 0 && s.seqState q != SeqState.stopped)
    || (s.cmds.list ++ s.cmds.after).any fun c =>
      c.id != id && c.opc == 0x7001 && c.phase == .running && (ucodeParams c.params).targets.any u.targets.contains

/-- Orders 1 to 4 of R166: the status of the first that fails. -/
def ucodeEarly (s : State) (c : Cmd) (u : UcodeParams) : Option Nat :=
  if ucodeBadParam s c.params u then some Status.badParam
  else if u.targets.any (fun q => q != 0 && s.seqState q == SeqState.retired)
      || (u.targets.contains 0 && s.mode != Mode.rigging && s.mode != Mode.standby)
      || (u.mode == 0 && u.kslot == 0xFF && s.flag F.SEQ_CFG_UAUTH) then some Status.denied
  else if ucodeBusy s c.id u then some Status.busy
  else if u.mode == 0 && u.kslot != 0xFF
      && (decide (15 < u.kslot) || !((s.keySlot (1024 + u.kslot)).latest.any fun e => bitOf e.use 14)) then some Status.authFail
  else none

/-- The image bytes, from HB or from the lines delivered. -/
def ucodeBytes (s : State) (id : Nat) (u : UcodeParams) (lo len : Nat) : Option (List PByte) :=
  if u.src = 1 then some (readBytes .hb (u.addr + lo) len s) else s.gather (.ucode id) (u.addr + lo) len

/-- The KIND that suits the targets. -/
def UcodeParams.kind (u : UcodeParams) : Nat :=
  match seqKind (u.targets.headD 0) with
  | .csq => if u.customer then 1 else 0
  | .psq => 2
  | .lsq => 3

/-- Order 6 of R166 on the 48 header bytes, with the REASON. -/
def ucodeHeaderBad (b : Build) (u : UcodeParams) (h : List Byte) : Option Nat :=
  if leAt h 0 4 ≠ 0x43554C5A ∨ leAt h 4 2 ≠ 1 ∨ bitsOf (byteAt h 7) 1 7 ≠ 0 ∨ !zeroAt h 28 4
      ∨ leAt h 8 2 ≠ u.base ∨ leAt h 10 2 ≠ u.count ∨ leAt h 12 4 ≠ u.crc ∨ byteAt h 6 ≠ u.kind then some 0
  else if b = .d ∧ byteAt h 7 % 2 = 0 then some 5
  else none

/-- The loadable region of the targets becomes invalid; PSQ and LSQ targets enter LOADING (R167 step 1); a load of the customer
region clears the decode table (R163). -/
def ucodeBegin (u : UcodeParams) (s : State) : State :=
  let s1 := u.targets.foldl (fun t q =>
    let t1 := t.setFlag (validRef q u.customer) false
    if q = 0 then t1 else t1.setSeqState q SeqState.loading) s
  if u.customer then (List.range 64).foldl (fun t k => t.setReg (F.CC_CX_EN k).off 0) s1 else s1

/-- Orders 5 and 6, once the header is there: the command fails, or the load begins (R166, R167). -/
def ucodeHeader (id : Nat) (s : State) : State :=
  match s.cmd? id with
  | none => s
  | some c =>
    let u := ucodeParams c.params
    if c.phase ≠ .running ∨ u.mode ≠ 0 ∨ (u.targets.any fun q => s.seqState q == SeqState.loading) then s else
    match ucodeBytes s id u 0 48 with
    | none => s
    | some h =>
      if anyPen h then finish id Status.fault ucodePlain (s.dropLines (.ucode id))
      else match ucodeHeaderBad s.build u (vals h) with
        | some r => finish id Status.badParam (ucodeReply 0xFFFF r) (s.dropLines (.ucode id))
        | none => ucodeBegin u s

/-- UCODE_LOAD starts (R166): orders 1 to 4, then the image is asked for.
[DEDUCED, unsafe, log 28] -/
def ucodeLoad (id : Nat) (s : State) : State :=
  withStarted id 0x7001 s fun c =>
    let u := ucodeParams c.params
    match ucodeEarly s c u with
    | some st => finish id st ucodePlain s
    | none =>
      let s1 := s.running id
      if u.mode = 1 then s1
      else if u.src = 1 then ucodeHeader id s1
      else (rangeReads (.ucode id) u.addr u.imageLen).foldl (fun t r => t.mptQueue 0 r) s1

/-- The word of record i: F[175:0] from bytes 0 to 21, P from byte 22 (R164).
[DEDUCED, unsafe, log 28] -/
def recordWord (recs : List Byte) (i : Nat) : BitVec 184 := BitVec.ofNat 184 (leAt recs (24 * i) 23)

/-- The first record that fails R168, with its REASON; byte 23 of a record must be zero. -/
def firstBadRecord (k : SeqKind) (customer dB : Bool) (recs : List Byte) (n : Nat) : Option (Nat × Nat) :=
  (List.range n).findSome? fun i =>
    let r := wordReason k customer dB (decodeMicro (recordWord recs i))
    if r ≠ 0 then some (i, r) else if byteAt recs (24 * i + 23) ≠ 0 then some (i, 2) else none

/-- The whole region of every target filled, PSQ and LSQ targets STOPPED again (R167 step 4). -/
def ucodeAbandon (u : UcodeParams) (s : State) : State :=
  u.targets.foldl (fun t q =>
    let r := region q u.customer
    let t1 := t.fillStore q r.1 r.2
    if q = 0 then t1 else t1.setSeqState q SeqState.stopped) s

/-- The records written, the rest of the region filled, the region valid (R167 step 3). -/
def ucodeCommit (u : UcodeParams) (recs : List Byte) (s : State) : State :=
  u.targets.foldl (fun t q =>
    let r := region q u.customer
    let t1 := t.fillStore q r.1 r.2
    let t2 := (List.range u.count).foldl (fun t i => t.setUcWord q (u.base + i) (recordWord recs i)) t1
    let t3 := t2.setFlag (validRef q u.customer) true
    let t4 := t3.setFld (if u.customer then F.SQ_CRC_CUST q else F.SQ_CRC_CRC q) u.crc
    if q = 0 then t4 else t4.setSeqState q SeqState.stopped) s

/-- The end of a load, MODE 0 (R167 steps 2 to 4). -/
def ucodeLoadEnd (id : Nat) (u : UcodeParams) (img : List PByte) (s : State) : State :=
  let b := vals img
  let recs := b.drop 48
  let dB := byteAt b 7 % 2 == 1
  let tagBad := u.kslot != 0xFF && (match (s.keySlot (1024 + u.kslot)).latest with
    | none => true
    | some e => (gcmOpen e.key ((b.drop 16).take 12) (b.take 32 ++ recs) [] ((b.drop 32).take 16)).isNone)
  let fail := fun st r => finish id st r (ucodeAbandon u s)
  if anyPen (img.drop 48) then fail Status.fault ucodePlain
  else if tagBad then fail Status.authFail ucodePlain
  else if (crc32 recs).toNat ≠ u.crc then fail Status.badParam (ucodeReply 0xFFFF 6)
  else match firstBadRecord (seqKind (u.targets.headD 0)) u.customer dB recs u.count with
    | some (i, r) => fail Status.badParam (ucodeReply i r)
    | none => finish id Status.ok ucodePlain (ucodeCommit u recs s)

/-- The record bytes of a stored word, for the CRC of a verify. -/
def wordRecord (w : BitVec 184) : List Byte := leBytes 23 w.toNat ++ [0]

/-- The end of a verify, MODE 1 (R167): every target's store is read, the lowest-numbered target first, and FIRSTBAD is the first
failing word of the first target that has one.
[DEDUCED, unsafe, log 28] -/
def ucodeVerifyEnd (id : Nat) (u : UcodeParams) (s : State) : State :=
  let bad := u.targets.findSome? fun q =>
    let r := region q u.customer
    (List.range (r.2 - r.1)).findSome? fun i =>
      let a := r.1 + i
      let w := s.ucWord q a
      if u.base ≤ a ∧ a < u.base + u.count then
        let x := wordReason (seqKind q) u.customer (s.build == .d) (decodeMicro w)
        if x ≠ 0 then some (a, x) else none
      else if w ≠ fillWord then some (a, 7) else none
  match bad with
  | some (a, r) => finish id Status.badParam (ucodeReply a r) s
  | none =>
    if u.targets.any fun q =>
        (crc32 ((List.range u.count).flatMap fun i => wordRecord (s.ucWord q (u.base + i)))).toNat != u.crc
    then finish id Status.badParam (ucodeReply 0xFFFF 6) s
    else finish id Status.ok ucodePlain (u.targets.foldl (fun t q =>
      (t.setFlag (validRef q u.customer) true).setFld (if u.customer then F.SQ_CRC_CUST q else F.SQ_CRC_CRC q) u.crc) s)

/-- The load or verify of a command ends (R167). -/
def ucodeDone (id : Nat) (s : State) : State :=
  match s.cmd? id with
  | none => s
  | some c =>
    let u := ucodeParams c.params
    if c.opc ≠ 0x7001 ∨ c.phase ≠ .running then s
    else if u.mode = 1 then ucodeVerifyEnd id u s
    else match ucodeBytes s id u 0 u.imageLen with
      | none => s
      | some img => ucodeLoadEnd id u img (s.dropLines (.ucode id))

/-! ### The commands -/

/-- UCODE_LOAD (R167): UCODE_LOAD loads or verifies a control-store region and marks it valid or invalid. -/
def execUcodeLoad (id : Nat) (s : State) : Answer := .next (whileClocked s (ucodeLoad id s))
/-- UCODE_LOAD_DONE (R167): A microcode load or verify finishes passing the region, marks it valid or invalid, returns targets to STOPPED and completes. -/
def execUcodeLoadDone (id : Nat) (s : State) : Answer := .next (whileLive s (ucodeDone id s))

end Sys2Proof.Machine
end

