-- ==== Sys2Proof/Machine/SliceQueue.lean ====
section
/-!
DEFINITION. Decode windows, unit headers, slice queues in SPM and the intake of units (R269 to R285, R311, R315, R324, R336).
-/

namespace Sys2Proof.Machine

/-! ### Windows -/

def Win.empty : Win := ⟨0, 0, [], 0, 0, 0, [], [], [], [], [], [], [], [], [], none⟩

def State.win (s : State) (k : Nat) : Win := SMap.get (fun _ => Win.empty) s.dec.wins k

def State.setWin (s : State) (k : Nat) (w : Win) : State :=
  { s with dec := { s.dec with wins := SMap.put (fun _ => Win.empty) s.dec.wins k w } }

/-- A field of SE_WCFGk or SE_WREFk as it is in force (R336). -/
def Win.fld (w : Win) (f : FRef) : Nat := getBits w.cfg f.lo f.w
def Win.rfld (w : Win) (f : FRef) : Nat := getBits w.ref f.lo f.w

def Win.on (w : Win) : Bool := w.fld (F.SE_WCFG_EN 0) != 0
def Win.tenant (w : Win) : Nat := w.fld (F.SE_WCFG_TENANT 0)
def Win.z (w : Win) : Nat := w.fld (F.SE_WCFG_Z 0)
def Win.cx0 (w : Win) : Nat := w.fld (F.SE_WCFG_CX0 0)
def Win.cy0 (w : Win) : Nat := w.fld (F.SE_WCFG_CY0 0)
/-- Region width and height in cells. -/
def Win.cw (w : Win) : Nat := w.fld (F.SE_WCFG_CW 0) + 1
def Win.ch (w : Win) : Nat := w.fld (F.SE_WCFG_CH 0) + 1
def Win.port (w : Win) : Nat := w.rfld (F.SE_WREF_PORT 0)
/-- The DRAM address of buffer q (R324). -/
def Win.buf (w : Win) (q : Nat) : Nat := w.rfld (F.SE_WREF_BASE 0) * 4096 + q * (w.cw * w.ch * 4608)

/-- The windows in use. -/
def State.winsOn (s : State) : List (Nat × Win) := s.dec.wins.filter fun p => p.2.on

/-- The window of a tenant. -/
def State.winOf (s : State) (t : Nat) : Option Nat := (s.winsOn.find? fun p => p.2.tenant == t).map (·.1)

/-- Does a window cover a cabinet cell? -/
def Win.covers (w : Win) (cx cy : Nat) : Bool :=
  w.on && decide (w.cx0 ≤ cx) && decide (cx < w.cx0 + w.cw) && decide (w.cy0 ≤ cy) && decide (cy < w.cy0 + w.ch)

/-- The rank of a window at a cabinet cell: windows that cover it in ascending Z, ties by ascending tenant (R317). -/
def State.rankAt (s : State) (w : Win) (cx cy : Nat) : Nat :=
  (s.winsOn.filter fun p => p.2.covers cx cy
    && (decide (p.2.z < w.z) || (p.2.z == w.z && decide (p.2.tenant < w.tenant)))).length

/-- The number of ranks at a cabinet cell. -/
def State.ranksAt (s : State) (cx cy : Nat) : Nat := (s.winsOn.filter fun p => p.2.covers cx cy).length

/-- The window cell of the region's top-left cell (R270, R271). -/
def State.winOrigin (s : State) (w : Win) : Int × Int :=
  match s.tenants.find? fun p => p.1 == w.tenant with
  | none => (0, 0)
  | some (_, t) => ((s.fld F.RING_AREA_X0C + w.cx0 : Nat) - (t.x0 / 32 : Nat), (s.fld F.RING_AREA_Y0C + w.cy0 : Nat) - (t.y0 / 32 : Nat))

/-- The intersection of a rectangle of window cells with the region, in cells of the region: (x, y, width, height). -/
def State.cut (s : State) (w : Win) (sx sy sw sh : Nat) : Nat × Nat × Nat × Nat :=
  let (ox, oy) := s.winOrigin w
  let x0 := max (sx : Int) ox
  let y0 := max (sy : Int) oy
  let x1 := min ((sx + sw : Nat) : Int) (ox + w.cw)
  let y1 := min ((sy + sh : Nat) : Int) (oy + w.ch)
  if x0 < x1 ∧ y0 < y1 then ((x0 - ox).toNat, (y0 - oy).toNat, (x1 - x0).toNat, (y1 - y0).toNat) else (0, 0, 0, 0)

/-- Cell numbers of a rectangle of the region. -/
def Win.cellsOf (w : Win) (x y n m : Nat) : List Nat :=
  (List.range m).flatMap fun j => (List.range n).map fun i => (y + j) * w.cw + x + i

/-- Is the reference of window k held, and which frame is it? -/
def State.refOk (s : State) (k : Nat) : Bool := s.flag (F.SE_WSTAT_REFOK k)
def State.refNames (s : State) (k refnum : Nat) : Bool := s.refOk k && s.fld (F.SE_WSTAT_REFFRAME k) == refnum

/-- The offset in SPM of a map entry of window k, buffer q (R324). -/
def State.mapAt (s : State) (k q cell : Nat) : Nat := s.fld F.SE_SPMCFG_MAPBASE * 1024 + (2 * k + q) * 2048 + 2 * cell

/-- A map entry of the reference: alpha, whether the cell is usable (R325, R326). -/
def State.mapEntry (s : State) (k cell : Nat) : Nat × Bool :=
  let b := readBytes .spm (s.mapAt k (s.fld (F.SE_WREF_CUR k)) cell) 2 s
  let v := leNat (vals b)
  (v % 4096, s.refOk k && !anyPen b && decide (v / 4096 % 8 ≤ 2))

/-- Write a map entry of the build buffer. -/
def State.putMap (s : State) (k cell alpha st : Nat) : State :=
  writeBytes .spm (s.mapAt k (1 - s.fld (F.SE_WREF_CUR k)) cell) (plain (leBytes 2 (alpha % 4096 + st % 8 * 4096))) s

/-! ### Unit headers (R272 to R279) -/

/-- A SLICE header and its segment table entries. -/
structure SliceHdr where
  fnum : Nat
  stype : Nat
  pset : Nat
  qp : Nat
  nseg : Nat
  refnum : Nat
  cabLo : Nat
  cabHi : Nat
  sx : Nat
  sy : Nat
  sw : Nat
  sh : Nat
  falpha : Nat
  table : List (Nat × Nat)
  deriving DecidableEq, Repr

def sliceHdr (b : List Byte) : SliceHdr :=
  let n := byteAt b 15
  { fnum := beAt b 8 4, stype := byteAt b 12, pset := byteAt b 13, qp := byteAt b 14, nseg := n, refnum := beAt b 16 4,
    cabLo := beAt b 20 2, cabHi := beAt b 22 2, sx := beAt b 24 2, sy := beAt b 26 2, sw := beAt b 28 2, sh := beAt b 30 2,
    falpha := beAt b 32 2, table := (List.range (min n 64)).map fun k => (beAt b (36 + 8 * k) 2, beAt b (40 + 8 * k) 4) }

/-- The header is well-formed on its own (R276, R277, R279). -/
def sliceFormOk (b : List Byte) (h : SliceHdr) : Bool :=
  let cabs := h.table.map (·.1)
  byteAt b 1 == 1 && decide (beAt b 2 2 < 1024) && decide (h.stype ≤ 1) && decide (h.qp < 64)
    && decide (1 ≤ h.nseg) && decide (h.nseg ≤ 64) && (h.stype == 1 || h.refnum == 0) && decide (h.falpha < 4096)
    && zeroAt b 34 2 && decide (1 ≤ h.sw) && decide (1 ≤ h.sh)
    && (List.range h.nseg).all (fun k => zeroAt b (38 + 8 * k) 2)
    && h.table.all (fun e => e.2 % 2 == 0 && decide (16 ≤ e.2) && decide (e.1 < 1024))
    && (List.range (h.nseg - 1)).all (fun k => decide (cabs.getD k 0 < cabs.getD (k + 1) 0))
    && h.cabLo == cabs.headD 0 && h.cabHi == (cabs.getLast?).getD 0
    && beAt b 4 4 == 36 + 8 * h.nseg + (h.table.map (·.2)).sum

/-- The index of the own segment in the table. -/
def State.ownSeg (s : State) (h : SliceHdr) : Option Nat := h.table.findIdx? fun e => s.cabId == some e.1

/-- Count a discarded unit of window k.
[DEDUCED, unsafe, log 51] -/
def discardUnit (k : Nat) (s : State) : State := s.bump (F.SE_WERR_DISC k) 1

/-! ### Slice queues (R315)

A queue is a circular area of SPM; its bytes are numbered in the order in which they were stored. -/

/-- The SPM offset of byte o of a window's queue.
[DEDUCED, unsafe, log 51] -/
def Win.queueAt (w : Win) (o : Nat) : Nat := w.qbase + o % w.qsize

/-- Does the queue lie within SPM (R335)? -/
def State.queueIn (s : State) (w : Win) : Bool := decide (0 < w.qsize) && decide (w.qbase + w.qsize ≤ spmSize s.build)

/-- The space in use: from the oldest unit to the newest. -/
def Win.used (w : Win) : Nat := match w.queue with | [] => 0 | u :: _ => w.tail - u.off

/-- Does a unit of n bytes fit into the free space? -/
def Win.fits (w : Win) (n : Nat) : Bool := decide (w.used + n ≤ w.qsize)

/-- Store bytes in a queue from byte o on; a pennanted byte is stored in pennant form (R132).
[DEDUCED, unsafe, log 51] -/
def writeQueue (w : Win) (o : Nat) (l : List PByte) (s : State) : State :=
  let room := w.qsize - o % w.qsize
  writeBytes .spm w.qbase (l.drop room) (writeBytes .spm (w.queueAt o) (l.take room) s)

/-- n bytes of a queue from byte o on. -/
def State.readQueue (s : State) (w : Win) (o n : Nat) : List PByte :=
  (List.range n).map fun i => s.spm.read (w.queueAt (o + i))

/-- The effects of reading them (R106, R131). -/
def noteQueue (w : Win) (o n : Nat) (s : State) : State :=
  let room := min n (w.qsize - o % w.qsize)
  noteReads .spm w.qbase (n - room) (noteReads .spm (w.queueAt o) room s)

/-- The header and table of a unit, as they are read from the queue. -/
def State.unitHead (s : State) (w : Win) (u : SliceUnit) : List PByte := s.readQueue w u.off u.headLen

/-- The own payload of a unit. -/
def State.unitPayload (s : State) (w : Win) (u : SliceUnit) : List PByte := s.readQueue w (u.off + u.headLen) (u.len - u.headLen)

/-! ### Intake (R275, R278, R279, R285, R315) -/

/-- A parameter set from a STREAM unit.
[DEDUCED, unsafe, log 51] -/
def psetOf (b : List Byte) : PSet :=
  ⟨byteAt b 8, byteAt b 9, beAt b 10 2, beAt b 12 2, (List.range 3).map fun c => toSigned (byteAt b (14 + c)) 8⟩

/-- The checks of R279 and R311 on a STREAM unit. -/
def streamOk (s : State) (t : Nat) (b : List Byte) : Bool :=
  let p := psetOf b
  b.length == 24 && beAt b 4 4 == 24 && byteAt b 1 == 1 && decide (beAt b 2 2 < 1024) && decide (p.flags < 8)
    && p.flags / 2 != 3 && byteAt b 17 == 1 && zeroAt b 18 6
    && p.qpoff.all (fun q => decide (-8 ≤ q) && decide (q ≤ 7)) && decide (p.wc ≤ 32768) && decide (p.hc ≤ 32768)
    && s.tenants.any fun e => e.1 == t && e.2.w == 32 * p.wc && e.2.h == 32 * p.hc

/-- A unit that finds no room is discarded (R315). -/
def queueFull (k : Nat) (s : State) : State := (s.bump (F.SE_WERR_QFULL k) 1).raise 87

/-- Take in a STREAM unit (R275). It is taken in as it is stored, and leaves its place free again.
[DEDUCED, unsafe, log 51] -/
def takeStream (k : Nat) (l : List PByte) (s : State) : State :=
  let w := s.win k
  let b := vals l
  if !w.fits l.length then queueFull k s
  else
    let s := writeQueue w w.tail l s
    if !streamOk s w.tenant b then discardUnit k s
    else
      let p := psetOf b
      if w.psets.contains p then s
      else
        let rest := w.psets.filter fun q => q.pset != p.pset
        let rest := if 2 ≤ rest.length then rest.drop 1 else rest
        s.setWin k { w with psets := rest ++ [p] }

/-- Is a resolved frame one that intake keeps: not before the present frame, not after N + 63 (R315)?
[DEDUCED, unsafe, log 51] -/
def State.frameOk (s : State) (f : Int) : Bool := decide ((s.frame : Int) ≤ f) && decide (f ≤ s.frame + 63)

/-- The number of slices taken of a frame. -/
def Win.takenOf (w : Win) (frame : Nat) : Nat := ((w.taken.find? fun e => e.1 == frame).map (·.2)).getD 0

/-- Take in a HOLD unit (R278, R285): one for a frame that has a HOLD or of which a slice has been taken is discarded.
[DEDUCED, unsafe, log 51] -/
def takeHold (k : Nat) (l : List PByte) (s : State) : State :=
  let w := s.win k
  let b := vals l
  let f := resolveFrame s.frame (beAt b 8 4)
  if !s.frameOk f then s.bump (F.SE_WERR_LATE k) 1
  else if !w.fits l.length then queueFull k s
  else
    let s := writeQueue w w.tail l s
    if !(b.length == 16 && beAt b 4 4 == 16 && byteAt b 1 == 1 && decide (beAt b 2 2 < 1024))
        || w.holds.any (fun h => h.1 == f.toNat) || decide (0 < w.takenOf f.toNat) then discardUnit k s
    else s.setWin k { w with holds := w.holds ++ [(f.toNat, beAt b 12 4)] }

/-- The rectangle of a slice that gives no cell, with its cause. -/
def State.lostRect (s : State) (w : Win) (frame cause : Nat) (h : SliceHdr) : List LostRect :=
  let (x, y, n, m) := s.cut w h.sx h.sy h.sw h.sh
  if n = 0 then [] else [⟨frame, cause, x, y, n, m⟩]

/-- The cells of a discarded slice count as lost (R279, R315).
[DEDUCED, unsafe, log 51] -/
def loseSlice (k frame : Nat) (h : SliceHdr) (s : State) : State :=
  let w := s.win k
  s.setWin k { w with discs := w.discs ++ s.lostRect w frame 2 h }

/-- Take in a SLICE unit (R311, R315): the header, the table and the member's own payload go to the queue.
[DEDUCED, unsafe, log 51] -/
def takeSlice (k : Nat) (l : List PByte) (s : State) : State :=
  let w := s.win k
  let b := vals l
  let h := sliceHdr b
  let f := resolveFrame s.frame h.fnum
  let n := f.toNat
  let headLen := min (36 + 8 * h.nseg) l.length
  let start := 36 + 8 * h.nseg + ((h.table.take ((s.ownSeg h).getD 0)).map (·.2)).sum
  let payload := match s.ownSeg h with
    | some i => (l.drop start).take ((h.table.getD i (0, 0)).2)
    | none => []
  let len := headLen + payload.length
  if !s.frameOk f then loseSlice k n h (s.bump (F.SE_WERR_LATE k) 1)
  else if !w.fits len then loseSlice k n h (queueFull k s)
  else if w.holds.any (fun e => e.1 == n) || decide (1024 ≤ w.takenOf n) then loseSlice k n h (discardUnit k s)
  else
    let u : SliceUnit := ⟨s.dec.nextUnit, n, w.tail, headLen, len, none, none, none⟩
    let s1 := (writeQueue w w.tail (l.take headLen ++ payload) s).setWin k
      { w with queue := w.queue ++ [u], tail := w.tail + len, taken := SMap.insert n (w.takenOf n + 1) w.taken }
    { s1 with dec := { s1.dec with nextUnit := s1.dec.nextUnit + 1 } }

/-- The ring unit places a kept unit of a tenant (R30, R315).
[DEDUCED, unsafe, log 51] -/
def unitIntake (l : List PByte) (s : State) : State :=
  match s.winOf (beAt (vals l) 2 2 % 1024) with
  | none => s
  | some k =>
    match byteAt (vals l) 0 with
    | 1 => takeStream k l s
    | 2 => takeSlice k l s
    | 3 => takeHold k l s
    | _ => discardUnit k s

/-- Does the engine keep a unit (R30)? The bytes of a header that has not been seen whole count as kept. -/
def State.keeps (s : State) (u : List Byte) : Bool :=
  if byteAt u 0 = 2 && decide (24 ≤ u.length) then
    match s.cabId with
    | none => false
    | some c => decide (beAt u 20 2 ≤ c) && decide (c ≤ beAt u 22 2)
  else true

/-- A unit that this engine itself has sent: it decodes it as every member does whose ID lies in its range (R30, R12).
[DESIGN CHOICE, unsafe, log 59] -/
def ownUnit (l : List Byte) (s : State) : State := if s.role 0 && s.keeps l then unitIntake (plain l) s else s

end Sys2Proof.Machine
end

