-- ==== Sys2Proof/Machine/SliceRow.lean ====
section
/-!
DEFINITION. Slice rows: availability, dispatch order, and the stages that read and parse them (R276 to R306, R312, R316, R318, R321,
R322).
-/

namespace Sys2Proof.Machine

/-! ### Engines, rows and stages -/

def State.rows (s : State) (n : Nat) : List RowJob := SMap.get (fun _ => []) s.dec.engines n

/-- A slice engine that is neither failed nor retired is observed ON while it holds work, OFF while it is idle (R264).
[UNVERIFIED, unsafe, log 38] -/
def seBusy (n : Nat) (s : State) : State :=
  if s.obs Cls.se n == Obs.failed || s.obs Cls.se n == Obs.retired then s
  else observe Cls.se n (if !(s.rows n).isEmpty || s.encs.any (fun (p : Nat × EncJob) => p.1 == n) then Obs.on else Obs.off) 0 s

/-- The same for every engine. -/
def seBusyAll (s : State) : State := (List.range (seCount s.build)).foldl (fun t n => seBusy n t) s

def State.setRows (s : State) (n : Nat) (l : List RowJob) : State :=
  seBusy n { s with dec := { s.dec with engines := SMap.put (fun _ => []) s.dec.engines n l } }

/-- Every row in an engine. -/
def State.allRows (s : State) : List RowJob := s.dec.engines.flatMap (·.2)

/-- The unit of a decode row. -/
def RowJob.unit? (j : RowJob) : Option Nat := match j.kind with | .decode u => some u | _ => none

/-- Does stage k take part in a row (R312)? CMP alone shows a HOLD again (R325); CNC joins where cells are lost. -/
def RowJob.uses (j : RowJob) (k : Nat) : Bool :=
  match k with
  | 0 | 1 | 2 | 3 | 4 | 5 | 7 => j.unit?.isSome
  | 8 => j.kind == .conceal || j.conc
  | 9 => true
  | _ => false

/-- Does a row still need stage k? -/
def RowJob.needs (j : RowJob) (k : Nat) : Bool := j.uses k && !bitOf j.ended k

/-- Have all stages before k done their part? -/
def RowJob.ready (j : RowJob) (k : Nat) : Bool := (List.range k).all fun i => !j.needs i

/-- Stage k has done its part. -/
def RowJob.endStage (j : RowJob) (k : Nat) : RowJob := { j with ended := setBit j.ended k }

/-- Is every cell of a row blended, so that it can be published? -/
def RowJob.blended (j : RowJob) : Bool := j.ready 10

/-- The stages that the rows of engine n need are in progress. -/
def busyStages (n : Nat) (s : State) : State :=
  (List.range 10).foldl (fun t k =>
    if (t.rows n).any fun j => j.needs k then t.setStage (n + 1) k { t.stage (n + 1) k with busy := true, done := false } else t) s

/-- The slots of engine n that no row needs any more stop, as by ABORT (R153, R319). -/
def idleStages (n : Nat) (s : State) : State :=
  (List.range 10).foldl (fun t k =>
    if (t.stage (n + 1) k).busy && !(t.rows n).any (fun j => j.needs k) then t.setStage (n + 1) k { t.stage (n + 1) k with busy := false }
    else t) s

/-- Is slice engine n in service for decode (R331, R338)? -/
def State.seServes (s : State) (n : Nat) : Bool :=
  decide (n < seCount s.build) && s.inService Cls.se n && !s.flag (F.SEN_CTL_ENC n)

/-- The units of a window that belong to the open frame. -/
def State.openUnits (s : State) (w : Win) : List SliceUnit := w.queue.filter fun u => s.dec.open_ == some u.frame

/-- The rectangle of a unit in cells of the region. -/
def State.unitRect (s : State) (w : Win) (u : SliceUnit) : Nat × Nat × Nat × Nat :=
  match u.seg with
  | some g => (g.x, g.y, g.w, g.h)
  | none => let h := sliceHdr (vals (s.unitHead w u)); s.cut w h.sx h.sy h.sw h.sh

/-- The record pairs in use. -/
def State.pairsUsed (s : State) : List Nat := s.dec.wins.flatMap fun p => p.2.queue.filterMap (·.pair)

/-- A free record pair. -/
def State.freePair (s : State) : Option Nat :=
  (List.range (s.fld F.SE_SPMCFG_NREC)).find? fun p => !s.pairsUsed.contains p

/-- Does band b find its buffer free, or hold it already (R318)? -/
def State.bandOpen (s : State) (b : Nat) : Bool :=
  match s.dec.bufs.find? fun p => p.1 == b % 4 with
  | none => true
  | some (_, x) => s.dec.open_ == some x.frame && x.band == b

/-- A row that could be dispatched, with its place in the order of R318: closed band first, band, rank, cell x. -/
structure Candidate where
  order : List Nat
  job : RowJob

/-- The staging half that no other row of engine n uses (R320). -/
def State.freeHalf (s : State) (n : Nat) : Nat := if (s.rows n).any fun j => j.half == 0 then 1 else 0

/-- A row as it is dispatched. -/
def RowJob.fresh (frame win : Nat) (kind : RowKind) (band y : Nat) (cols : List Nat) : RowJob :=
  { frame := frame, win := win, kind := kind, band := band, y := y, cols := cols, ended := 0, conc := false, half := 0,
    start := none, pen := false, syn := [], after := none, cells := [], res := 0 }

/-- The decode rows that are available in the queues (R316) and not in an engine.
[DEDUCED, unsafe, log 52] -/
def State.queueRows (s : State) : List Candidate :=
  s.winsOn.flatMap fun p =>
    (s.openUnits p.2).filterMap fun u =>
      let r := s.unitRect p.2 u
      let next := match u.seg with | some g => g.next | none => 0
      let y := r.2.1 + next
      let b := p.2.cy0 + y
      let taken := s.allRows.any fun j => j.win == p.1 && j.kind == .decode u.id
      let dead := match u.seg with | some g => g.dead.isSome || decide (g.h ≤ g.next) | none => false
      if taken || dead || !(u.pair.isSome || decide (r.2.2.2 ≤ 1) || s.freePair.isSome) || s.dec.closed.contains b then none
      else some ⟨[1, b, s.rankAt p.2 (p.2.cx0 + r.1) b, r.1],
        .fresh u.frame p.1 (.decode u.id) b y ((List.range r.2.2.1).map (r.1 + ·))⟩

/-- Those that an engine may start: their band finds its buffer (R318). -/
def State.decodeRows (s : State) : List Candidate := s.queueRows.filter fun c => s.bandOpen c.job.band

/-- Is the HOLD of a window for the open frame in force (R285)? -/
def State.heldNow (s : State) (k : Nat) : Bool :=
  (s.win k).holds.any fun h => s.dec.open_ == some h.1 && s.refNames k h.2

/-- The region columns of row y that a predicate selects. -/
def Win.colsWhere (w : Win) (y : Nat) (p : Nat → Bool) : List Nat := (List.range w.cw).filter fun x => p (y * w.cw + x)

/-- The cells of a window and row that an engine has in hand. -/
def State.inHand (s : State) (k y : Nat) : List Nat :=
  (s.allRows.filter fun j => j.win == k && j.y == y).flatMap (·.cols)

/-- Concealment work of closed bands, and the rows that a HOLD shows again. -/
def State.otherRows (s : State) : List Candidate :=
  s.winsOn.flatMap fun p =>
    (List.range p.2.ch).flatMap fun y =>
      let b := p.2.cy0 + y
      let hand := s.inHand p.1 y
      let free := fun c => !p.2.pub.contains c && !hand.contains (c % p.2.cw)
      let lost := p.2.colsWhere y fun c => free c && p.2.lost.any fun e => e.1 == c
      let again := p.2.colsWhere y fun c => free c && s.heldNow p.1
      if !s.bandOpen b || s.dec.started.contains b then []
      else if s.dec.closed.contains b then
        if lost.isEmpty then [] else
          [⟨[0, b, s.rankAt p.2 (p.2.cx0 + lost.headD 0) b, lost.headD 0], .fresh (s.dec.open_.getD 0) p.1 .conceal b y lost⟩]
      else if again.isEmpty then [] else
          [⟨[1, b, s.rankAt p.2 (p.2.cx0 + again.headD 0) b, again.headD 0], .fresh (s.dec.open_.getD 0) p.1 .hold b y again⟩]

/-- Lexicographic order. -/
def lexLt : List Nat → List Nat → Bool
  | a :: x, b :: y => decide (a < b) || (a == b && lexLt x y)
  | [], _ :: _ => true
  | _, _ => false

/-- The first candidate in the order of R318. -/
def firstCandidate (l : List Candidate) : Option Candidate :=
  l.foldl (fun acc c => match acc with
    | none => some c
    | some d => if lexLt c.order d.order then some c else some d) none

/-- Claim a band buffer for the open frame. -/
def claimBand (b : Nat) (s : State) : State :=
  if s.dec.bufs.any fun p => p.1 == b % 4 then s
  else { s with dec := { s.dec with bufs := SMap.insert (b % 4) ⟨s.dec.open_.getD 0, b, []⟩ s.dec.bufs } }

/-- Set the parameter registers of a row (R322). -/
def setRowParams (n : Nat) (p : List (Nat × Nat)) (s : State) : State :=
  let q := s.seq (n + 1)
  s.setSeq (n + 1) { q with p := p.foldl (fun l e => SMap.put (fun _ => (0 : W32)) l e.1 (BitVec.ofNat 32 e.2)) q.p }

/-- Update a unit of a window's queue. -/
def State.updUnit (s : State) (k id : Nat) (f : SliceUnit → SliceUnit) : State :=
  let w := s.win k
  s.setWin k { w with queue := w.queue.map fun u => if u.id = id then f u else u }

/-- A unit of a window's queue. -/
def State.unit? (s : State) (k id : Nat) : Option SliceUnit := (s.win k).queue.find? fun u => u.id == id

/-- SLI starts a unit: it is bound to the parameter set that its header names, and a segment of several rows takes a record pair
(R275, R316). -/
def startUnit (j : RowJob) (s : State) : State :=
  match j.unit? with
  | none => s
  | some id =>
    let w := s.win j.win
    s.updUnit j.win id fun u =>
      { u with
        bound := match u.bound with
          | some b => some b
          | none => some (w.psets.find? fun p => p.pset == (sliceHdr (vals (s.unitHead w u))).pset)
        pair := match u.pair with
          | some p => some p
          | none => if (s.unitRect w u).2.2.2 ≤ 1 then none else s.freePair }

/-- What P2 holds of a row (R322): its record pair. -/
def State.pairOf (s : State) (j : RowJob) : Nat := ((j.unit?.bind (s.unit? j.win)).bind (·.pair)).getD 0xFFFF

/-- Engine n takes the first available row (R316, R318). -/
def rowDispatch (n : Nat) (s : State) : State :=
  if !s.seServes n || s.dec.open_.isNone || decide (2 ≤ (s.rows n).length) || (s.rows n).any (fun j => !j.ready 9) then s
  else
    match firstCandidate (s.otherRows ++ s.decodeRows) with
    | none => s
    | some c =>
      let j := { c.job with half := s.freeHalf n }
      let s1 := startUnit j (claimBand j.band (s.setRows n (s.rows n ++ [j])))
      let s2 := setRowParams n [(0, j.win), (1, j.band), (2, s1.pairOf j), (3, j.frame % 2 ^ 32), (4, 0)] s1
      let s3 := { s2 with dec := { s2.dec with late := s2.dec.late.filter (· != n) } }
      busyStages n (((s3.setFld (F.SEN_STAT_WIN n) j.win).setFld (F.SEN_STAT_BAND n) j.band).setFld (F.SEN_STAT_CELL n) 0)

/-- Replace the first row of engine n that satisfies a predicate. -/
def State.updRow (s : State) (n : Nat) (p : RowJob → Bool) (f : RowJob → RowJob) : State :=
  let l := s.rows n
  match l.findIdx? p with
  | none => s
  | some i => s.setRows n (l.zipIdx.map fun e => if e.2 = i then f e.1 else e.1)

/-- Remove the first row of engine n that satisfies a predicate, with its result in P5; slots that no row needs now stop. -/
def dropRow (n : Nat) (p : RowJob → Bool) (res : Nat) (s : State) : State :=
  let l := s.rows n
  match l.findIdx? p with
  | none => s
  | some i => idleStages n (setRowParams n [(5, res)] (s.setRows n (l.eraseIdx i)))

/-- Remove a unit from a window's queue. -/
def State.freeUnit (s : State) (k id : Nat) : State :=
  let w := s.win k
  s.setWin k { w with queue := w.queue.filter fun u => u.id != id }

/-! ### Areas (R335) -/

/-- Does the area of the cell maps lie in SPM? -/
def State.mapsIn (s : State) : Bool := decide (s.fld F.SE_SPMCFG_MAPBASE * 1024 + 0x40000 ≤ spmSize s.build)

/-- That of the band buffers? -/
def State.bandsIn (s : State) : Bool := decide (s.fld F.SE_SPMCFG_BANDBANK + 12 ≤ spmBanks s.build)

/-- Does record pair p lie in the record area, and that in SPM? -/
def State.recordIn (s : State) (p : Nat) : Bool :=
  decide (p < s.fld F.SE_SPMCFG_NREC) && decide (s.fld F.SE_SPMCFG_RECBASE * 1024 + 2048 * s.fld F.SE_SPMCFG_NREC ≤ spmSize s.build)

/-- The SPM offset of a record slot (R321). -/
def State.recordAt (s : State) (p : Nat) (slot : Bool) : Nat := s.fld F.SE_SPMCFG_RECBASE * 1024 + 2048 * p + 1024 * b2n slot

/-- The unit and segment of a decode row. -/
def State.rowUnit (s : State) (j : RowJob) : Option SliceUnit := j.unit?.bind (s.unit? j.win)

/-- Do the accesses of stage k for a row stay within their areas? -/
def State.areasIn (s : State) (j : RowJob) (k : Nat) : Bool :=
  let u := s.rowUnit j
  let record := match u.bind (·.pair) with | some p => s.recordIn p | none => true
  let later := match u.bind (·.seg) with | some g => decide (0 < g.next) | none => false
  match k with
  | 0 => s.queueIn (s.win j.win)
  | 1 => s.queueIn (s.win j.win) && s.mapsIn && (!later || record)
  | 2 | 7 | 8 => s.mapsIn
  | 9 => s.mapsIn && s.bandsIn && record
  | _ => true

/-- A row is abandoned: its cells and those of later rows of its segment are lost (R319, R327, R335). A unit whose header SLI could
not read leaves the queue. -/
def abandonRow (j : RowJob) (cause : Nat) (s : State) : State :=
  match s.rowUnit j with
  | some u => if u.seg.isNone then s.freeUnit j.win u.id else
      s.updUnit j.win u.id fun u => { u with seg := u.seg.map fun g => { g with dead := some (g.dead.getD cause) } }
  | none => s

/-! ### SLI (R275, R279, R281, R282) -/

/-- Does SLI keep a unit, and which segment does it find? -/
def sliSegment (s : State) (k : Nat) (u : SliceUnit) : Option Segment :=
  let w := s.win k
  let b := vals (s.unitHead w u)
  let h := sliceHdr b
  let r := s.cut w h.sx h.sy h.sw h.sh
  match u.bound.bind id with
  | none => none
  | some ps =>
    let cells := w.cellsOf r.1 r.2.1 r.2.2.1 r.2.2.2
    if !sliceFormOk b h || decide (ps.wc < h.sx + h.sw) || decide (ps.hc < h.sy + h.sh)
        || (s.ownSeg h).isNone || r.2.2.1 == 0 || cells.any w.covered.contains
        || decide (16 + 4608 * cells.length < u.len - u.headLen) then none
    else some { x := r.1, y := r.2.1, w := r.2.2.1, h := r.2.2.2, delta := h.stype == 1, qp := h.qp, refnum := h.refnum,
                falpha := h.falpha, ps := ps, next := 0, eng := none, slot := false, dead := none, viol := false }

/-- Is a unit one that gives the member nothing and takes nothing from it: well-formed, within its window, and neither naming the
member nor meeting its area (R281)? -/
def State.idleUnit (s : State) (w : Win) (u : SliceUnit) : Bool :=
  let b := vals (s.unitHead w u)
  let h := sliceHdr b
  match u.bound.bind id with
  | none => false
  | some ps => sliceFormOk b h && decide (h.sx + h.sw ≤ ps.wc) && decide (h.sy + h.sh ≤ ps.hc) && (s.ownSeg h).isNone
      && (s.cut w h.sx h.sy h.sw h.sh).2.2.1 == 0

/-- The end of SLI's work on a row (R312): the first row of a unit reads the header. A header that reads pennanted conceals the
segment (R132, R327); an idle unit leaves the queue; any other that gives no segment is discarded.
[DEDUCED, unsafe, log 52] -/
def sliDone (n : Nat) (j : RowJob) (s : State) : State :=
  let w := s.win j.win
  match s.rowUnit j with
  | none => dropRow n (fun x => x == j) 4 s
  | some u =>
    let go := fun (t : State) => t.updRow n (fun x => x == j) (·.endStage 0)
    if u.seg.isSome then go s
    else
      let head := s.unitHead w u
      let h := sliceHdr (vals head)
      let s0 := noteQueue w u.off u.headLen s
      if anyPen head then
        dropRow n (fun x => x == j) 3
          ((s0.setWin j.win { w with discs := w.discs ++ s.lostRect w u.frame 4 h }).freeUnit j.win u.id)
      else
        match sliSegment s j.win u with
        | some g =>
          let s1 := s0.updUnit j.win u.id fun v => { v with seg := some g }
          let w1 := s1.win j.win
          go (s1.setWin j.win { w1 with covered := w1.covered ++ w1.cellsOf g.x g.y g.w g.h })
        | none =>
          let s1 := if s.idleUnit w u then s0 else loseSlice j.win u.frame h (discardUnit j.win s0)
          dropRow n (fun x => x == j) 4 (s1.freeUnit j.win u.id)

/-! ### Resume records (R321) -/

/-- The bytes of a resume record.
[DESIGN CHOICE, unsafe, log 50] -/
def recordBytes (unitOff next : Nat) (st : SegState) : List Byte :=
  let nb := fun (c : NbCell) =>
    leBytes 8 (c.mode + 8 * ofSigned c.mvx 10 + 8192 * ofSigned c.mvy 9 + 2 ^ 22 * c.alpha + 2 ^ 34 * c.cbfB)
  let pal := (List.range 8).flatMap fun e => match st.cache[e]? with
    | some v => leBytes 5 (v.getD 0 0 + 4096 * v.getD 1 0 + 2 ^ 24 * v.getD 2 0)
    | none => List.replicate 5 0
  let l := st.x.flatMap (leBytes 4) ++ leBytes 4 st.pos ++ leBytes 1 (st.j % 4) ++ leBytes 1 (ofSigned st.qp 8)
    ++ leBytes 2 st.pa ++ st.f.flatMap (fun v => leBytes 2 (ofSigned v 12)) ++ leBytes 1 st.cache.length ++ leBytes 1 next
    ++ pal ++ st.ctx.flatMap (leBytes 2) ++ leBytes 4 unitOff ++ st.above.flatMap nb
  l ++ List.replicate (1024 - l.length) 0

/-- A neighbour entry of a record. -/
def recordNb (v : Nat) : NbCell :=
  ⟨v % 8, toSigned (v / 8 % 1024) 10, toSigned (v / 8192 % 512) 9, v / 2 ^ 22 % 4096, v / 2 ^ 34 % 4096, 0⟩

/-- The decoding state that a record holds, over the words of the payload, with n cells in the row above.
[DESIGN CHOICE, unsafe, log 50] -/
def recordState (b : List Byte) (words : List Nat) (n : Nat) : SegState :=
  { x := (List.range 4).map fun i => leAt b (4 * i) 4
    pos := leAt b 16 4
    j := byteAt b 20 % 4
    ctx := (List.range 226).map fun k => leAt b (72 + 2 * k) 2 % 4096
    qp := toSigned (byteAt b 21) 8
    f := (List.range 3).map fun c => ((leAt b (24 + 2 * c) 2 % 4096 : Nat) : Int)
    cache := (List.range (min 8 (byteAt b 30))).map fun e =>
      let v := leAt b (32 + 5 * e) 5
      [v % 4096, v / 4096 % 4096, v / 2 ^ 24 % 4096]
    pa := leAt b 22 2 % 4096
    words := words
    above := (List.range n).map fun i => recordNb (leAt b (528 + 8 * i) 8)
    cur := [] }

/-! ### ENT and CEL: the parse of a row (R286 to R306) -/

/-- The slice context of a segment. -/
def Segment.ctx (g : Segment) : SliceCtx :=
  ⟨g.delta, g.ps.flags / 2 % 4, g.falpha, g.w, g.ps.qpoff, bitOf g.ps.flags 0⟩

/-- The 16-bit words of a payload. -/
def payloadWords (l : List PByte) : List Nat :=
  (List.range (l.length / 2)).map fun i => beNat (vals ((l.drop (2 * i)).take 2))

/-- The co-located reference alphas of a row. -/
def State.rowAlphas (s : State) (j : RowJob) : List Nat :=
  j.cols.map fun x => (s.mapEntry j.win (j.y * (s.win j.win).cw + x)).1

/-- The parse of a row from the decoding state it starts from. -/
def State.parseRow (s : State) (j : RowJob) (g : Segment) : Option SegState → List CellSyn × Option SegState × Nat
  | none => ([], none, 8)
  | some st => rowSyn g.ctx (s.rowAlphas j) st

/-- The end of ENT's work on a row: the state it starts from, of the segment's start or of its current record, and whether the bytes
read for the row carry a pennant (R132). It reads the words that the row consumes, up to a violation.
[DEDUCED, unsafe, log 52] -/
def entDone (n : Nat) (j : RowJob) (s : State) : State :=
  let w := s.win j.win
  match (s.rowUnit j).bind fun u => u.seg.map fun g => (u, g) with
  | none => dropRow n (fun x => x == j) 4 s
  | some (u, g) =>
    let pay := s.unitPayload w u
    let words := payloadWords pay
    let at_ := s.recordAt (u.pair.getD 0) g.slot
    let rec_ := if g.next = 0 then [] else readBytes .spm at_ 1024 s
    let start := if g.next = 0 then segStart words g.qp else some (recordState (vals rec_) words g.w)
    let from_ := if g.next = 0 then 0 else leAt (vals rec_) 16 4
    let used := (pay.drop (2 * from_)).take (2 * ((s.parseRow j g start).2.2 - from_))
    let s1 := noteQueue w (u.off + u.headLen + 2 * from_) used.length (noteReads .spm at_ rec_.length s)
    s1.updRow n (fun x => x == j) fun x => { x.endStage 1 with start := start, pen := anyPen (used ++ rec_) }

/-- The end of CEL's work on a row: the cells up to a violation, which is counted (R310, R327), and the state after the row.
[DEDUCED, unsafe, log 52] -/
def celDone (n : Nat) (j : RowJob) (s : State) : State :=
  let w := s.win j.win
  match (s.rowUnit j).bind fun u => u.seg.map fun g => (u, g) with
  | none => dropRow n (fun x => x == j) 4 s
  | some (u, g) =>
    let r := s.parseRow j g j.start
    let viol := r.2.1.isNone
    let s1 := noteReads .spm (s.mapAt j.win (s.fld (F.SE_WREF_CUR j.win)) (j.y * w.cw + j.cols.headD 0)) (2 * j.cols.length) s
    let s2 := if viol && !g.viol then
        (s1.bump (F.SE_WERR_VIOL j.win) 1).updUnit j.win u.id fun v => { v with seg := some { g with viol := true } }
      else s1
    s2.updRow n (fun x => x == j) fun x =>
      { x.endStage 2 with syn := r.1, after := r.2.1, res := if viol then 2 else if x.pen then 3 else 0 }

end Sys2Proof.Machine
end

