-- ==== Sys2Proof/Machine/SliceStage.lean ====
section
/-!
DEFINITION. Slice rows: prediction, reconstruction, concealment, staging, blending, publication (R294, R302 to R308, R312, R314, R320,
R323, R324, R328, R599).
-/

namespace Sys2Proof.Machine

/-! ### PRD: the motion cache (R304, R314, R324) -/

/-- The byte address of tile t of a cell of buffer q (R324). -/
def Win.tileAddr (w : Win) (q cell t : Nat) : Nat := w.buf q + cell * 4608 + 576 * t

/-- The buffer of a window that holds the reference. -/
def State.refBuf (s : State) (k : Nat) : Nat := s.fld (F.SE_WREF_CUR k)

/-- The quads of a tile. -/
def tileQuads (a : Nat) : List Nat := (List.range ((a + 575) / 256 - a / 256 + 1)).map (a / 256 + ·)

/-- The lines that engine n holds of window k. -/
def State.refLines (s : State) (n k : Nat) : List Delivery := s.lines.filter fun d => d.use == .ref n k

/-- One byte of a buffer from the lines held. -/
def refByteIn (l : List Delivery) (a : Nat) : Option PByte :=
  (l.find? fun d => d.addr == a / 256 * 256).bind fun d => (d.lines[(a / 64 % 4)]?).map fun x => ⟨x.data.getD (a % 64) 0, x.pen⟩

/-- The tile, and the pixel's number in it, of a region pixel: (cell, tile, p). -/
def Win.pixelPlace (w : Win) (u v : Nat) : Nat × Nat × Nat :=
  ((v / 32) * w.cw + u / 32, 2 * (v % 32 / 8) + u % 32 / 16, 16 * (v % 8) + u % 16)

/-- Sample c of a region pixel of buffer q (R324); a missing line reads as zero. -/
def Win.sample (w : Win) (q : Nat) (l : List Delivery) (c u v : Nat) : Nat :=
  let (cell, t, p) := w.pixelPlace u v
  let bit := 36 * p + 12 * c
  let a := w.tileAddr q cell t + bit / 8
  let byte := fun i => match refByteIn l (a + i) with | some b => b.v.toNat | none => 0
  (byte 0 + 256 * byte 1) / 2 ^ (bit % 8) % 4096

/-- Does a region pixel of buffer q read a pennant? It lies in bytes of one or two lines. -/
def Win.pixelPen (w : Win) (q : Nat) (l : List Delivery) (u v : Nat) : Bool :=
  let (cell, t, p) := w.pixelPlace u v
  [36 * p / 8, (36 * p + 35) / 8].any fun o => match refByteIn l (w.tileAddr q cell t + o) with | some b => b.pen | none => true

/-- The region pixels that the prediction of a cell reads, as ranges of columns and rows, each clamped (R304). -/
def predArea (w : Win) (x y : Nat) (cs : CellSyn) : (Nat × Nat) × (Nat × Nat) :=
  let mx := if cs.mode = 1 then cs.mvx else 0
  let my := if cs.mode = 1 then cs.mvy else 0
  let cl := fun (a : Int) (n : Nat) => (satI a 0 (n - 1 : Nat)).toNat
  let u0 : Int := (32 * x : Nat) + mx / 2
  let v0 : Int := (32 * y : Nat) + my / 2
  ((cl u0 (32 * w.cw), cl (u0 + 31 + mx % 2) (32 * w.cw)), (cl v0 (32 * w.ch), cl (v0 + 31 + my % 2) (32 * w.ch)))

/-- The (cell, tile) pairs of an area. -/
def areaTiles (w : Win) (a : (Nat × Nat) × (Nat × Nat)) : List (Nat × Nat) :=
  (List.range (a.2.2 / 8 - a.2.1 / 8 + 1)).flatMap fun j => (List.range (a.1.2 / 16 - a.1.1 / 16 + 1)).map fun i =>
    let q := w.pixelPlace (16 * (a.1.1 / 16 + i)) (8 * (a.2.1 / 8 + j))
    (q.1, q.2.1)

/-- The whole of one region cell. -/
def cellArea (x y : Nat) : (Nat × Nat) × (Nat × Nat) := ((32 * x, 32 * x + 31), (32 * y, 32 * y + 31))

/-- The reference tiles of areas, by address. -/
def State.refTiles (s : State) (k : Nat) (l : List ((Nat × Nat) × (Nat × Nat))) : List Nat :=
  let w := s.win k
  ((l.flatMap (areaTiles w)).map fun t => w.tileAddr (s.refBuf k) t.1 t.2).dedup

/-- Does a cell's prediction use a cell that is not usable, or a pennanted byte (R326)? -/
def State.areaBad (s : State) (k : Nat) (l : List Delivery) (a : (Nat × Nat) × (Nat × Nat)) : Bool :=
  let w := s.win k
  ((areaTiles w a).map (·.1)).dedup.any (fun c => !(s.mapEntry k c).2)
    || (List.range (a.2.2 - a.2.1 + 1)).any fun j => (List.range (a.1.2 - a.1.1 + 1)).any fun i =>
      w.pixelPen (s.refBuf k) l (a.1.1 + i) (a.2.1 + j)

/-- Does a cell's prediction use the reference (R326)? -/
def usesRef (cs : CellSyn) : Bool := cs.mode == 0 || cs.mode == 1

/-- Is every cell of a segment lost, since its reference is not the one held (R284, R325)? -/
def State.refMiss (s : State) (k : Nat) (g : Segment) : Bool := g.delta && !s.refNames k g.refnum

/-- Does engine n take a segment over, so that the bottom sample rows of the cells above come from the build buffer (R321)?
[DEDUCED, unsafe, log 52] -/
def Segment.takenOver (g : Segment) (n : Nat) : Bool := decide (0 < g.next) && g.eng != some n

/-- The tiles that PRD fetches for a row: of the reference for SKIP and INTER cells, of the build buffer at a takeover. -/
def State.predTiles (s : State) (n : Nat) (j : RowJob) (g : Segment) : List Nat :=
  let w := s.win j.win
  let areas := j.cols.zipIdx.filterMap fun p => match j.syn[p.2]? with
    | some cs => if usesRef cs then some (predArea w p.1 j.y cs) else none
    | none => none
  let above := if g.takenOver n then j.cols.flatMap fun x => [6, 7].map (w.tileAddr (1 - s.refBuf j.win) ((j.y - 1) * w.cw + x)) else []
  (if j.pen || s.refMiss j.win g then [] else s.refTiles j.win areas) ++ above

/-- Ask for the quads of tiles that engine n neither holds nor has asked for; answers whether all are held. -/
def askTiles (n k : Nat) (tiles : List Nat) (s : State) : Bool × State :=
  let w := s.win k
  let quads := (tiles.flatMap tileQuads).dedup
  let held := s.refLines n k
  let missing := quads.filter fun q => !held.any fun d => d.addr == 256 * q
  let p := s.port w.port
  let asked := fun q => (p.queue.any fun r => r.use == .ref n k && r.quad == q)
    || p.out.any fun o => o.req.use == .ref n k && o.req.quad == q && !o.overdue
  (missing.isEmpty, (missing.filter fun q => !asked q).foldl (fun t q =>
    t.mptQueue w.port { write := false, quad := q, mask := 0xF, raw := [], use := .ref n k }) s)

/-- What engine n keeps once a row of window k is staged (R314): lines of the reference only, at most 64 KiB of them. Which stay is
open; a free value chooses.
[DESIGN CHOICE, safe, log 2]
[DEDUCED, unsafe, log 52] -/
def trimCache (n k : Nat) (s : State) : State :=
  let w := s.win k
  let build := w.buf (1 - s.refBuf k)
  let s := { s with lines := s.lines.filter fun d =>
    !(d.use == .ref n k && decide (build ≤ d.addr) && decide (d.addr < build + 4608 * w.cw * w.ch)) }
  let mine := fun (d : Delivery) => match d.use with | .ref m _ => m == n | _ => false
  let l := s.lines.filter mine
  if l.length ≤ 256 then s
  else
    let r := s.free 32 % l.length
    { s.drew with lines := (s.lines.filter fun d => !mine d) ++ (l.drop r ++ l.take r).take 256 }

/-- The end of PRD's fetch for a row: it stays in progress while tiles are awaited.
[DEDUCED, unsafe, log 52] -/
def prdDone (n : Nat) (j : RowJob) (s : State) : State × Bool :=
  match (s.rowUnit j).bind (·.seg) with
  | none => (dropRow n (fun x => x == j) 4 s, true)
  | some g =>
    let q := askTiles n j.win (s.predTiles n j g) s
    if q.1 then (q.2.updRow n (fun x => x == j) (·.endStage 5), true) else (q.2, false)

/-! ### Row staging (R320) -/

/-- The first part and the rest of a range of staging: the banks that the PSQ owns, in ascending order, hold it.
[DESIGN CHOICE, unsafe, log 50] -/
def stageParts (banks : List Nat) (a n : Nat) : (Nat × Nat) × (Nat × Nat) :=
  let room := min n (0x20000 - a % 0x20000)
  ((banks.getD (a / 0x20000) 0 * 0x20000 + a % 0x20000, room), (banks.getD (a / 0x20000 + 1) 0 * 0x20000, n - room))

/-- The banks of engine n, if they hold its two staging halves.
[DESIGN CHOICE, unsafe, log 50] -/
def State.stageBanks (s : State) (n : Nat) : Option (List Nat) :=
  let l := s.banksOf (0x10 + n)
  if 3 ≤ l.length then some l else none

/-- The place of cell i of a row in staging. -/
def RowJob.stageAt (j : RowJob) (i : Nat) : Nat := 147456 * j.half + 4608 * i

/-- The 4,608 bytes of a cell (R324).
[DESIGN CHOICE, unsafe, log 50] -/
def cellBytes (p : CellPix) : List Byte :=
  (List.range 8).flatMap fun t => (List.range 64).flatMap fun h =>
    let px := fun i =>
      let q := 2 * h + i
      let x := 16 * (t % 2) + q % 16
      let y := 8 * (t / 2) + q / 16
      pixAt p 0 x y + 4096 * pixAt p 1 x y + 4096 * 4096 * pixAt p 2 x y
    leBytes 9 (px 0 + 2 ^ 36 * px 1)

/-- The samples of a cell from its 4,608 bytes, and which of them read a pennant.
[DESIGN CHOICE, unsafe, log 50] -/
def bytesCell (l : List PByte) : CellPix × Array Bool :=
  let a := l.toArray
  let at_ := fun (i : Nat) => a.getD i ⟨0, false⟩
  let bit := fun (k : Nat) =>
    let x := k % 32
    let y := k % 1024 / 32
    8 * 576 * (2 * (y / 8) + x / 16) + 36 * (16 * (y % 8) + x % 16) + 12 * (k / 1024)
  (((List.range 3072).map fun k =>
      ((at_ (bit k / 8)).v.toNat + 256 * (at_ (bit k / 8 + 1)).v.toNat) / 2 ^ (bit k % 8) % 4096).toArray,
    ((List.range 3072).map fun k => (at_ (bit k / 8)).pen || (at_ (bit k / 8 + 1)).pen).toArray)

/-- The bytes of staged cell i of a row. -/
def State.stagedBytes (s : State) (n : Nat) (j : RowJob) (i : Nat) : List PByte :=
  match s.stageBanks n with
  | some banks =>
    let p := stageParts banks (j.stageAt i) 4608
    readBytes .spm p.1.1 p.1.2 s ++ readBytes .spm p.2.1 p.2.2 s
  | none => plain (cellBytes (((j.cells[i]?).map (·.pix)).getD #[]))

/-- The effects of reading them. -/
def noteStaged (n : Nat) (j : RowJob) (i : Nat) (s : State) : State :=
  match s.stageBanks n with
  | some banks =>
    let p := stageParts banks (j.stageAt i) 4608
    noteReads .spm p.2.1 p.2.2 (noteReads .spm p.1.1 p.1.2 s)
  | none => s

/-- The cells of a row enter its staging half as stage k ends. -/
def stageRow (n k : Nat) (j : RowJob) (cells : List StagedCell) (s : State) : State :=
  let put := fun (banks : List Nat) (t : State) (p : StagedCell × Nat) =>
    let q := stageParts banks (j.stageAt p.2) 4608
    let b := plain (cellBytes p.1.pix)
    writeBytes .spm q.2.1 (b.drop q.1.2) (writeBytes .spm q.1.1 (b.take q.1.2) t)
  let (s1, kept) := match s.stageBanks n with
    | some banks => (cells.zipIdx.foldl (put banks) s, cells.map fun (c : StagedCell) => { c with pix := #[] })
    | none => (s, cells)
  let s2 := setRowParams n [(4, cells.length)] ((s1.bump (F.SEN_CNT_CELLS n) cells.length).setFld (F.SEN_STAT_CELL n) (cells.length - 1))
  trimCache n j.win (s2.updRow n (fun x => x == j) fun x => { x.endStage k with cells := kept })

/-! ### REC and CNC: samples (R294, R302 to R308, R328, R599) -/

/-- The edges of a cell of the open frame that is final. -/
def Win.edge (w : Win) (x y : Nat) : Option EdgeCell := w.edges.find? fun e => e.x == x && e.y == y

/-- Column or row samples of a cell, by component. -/
def colOf (pix : CellPix) (x : Nat) : List (List Nat) := (List.range 3).map fun c => (List.range 32).map fun y => pixAt pix c x y
def rowOf (pix : CellPix) (y : Nat) : List (List Nat) := (List.range 3).map fun c => (List.range 32).map fun x => pixAt pix c x y

/-- A cell filled with one value for each component. -/
def flatCell (v : List Nat) : CellPix := ((List.range 3072).map fun p => v.getD (p / 1024) 0).toArray

/-- The samples of a reference cell. -/
def State.refCell (s : State) (k : Nat) (l : List Delivery) (x y : Nat) : CellPix :=
  let w := s.win k
  ((List.range 3072).map fun p => w.sample (s.refBuf k) l (p / 1024) (32 * x + p % 32) (32 * y + p / 32 % 32)).toArray

/-- May a reference cell be shown: usable, and read without a pennant (R328)? -/
def State.cellGood (s : State) (k : Nat) (l : List Delivery) (x y : Nat) : Bool :=
  (s.mapEntry k (y * (s.win k).cw + x)).2 && !s.areaBad k l (cellArea x y)

/-- The co-located reference tiles of those cells of a row whose map entry makes them worth reading. -/
def State.cellTiles (s : State) (j : RowJob) (cols : List Nat) : List Nat :=
  let w := s.win j.win
  s.refTiles j.win ((cols.filter fun x => (s.mapEntry j.win (j.y * w.cw + x)).2).map fun x => cellArea x j.y)

/-- The concealment of a lost cell (R328): copy, flat from its neighbours, or none. The last argument is the cell staged before it in
the same row, if it is the left neighbour. -/
def concealCell (s : State) (k : Nat) (l : List Delivery) (x y cause : Nat) (left : Option StagedCell) : StagedCell :=
  let w := s.win k
  if s.cellGood k l x y then ⟨s.refCell k l x y, (s.mapEntry k (y * w.cw + x)).1, 1, some cause⟩
  else
    let above : Option (List (List Nat) × Nat) := if y = 0 || !s.dec.closed.contains (w.cy0 + y - 1) then none
      else (w.edge x (y - 1)).map fun (e : EdgeCell) => (e.bottom, e.alpha)
    let lft : Option (List (List Nat) × Nat) := match left with
      | some q => some (colOf q.pix 31, q.alpha)
      | none => if x = 0 then none else (w.edge (x - 1) y).map fun (e : EdgeCell) => (e.right, e.alpha)
    let rgt := (w.edge (x + 1) y).bind fun e => if e.decoded && decide (x + 1 < w.cw) then some (e.left, e.alpha) else none
    let ns := above.toList ++ lft.toList ++ rgt.toList
    let n := 32 * ns.length
    if ns.isEmpty then ⟨flatCell [0, 0, 0], 0, 2, some cause⟩
    else
      ⟨flatCell ((List.range 3).map fun i => (((ns.map fun e => (e.1.getD i []).sum).sum) + n / 2) / n),
        ((ns.map (·.2)).sum + ns.length / 2) / ns.length, 2, some cause⟩

/-- The bottom sample row of a cell of the open frame that is above one of engine n's row: as kept, or from the build buffer. -/
def State.bottomOf (s : State) (n : Nat) (j : RowJob) (g : Segment) (l : List Delivery) (x : Nat) : Option (List (List Nat)) :=
  let w := s.win j.win
  if g.takenOver n then
    some ((List.range 3).map fun c => (List.range 32).map fun i => w.sample (1 - s.refBuf j.win) l c (32 * x + i) (32 * j.y - 1))
  else (w.edge x (j.y - 1)).map (·.bottom)

/-- Do the build buffer's samples above and to the upper left of a cell read a pennant? -/
def State.abovePen (s : State) (n : Nat) (j : RowJob) (g : Segment) (l : List Delivery) (x : Nat) : Bool :=
  g.takenOver n && ((List.range 32).map (32 * x + ·) ++ (if g.x < x then [32 * x - 1] else [])).any fun u =>
    (s.win j.win).pixelPen (1 - s.refBuf j.win) l u (32 * j.y - 1)

/-- The samples around a cell that its prediction may use: the cell above in the segment, the cell to the left in the row. -/
def State.aroundOf (s : State) (n : Nat) (j : RowJob) (g : Segment) (l : List Delivery) (x : Nat) (left : Option StagedCell) : Around :=
  let up := if j.y ≤ g.y then none else s.bottomOf n j g l x
  let corner := if j.y ≤ g.y ∨ x ≤ g.x then none else (s.bottomOf n j g l (x - 1)).map fun e => e.map fun r => r.getD 31 0
  ⟨up, left.map (·.pix), corner⟩

/-- Why cell i of a row, at column x, is lost (R327), if it is: after a violation, in a pennanted row, without its reference, or with
unusable data in its prediction or alpha. A pennant in what a takeover reads of the build buffer counts as unusable data. -/
def State.cellCause (s : State) (n : Nat) (j : RowJob) (g : Segment) (l : List Delivery) (i x : Nat) : Option Nat :=
  match j.syn[i]? with
  | none => some 3
  | some cs =>
    let w := s.win j.win
    if j.pen then some 4
    else if s.refMiss j.win g then some 5
    else if (usesRef cs && s.areaBad j.win l (predArea w x j.y cs)) || (cs.alphaRef && g.delta && !(s.mapEntry j.win (j.y * w.cw + x)).2)
        || (cs.mode == 3 && s.abovePen n j g l x) then some 6
    else none

/-- Reconstruct or conceal the cells of a decoded row in turn (R294, R599). -/
def State.rowCells (s : State) (n : Nat) (j : RowJob) (g : Segment) : List StagedCell :=
  let w := s.win j.win
  let l := s.refLines n j.win
  (j.cols.zipIdx).foldl (fun acc p =>
    let left := acc.getLast?
    let x := p.1
    match s.cellCause n j g l p.2 x, j.syn[p.2]? with
    | none, some cs =>
      let ref := fun c (u v : Int) =>
        w.sample (s.refBuf j.win) l c (satI u 0 (32 * w.cw - 1 : Nat)).toNat (satI v 0 (32 * w.ch - 1 : Nat)).toNat
      acc ++ [⟨reconCell g.ctx (s.aroundOf n j g l x left) ref (32 * x) (32 * j.y) cs, cs.alpha, 0, none⟩]
    | cause, _ => acc ++ [concealCell s j.win l x j.y (cause.getD 3) left]) []

/-- CNC joins a row that has lost cells. -/
def startCnc (n : Nat) (j : RowJob) (f : RowJob → RowJob) (s : State) : State :=
  (s.updRow n (fun x => x == j) fun x => { f x with conc := true }).setStage (n + 1) 8
    { s.stage (n + 1) 8 with busy := true, done := false }

/-- The end of REC's part of a decode row. With lost cells the row is staged when CNC's part ends too: REC waits for each concealed
cell (R599).
[DEDUCED, unsafe, log 52] -/
def recDone (n : Nat) (j : RowJob) (s : State) : State :=
  match (s.rowUnit j).bind (·.seg) with
  | none => dropRow n (fun x => x == j) 4 s
  | some g =>
    let l := s.refLines n j.win
    if j.cols.zipIdx.any fun p => (s.cellCause n j g l p.2 p.1).isSome then startCnc n j (·.endStage 7) s
    else stageRow n 7 j (s.rowCells n j g) s

/-- The cells of a row of lost cells of a closed band (R328). -/
def State.lostCells (s : State) (n : Nat) (j : RowJob) : List StagedCell :=
  let w := s.win j.win
  (j.cols.zipIdx).foldl (fun acc p =>
    let left := if p.2 = 0 ∨ j.cols.getD (p.2 - 1) 0 + 1 ≠ p.1 then none else acc.getLast?
    let cause := match w.lost.find? fun e => e.1 == j.y * w.cw + p.1 with | some e => e.2 | none => 1
    acc ++ [concealCell s j.win (s.refLines n j.win) p.1 j.y cause left]) []

/-- The end of CNC's part of a row: it stays in progress while co-located tiles are awaited. A HOLD's lost cells wait for CMP.
[DEDUCED, unsafe, log 52] -/
def cncDone (n : Nat) (j : RowJob) (s : State) : State × Bool :=
  let g := (s.rowUnit j).bind (·.seg)
  let lost := match j.kind, g with
    | .decode _, some g => (j.cols.zipIdx.filter fun p => (s.cellCause n j g (s.refLines n j.win) p.2 p.1).isSome).map (·.1)
    | _, _ => j.cols
  let q := askTiles n j.win (s.cellTiles j lost) s
  if !q.1 then (q.2, false)
  else
    match j.kind, g with
    | .decode _, some g => (stageRow n 8 j (q.2.rowCells n j g) q.2, true)
    | .decode _, none => (dropRow n (fun x => x == j) 4 s, true)
    | .conceal, _ => (stageRow n 8 j (q.2.lostCells n j) q.2, true)
    | .hold, _ =>
      let bad := j.cols.filter fun x => !s.cellGood j.win (s.refLines n j.win) x j.y
      ((q.2.bump (F.SEN_CNT_CELLS n) bad.length).updRow n (fun x => x == j) (·.endStage 8), true)

/-- The cells that a HOLD shows again (R325): the reference's, with the map's alphas; one that cannot be shown is lost and concealed.
[DEDUCED, unsafe, log 52] -/
def State.heldCells (s : State) (n : Nat) (j : RowJob) : List StagedCell :=
  let w := s.win j.win
  let l := s.refLines n j.win
  (j.cols.zipIdx).foldl (fun acc p =>
    let left := if p.2 = 0 ∨ j.cols.getD (p.2 - 1) 0 + 1 ≠ p.1 then none else acc.getLast?
    acc ++ [if s.cellGood j.win l p.1 j.y then ⟨s.refCell j.win l p.1 j.y, (s.mapEntry j.win (j.y * w.cw + p.1)).1, 0, none⟩
            else concealCell s j.win l p.1 j.y 6 left]) []

/-! ### CMP: blending and the build buffer (R320, R323, R324) -/

/-- RANK and SEL at a cabinet column of a band buffer. -/
def BandBuf.at (b : BandBuf) (cx : Nat) : Nat × Bool := SMap.get (fun _ => (0, false)) b.tab cx

/-- The band buffer of a band of a frame. -/
def State.bandBuf (s : State) (frame b : Nat) : Option BandBuf :=
  (s.dec.bufs.find? fun p => p.1 == b % 4 && p.2.band == b && p.2.frame == frame).map (·.2)

/-- The SPM offset of a slot of a band cell (R317): band buffer b % 4, cell, slot. -/
def State.slotAt (s : State) (b cx : Nat) (slot : Bool) : Nat :=
  s.fld F.SE_SPMCFG_BANDBANK * 0x20000 + b % 4 * 393216 + cx * 12288 + b2n slot * 6144

/-- The published samples of a band cell, by byte; rank 0 is the background (R317). -/
def State.bandCell (s : State) (b cx : Nat) (e : Nat × Bool) : List Nat × Bool :=
  if e.1 = 0 then
    ((List.range 3072).map fun p => 16 * s.fld ([F.SE_BGCOL_R, F.SE_BGCOL_G, F.SE_BGCOL_B].getD (p % 3) F.SE_BGCOL_R), false)
  else
    let l := readBytes .spm (s.slotAt b cx e.2) 6144 s
    let v := (vals l).toArray
    ((List.range 3072).map fun i => (v.getD (2 * i) 0).toNat + 256 * (v.getD (2 * i + 1) 0).toNat, anyPen l)

/-- The blend of one sample in uQ12.4 (R323). -/
def blend (acc smp alpha : Nat) : Nat :=
  let a := alpha + alpha / 2048
  (acc * (4096 - a) + smp * 16 * a + 2048) / 4096

/-- Write one cell into the other slot of its band cell (R320). The blended cell is pennanted where the published slot reads a pennant
(R326), a sample of it where the staged sample does (R132). -/
def blendCell (j : RowJob) (x : Nat) (pix : CellPix) (pens : Array Bool) (alpha : Nat) (s : State) : State :=
  let cx := (s.win j.win).cx0 + x
  match s.bandBuf j.frame j.band with
  | none => s
  | some b =>
    let e := b.at cx
    let old := s.bandCell j.band cx e
    let s1 := if e.1 = 0 then s else noteReads .spm (s.slotAt j.band cx e.2) 6144 s
    let new := old.1.zipIdx.flatMap fun p =>
      let k := 1024 * (p.2 % 3) + p.2 / 3
      (leBytes 2 (blend p.1 (pix.getD k 0) alpha)).map fun v => (⟨v, old.2 || pens.getD k false⟩ : PByte)
    writeBytes .spm (s.slotAt j.band cx (!e.2)) new s1

/-- The write requests of a cell of the build buffer: a line with a pennanted byte is written in pennant form (R132). -/
def buildWrites (s : State) (j : RowJob) (cell : Nat) (d : List PByte) : List MptReq :=
  let w := s.win j.win
  let a := w.tileAddr (1 - s.refBuf j.win) cell 0
  (List.range 18).map fun i =>
    let line := fun n => (d.drop (256 * i + 64 * n)).take 64
    { write := true, quad := a / 256 + i, mask := 0xF
      raw := (List.range 4).flatMap fun n => vals (line n) ++ List.replicate 16 0
      use := .refWrite j.win j.frame (cell / w.cw) (cell % w.cw)
      pens := ((List.range 4).filter fun n => anyPen (line n)).foldl setBit 0 }

/-- Is a cell of a row published already? -/
def State.isPub (s : State) (j : RowJob) (x : Nat) : Bool :=
  s.dec.open_ == some j.frame && (s.win j.win).pub.contains (j.y * (s.win j.win).cw + x)

/-- Does every cell of a row that is not published find RANK at its own rank (R320)? -/
def State.ranksReady (s : State) (j : RowJob) : Bool :=
  let w := s.win j.win
  match s.bandBuf j.frame j.band with
  | none => false
  | some b => j.cols.all fun x => s.isPub j x || (b.at (w.cx0 + x)).1 == s.rankAt w (w.cx0 + x) j.band

/-- CMP's work on cell i of a staged row: the blend, the build buffer, its map (R320, R324). -/
def cmpCell (n : Nat) (j : RowJob) (i x : Nat) (c : StagedCell) (s : State) : State :=
  if s.isPub j x then s
  else
    let cell := j.y * (s.win j.win).cw + x
    let d := s.stagedBytes n j i
    let p := bytesCell d
    let s1 := blendCell j x p.1 p.2 c.alpha (noteStaged n j i s)
    ((buildWrites s1 j cell d).foldl (fun u r => u.mptQueue (s.win j.win).port r) s1).putMap j.win cell c.alpha c.state

/-- The record that a row leaves goes into the slot that is not current (R321).
[DESIGN CHOICE, unsafe, log 50] -/
def writeRecord (j : RowJob) (s : State) : State :=
  match s.rowUnit j, j.after with
  | some u, some st => match u.pair, u.seg with
    | some p, some g => writeBytes .spm (s.recordAt p (!g.slot)) (plain (recordBytes (u.off % (s.win j.win).qsize) (g.next + 1) st)) s
    | _, _ => s
  | _, _ => s

/-- The end of CMP's work on a row, once every cell finds its rank: every cell blended, the build buffer, its map and the resume record
written (R320). A HOLD writes no build buffer; its reference tiles are read by CMP (R325).
[DEDUCED, unsafe, log 52] -/
def cmpDone (n : Nat) (j : RowJob) (s : State) : State × Bool :=
  if !s.ranksReady j then (s, false)
  else if j.kind = .hold then
    let q := askTiles n j.win (s.cellTiles j j.cols) s
    if !q.1 then (q.2, false)
    else
      let cells := s.heldCells n j
      if cells.any (·.cause.isSome) && !j.conc then (startCnc n j id s, false)
      else
        let s1 := (j.cols.zip cells).foldl (fun t p => if t.isPub j p.1 then t else blendCell j p.1 p.2.pix #[] p.2.alpha t) s
        (trimCache n j.win (s1.updRow n (fun x => x == j) fun x => { x.endStage 9 with cells := cells }), true)
  else
    let s1 := ((j.cols.zip j.cells).zipIdx).foldl (fun t p => cmpCell n j p.2 p.1.1 p.1.2 t) s
    ((writeRecord j s1).updRow n (fun x => x == j) (·.endStage 9), true)

/-! ### Publication (R320, R321) -/

/-- The segment after a row that engine n published: the next row, the new record; a violation or pennant ends it. -/
def Segment.advance (g : Segment) (n : Nat) (j : RowJob) : Segment :=
  { g with next := g.next + 1, eng := some n, slot := !g.slot,
           dead := if j.res = 3 then some 4 else if j.res = 2 then some 3 else g.dead }

/-- Record that cells are lost, each once, with the first cause. -/
def Win.lose (w : Win) (l : List (Nat × Nat)) : Win :=
  l.foldl (fun w e => if w.lost.any fun q => q.1 == e.1 then w else { w with lost := w.lost ++ [e] }) w

/-- The edges that a cell leaves. -/
def edgeOf (y x : Nat) (pix : CellPix) (c : StagedCell) : EdgeCell :=
  ⟨x, y, rowOf pix 31, colOf pix 31, colOf pix 0, c.alpha, c.state == 0⟩

/-- RANK is incremented and SEL inverted at cabinet columns (R320). -/
def BandBuf.publish (b : BandBuf) (cols : List Nat) : BandBuf :=
  { b with tab := cols.foldl (fun t cx =>
      let e := SMap.get (fun _ => (0, false)) t cx
      SMap.put (fun _ => (0, false)) t cx (e.1 + 1, !e.2)) b.tab }

/-- The cells of a row of engine n enter RANK and SEL, and for the open frame the edges and the published set. -/
def publishCells (n : Nat) (j : RowJob) (s : State) : State :=
  let w := s.win j.win
  let fresh := ((j.cols.zip j.cells).zipIdx).filter fun p => !s.isPub j p.1.1
  let bufs := s.dec.bufs.map fun p =>
    if p.1 = j.band % 4 ∧ p.2.band = j.band ∧ p.2.frame = j.frame then (p.1, p.2.publish (fresh.map fun c => w.cx0 + c.1.1)) else p
  let s1 := { s with dec := { s.dec with bufs := bufs } }
  if s.dec.open_ ≠ some j.frame then s1
  else
    let done := fresh.map fun p => j.y * w.cw + p.1.1
    let pix := fun (p : (Nat × StagedCell) × Nat) => if j.kind = .hold then p.1.2.pix else (bytesCell (s.stagedBytes n j p.2)).1
    let edges := fresh.map fun p => edgeOf j.y p.1.1 (pix p) p.1.2
    let lost := fresh.filterMap fun p => p.1.2.cause.map fun c => (j.y * w.cw + p.1.1, c)
    s1.setWin j.win ({ w with pub := w.pub ++ done, edges := w.edges ++ edges }.lose lost)

/-- The segment of a row that engine n published moves on: record, counts, the end of the segment (R291, R327). -/
def publishSegment (n : Nat) (j : RowJob) (s : State) : State :=
  match (s.rowUnit j).bind fun u => u.seg.map fun g => (u, g) with
  | none => s
  | some (u, g) =>
    let g1 := g.advance n j
    let s1 := s.updUnit j.win u.id fun u => { u with seg := some g1 }
    if g1.next < g1.h then s1
    else
      let bad := g1.dead.isNone && (match j.after with | some st => !st.ended | none => false)
      (if bad then s1.bump (F.SE_WERR_RANSEND j.win) 1 else s1).freeUnit j.win u.id

/-- CMP publishes the oldest finished row of engine n, as one operation (R320).
[DEDUCED, unsafe, log 52] -/
def rowPublish (n : Nat) (s : State) : State :=
  match (s.rows n).find? (·.blended) with
  | none => s
  | some j =>
    dropRow n (fun x => x == j) j.res ((publishSegment n j (publishCells n j s)).bump (F.SEN_CNT_ROWS n) 1)

/-! ### The end of a stage operation in decode -/

/-- The work of stage k of engine n ends: its effect on the row it has in hand; whether the operation is over. It goes on while the
stages before it have not done their part; an access outside its area abandons the row (R335). The arithmetic of DEQ and XFM is done
with REC's.
[DEDUCED, unsafe, log 52] -/
def decodeStage (n k : Nat) (s : State) : State × Bool :=
  match (s.rows n).find? fun j => j.needs k with
  | none => (s, true)
  | some j =>
    if !j.ready k then (s, false)
    else if !s.areasIn j k then (dropRow n (fun x => x == j) 2 (abandonRow j 3 s), true)
    else
      match k with
      | 0 => (sliDone n j s, true)
      | 1 => (entDone n j s, true)
      | 2 => (celDone n j s, true)
      | 5 => prdDone n j s
      | 7 => (recDone n j s, true)
      | 8 => cncDone n j s
      | 9 => cmpDone n j s
      | _ => (s.updRow n (fun x => x == j) (·.endStage k), true)

/-- A slot of a slice engine ends its operation (R145): it is done, unless a further row needs it. -/
def decodeStageDone (n k : Nat) (s : State) : State :=
  if !(s.stage (n + 1) k).busy then s
  else
    let r := decodeStage n k s
    if !r.2 then r.1
    else
      let again := (r.1.rows n).any fun j => j.needs k
      r.1.setStage (n + 1) k { r.1.stage (n + 1) k with busy := again, done := !again }

/-- Strobe S3 on a decode slot: the row in hand that needs it returns to the dispatch order (R153); at CMP also a row that waits for
publication. -/
def abortRows (n k : Nat) (s : State) : State :=
  s.setRows n ((s.rows n).filter fun j => !j.needs k && !(k == 9 && j.blended))

/-- Every row of an engine returns to the dispatch order at its segment's current record, and the engine keeps nothing of a segment
(R331). -/
def returnRows (n : Nat) (s : State) : State :=
  let left := fun (u : SliceUnit) => { u with seg := u.seg.map fun (g : Segment) => if g.eng = some n then { g with eng := none } else g }
  let s1 := { s with dec := { s.dec with wins := s.dec.wins.map fun (p : Nat × Win) => (p.1, { p.2 with queue := p.2.queue.map left }) } }
  (s1.forget fun u => match u with | .ref m _ => m == n | _ => false).setRows n []

end Sys2Proof.Machine
end

