-- ==== Sys2Proof/Machine/Slice.lean ====
section
/-!
DEFINITION. The slice engines in decode: bands, references, refresh requests, frames (R319, R325 to R327, R330 to R332, R336, R339).
-/

namespace Sys2Proof.Machine

/-! ### Bands (R319) -/

/-- The cause with which a segment's remaining rows are lost at a band's close (R327): its own, REFMISS, or LATE. -/
def State.lateCause (s : State) (k : Nat) (g : Segment) : Nat := g.dead.getD (if s.refMiss k g then 5 else 7)

/-- The cells of a window in a band row that are unpublished at its close, each with the first of the causes that applies (R327). A
segment that covers a cell answers for it; else a discarded slice, a HOLD, a slice whose header was never read. -/
def lostAtClose (s : State) (k y : Nat) (w : Win) : List (Nat × Nat) :=
  (List.range w.cw).filterMap fun x =>
    let c := y * w.cw + x
    let within := fun (a b n m : Nat) => decide (a ≤ x) && decide (x < a + n) && decide (b ≤ y) && decide (y < b + m)
    if w.pub.contains c then none
    else
      let seg := (s.openUnits w).findSome? fun u => u.seg.bind fun g => if within g.x g.y g.w g.h then some g else none
      let causes := match seg with
        | some g => [s.lateCause k g]
        | none =>
          ((w.discs.filter fun (r : LostRect) => s.dec.open_ == some r.frame && within r.x r.y r.w r.h).map fun (r : LostRect) => r.cause)
            ++ (if s.heldNow k then [7] else if w.holds.any fun h => s.dec.open_ == some h.1 then [5] else [])
            ++ (if (s.openUnits w).any fun u => u.seg.isNone && (let r := s.unitRect w u; within r.1 r.2.1 r.2.2.1 r.2.2.2)
                then [7] else [])
      some (c, causes.foldl min (causes.headD 1))

/-- Is a segment of the open frame abandoned at the close of band b: has it rows there that were not published (R319)? -/
def Segment.lateAt (g : Segment) (w : Win) (b : Nat) : Bool := decide (w.cy0 + g.y + g.next ≤ b) && decide (g.next < g.h)

/-- The segments with rows in a band that were not published are abandoned, and every cell of their later rows is lost (R319). -/
def killSegments (s : State) (k b : Nat) (w : Win) : Win :=
  let late := (s.openUnits w).filterMap fun u => u.seg.bind fun g => if g.lateAt w b then some g else none
  let cells := late.flatMap fun g =>
    (w.cellsOf g.x (g.y + g.next) g.w (g.h - g.next)).filterMap fun c => if w.pub.contains c then none else some (c, s.lateCause k g)
  let mark := fun (u : SliceUnit) => if s.dec.open_ == some u.frame then
      { u with seg := u.seg.map fun (g : Segment) => if g.lateAt w b then { g with dead := some (s.lateCause k g) } else g }
    else u
  { w with queue := w.queue.map mark }.lose cells

/-- Raise a source at most once in a frame (R339).
[DEDUCED, unsafe, log 52] -/
def raiseOnce (src : Nat) (s : State) : State :=
  if s.dec.raised.contains src then s else { s with dec := { s.dec with raised := s.dec.raised ++ [src] } }.raise src

/-- Mark a cell of buffer q of window k in its map, beside its alpha (R324). -/
def State.markCell (s : State) (k q cell st : Nat) : State :=
  let a := s.mapAt k q cell
  let l := readBytes .spm a 2 s
  match l with
  | [lo, hi] => writeBytes .spm a [lo, { hi with v := BitVec.ofNat 8 (hi.v.toNat % 16 + 16 * st) }] s
  | _ => s

/-- The end of a frame for one window, when its roles exchange (R325, R326, R327). -/
def endWindow (k : Nat) (s : State) : State :=
  let w := s.win k
  let n := s.dec.open_.getD 0
  let held := s.heldNow k
  let s1 := w.bads.foldl (fun t c => t.markCell k (1 - t.refBuf k) c 4) s
  let s2 := if held then s1 else
    (((s1.setFld (F.SE_WREF_CUR k) (1 - s1.fld (F.SE_WREF_CUR k))).setFld (F.SE_WSTAT_REFFRAME k) (n % 2 ^ 32)).setFlag
      (F.SE_WSTAT_REFOK k) true).forget fun u => match u with | .ref _ v => v == k | _ => false
  let causes := (w.lost.map (·.2)).foldl (fun m c => setBit m (c - 1)) 0
  let s3 := ((s2.setFlag (F.SE_WSTAT_HELD k) held).setFld (F.SE_WSTAT_CAUSES k) causes).setFld (F.SE_WSTAT_CONC k) w.lost.length
  s3.setWin k { w with
    queue := w.queue.filter fun u => decide (n < u.frame)
    taken := w.taken.filter fun e => decide (n < e.1)
    holds := w.holds.filter fun h => decide (n < h.1)
    discs := w.discs.filter fun r => decide (n < r.frame)
    covered := [], lost := [], pub := [], edges := [], bads := [] }

/-- The entry of the refresh frame (R330, R497, R531): of the management slot of RING_CFG, with USE bit 13; none without an own ID. -/
def State.refreshEntry (s : State) : Option KeyEntry := if s.cabId.isSome then s.txEntry (s.fld F.RING_ID_MSLOT) [13] else none

/-- The refresh request of a window at the end of a frame with lost cells (R330). -/
def refreshRequest (k : Nat) (s : State) : State :=
  let w := s.win k
  if w.lost.isEmpty then s else
  let n := s.dec.open_.getD 0
  let s1 := raiseOnce (1024 + w.tenant) s
  let quiet := match w.asked with
    | none => false
    | some f => decide (n ≤ f + s.fld F.SE_RFCFG_HOLDOFF)
  if !s.flag F.SE_RFCFG_EN || quiet || s.refreshEntry.isNone then s1
  else
    let (ox, oy) := s.winOrigin w
    let xs := w.lost.map fun e => e.1 % w.cw
    let ys := w.lost.map fun e => e.1 / w.cw
    let lo := fun (l : List Nat) (o : Int) => (o + (l.foldl min (l.headD 0) : Nat)).toNat
    let hi := fun (l : List Nat) (o : Int) => (o + (l.foldl max 0 : Nat)).toNat
    let q : RefreshReq := ⟨s.fld F.RING_ID_MSLOT, s.refreshEntry.map (·.keyid), w.tenant, n % 2 ^ 32, (w.lost.map (·.2)).foldl (fun m c => setBit m (c - 1)) 0, w.lost.length,
      lo xs ox, lo ys oy, hi xs ox, hi ys oy⟩
    let s2 := s1.setWin k { w with asked := some n }
    raiseOnce 89 { s2 with dec := { s2.dec with refresh := s2.dec.refresh ++ [q] } }

/-- Every window ends the frame (R325, R330). -/
def endFrame (s : State) : State :=
  if !s.dec.swapDue then s else
  let ks := s.winsOn.map (·.1)
  let s1 := if ks.any fun k => !(s.win k).bads.isEmpty then raiseOnce 88 s else s
  let s2 := ks.foldl (fun t k => endWindow k (refreshRequest k t)) s1
  { s2 with dec := { s2.dec with swapDue := false } }

/-- Are lost cells of the last band still to be concealed? Once the light path has started it they no longer are (R319). -/
def State.lastBandOpen (s : State) : Bool :=
  !s.dec.started.contains 31 && s.winsOn.any fun p => p.2.lost.any fun e => p.2.cy0 + e.1 / p.2.cw == 31 && !p.2.pub.contains e.1

/-- The frame ends as soon as its last band is closed and concealed (R325). -/
def frameEnd (s : State) : State := if s.dec.swapDue && !s.lastBandOpen then endFrame s else s

/-- The rows of band b in engine n are abandoned at its close; condition 44 holds for the engine until its next row (R145, R319).
[DEDUCED, unsafe, log 52] -/
def dropLate (b n : Nat) (s : State) : State :=
  let gone := (s.rows n).filter fun j => j.band == b && j.kind != .conceal
  if gone.isEmpty then s
  else
    let s1 := gone.foldl (fun t j => dropRow n (fun x => x == j) 1 t) s
    { s1 with dec := { s1.dec with late := addOnce s1.dec.late n } }

/-- DL(N, b): band b closes (R319).
[DEDUCED, unsafe, log 52] -/
def bandClose (b : Nat) (s : State) : State :=
  if s.dec.open_.isNone || decide (32 ≤ b) || s.dec.closed.contains b then s else
  let late := s.winsOn.any fun p => p.2.cy0 ≤ b && decide (b < p.2.cy0 + p.2.ch)
    && (List.range p.2.cw).any fun x => !p.2.pub.contains ((b - p.2.cy0) * p.2.cw + x)
  let s1 := s.dec.engines.foldl (fun t e => dropLate b e.1 t) s
  let s2 := s.winsOn.foldl (fun t p =>
    let w := killSegments t p.1 b (t.win p.1)
    if w.cy0 ≤ b ∧ b < w.cy0 + w.ch then t.setWin p.1 (w.lose (lostAtClose (t.setWin p.1 w) p.1 (b - w.cy0) w))
    else t.setWin p.1 w) s1
  let s3 := { s2 with dec := { s2.dec with closed := s2.dec.closed ++ [b] } }
  let s4 := if late then raiseOnce 86 s3 else s3
  if b = 31 then frameEnd { s4 with dec := { s4.dec with swapDue := true } } else s4

/-- The light path has read band b: its buffer is free (R318, R594), and a row that was still to enter it leaves its engine.
[DEDUCED, unsafe, log 52] -/
def releaseBand (frame b : Nat) (s : State) : State :=
  let s1 := s.dec.engines.foldl (fun t e =>
    idleStages e.1 (t.setRows e.1 ((t.rows e.1).filter fun j => !(j.frame == frame && j.band == b)))) s
  { s1 with dec := { s1.dec with bufs := s1.dec.bufs.filter fun p => !(p.2.frame == frame && p.2.band == b) } }

/-- Is every rank of every cell of band b published (R319)? -/
def State.bandWhole (s : State) (b : Nat) : Bool :=
  (List.range 32).all fun cx =>
    let n := s.ranksAt cx b
    n == 0 || (match s.dec.open_.bind fun f => s.bandBuf f b with | some x => (x.at cx).1 == n | none => false)

/-- The cells of band b that are still unpublished when the light path starts it are MISSING in the build buffer's map (R319),
and their concealment is no longer due.
[DEDUCED, unsafe, log 52] -/
def markMissing (b : Nat) (s : State) : State :=
  s.winsOn.foldl (fun t p =>
    let w := t.win p.1
    if w.cy0 ≤ b ∧ b < w.cy0 + w.ch then
      let cells := (List.range w.cw).map fun x => (b - w.cy0) * w.cw + x
      (cells.filter fun c => !w.pub.contains c).foldl (fun t c => t.markCell p.1 (1 - t.refBuf p.1) c 3) t
    else t) s

/-- The light path starts band b of the open frame: what is unpublished is given up, its rows leave the engines, and after band 31 the
frame ends (R319, R325).
[DEDUCED, unsafe, log 52] -/
def bandStarted (b : Nat) (s : State) : State :=
  let s1 := s.dec.engines.foldl (fun t e =>
    idleStages e.1 (t.setRows e.1 ((t.rows e.1).filter fun j => j.band != b || t.dec.open_ != some j.frame))) (markMissing b s)
  frameEnd { s1 with dec := { s1.dec with started := addOnce s1.dec.started b } }

/-! ### Frames -/

/-- The rows of every engine but those given leave it, and its slots stop.
[DEDUCED, unsafe, log 52] -/
def emptyEngines (keep : Nat → Bool) (s : State) : State :=
  s.dec.engines.foldl (fun t e => if keep e.1 then t else idleStages e.1 (t.setRows e.1 [])) s

/-- A window as the hoist leaves it (R315, R332, R336): SE_WCFG and SE_WREF take effect; a window that is no longer in use frees all it
holds; one that comes into use has its queue where firmware placed it; frames that have passed leave the queue. -/
def Win.atHoist (w : Win) (k frame : Nat) (cfg ref : W64) : Win :=
  if getBits cfg 63 1 = 0 then Win.empty
  else
    let new := !w.on
    { w with
      cfg := cfg, ref := setBits ref 0 1 0
      qbase := if new then Config.queueBase k else w.qbase
      qsize := if new then Config.queueSpace k else w.qsize
      queue := w.queue.filter fun u => decide (frame ≤ u.frame)
      taken := w.taken.filter fun e => decide (frame ≤ e.1)
      holds := w.holds.filter fun h => decide (frame ≤ h.1)
      discs := w.discs.filter fun r => decide (frame ≤ r.frame)
      covered := [], lost := [], pub := [], edges := [], bads := [] }

/-- D(N) opens for frame n: the decode of the frame before it is over, windows change (R316, R336). An engine that this hoist takes out
of service completes the row it holds (R331).
[DEDUCED, unsafe, log 52]
[DEDUCED, unsafe, log 53] -/
def openFrame (n : Option Nat) (s : State) : State :=
  let s1 := (List.range 64).foldl (fun t k =>
    let w := t.win k
    let v := w.atHoist k t.frame (t.reg (F.SE_WCFG_EN k).off) (t.reg (F.SE_WREF_BASE k).off)
    if w = v then t
    else if v.on then t.setWin k v
    else (t.setWin k v).forget fun u => match u with | .ref _ x => x == k | _ => false) s
  let s2 := emptyEngines (fun e => s1.unitOff.contains (ustIdx Cls.se e)) s1
  seBusyAll { s2 with dec := { s2.dec with open_ := n, closed := [], started := [], raised := [], swapDue := false } }

/-- Leaving Display or Half-Mast, or a soft reset (R332): rows are abandoned, band buffers discarded. -/
def stopDecode (s : State) : State :=
  let s1 := emptyEngines (fun _ => false) (s.forget fun u => match u with | .ref _ _ => true | _ => false)
  seBusyAll { s1 with dec := { s1.dec with open_ := none, bufs := [], closed := [], started := [], engines := [], swapDue := false } }

/-- A build-buffer write of frame f was lost: the cell is BAD at the frame's end, and source 88 is raised (R326). Where the frame has
ended, its picture's map is marked at once if it still is the reference.
[DEDUCED, unsafe, log 52] -/
def buildWriteFailed (k f cy cx : Nat) (s : State) : State :=
  let w := s.win k
  let c := cy * w.cw + cx
  if !w.on then s
  else if s.refNames k (f % 2 ^ 32) then raiseOnce 88 (s.markCell k (s.refBuf k) c 4)
  else if s.dec.open_ = some f then s.setWin k { w with bads := addOnce w.bads c }
  else raiseOnce 88 s

/-! ### The commands -/

/-- SLICE_ROW_DISPATCH (R318): An engine takes the first available slice row or concealment work in dispatch order. -/
def execSliceRowDispatch (n : Nat) (s : State) : Answer := .next (whileLive s (rowDispatch n s))
/-- ROW_PUBLISH (R320): CMP has blended every cell of a row and publishes it atomically in the band table. -/
def execRowPublish (n : Nat) (s : State) : Answer :=
  .next (whileLive s (frameEnd (rowPublish n s)))
/-- BAND_CLOSE (R319): At DL(N, b) band b closes: unpublished rows are abandoned and their cells lost. -/
def execBandClose (b : Nat) (s : State) : Answer := .next (whileLive s (bandClose b s))

end Sys2Proof.Machine
end

