-- ==== Sys2Proof/Machine/LightPath.lean ====
section
/-!
DEFINITION. The light path (R374 to R386, R404 to R408, R414 to R419): modules, the codes from composite to pulse codes, code sums,
calibration tables and masks, GCLK, and the writes of its registers.
-/

namespace Sys2Proof.Machine

/-! ### Modules and lanes (R374 to R376) -/

def State.lane (s : State) (n : Nat) : Lane := SMap.get (fun _ => Lane.reset) s.lp.lanes n

def State.setLane (s : State) (n : Nat) (l : Lane) : State :=
  { s with lp := { s.lp with lanes := SMap.put (fun _ => Lane.reset) s.lp.lanes n l } }

/-- How far lane n has come with its symbols: 16 bits of a free value.
[DESIGN CHOICE, safe, log 75] -/
def State.sentPart (s : State) (n : Nat) : Nat := s.free 1024 / 2 ^ (16 * n) % 65536

/-- Some lane has symbols of a sending event. -/
def State.laneSent (s : State) : Bool := s.lp.lanes.any fun p => !p.2.sym.isEmpty

/-! Lane states of R400. -/
namespace LaneSt
abbrev down : Nat := 0
abbrev quiet : Nat := 1
abbrev align : Nat := 2
abbrev enum : Nat := 3
abbrev up : Nat := 4
abbrev failed : Nat := 5
end LaneSt

def State.laneSt (s : State) (n : Nat) : Nat := s.fld (F.ZLL_STAT_STATE n)
def State.laneMod (s : State) (n : Nat) : Nat := s.fld (F.ZLL_STAT_MOD n)
def State.laneUp (s : State) (n : Nat) : Bool := s.laneSt n == LaneSt.up
def State.laneTrains (s : State) (n : Nat) : Bool := decide (1 ≤ s.laneSt n) && decide (s.laneSt n ≤ 3)

/-- The symbols of lane n's last sending event once the lane is quiet: a packet in hand ends with ABORT (R409). -/
def State.hushSyms (s : State) (n f : Nat) : List Nat :=
  let l := (s.lane n).sym
  if s.laneSt n == LaneSt.align || s.laneSt n == LaneSt.enum || s.laneUp n then cutSymbols f l else l

/-- Lane n as it goes quiet: its work ends; SEQ goes on. -/
def State.hushed (s : State) (n f : Nat) : Lane := { Lane.reset with seq := (s.lane n).seq, sym := s.hushSyms n f }

/-- Is lane n under a loopback (R562)? Does a CHAIN loopback hold return lane k (R559)? -/
def State.laneTested (s : State) (n : Nat) : Bool := s.tdu.loops.any fun l => l.kind == 1 && l.unit == n
def State.chainOn (s : State) (k : Nat) : Bool := s.tdu.loops.any fun l => l.kind == 1 && l.depth == 1 && l.unit / 8 == k

def State.modEn (s : State) (m : Nat) : Bool := s.flag (F.LP_MOD_GEOM_EN m)
def State.mods (s : State) : List Nat := (List.range 64).filter s.modEn

/-- The lane in UP that carries module m (R376). -/
def State.carrier (s : State) (m : Nat) : Option Nat :=
  ((List.range 8).map (8 * (m / 8) + ·)).find? fun n => s.laneUp n && s.laneMod n == m

/-- Is the position of the module that a lane carries declared ON, in effect from the hoist on (R267, R406)?
[DEDUCED, unsafe, log 37] -/
def State.laneOn (s : State) (n : Nat) : Bool := s.laneUp n && !s.unitOff.contains (ustIdx Cls.lane (s.laneMod n))

/-- The geometry of a module. -/
structure Geom where
  x0 : Nat
  y0 : Nat
  w : Nat
  h : Nat
  flipX : Bool
  flipY : Bool
  deriving DecidableEq, Repr

def geomOf (v : W64) : Geom :=
  ⟨getBits v 7 10, getBits v 17 10, getBits v 27 11, getBits v 38 11, getBits v 59 1 != 0, getBits v 60 1 != 0⟩

def State.geom (s : State) (m : Nat) : Geom := geomOf (s.reg (F.LP_MOD_GEOM_EN m).off)

/-- The rows of a module within band b: first row and number. -/
def Geom.rows (g : Geom) (b : Nat) : Nat × Nat :=
  let lo := max g.y0 (32 * b)
  let hi := min (g.y0 + g.h) (32 * b + 32)
  (lo, hi - lo)

/-- The mask of the bands that a module meets. -/
def Geom.bands (g : Geom) : Nat := ((List.range 32).filter fun b => decide (0 < (g.rows b).2)).foldl setBit 0

/-- NCHIP of R375. -/
def Geom.chips (g : Geom) : Nat := (3 * g.w * g.h + 47) / 48

/-- The lamps of a module within band b: first index and number (R375). -/
def Geom.lamps (g : Geom) (b : Nat) : Nat × Nat :=
  let (lo, n) := g.rows b
  let v := if g.flipY then g.y0 + g.h - lo - n else lo - g.y0
  if n = 0 then (0, 0) else (3 * g.w * v, 3 * g.w * n)

/-- The cabinet pixel of a lamp index. -/
def Geom.pixel (g : Geom) (i : Nat) : Nat × Nat :=
  let u := i / 3 % g.w
  let v := i / 3 / g.w
  (if g.flipX then g.x0 + g.w - 1 - u else g.x0 + u, if g.flipY then g.y0 + g.h - 1 - v else g.y0 + v)

def overlap (a0 an b0 bn : Nat) : Bool := decide (a0 < b0 + bn) && decide (b0 < a0 + an)

/-- The rules of R374 on a module that is or stays enabled. -/
def geomOk (s : State) (m : Nat) (g : Geom) : Bool :=
  let others := s.mods.filter (· != m)
  let half := others.filter fun k => k / 32 == m / 32
  decide (1 ≤ g.w) && decide (1 ≤ g.h) && decide (g.x0 + g.w ≤ 1024) && decide (g.y0 + g.h ≤ 1024) && decide (g.w * g.h ≤ 16384)
    && others.all (fun k => !(overlap g.x0 g.w (s.geom k).x0 (s.geom k).w && overlap g.y0 g.h (s.geom k).y0 (s.geom k).h))
    && (List.range 32).all fun b => decide ((g.lamps b).2 ≤ 4096)
      && decide ((g.lamps b).2 + ((half.map fun k => ((s.geom k).lamps b).2).sum) ≤ 49152)

/-- The observed state of a module position: that of the lane that carries it. A position that no lane carries is FAILED where its own lane
has failed, or has come up with another module (R263, R376), and stays so while the lane trains anew; before training it is idle.
[UNVERIFIED, unsafe, log 38] -/
def observeLane (m : Nat) (s : State) : State :=
  match s.carrier m with
  | some n => if s.laneOn n then observe Cls.lane m Obs.on 0 s else observe Cls.lane m Obs.off 0 s
  | none =>
    if s.laneSt m == LaneSt.failed || (s.laneUp m && s.modEn m) then
      let c := [Cause.noreply, Cause.noreply, Cause.count, Cause.cableReversed, Cause.laneShort].getD (s.fld (F.ZLL_STAT_REASON m)) 0
      observe Cls.lane m Obs.failed c s
    else if s.obs Cls.lane m == Obs.failed && s.laneTrains m then s
    else observe Cls.lane m Obs.off 0 s

/-- The observed states of the modules of a group.
[UNVERIFIED, unsafe, log 38] -/
def observeGroup (k : Nat) (s : State) : State := (List.range 8).foldl (fun t j => observeLane (8 * k + j) t) s

/-- A write of LP_MODm_GEOM (R374, R419): discarded in the Show modes and where it breaks a rule; NCHM1 follows. -/
def geomWrite (w : Writer) (m be : Nat) (data : W64) (s : State) : State :=
  if 64 ≤ m || showMode s.heldOrMode then s else
  let off := (F.LP_MOD_GEOM_EN m).off
  let v := s.written w off be data
  let g := geomOf v
  if getBits v 63 1 = 1 ∧ !geomOk s m g then s
  else observeLane m (observePu m (s.setReg off (setBits v 49 10 (g.chips - 1))))

/-! ### Composite, calibration, scale and dither (R377 to R379) -/

/-- The pattern sample of R414. -/
def patternSample (pat lvl : W64) (x y m c : Nat) : Nat :=
  let l := [getBits lvl 0 12, getBits lvl 12 12, getBits lvl 24 12].getD c 0
  let sx := getBits pat 24 8
  let sy := getBits pat 32 8
  match getBits pat 0 3 with
  | 0 => l
  | 1 => if x % sx = getBits pat 40 8 ∧ y % sy = getBits pat 48 8 then l else 0
  | 2 => if (x / sx + y / sy) % 2 = 0 then l else 0
  | 3 => (l * x + 511) / 1023
  | _ => if bitOf (m % 7 + 1) c then l else 0

/-- A composite sample as the light path receives it (R323); one whose bytes carry a pennant is 0. -/
def compositeSample (s : State) (bd : LpBand) (x y c : Nat) : Nat :=
  let e := SMap.get (fun _ => (0, false)) bd.tab (x / 32)
  if e.1 = 0 then (16 * s.fld ([F.SE_BGCOL_R, F.SE_BGCOL_G, F.SE_BGCOL_B].getD c F.SE_BGCOL_R) + 8) / 16
  else
    let b := readBytes .spm (s.slotAt bd.band (x / 32) e.2 + 2 * (3 * (32 * (y % 32) + x % 32) + c)) 2 s
    if anyPen b then 0 else (leNat (vals b) + 8) / 16

/-- A colour-matrix coefficient of module m, row c, column j: sQ2.14. -/
def State.coef (s : State) (m c j : Nat) : Int :=
  toSigned (s.fld ([F.LP_MOD_CM0_C00 m, F.LP_MOD_CM0_C01 m, F.LP_MOD_CM0_C02 m, F.LP_MOD_CM0_C10 m, F.LP_MOD_CM1_C11 m,
    F.LP_MOD_CM1_C12 m, F.LP_MOD_CM1_C20 m, F.LP_MOD_CM1_C21 m, F.LP_MOD_CM2_C22 m].getD (3 * c + j) (F.LP_MOD_CM0_C00 m))) 16

/-- CAL of R377: samples of the pixel, the lamp's record (none if pennanted). -/
def calValue (cm : Nat → Int) (smp : List Nat) (c : Nat) (raw : Bool) (gdef : Nat) (record : Option Nat) : Nat :=
  let y := if raw then smp.getD c 0
    else (satI (rshrI (cm 0 * smp.getD 0 0 + cm 1 * smp.getD 1 0 + cm 2 * smp.getD 2 0) 14) 0 4095).toNat
  let g0 := record.getD gdef
  let g := if raw && g0 != 0 then 4095 else g0
  if g0 = 0 then 0 else (y + y / 2048) * (g + g / 2048)

/-- The bits of an 8-bit number in reverse order. -/
def bitrev8 (v : Nat) : Nat := (List.range 8).foldl (fun a i => a + b2n (bitOf v i) * 2 ^ (7 - i)) 0

/-- BSC and DTH of R378 and R379. -/
def pulseCode (u k n x y c : Nat) (dither : Bool) : Nat :=
  let w := rshrN (u * k) 15
  let h := (37 * x + 101 * y + 67 * c) % 256
  let d := if dither then bitrev8 ((n + h) % 256) else 128
  min 65535 ((w + d) / 256)

/-- The DRAM address of the table slot of module m (R382). -/
def State.calSlot (s : State) (m slot : Nat) : Nat := s.fld F.LP_CALBASE_BASE * 65536 + (2 * m + slot) * 0x12000

/-- The memory port of the tables. -/
def State.calPort (s : State) : Nat := s.fld F.LP_CALBASE_PORT

/-- Byte range of lamp records `start` to `start + count - 1` in a slot. -/
def recRange (start count : Nat) : Nat × Nat := (12 * start / 8, (12 * (start + count) + 7) / 8 - 12 * start / 8)

/-- The records that PAK needs for module m in band b, if they are there; a port without service gives pennants. -/
def calRecords (s : State) (m b : Nat) : Option (List PByte) :=
  let (st, ct) := (s.geom m).lamps b
  let (lo, len) := recRange st ct
  if s.portDead s.calPort then some (List.replicate len ⟨0, true⟩)
  else s.gather (.cal m) (s.calSlot m (s.fld (F.LP_MOD_GEOM_CSEL m)) + lo) len

/-- Ask for the records of module m in band b, unless reads for the module are on their way.
[DEDUCED, unsafe, log 54] -/
def askCal (m b : Nat) (s : State) : State :=
  let p := s.port s.calPort
  if (p.queue.any fun r => r.use == .cal m) || (p.out.any fun o => o.req.use == .cal m) then s
  else
    let (st, ct) := (s.geom m).lamps b
    let (lo, len) := recRange st ct
    (rangeReads (.cal m) (s.calSlot m (s.fld (F.LP_MOD_GEOM_CSEL m)) + lo) len).foldl (fun t r => t.mptQueue t.calPort r) s

/-- The record of lamp i, none where its bytes carry a pennant.
[DEDUCED, unsafe, log 54] -/
def recordAt (recs : Array PByte) (start i : Nat) : Option Nat :=
  let bit := 12 * i - 8 * (12 * start / 8)
  let a := recs.getD (bit / 8) ⟨0, true⟩
  let b := recs.getD (bit / 8 + 1) ⟨0, true⟩
  if a.pen || b.pen then none else some ((a.v.toNat + 256 * b.v.toNat) / 2 ^ (bit % 8) % 4096)

/-- K as it stood when D(N) opened (R378). -/
def State.kOf (s : State) (m : Nat) : Nat := ((s.lp.ks.find? fun p => p.1 == m).map (·.2)).getD (s.fld (F.LP_MOD_SCL_K m))

/-- The pulse codes of module m in band b, in index order (R377 to R380).
[DEDUCED, unsafe, log 54] -/
def bandCodes (s : State) (bd : LpBand) (m : Nat) (recs : List PByte) : List Nat :=
  let g := s.geom m
  let (st, ct) := g.lamps bd.band
  let ra := recs.toArray
  let cal := s.heldOrMode == Mode.calibrate
  let raw := cal && getBits s.lp.pat 3 1 != 0
  let k := s.kOf m
  let gdef := s.fld (F.LP_MOD_CM2_GDEF m)
  let dith := s.flag F.LP_CFG_DITHER
  (List.range ct).map fun j =>
    let i := st + j
    let c := i % 3
    let (x, y) := g.pixel i
    let smp := (List.range 3).map fun e => if cal then patternSample s.lp.pat s.lp.lvl x y m e else compositeSample s bd x y e
    pulseCode (calValue (s.coef m c) smp c raw gdef (recordAt ra st i)) k bd.frame x y c dith

/-! ### PAK (R380) -/

/-- The sums of a module in this frame. -/
def State.sumsOf (s : State) (m : Nat) : Nat × Nat × Nat := SMap.get (fun _ => (0, 0, 0)) s.lp.sums m

/-- The slots of 8,192 bytes, one band load each, in the SPM banks of half h that no waiting load takes up. Once the half is retired its
banks, and so its lanes' slots, are the other half's (R174).
[DEDUCED, unsafe, log 54] -/
def State.loadSlots (s : State) (h : Nat) : List Nat :=
  let own := s.banksOf (0x20 + h)
  let banks := if s.seqState (17 + h) = SeqState.retired then s.banksOf (0x21 - h) else own
  let taken := s.lp.lanes.flatMap fun p => p.2.fifo.filterMap (·.place)
  (banks.flatMap fun b => (List.range 16).map fun i => b * 0x20000 + i * 0x2000).filter fun a => !taken.contains a

/-- PAK writes a band load of lane n into SPM: each code in network order.
[DEDUCED, unsafe, log 54] -/
def loadWrite (n band start : Nat) (codes : List Nat) (s : State) : State :=
  let place := (s.loadSlots (n / 32 % 2)).head?
  let s1 := match place with
    | some a => writeBytes .spm a (plain (codes.map (beBytes 2)).flatten) s
    | none => s
  let l := s1.lane n
  s1.setLane n { l with fifo := l.fifo ++ [⟨band, start, codes.length, place, if place.isSome then [] else codes⟩] }

/-- The codes of a band load as LDR reads them: a code with a pennant is 0 (R132, R381).
[DEDUCED, unsafe, log 54] -/
def State.loadCodes (s : State) (b : BandLoad) : List Nat :=
  match b.place with
  | none => b.codes
  | some a => (List.range b.count).map fun i =>
    let c := readBytes .spm (a + 2 * i) 2 s
    if anyPen c then 0 else beNat (vals c)

/-- The effects of reading them (R106, R131). -/
def noteLoad (b : BandLoad) (s : State) : State :=
  match b.place with
  | none => s
  | some a => noteReads .spm a (2 * b.count) s

/-- The sums of one colour. -/
def colourSum (codes : List Nat) (c : Nat) : Nat := ((codes.zipIdx.filter fun p => p.2 % 3 == c).map (·.1)).sum

/-- PAK ends a module in a band: sums, band load, and the latch of the sums after the module's last band. -/
def packModule (bd : LpBand) (m : Nat) (s : State) : State :=
  match calRecords s m bd.band with
  | none => s
  | some recs =>
    let g := s.geom m
    let (st, ct) := g.lamps bd.band
    if ct = 0 then s
    else
      let codes := bandCodes s bd m recs
      let (r, gr, b) := s.sumsOf m
      let sums := (r + colourSum codes 0, gr + colourSum codes 1, b + colourSum codes 2)
      let done := setBit (SMap.get (fun _ => 0) s.lp.packed m) bd.band
      let s1 := { s with lp := { s.lp with
        sums := SMap.put (fun _ => (0, 0, 0)) s.lp.sums m sums, packed := SMap.put (fun _ => 0) s.lp.packed m done } }
      let s2 := s1.dropLines (.cal m)
      let s3 := match s2.carrier m with
        | none => s2
        | some n =>
          let l := s2.lane n
          if l.dropped || !s2.laneOn n then s2
          else if 2 ≤ l.fifo.length then s2.setLane n { l with dropped := true }
          else loadWrite n bd.band st codes s2
      if done = g.bands then
        (((s3.setFld (F.LP_MOD_CSUM0_RSUM m) sums.1).setFld (F.LP_MOD_CSUM0_GSUM m) sums.2.1).setFld (F.LP_MOD_CSUM1_BSUM m)
          sums.2.2).setFld (F.LP_MOD_CSUM1_FRAME m) (bd.frame % 65536)
      else s3

/-- The modules of half h that an operation with lane mask `mask` packs: those whose carrying lane the mask names; a module that
no lane carries goes by its own position. -/
def State.packMods (s : State) (h mask : Nat) : List Nat :=
  s.mods.filter fun m => m / 32 == h && bitOf mask ((s.carrier m).getD m % 32)

/-- The light path has read a band with one half; with both its buffer is free. -/
def bandRead (bd : LpBand) (h : Nat) (s : State) : State :=
  let halves := setBit bd.halves h
  if halves = 3 then releaseBand bd.frame bd.band { s with lp := { s.lp with bands := s.lp.bands.filter (· != bd) } }
  else { s with lp := { s.lp with bands := s.lp.bands.map fun x => if x = bd then { x with halves := halves } else x } }

/-- The stage of half h, j = 0 CAL to 4 LDR, with the parameters that S1 loaded: band P0 and lane mask P1. -/
def State.lpStage (s : State) (h j : Nat) : Stage := s.stage (17 + h) j

def stageParam (g : Stage) (k : Nat) : Nat := ((g.params.find? fun p => p.1 == k).map (·.2.toNat)).getD 0

/-- PAK of half h ends its operation; false while it waits for calibration records.
[DEDUCED, unsafe, log 54] -/
def pakDone (h : Nat) (s : State) : State × Bool :=
  let g := s.lpStage h 3
  let b := stageParam g 0 % 32
  match s.lp.bands.find? fun x => x.band == b && !bitOf x.halves h with
  | none => (s, true)
  | some bd =>
    let ms := (s.packMods h (stageParam g 1)).filter fun m => decide (0 < ((s.geom m).lamps b).2)
    let missing := ms.filter fun m => (calRecords s m b).isNone
    if missing.isEmpty then
      let s0 := bd.tab.foldl (fun t e => if e.2.1 = 0 then t else noteReads .spm (t.slotAt b e.1 e.2.2) 6144 t) s
      (bandRead bd h (ms.foldl (fun t m => packModule bd m t) s0), true)
    else (missing.foldl (fun t m => askCal m b t) s, false)

/-- A stage of half h ends its operation (R145). -/
def lightStageDone (h j : Nat) (s : State) : State :=
  let g := s.lpStage h j
  if !g.busy then s
  else
    let r := if j = 3 then pakDone h s else (s, true)
    if r.2 then r.1.setStage (17 + h) j { r.1.lpStage h j with busy := false, done := true } else r.1

/-- Does D(N) stand open for the light path: a Show mode with a schedule in force? -/
def State.showing (s : State) : Bool := showMode s.mode && s.hoists

/-- The light path starts band b at DL(N, b + 1), or once every rank of its cells is published (R319). -/
def lightPathBandStart (b : Nat) (s : State) : State :=
  if !s.showing || 32 ≤ b || bitOf s.lp.started b || b != popCount s.lp.started 32 then s
  else
    let bd : LpBand := ⟨s.frame + 1, b, ((s.dec.open_.bind fun f => s.bandBuf f b).map (·.tab)).getD [], 0⟩
    let s1 := if s.dec.open_.isSome then bandStarted b s else s
    let s2 := s1.lp.bands.foldl (fun t o => releaseBand o.frame o.band t) s1
    { s2 with lp := { s2.lp with started := setBit s2.lp.started b, bands := [bd] } }

/-! ### GCLK (R404, R405, R411) -/

/-- GDIV for the period, SEGLOG and PNCLK target in force. -/
def State.gdivNext (s : State) : Nat :=
  let seg := 2 ^ s.fld F.LP_CFG_SEGLOG
  let tmin := 9998 * s.fld F.TSU_SCHED1_PERIOD * s.fld F.AO_CLKCFG_PN_MUL * 25 / (10000 * 65536 * 64 * 1000 * seg)
  min 48 ((tmin - 112) / (65536 / seg + 1))

/-- The observed state of a generator (R263).
[UNVERIFIED, unsafe, log 38] -/
def observeGclk (g : Nat) (s : State) : State :=
  if bitOf s.lp.shortG g then observe Cls.gclk g Obs.failed Cause.gclkShort s
  else if showMode s.mode && bitOf (s.fld F.GCLK_CTL_EN) g && !s.unitOff.contains (ustIdx Cls.gclk g) then observe Cls.gclk g Obs.on 0 s
  else observe Cls.gclk g Obs.off 0 s

def observeGclks (s : State) : State := (List.range 16).foldl (fun t g => observeGclk g t) s

/-- The generators that drive pulses: enabled, declared ON, without a short (R404). -/
def State.gclkRuns (s : State) : Nat :=
  ((List.range 16).filter fun g => bitOf (s.fld F.GCLK_CTL_EN) g && !bitOf s.lp.shortG g
    && !s.unitOff.contains (ustIdx Cls.gclk g)).foldl setBit 0

/-- At H(N) + k × PERIOD / SEG the pulses of subperiod k start (R404). -/
def subperiodStart (k : Nat) (s : State) : State :=
  if !s.showing || s.flag F.AO_CLKST_PN_SAFE || 2 ^ s.fld F.LP_CFG_SEGLOG ≤ k || s.gclkRuns = 0 then s
  else { s with lp := { s.lp with sub := some (s.frame, k) } }

/-- A GCKg readback mismatch on 64 consecutive edges (R411). -/
def gclkPadShort (g : Nat) (s : State) : State :=
  if 16 ≤ g || bitOf s.lp.shortG g || !s.showing then s
  else
    let s1 := observeGclk g { s with lp := { s.lp with shortG := setBit s.lp.shortG g } }
    (List.range 4).foldl (fun t j => t.raise (160 + 4 * g + j)) s1

/-! ### CAL_LOAD (R383 to R386) -/

/-- Bytes of the image of a module: header, records padded to whole lines. -/
def Geom.calLen (g : Geom) : Nat := 64 + (12 * (3 * g.w * g.h) + 7) / 8 / 64 * 64
  + (if (12 * (3 * g.w * g.h) + 7) / 8 % 64 = 0 then 0 else 64)

def calAddr (c : Cmd) : Nat := leAt c.params 8 8
def calMod (c : Cmd) : Nat := byteAt c.params 0

/-- CAL_LOAD starts: its own checks that need no image, then the read of the image through MPT0.
[DEDUCED, unsafe, log 55] -/
def calLoad (id : Nat) (s : State) : State :=
  withStarted id 0x2001 s fun c =>
    let m := calMod c
    if 64 ≤ m || !zeroAt c.params 1 7 || calAddr c % 64 != 0 || !zeroAt c.params 14 2 || !zeroAt c.params 20 4 then
      finish id Status.badParam [] s
    else if !s.modEn m then finish id Status.badParam [] s
    else
      let s1 := ({ s with lp := { s.lp with cals := s.lp.cals ++ [(⟨id, m, [], 0, false⟩ : CalRun)] } }).running id
      (rangeReads (.cmdRead id) (calAddr c) (s.geom m).calLen).foldl (fun t r => t.mptQueue 0 r) s1

/-- A calibration load ends without a switch.
[DEDUCED, unsafe, log 55] -/
def calEnd (id status : Nat) (s : State) : State :=
  finish id status [] ({ s with lp := { s.lp with cals := s.lp.cals.filter fun r => r.cmd != id } }.dropLines (.cmdRead id))

/-- The image has come: its checks, then the copy into the slot that is not in use (R385).
[DEDUCED, unsafe, log 55] -/
def calImage (id : Nat) (s : State) : State :=
  match s.cmd? id, s.lp.cals.find? fun r => r.cmd == id with
  | some c, some r =>
    if r.left ≠ 0 || !r.hdr.isEmpty then s
    else
      let g := s.geom r.mod
      match s.gather (.cmdRead id) (calAddr c) g.calLen with
      | none => s
      | some img =>
        let b := vals img
        if anyPen (img.take 64) then calEnd id Status.fault s
        else if leAt b 0 4 != 0x4C41435A || leAt b 4 2 != 1 || leAt b 6 2 != g.w || leAt b 8 2 != g.h || !zeroAt b 44 20 then
          calEnd id Status.badParam s
        else if !s.inWindow s.calPort (s.fld F.LP_CALBASE_BASE * 65536) 0x900000 then calEnd id Status.denied s
        else if (s.lp.cals.takeWhile fun x => x.cmd != id).any fun x => x.mod == r.mod then calEnd id Status.busy s
        else if anyPen img then calEnd id Status.fault s
        else if (crc32 b).toNat != leAt c.params 16 4 then calEnd id Status.stale s
        else
          let slot := 1 - s.fld (F.LP_MOD_GEOM_CSEL r.mod)
          let body := b.drop 64
          let lines := (List.range (body.length / 64)).map fun i => (s.calSlot r.mod slot + 64 * i, (body.drop (64 * i)).take 64)
          let reqs := lineWrites (.cmdWrite id) lines
          let s1 := ({ s with lp := { s.lp with
            cals := s.lp.cals.map fun (x : CalRun) =>
              if x.cmd = id then { x with hdr := b.take 64, left := reqs.length } else x } }).dropLines (.cmdRead id)
          reqs.foldl (fun t q => t.mptQueue t.calPort q) s1
  | _, _ => s

/-- The switch of the tables of a module (R385).
[DEDUCED, unsafe, log 55] -/
def calSwitch (r : CalRun) (frame : Nat) (s : State) : State :=
  let b := r.hdr
  let m := r.mod
  let csel := 1 - s.fld (F.LP_MOD_GEOM_CSEL m)
  let s1 := (s.setFld (F.LP_MOD_GEOM_CSEL m) csel).setFlag (F.LP_MOD_GEOM_CALOK m) true
  let s2 := ((s1.setReg (F.LP_MOD_CM0_C00 m).off (BitVec.ofNat 64 (leAt b 12 8))).setReg (F.LP_MOD_CM1_C11 m).off
    (BitVec.ofNat 64 (leAt b 20 8))).setFld (F.LP_MOD_CM2_C22 m) (leAt b 28 2)
  let s3 := (((s2.setFld (F.LP_MOD_CM2_CG_R m) (leAt b 30 2)).setFld (F.LP_MOD_CM2_CG_G m) (leAt b 32 2)).setFld
    (F.LP_MOD_CM2_CG_B m) (leAt b 34 2)).setFld (F.LP_MOD_CM2_GDEF m) (leAt b 10 2 % 4096)
  let s4 := if leAt b 36 8 = 0 then s3 else s3.setFld (F.LP_MOD_UID_UID m) (leAt b 36 8)
  let s5 := { s4 with lp := { s4.lp with cals := s4.lp.cals.filter (· != r), masks := s4.lp.masks.filter fun p => p.1 != m } }
  finish r.cmd Status.ok (leBytes 1 csel ++ [0, 0, 0] ++ leBytes 4 frame) s5

/-- A line write of the copy has been answered; after the last the switch is due (R385).
[DEDUCED, unsafe, log 55] -/
def calWritten (id : Nat) (ok : Bool) (s : State) : State :=
  match s.lp.cals.find? fun r => r.cmd == id with
  | none => s
  | some r =>
    if !ok then calEnd id Status.fault s
    else if r.left ≤ 1 then
      let r' := { r with left := 0, ready := true }
      let s1 := { s with lp := { s.lp with cals := s.lp.cals.map fun (x : CalRun) => if x = r then r' else x } }
      if s.mode = Mode.standby || s.mode = Mode.dark || !s.hoists then calSwitch r' 0xFFFFFFFF s1 else s1
    else { s with lp := { s.lp with cals := s.lp.cals.map fun (x : CalRun) => if x = r then { r with left := r.left - 1 } else x } }

/-- Mask a lamp: a whole-line rewrite of its record in the slot in use begins with the read of its line (R386). -/
def maskLamp (m i : Nat) (s : State) : State :=
  if !s.flag F.LP_CFG_AUTOMASK || s.lp.masks.contains (m, i) then s
  else
    let a := s.calSlot m (s.fld (F.LP_MOD_GEOM_CSEL m)) + 12 * i / 8
    (rangeReads (.mask m i) a 2).foldl (fun t r => t.mptQueue t.calPort r) { s with lp := { s.lp with masks := s.lp.masks ++ [(m, i)] } }

/-- The line or lines of a record have come: the record is written as 0; pennanted lines are left as they are. -/
def maskRead (m i : Nat) (s : State) : State :=
  let a := s.calSlot m (s.fld (F.LP_MOD_GEOM_CSEL m)) + 12 * i / 8
  let first := a / 64 * 64
  let n := (a + 1) / 64 - a / 64 + 1
  match s.gather (.mask m i) first (64 * n) with
  | none => s
  | some l =>
    let s1 := ({ s with lp := { s.lp with masks := s.lp.masks.filter (· != (m, i)) } }).dropLines (.mask m i)
    if anyPen l || !s.lp.masks.contains (m, i) then s1
    else
      let k := a % 64
      let b := vals l
      let v := byteAt b k + 256 * byteAt b (k + 1)
      let v' := if 12 * i % 8 = 0 then v / 4096 * 4096 else v % 16
      let b' := b.take k ++ leBytes 2 v' ++ b.drop (k + 2)
      let lines := (List.range n).map fun j => (first + 64 * j, (b'.drop (64 * j)).take 64)
      (lineWrites (.maskWrite m) lines).foldl (fun t q => t.mptQueue t.calPort q) s1

/-! ### Register writes (R416 to R418) -/

/-- LP_CFG: SEGLOG is kept in the Show modes. -/
def lpCfgWrite (w : Writer) (be : Nat) (data : W64) (s : State) : State :=
  let v := s.written w F.LP_CFG_SEGLOG.off be data
  s.setReg F.LP_CFG_SEGLOG.off (if showMode s.heldOrMode then setBits v 8 3 (s.fld F.LP_CFG_SEGLOG) else v)

/-- LP_CALBASE is kept in the Show modes; PORT = 1 names MPT1, which AVLIN-D lacks (R21, R417). -/
def lpCalBaseWrite (w : Writer) (be : Nat) (data : W64) (s : State) : State :=
  let off := F.LP_CALBASE_BASE.off
  if showMode s.heldOrMode then s
  else if s.build = .d then s.setReg off (setBits (s.written w off be data) 63 1 (getBits (s.reg off) 63 1))
  else s.plainWrite w off be data

/-- One axis of LP_PAT after a write: a position that does not lie below the spacing is reserved, so that the position keeps its
value; where the old position does not lie below the new spacing either, the spacing keeps its value too (R21, R414).
[DESIGN CHOICE, unsafe, log 72] -/
def patAxis (lo pos : Nat) (old v : W64) : W64 :=
  if getBits v pos 8 < getBits v lo 8 then v
  else
    let v1 := setBits v pos 8 (getBits old pos 8)
    if getBits v1 pos 8 < getBits v1 lo 8 then v1 else setBits v1 lo 8 (getBits old lo 8)

/-- LP_PAT: PX ≥ SX and PY ≥ SY are reserved for those fields; the other fields take the written values (R21, R414). -/
def lpPatWrite (w : Writer) (be : Nat) (data : W64) (s : State) : State :=
  let old := s.reg F.LP_PAT_SX.off
  let v := s.written w F.LP_PAT_SX.off be data
  s.setReg F.LP_PAT_SX.off (patAxis 32 48 old (patAxis 24 40 old v))

/-- LP_FLT: writing 1 to VALID clears VALID and OVF. -/
def lpFltWrite (w : Writer) (be : Nat) (data : W64) (s : State) : State :=
  let s1 := s.plainWrite w F.LP_FLT_VALID.off be data
  if s.flag F.LP_FLT_VALID && !s1.flag F.LP_FLT_VALID then s1.setFlag F.LP_FLT_OVF false else s1

def gclkCtlWrite (w : Writer) (be : Nat) (data : W64) (s : State) : State :=
  observeGclks (s.plainWrite w F.GCLK_CTL_EN.off be data)

/-- LIGHT_PATH_BAND_START (R319): The light path starts band b at DL(N, b + 1) or once every rank is published. -/
def execLightPathBandStart (b : Nat) (s : State) : Answer := .next (whileClocked s (lightPathBandStart b s))
/-- SUBPERIOD_START (R404): At H(N) + k × PERIOD / SEG each GCLK generator starts the pulses of subperiod k. -/
def execSubperiodStart (k : Nat) (s : State) : Answer := .next (whileClocked s (subperiodStart k s))
/-- GCLK_PAD_SHORT (R411): A GCKg readback mismatch on 64 edges holds it low and fails the generator. -/
def execGclkPadShort (g : Nat) (s : State) : Answer := .next (whilePowered s (gclkPadShort g s))
/-- LP_MOD_GEOM_WRITE (R374): A write of LP_MODm_GEOM is checked against the module rules and applied or discarded whole. -/
def execLpModGeomWrite (w : Writer) (m : Nat) (v : W64) (s : State) : Answer := .next (whileClocked s (geomWrite w m 0xFF v s))
/-- CAL_LOAD (R385): CAL_LOAD copies calibration records into the unused slot and switches tables at the next hoist. -/
def execCalLoad (id : Nat) (s : State) : Answer := .next (whileClocked s (calLoad id s))

end Sys2Proof.Machine
end

