-- ==== Sys2Proof/Machine/Lane.lean ====
section
/-!
DEFINITION. The Lamp Link (R387 to R413, R420, R421): packets, band loads, SET_CURRENT, LATCH, status rounds, replies, training,
lane faults.
-/

namespace Sys2Proof.Machine

/-! ### Packets (R388, R389) -/

/-- The bytes of a packet between SOP and EOP. -/
def lanePacket (cmd seq addr : Nat) (ops : List Byte) : List Byte :=
  let b := beBytes 1 cmd ++ beBytes 1 seq ++ beBytes 2 addr ++ beBytes 2 ops.length ++ ops
  b ++ beBytes 4 (crc32 b).toNat

/-- Send packets on a lane, in the line code: each takes the next SEQ. -/
def sendPackets (n : Nat) (l : List (Nat × Nat × List Byte)) (s : State) : State :=
  let x := s.lane n
  let out := l.zipIdx.map fun p => lanePacket p.1.1 ((x.seq + p.2) % 256) p.1.2.1 p.1.2.2
  (s.setLane n { x with seq := (x.seq + l.length) % 256, tx := out, sym := sentSymbols (s.free 8) out }).drew

/-- SET_CURRENT packets (R391): colour gains, cut, segments. -/
def setGains (g : List Nat) : Nat × Nat × List Byte := (0x04, 0xFFFF, [0, 0] ++ (g.map (beBytes 2)).flatten)
def setCut (c : Nat) : Nat × Nat × List Byte := (0x04, 0xFFFF, [1, 0] ++ beBytes 2 c)
def setSeg (k : Nat) : Nat × Nat × List Byte := (0x04, 0xFFFF, [2, 0] ++ beBytes 1 k ++ [0])

/-- The colour gains of the module that a lane carries. -/
def State.gains (s : State) (n : Nat) : List Nat :=
  let m := s.laneMod n
  [s.fld (F.LP_MOD_CM2_CG_R m), s.fld (F.LP_MOD_CM2_CG_G m), s.fld (F.LP_MOD_CM2_CG_B m)]

/-! ### The frame on a lane (R406) -/

/-- Are the lane's frame-N loads all sent? -/
def State.loadDone (s : State) (n : Nat) : Bool :=
  let l := s.lane n
  !l.dropped && l.sent == ((s.geom (s.laneMod n)).bands)

/-- Are the frame-N load and SET_CURRENT of lane n complete (R406, P7 of R415)? -/
def State.laneReady (s : State) (n : Nat) : Bool := s.laneOn n && s.loadDone n && (s.lane n).cur

/-- P7 and P8 of R415 for half h. -/
def State.doneLanes (s : State) (h : Nat) : Nat := ((List.range 32).filter fun j => s.laneReady (32 * h + j)).foldl setBit 0
def State.upLanes (s : State) (h : Nat) : Nat := ((List.range 32).filter fun j => s.laneUp (32 * h + j)).foldl setBit 0

/-- Can the forward lanes carry symbols: a Show mode, PNCLK released (R43, R74)? -/
def State.lanesRun (s : State) : Bool := showMode s.mode && !s.flag F.AO_CLKST_PN_SAFE

/-- Does lane n carry K28.5 while no packet is on it (R387, R400)? A lane that does not is quiet and carries no symbol. -/
def State.laneIdles (s : State) (n : Nat) : Bool :=
  s.lanesRun && (s.laneSt n == LaneSt.align || s.laneSt n == LaneSt.enum || s.laneUp n)

/-- LDR sends the oldest band load of lane n as one LOAD (R380, R406). -/
def bandLoadSend (n : Nat) (s : State) : State :=
  let l := s.lane n
  match l.fifo with
  | [] => s
  | b :: rest =>
    if 64 ≤ n || !s.lanesRun || !s.laneOn n then s
    else
      let ops := beBytes 2 b.start ++ beBytes 2 b.count ++ ((s.loadCodes b).map (beBytes 2)).flatten
      let s1 := sendPackets n [(0x01, 0xFFFF, ops)] (noteLoad b s)
      s1.setLane n { s1.lane n with fifo := rest, sent := setBit l.sent b.band }

/-- After the grant for N is fixed, SET_CURRENT goes out on lane n: SUB 2 and SUB 0 when they change, then the cut (R406). -/
def setCurrentSend (n : Nat) (s : State) : State :=
  let l := s.lane n
  if 64 ≤ n || !s.lanesRun || !s.laneOn n || l.cur || !s.hoists || s.ba.fixed != some (s.frame + 1) then s
  else
    let seg := s.fld F.LP_CFG_SEGLOG
    let g := s.gains n
    let pk := (if l.segSent = seg then [] else [setSeg seg]) ++ (if l.cgSent = g then [] else [setGains g])
      ++ [setCut (s.fld F.LP_CUT_CUT)]
    let s1 := sendPackets n pk s
    s1.setLane n { s1.lane n with cur := true, segSent := seg, cgSent := g }

/-- An ARM strobe names lane n (R406): a lane that fails the test is counted, once in a frame. -/
def armLane (n : Nat) (s : State) : State :=
  let l := s.lane n
  if s.lp.latched || !s.laneOn n then s
  else if s.laneReady n && !s.flag F.LP_STAT_GERR && decide (s.lp.firstFrame ≤ s.frame + 1) then s.setLane n { l with armed := true }
  else if l.counted then s
  else (s.setLane n { l with counted := true }).bump (F.ZLL_CNT_UNARMED n) 1

/-- At H(N) − LATCHT each armed lane sends LATCH; a lane in UP that is not armed is counted (R406).
[DEDUCED, unsafe, log 54] -/
def latchSend (s : State) : State :=
  if !s.showing || s.lp.latched then s
  else
    let s1 := (List.range 64).foldl (fun t n =>
      let l := t.lane n
      if !t.laneOn n then t
      else if l.armed && t.lanesRun then sendPackets n [(0x02, 0xFFFF, [])] t
      else if l.counted then t
      else (t.setLane n { l with counted := true }).bump (F.ZLL_CNT_UNARMED n) 1) s
    { s1 with lp := { s1.lp with latched := true } }

/-- A raw command goes out at the next packet boundary of lane n (R396). -/
def rawCommandInsert (n : Nat) (s : State) : State :=
  match (s.lane n).raw with
  | [] => s
  | r :: rest =>
    if 64 ≤ n || !s.lanesRun || !s.laneOn n then s
    else
      let s1 := sendPackets n [r] s
      s1.setLane n { s1.lane n with raw := rest }

/-- An LSQ word asks for a raw command on the lanes of a mask of half h (R159, R396). -/
def rawCommand (h mask cmd addr : Nat) (ops : List Byte) (s : State) : State :=
  (bitsSet mask 32).foldl (fun t j =>
    let l := t.lane (32 * h + j)
    t.setLane (32 * h + j) { l with raw := l.raw ++ [(cmd, addr, ops)] }) s

/-! ### Return lanes (R398) -/

def State.ret (s : State) (k : Nat) : Option (Nat × LaneCmd) := (s.lp.rets.find? fun p => p.1 == k).map (·.2)

def State.setRet (s : State) (k : Nat) (o : Option (Nat × LaneCmd)) : State :=
  let rest := s.lp.rets.filter fun p => p.1 != k
  { s with lp := { s.lp with rets := match o with | none => rest | some x => SMap.insert k x rest } }

def State.setOpenChain (s : State) (n : Nat) (b : Bool) : State :=
  if s.flag (F.ZLL_STAT_OPENCHAIN n) = b then s else (s.setFlag (F.ZLL_STAT_OPENCHAIN n) b).raise (160 + n)

/-- READ_STATUS over chips `first` to `first + count - 1` of lane n, after the lane's frame load (R410, R412). -/
def readStatusRound (n first count : Nat) (s : State) : State :=
  let k := n / 8
  let chain := s.flag (F.ZLL_STAT_OPENCHAIN n)
  if 64 ≤ n || !s.lanesRun || !s.laneOn n || !s.loadDone n || (s.ret k).isSome || s.chainOn k || count = 0 || 64 < count || 1024 ≤ first
      || (chain && !(s.lane n).probe) then s
  else
    let s1 := sendPackets n [(0x03, first, beBytes 2 count ++ [0, 0] ++ List.replicate (16 * count) 0)] s
    (s1.setLane n { s1.lane n with probe := false }).setRet k (some (n, .status first count))

/-- A lamp fault of a status record (R410): the first is recorded in LP_FLT, each is counted and raised, and masked. -/
def lampFault (n chip ch kind : Nat) (s : State) : State :=
  let m := s.laneMod n
  let i := 48 * chip + ch
  let s1 := if s.flag F.LP_FLT_VALID then s.setFlag F.LP_FLT_OVF true
    else (((s.setFlag F.LP_FLT_VALID true).setFld F.LP_FLT_KIND kind).setFld F.LP_FLT_MOD m).setFld F.LP_FLT_INDEX i
  let s2 := (s1.bump (F.ZLL_CNT_LAMPFLT n) 1).raise (160 + n)
  if i < 3 * (s.geom m).w * (s.geom m).h then maskLamp m i s2 else s2

/-- One 16-byte record of a status reply (R393, R410); a record whose address is not the chip's is a missing chip. -/
def statusRecord (n chip : Nat) (r : List Byte) (s : State) : State :=
  if beAt r 0 2 != chip then s
  else
    let f := byteAt r 2
    let s1 := s.bump (F.ZLL_CNT_UNARMED n) (popCount f 2)
    let s2 := if bitOf f 2 || bitOf f 3 then s1.raise (160 + n) else s1
    let s3 := (bitsSet (beAt r 4 6) 48).foldl (fun t ch => lampFault n chip ch 1 t) s2
    (bitsSet (beAt r 10 6) 48).foldl (fun t ch => lampFault n chip ch 2 t) s3

/-! ### Training (R399 to R403) -/

/-- Is a lane of group k in training? -/
def State.training (s : State) (k : Nat) : Bool :=
  (List.range 8).any fun j => s.laneTrains (8 * k + j)

/-- Start the training of a lane from QUIET. -/
def startTraining (n : Nat) (s : State) : State :=
  let l := s.lane n
  let s1 := (s.setLane n { l with want := false, attempt := 0, alignOnly := false, txBefore := s.flag (F.ZLL_STAT_TXINV n),
                                  missed := 0, fifo := [], armed := false, sym := s.hushSyms n (s.free 16) }).drew
  observeGroup (n / 8) ((s1.setFld (F.ZLL_STAT_STATE n) LaneSt.quiet).bump (F.ZLL_CNT_RETRAIN n) 1)

/-- Does group k hold an enabled module? -/
def State.groupUsed (s : State) (k : Nat) : Bool := (List.range 8).any fun j => s.modEn (8 * k + j)

/-- Training is asked for on the lanes of a list whose position is not declared OFF. -/
def wantTraining (l : List Nat) (s : State) : State :=
  l.foldl (fun t n =>
    if decide (64 ≤ n) || t.unitOff.contains (ustIdx Cls.lane n) || t.decl Cls.lane n == Obs.off then t
    else t.setLane n { t.lane n with want := true }) s

/-- On entry to a Show mode every lane of each group with an enabled module trains (R399). -/
def trainAll (s : State) : State := wantTraining ((List.range 64).filter fun n => s.groupUsed (n / 8)) s

/-- Lanes train one at a time in a group, in ascending n (R399). -/
def laneTrainStart (n : Nat) (s : State) : State :=
  let k := n / 8
  if 64 ≤ n || !s.lanesRun || !(s.lane n).want || s.training k || s.laneTested n || s.chainOn k
      || (List.range (n % 8)).any (fun j => (s.lane (8 * k + j)).want && !s.laneTested (8 * k + j)) then s
  else startTraining n s

/-- A lane fails with a reason (R401, R411). -/
def failLane (n reason : Nat) (s : State) : State :=
  let l := s.lane n
  let s1 := (s.setLane n { l with want := false, alignOnly := false, fifo := [], armed := false, raw := [],
                                  sym := s.hushSyms n (s.free 16) }).drew
  let s2 := ((s1.setFld (F.ZLL_STAT_STATE n) LaneSt.failed).setFld (F.ZLL_STAT_REASON n) reason).setFld (F.ZLL_STAT_MOD n) 0xFF
  observeGroup (n / 8) (s2.raise (160 + n))

/-- A lane comes up carrying module m (R400, R401, R421). -/
def laneComesUp (n m : Nat) (s : State) : State :=
  let remap := m != n || s.flag (F.ZLL_STAT_TXINV n)
  let s1 := ((s.setFld (F.ZLL_STAT_STATE n) LaneSt.up).setFld (F.ZLL_STAT_MOD n) m).setFlag (F.ZLL_STAT_SHORT n) false
  let s2 := if s1.flag (F.ZLL_STAT_REMAP n) = remap then s1 else (s1.setFlag (F.ZLL_STAT_REMAP n) remap).raise (160 + n)
  let s3 := (s2.setOpenChain n false).raise (160 + n)
  let seg := s3.fld F.LP_CFG_SEGLOG
  let s4 := sendPackets n [setSeg seg, setGains (s3.gains n)] s3
  let s5 := s4.setLane n { s4.lane n with segSent := seg, cgSent := s4.gains n, alignOnly := false, fifo := [], sent := 0,
                                          dropped := false, cur := false, armed := false, missed := 0 }
  observeGroup (n / 8) s5

/-- The duration of QUIET or ALIGN ends (R400, R402); ENUM waits for the return lane to be free. -/
def laneStateTimer (n : Nat) (s : State) : State :=
  let l := s.lane n
  let k := n / 8
  if 64 ≤ n || !s.lanesRun then s
  else if s.laneSt n = LaneSt.quiet then s.setFld (F.ZLL_STAT_STATE n) LaneSt.align
  else if s.laneSt n = LaneSt.align then
    if l.alignOnly then laneComesUp n (s.laneMod n) s
    else if (s.ret k).isSome then s
    else
      let tok := n + 64 * b2n (s.flag (F.ZLL_STAT_TXINV n))
      let s1 := sendPackets n [(0x06, 0xFFFF, beBytes 2 tok ++ List.replicate 14 0)] s
      (s1.setFld (F.ZLL_STAT_STATE n) LaneSt.enum).setRet k (some (n, .enum tok))
  else s

/-- The outcome of an ENUM reply on the lane's own return lane (R401).
[DEDUCED, unsafe, log 54] -/
def enumOutcome (n count uid : Nat) (s : State) : State :=
  let k := n / 8
  let s1 := s.setFld (F.ZLL_STAT_CHIPS n) count
  let hit := ((List.range 8).map (8 * k + ·)).find? fun m => s1.modEn m && s1.fld (F.LP_MOD_UID_UID m) == uid
  let m := match hit with
    | some m => some m
    | none => if s1.fld (F.LP_MOD_UID_UID n) = 0 then some n else none
  match m with
  | none => failLane n 3 s1
  | some m =>
    if ((s1.carrier m).getD n) != n then failLane n 3 s1
    else
      let s2 := if hit.isNone then s1.setFld (F.LP_MOD_UID_UID n) uid else s1
      if count = (s2.geom m).chips then laneComesUp n m s2 else failLane n 2 s2

/-- No reply in time, or one whose CRC failed (R398, R401, R412); while the return lane is short, training outcomes are deferred
(R413). -/
def laneReplyTimeout (k : Nat) (s : State) : State :=
  match s.ret k with
  | none => s
  | some (n, cmd) =>
    if s.flag (F.ZLL_RT_SHORT k) && (match cmd with | .enum _ => true | _ => false) then s
    else
      let s1 := (s.setRet k none).bump (F.ZLL_RT_TMO k) 1
      let l := s1.lane n
      match cmd with
      | .enum _ =>
        if l.attempt = 0 then
          let s2 := (s1.setFlag (F.ZLL_STAT_TXINV n) (!s1.flag (F.ZLL_STAT_TXINV n))).setLane n { l with attempt := 1 }
          s2.setFld (F.ZLL_STAT_STATE n) LaneSt.quiet
        else
          let s2 := s1.setFlag (F.ZLL_STAT_TXINV n) l.txBefore
          if s2.modEn n then failLane n 1 s2
          else observeGroup k ((s2.setFld (F.ZLL_STAT_STATE n) LaneSt.down).setFld (F.ZLL_STAT_MOD n) 0xFF)
      | .status _ _ =>
        let s2 := (s1.bump (F.ZLL_CNT_STLOST n) 1).setLane n { l with missed := l.missed + 1 }
        if 3 ≤ l.missed + 1 then s2.setOpenChain n true else s2

/-- A packet of a reply has come in whole on return lane k: its bytes from CMD to the CRC (R398, R401, R410). -/
def replyPacket (k : Nat) (b : List Byte) (s1 : State) : State :=
    let body := b.take (b.length - 4)
    if b.length < 10 || (crc32 body).toNat != beAt b (b.length - 4) 4 then laneReplyTimeout k (s1.bump (F.ZLL_RT_CRCERR k) 1)
    else if byteAt b 0 = 0x86 then
      let tok := beAt b 6 2
      let n := tok % 64
      let live := s1.laneSt n == LaneSt.enum && s1.ret (n / 8) == some (n, .enum tok)
      if !live then s1
      else
        let s2 := s1.setRet (n / 8) none
        if n / 8 != k then failLane n 3 s2 else enumOutcome n (beAt b 8 2) (beAt b 14 8) s2
    else if byteAt b 0 = 0x83 then
      match s1.ret k with
      | some (n, .status first count) =>
        let s2 := ((s1.setRet k none).setLane n { s1.lane n with missed := 0 }).setOpenChain n false
        (List.range count).foldl (fun t j => statusRecord n (first + j) ((b.drop (10 + 16 * j)).take 16) t) s2
      | _ => s1
    else s1

/-- A reply arrives on return lane k: its symbols, the polarity found, the invalid symbols met before the receiver had locked. A reply
that ABORT ends has no effect (R387, R398). -/
def laneReply (k : Nat) (syms : List Nat) (inv : Bool) (codeErr : Nat) (s : State) : State :=
  if 8 ≤ k || !s.lanesRun || s.flag (F.ZLL_RT_SHORT k) then s
  else
    let r := receiveSymbols (s.free (8 * syms.length)) syms
    let s1 := ((s.setFlag (F.ZLL_RT_RXINV k) inv).bump (F.ZLL_RT_CODEERR k) (r.2 + codeErr)).drew
    match r.1 with
    | none => s1
    | some b => replyPacket k b s1

/-- Every PROBE × 100 ms a FAILED lane, or a DOWN lane of a group with an enabled module, retrains once its return lane is free; a
lane with OPENCHAIN may send a READ_STATUS (R403, R412).
[DEDUCED, unsafe, log 54] -/
def laneReprobe (n : Nat) (s : State) : State :=
  let k := n / 8
  if 64 ≤ n || !s.lanesRun || s.fld F.LP_CFG_PROBE = 0 || s.laneTested n || s.chainOn k then s
  else if s.laneUp n then s.setLane n { s.lane n with probe := true }
  else if s.laneSt n = LaneSt.failed || (s.laneSt n = LaneSt.down && s.groupUsed k) then
    if (s.ret k).isSome || s.unitOff.contains (ustIdx Cls.lane n) then s
    else if s.training k then wantTraining [n] s
    else startTraining n s
  else s

/-- A readback mismatch of a forward leg for 256 bit times (R411): the packet in hand ends with ABORT (R409). -/
def lanePadShort (n : Nat) (s : State) : State :=
  if 64 ≤ n || !s.lanesRun || s.laneSt n = LaneSt.failed || s.laneSt n = LaneSt.down then s
  else
    let s1 := match s.ret (n / 8) with
      | some (j, _) => if j = n then s.setRet (n / 8) none else s
      | none => s
    failLane n 4 (s1.setFlag (F.ZLL_STAT_SHORT n) true)

/-- The common mode of return lane k leaves its range for 1 ms, or is back in it (R413). -/
def returnLaneShort (k : Nat) (present : Bool) (s : State) : State :=
  if 8 ≤ k || s.flag (F.ZLL_RT_SHORT k) = present || !s.cclkOn then s
  else
    let s1 := s.setFlag (F.ZLL_RT_SHORT k) present
    if present then (List.range 8).foldl (fun t j => t.raise (160 + 8 * k + j)) s1 else s1

/-! ### Entering and leaving the Show modes -/

/-- The lanes go quiet (R409): they are DOWN, the results of training are kept.
[DEDUCED, unsafe, log 54] -/
def lanesQuiet (s : State) : State :=
  let s1 := (List.range 64).foldl (fun t n =>
    if t.laneSt n = LaneSt.down && t.lane n = Lane.reset then t
    else (t.setFld (F.ZLL_STAT_STATE n) LaneSt.down).setLane n (s.hushed n (s.sentPart n))) (if s.laneSent then s.drew else s)
  let s2 := { s1 with lp := { s1.lp with rets := [], bands := [], started := 0, sums := [], packed := [], sub := none } }
  (List.range 8).foldl (fun t k => observeGroup k t) s2

/-- The lanes go quiet while PNCLK runs on the safe clock or the engine is in Halt: a lane that was UP waits in QUIET for its passage
through ALIGN alone, one that trained trains anew (R74, R402, R574).
[DEDUCED, unsafe, log 16] -/
def lanesHush (s : State) : State :=
  let s1 := (List.range 64).foldl (fun t n =>
    let st := t.laneSt n
    let l := t.lane n
    if st = LaneSt.up || (st = LaneSt.align && l.alignOnly) || (st = LaneSt.quiet && l.alignOnly) then
      (t.setFld (F.ZLL_STAT_STATE n) LaneSt.quiet).setLane n { s.hushed n (s.sentPart n) with alignOnly := true }
    else if st = LaneSt.quiet || st = LaneSt.align || st = LaneSt.enum then
      (t.setFld (F.ZLL_STAT_STATE n) LaneSt.down).setLane n { s.hushed n (s.sentPart n) with want := true }
    else t) (if s.laneSent then s.drew else s)
  let s2 := { s1 with lp := { s1.lp with rets := [], bands := [], started := 0, sums := [], packed := [], sub := none } }
  (List.range 8).foldl (fun t k => observeGroup k t) s2

/-- The lanes that wait for their passage through ALIGN begin it. -/
def lanesAlign (s : State) : State :=
  (List.range 64).foldl (fun t n =>
    if t.laneSt n = LaneSt.quiet && (t.lane n).alignOnly then t.setFld (F.ZLL_STAT_STATE n) LaneSt.align else t) s

/-- A light-path half that is neither failed nor retired is observed ON in the Show modes (R264).
[UNVERIFIED, unsafe, log 38] -/
def observeHalves (on : Bool) (s : State) : State :=
  [0, 1].foldl (fun t m =>
    if t.obs Cls.lp m == Obs.failed || t.obs Cls.lp m == Obs.retired then t
    else observe Cls.lp m (if on then Obs.on else Obs.off) 0 t) s

/-- The light path leaves the Show modes: lanes and GCLK. -/
def lightPathOff (s : State) : State := observeHalves false (observeGclks (lanesQuiet s))

/-- The light path enters a Show mode: lanes train, patterns and scales are latched. -/
def lightPathOn (s : State) : State :=
  let s1 := { s with lp := { s.lp with pat := s.reg F.LP_PAT_SX.off, lvl := s.reg F.LP_PATLVL_R.off, latched := false,
                                       ks := (List.range 64).map fun m => (m, s.fld (F.LP_MOD_SCL_K m)) } }
  observeHalves true (observeGclks (trainAll s1))

/-- PNCLK is released: with PN_MUL unchanged the lanes that were UP pass through ALIGN alone, else every lane trains (R402). The
first frame that is latched is the first whose D(N) opens from now on (R74). -/
def lanesAfterRelock (changed : Bool) (s : State) : State :=
  let s0 := { s with lp := { s.lp with firstFrame := s.frame + 2 } }
  if !showMode s0.mode then s0
  else if changed then trainAll (lanesQuiet s0)
  else lanesAlign s0

/-- The light path's part of a hoist: the frame's flags, GDIV, patterns, scales and tables for D(N + 1) (R378, R385, R405, R414). -/
def lightPathHoist (s : State) : State :=
  let s0 := (s.lp.cals.filter (·.ready)).foldl (fun t r => calSwitch r (t.frame % 2 ^ 32) t) s
  let lanes := (s0.lp.lanes.map fun p =>
    (p.1, { p.2 with fifo := [], dropped := false, sent := 0, cur := false, armed := false, counted := false })).filter
      fun p => p.2 != Lane.reset
  let s1 := { s0 with lp := { s0.lp with
    lanes := lanes, bands := [], started := 0, sums := [], packed := [], latched := false
    pat := s0.reg F.LP_PAT_SX.off, lvl := s0.reg F.LP_PATLVL_R.off
    ks := (List.range 64).map fun m => (m, s0.fld (F.LP_MOD_SCL_K m)) } }
  let g := s1.gdivNext
  let s2 := (s1.setFld F.LP_STAT_GDIV g).setFlag F.LP_STAT_GERR (decide (g < 2))
  if g < 2 && showMode s2.mode then (List.range 64).foldl (fun t n => if t.laneUp n then t.raise (160 + n) else t) s2 else s2

/-- BAND_LOAD_SEND (R406): LDR sends a band load of a lane as one LOAD packet. -/
def execBandLoadSend (n : Nat) (s : State) : Answer := .next (whileClocked s (bandLoadSend n s))
/-- SET_CURRENT_SEND (R406): After the grant is fixed, LDR sends SET_CURRENT with the cut on each lane. -/
def execSetCurrentSend (n : Nat) (s : State) : Answer := .next (whileClocked s (setCurrentSend n s))
/-- LATCH_SEND (R406): At H(N) − LATCHT each armed lane sends LATCH; unarmed frames are counted. -/
def execLatchSend (s : State) : Answer := .next (whileClocked s (latchSend s))
/-- RAW_COMMAND_INSERT (R396): A raw Lamp Link command requested by an LSQ word is inserted at the next packet boundary of each lane. -/
def execRawCommandInsert (n : Nat) (s : State) : Answer := .next (whileClocked s (rawCommandInsert n s))
/-- READ_STATUS_ROUND (R410): Between the frame load and D(N + 1) the engine sends READ_STATUS over up to 64 chips of a lane. -/
def execReadStatusRound (n first count : Nat) (s : State) : Answer := .next (whileClocked s (readStatusRound n first count s))
/-- LANE_REPLY (R398): A reply arrives on a return lane and is checked, with status faults or training outcomes acted on. -/
def execLaneReply (k : Nat) (syms : List Nat) (inv : Bool) (codeErr : Nat) (s : State) : Answer :=
  .next (whileClocked s (laneReply k syms inv codeErr s))
/-- LANE_REPLY_TIMEOUT (R398): No reply within 100,000 PNCLK times out the command. -/
def execLaneReplyTimeout (k : Nat) (s : State) : Answer := .next (whileClocked s (laneReplyTimeout k s))
/-- LANE_TRAIN_START (R399): On entry to a Show mode or a TRAIN strobe, lanes start training from QUIET. -/
def execLaneTrainStart (n : Nat) (s : State) : Answer := .next (whileClocked s (laneTrainStart n s))
/-- LANE_STATE_TIMER (R400): The QUIET or ALIGN duration of a training lane ends and it moves on. -/
def execLaneStateTimer (n : Nat) (s : State) : Answer := .next (whileClocked s (laneStateTimer n s))
/-- LANE_REPROBE (R403): Every PROBE × 100 ms a FAILED or DOWN lane retrains. -/
def execLaneReprobe (n : Nat) (s : State) : Answer := .next (whileClocked s (laneReprobe n s))
/-- LANE_PAD_SHORT (R411): A forward-leg readback mismatch for 256 bit times sets SHORT and fails the lane. -/
def execLanePadShort (n : Nat) (s : State) : Answer := .next (whilePowered s (lanePadShort n s))
/-- RETURN_LANE_SHORT (R413): A return-lane common mode out of range for 1 ms sets SHORT. -/
def execReturnLaneShort (k : Nat) (present : Bool) (s : State) : Answer := .next (whileClocked s (returnLaneShort k present s))

end Sys2Proof.Machine
end

