-- ==== Sys2Proof/Machine/Ring.lean ====
section
/-!
DEFINITION. The ring unit (R486 to R512): ports, preemption, frames and their classes, duplicate windows, expiry, holds, egress
order, gates, policing, and the management envelope with its authentication and replay check (R242, R243, R247, R250).
-/

namespace Sys2Proof.Machine

/-! ### Ports -/

def State.rport (s : State) (n : Nat) : RingPort := if n = 0 then s.ring.p0 else s.ring.p1

def State.setRport (s : State) (n : Nat) (p : RingPort) : State :=
  if n = 0 then { s with ring := { s.ring with p0 := p } } else { s with ring := { s.ring with p1 := p } }

/-- Is port n up (R488)? -/
def State.portUp (s : State) (n : Nat) : Bool := s.flag (F.RING_PORT_STAT_LINK n)

def State.anyPortUp (s : State) : Bool := s.portUp 0 || s.portUp 1

/-- The ring time moves on to the time that an event carries; it never moves back (R516).
[DESIGN CHOICE, safe, log 6]
[DEDUCED, safe, log 49] -/
def State.atTime (s : State) (now : Nat) : State := { s with tsu := { s.tsu with now := max s.tsu.now now } }

/-- H(N) of R517 under the schedule in force. -/
def State.hoistTime (s : State) (n : Nat) : Nat := (s.fld F.TSU_SCHED0_EPOCH + n * s.fld F.TSU_SCHED1_PERIOD / 65536) % 2 ^ 64

/-! ### Frames (R489 to R491) -/

/-- The unicast address of a cabinet, and the group addresses of R489. -/
def unicast (c : Nat) : Nat := 0x025A4C000000 + c % 65536
def daEvery : Nat := 0x035A4C00FFFF
def daSolvers : Nat := 0x035A4C00FFFE
def daFeeders : Nat := 0x035A4C00FFFD
def daWake : Nat := 0x035A4C00FFFC
def daAs : Nat := 0x0180C200000E
def daSupervision : Nat := 0x01154E000100

/-- An HSR-tagged frame (R490). -/
structure HsrFrame where
  da : Nat
  sa : Nat
  path : Nat
  seq : Nat
  etype : Nat
  payload : List Byte
  deriving DecidableEq, Repr

def parseHsr (b : List Byte) : Option HsrFrame :=
  if b.length < 20 || beAt b 12 2 != 0x892F then none
  else some ⟨beAt b 0 6, beAt b 6 6, beAt b 14 2 / 4096, beAt b 16 2, beAt b 18 2, b.drop 20⟩

/-- The bytes of a frame. The LSDU size counts from the tag's own bytes on (PRESUMED from IEC 62439-3).
[PRESUMED, unsafe, log 44] -/
def HsrFrame.bytes (f : HsrFrame) : List Byte :=
  let body := beBytes 6 f.da ++ beBytes 6 f.sa ++ beBytes 2 0x892F
    ++ beBytes 2 (f.path % 16 * 4096 + (6 + f.payload.length) % 4096) ++ beBytes 2 f.seq ++ beBytes 2 f.etype ++ f.payload
  body ++ List.replicate (60 - body.length) 0

def HsrFrame.kind (f : HsrFrame) : Nat := byteAt f.payload 0

/-- The rank of a frame's class and the largest frame of the class (R491). -/
def HsrFrame.cls (f : HsrFrame) : Option (Nat × Nat) :=
  if f.etype = 0x88B6 then
    if f.kind = 0x20 then some (1, 128)
    else if f.kind = 0x10 || f.kind = 0x11 then some (2, 584)
    else if f.kind = 0x01 || f.kind = 0x02 || f.kind = 0x03 || f.kind = 0x12 then some (4, 1096)
    else none
  else if f.etype = 0x88B5 then
    if f.kind = 0x40 then some (3, 2112) else if f.kind = 0x41 then some (5, 2112) else none
  else if f.etype = 0x88FB then some (4, 1096)
  else none

/-- Is port n enabled, by RING_CFG and UNIT_SET (R488)? -/
def State.portEnabled (s : State) (n : Nat) : Bool := s.flag (F.RING_PORT_CFG_EN n) && !s.unitOff.contains (ustIdx Cls.ring n)

/-- Is it a wake frame (R530)? -/
def RFrame.wake (f : RFrame) : Bool := beAt f.bytes 0 6 == daWake

/-- Does port n carry a frame: it is up, or it is enabled and the frame is a wake frame, which a port with its receive side down still
transmits (R488, R499, R530)? -/
def State.carries (s : State) (n : Nat) (h : HsrFrame) : Bool := s.portUp n || (h.da == daWake && s.portEnabled n)

/-- A frame joins the egress queue of a port. -/
def State.pushFrame (s : State) (n : Nat) (f : RFrame) : State := s.setRport n { s.rport n with queue := (s.rport n).queue ++ [f] }

/-- Queue a frame of the engine's own at the egress of a port; frames routed to a port that is down are not queued (R503). -/
def State.enqueue (s : State) (n : Nat) (f : RFrame) : State := if s.portUp n then s.pushFrame n f else s

/-- The engine originates a frame: it takes the next sequence number and leaves on both ports (R490). Without a cabinet ID the
engine originates none (R489). -/
def State.originate (s : State) (cls da etype : Nat) (payload : List Byte) : State :=
  match s.cabId with
  | none => s
  | some c =>
    let seq := (s.ring.seqNo + 1) % 65536
    let s1 := { s with ring := { s.ring with seqNo := seq } }
    [0, 1].foldl (fun t n =>
      t.enqueue n ⟨cls, false, (HsrFrame.mk da (unicast c) n seq etype payload).bytes, false⟩) s1

/-! ### Expiry (R502) -/

/-- Has a frame of a class expired? -/
def State.expired (s : State) (f : HsrFrame) : Bool :=
  if !s.hoists then false
  else if f.etype = 0x88B5 && f.kind = 0x40 then
    let n := resolveFrame s.frame (beAt f.payload 16 4)
    decide (n < 0) || decide (s.hoistTime n.toNat ≤ s.tsu.now)
  else if f.etype = 0x88B6 && (f.kind = 0x10 || f.kind = 0x11) then
    let n := resolveFrame s.frame (beAt f.payload 16 4)
    decide (n < 0) || decide (s.hoistTime n.toNat ≤ s.tsu.now + 1000 * s.fld F.BA_WIN_LDOFF)
  else if f.etype = 0x88B6 && f.kind = 0x12 then
    let n := resolveFrame s.frame (beAt f.payload 20 4)
    decide (n < 0) || decide (s.hoistTime n.toNat + 1000000000 ≤ s.tsu.now)
  else false

def State.expiredQ (s : State) (f : RFrame) : Bool :=
  match parseHsr f.bytes with
  | none => false
  | some h => s.expired h

/-! ### Duplicate windows (R500) -/

def State.dupWin (s : State) (who src : Nat) : Option DupWin := s.ring.dups.find? fun d => d.who == who && d.src == src

/-- Is a number ahead of another modulo 2^16? -/
def ahead (a b : Nat) : Bool := a != b && decide ((a + 65536 - b) % 65536 < 32768)

/-- seen(). -/
def State.seen (s : State) (who src seq : Nat) : Bool :=
  match s.dupWin who src with
  | none => false
  | some d => !ahead seq d.hi && (decide (1024 ≤ (d.hi + 65536 - seq) % 65536) || d.marks.contains seq)

/-- mark().
[DEDUCED, unsafe, log 45] -/
def State.mark (s : State) (who src seq : Nat) : State :=
  let d := (s.dupWin who src).getD ⟨who, src, seq, []⟩
  let hi := if ahead seq d.hi then seq else d.hi
  let marks := seq :: (d.marks.filter fun m => m != seq && decide ((hi + 65536 - m) % 65536 < 1024))
  let rest := s.ring.dups.filter fun e => !(e.who == who && e.src == src)
  { s with ring := { s.ring with dups := rest ++ [⟨who, src, hi, marks⟩] } }

/-- A window that no frame has touched for 400 ms is cleared. -/
def dupWindowClear (who src : Nat) (s : State) : State :=
  { s with ring := { s.ring with dups := s.ring.dups.filter fun e => !(e.who == who && e.src == src) } }

/-! ### Link state (R487, R488, R503) -/

/-- Port n is down: its windows are cleared, its partner is unknown, the frames queued for it are held for 250 µs.
[DEDUCED, unsafe, log 45] -/
def portDown (n : Nat) (s : State) : State :=
  if !s.portUp n then s else
  let s0 := { s with tdu := { s.tdu with loops := s.tdu.loops.map fun (l : Loop) =>
    if l.kind = 0 ∧ l.depth = 4 ∧ l.unit = n then { l with fault := true } else l } }
  let s1 := (((s0.setFlag (F.RING_PORT_STAT_LINK n) false).setFlag (F.RING_PORT_STAT_PREEMPT n) false).setFld
    (F.RING_PORT_STAT_PARTNER n) 0xFFFF).bump (F.RING_PORT_CNT1_LINKDOWNS n) 1
  let s2 := s1.setRport n { s1.rport n with holding := true, verify := .none, verifies := 0, tx := none }
  let s3 := { s2 with ring := { s2.ring with dups := s2.ring.dups.filter fun d => d.who != n } }
  s3.raise (96 + n)

/-- The observed state of a ring port (R263, R488).
[UNVERIFIED, unsafe, log 38] -/
def observePort (n : Nat) (s : State) : State :=
  if s.portUp n then observe Cls.ring n Obs.on Cause.linkdown s
  else if s.portEnabled n then observe Cls.ring n Obs.failed Cause.linkdown s
  else observe Cls.ring n Obs.off Cause.linkdown s

/-- A port has held block lock for 1 ms: it is up, sends its first verify mPacket, and sends the frames of a hold that have not
expired (R487, R488, R503).
[DEDUCED, unsafe, log 45] -/
def linkUp (n now : Nat) (s : State) : State :=
  if 2 ≤ n || !s.cclkOn || s.portUp n || !s.portEnabled n
      || s.tdu.loops.any (fun l => l.kind == 0 && l.unit == n && decide (l.depth < 4)) then s else
  let s0 := s.atTime now
  let p := s0.rport n
  let keep := p.queue.filter fun f => f.wake || (p.holding && !s0.expiredQ f)
  let lost := p.queue.length - keep.length
  let s1 := (s0.setRport n { p with queue := keep, holding := false, verify := .running, verifies := 1, tx := none }).setFlag
    (F.RING_PORT_STAT_LINK n) true
  let s2 := if lost = 0 then s1 else (s1.bump (F.RING_PORT_CNT0_HOLDDROP n) lost).raise 105
  observePort n (s2.raise (96 + n))

/-- A port has failed one of the conditions of R488 for 2 µs. -/
def linkDown (n : Nat) (s : State) : State :=
  if 2 ≤ n || !s.cclkOn || !s.portUp n then s else observePort n (portDown n s)

/-- The end of a hold: the queued frames are dropped, but for the wake frames of an enabled port (R503, R530).
[DEDUCED, unsafe, log 45] -/
def portHoldExpiry (n : Nat) (s : State) : State :=
  let p := s.rport n
  if 2 ≤ n || !p.holding then s
  else
    let keep := if s.portEnabled n then p.queue.filter RFrame.wake else []
    let s1 := s.setRport n { p with queue := keep, holding := false }
    if p.queue.length = keep.length then s1
    else (s1.bump (F.RING_PORT_CNT0_HOLDDROP n) (p.queue.length - keep.length)).raise 105

def preemptVerifySend (n : Nat) (s : State) : State :=
  let p := s.rport n
  if 2 ≤ n || p.verify != .running then s else s.setRport n { p with verifies := p.verifies + 1 }

def preemptRespond (n : Nat) (s : State) : State :=
  let p := s.rport n
  if 2 ≤ n || p.verify != .running || !s.portUp n then s
  else (s.setRport n { p with verify := .verified }).setFlag (F.RING_PORT_STAT_PREEMPT n) true

def preemptVerifyTimeout (n : Nat) (s : State) : State :=
  let p := s.rport n
  if 2 ≤ n || p.verify != .running || !s.portUp n then s
  else (s.setRport n { p with verify := .failed }).raise (96 + n)

/-! ### Gates (R507, R508) -/

/-- The first tick of the cycle at which an entry ends; the last entry ends with the cycle. -/
def gateEnd (gcl : List (Nat × Nat)) (cycle k : Nat) : Nat :=
  if gcl.length ≤ k + 1 then cycle else min cycle (((gcl.take (k + 1)).map (·.1)).sum)

/-- The ticks of the present hoist period. -/
def State.cycleTicks (s : State) : Nat := (s.hoistTime (s.frame + 1) - s.hoistTime s.frame) / 8

/-- Entries from `k` on up to the first that closes the gate of a class: the tick at which the gate closes, none if it stays open
to the end of the cycle.
[DEDUCED, unsafe, log 46] -/
def gateCloses (gcl : List (Nat × Nat)) (cycle cls : Nat) : Nat → Nat → Option Nat
  | 0, _ => none
  | f + 1, k =>
    if gcl.length ≤ k then none
    else if bitOf ((gcl.getD k (0, 0)).2) (cls - 1) then gateCloses gcl cycle cls f (k + 1)
    else some (if k = 0 then 0 else gateEnd gcl cycle (k - 1))

/-- May a frame of a class start: its gate is open and stays open for the guard band of 86 ticks (R508)? Past the end of the cycle
the list starts again.
[DEDUCED, unsafe, log 46] -/
def State.gateAllows (s : State) (n cls : Nat) : Bool :=
  let p := s.rport n
  let cycle := s.cycleTicks
  let at_ := (s.tsu.now - s.hoistTime s.frame) / 8
  bitOf ((p.gcl.getD p.entry (0, 0x1F)).2) (cls - 1) &&
    (!s.hoists ||
      match gateCloses p.gcl cycle cls 64 (p.entry + 1) with
      | some t => decide (at_ + 86 ≤ t)
      | none =>
        match gateCloses p.gcl cycle cls 64 0 with
        | some t => decide (at_ + 86 ≤ cycle + t)
        | none => true)

/-- The gate list moves to its next entry (R507). -/
def gateEntryChange (n : Nat) (s : State) : State :=
  let p := s.rport n
  if 2 ≤ n || p.gcl.length ≤ p.entry + 1 then s else s.setRport n { p with entry := p.entry + 1 }

/-- The loaded gate lists take effect at a cycle start (R509).
[DEDUCED, unsafe, log 46] -/
def gclTakeEffect (s : State) : State :=
  let due := [0, 1].any fun n => (s.rport n).gclNext.isSome
  let s1 := [0, 1].foldl (fun t n =>
    let p := t.rport n
    match p.gclNext with
    | none => t
    | some g => t.setRport n { p with gcl := g, entry := 0, gclNext := none }) s
  if due then s1.raise 104 else s1

/-- A PERIOD that makes the sum of DUR reach the cycle's end cuts the list (R509).
[DEDUCED, unsafe, log 46] -/
def gclCut (s : State) : State :=
  let cycle := s.fld F.TSU_SCHED1_PERIOD / 65536 / 8
  if s.hoists && [0, 1].any (fun n => decide (cycle ≤ (((s.rport n).gcl).map (·.1)).sum)) then
    (s.setFlag F.RING_ID_GCLTRUNC true).raise 104
  else s

/-! ### Policing (R510, R511) -/

/-- The opened tenant with a number. -/
def State.openTenant (s : State) (t : Nat) : Option Tenant :=
  (s.tenants.find? fun p => p.1 == t && p.2.phase != .opening).map (·.2)

/-- Source 98 or 99 is raised once per frame period; without a schedule the periods are 10 ms of ring time (R511). -/
def newPeriod (s : State) : State :=
  let k := s.tsu.now / 10000000
  if s.hoists || k = s.ring.period then s
  else { s with ring := { s.ring with period := k, polDrop := false, authDrop := false } }

def policeDrop (t : Nat) (s : State) : State :=
  let s1 := newPeriod (s.bump (F.RING_POL_DROPS t) 1)
  if s1.ring.polDrop then s1 else ({ s1 with ring := { s1.ring with polDrop := true } }).raise 98

/-- A VIDEO frame failed authentication or found no replay record (R536). -/
def authDrop (s : State) : State :=
  let s1 := newPeriod s
  if s1.ring.authDrop then s1 else ({ s1 with ring := { s1.ring with authDrop := true } }).raise 99

/-- A bucket filled to a time: RATE kbit/s is RATE millionths of a bit per ns. -/
def bucketAt (rate cap : Nat) (b : Nat × Nat) (now : Nat) : Nat × Nat :=
  (min cap (b.1 + rate * (now - b.2)), max now b.2)

/-- The flow meter of a tenant: does a frame with `plen` payload bytes pass (R510, R511)? -/
def police (t plen : Nat) (s : State) : State × Bool :=
  match s.openTenant t with
  | none => (policeDrop t s, false)
  | some ten =>
    let cap := 8 * ten.burst * 1000000
    let b := bucketAt ten.rate cap (SMap.get (fun _ => (cap, 0)) s.ring.pols t) s.tsu.now
    let cost := 8 * (plen + 84) * 1000000
    let put := fun (x : Nat × Nat) => { s with ring := { s.ring with pols := SMap.put (fun _ => (cap, 0)) s.ring.pols t x } }
    if cost ≤ b.1 then (put (b.1 - cost, b.2), true) else (policeDrop t (put b), false)

/-- Forget the bucket of a tenant: it is full at open (R510). -/
def forgetBucket (t : Nat) (s : State) : State :=
  { s with ring := { s.ring with pols := s.ring.pols.filter fun p => p.1 != t } }

/-! ### The management envelope (R242, R243, R250, R463) -/

/-- A packet or reply header in network order; the same function turns it back (R17, R231, R232). -/
def hdrNet (h : List Byte) : List Byte :=
  let b := fun i => h.getD i 0
  [b 1, b 0, b 2, b 3, b 5, b 4, b 7, b 6, b 9, b 8, b 11, b 10, b 15, b 14, b 13, b 12]

/-- Draw the next COUNTER of an entry (R250). -/
def State.drawCounter (s : State) (slot keyid : Nat) : State × Nat :=
  let k := s.keySlot slot
  let up := fun (o : Option KeyEntry) => o.map fun e => if e.keyid = keyid then { e with sent := e.sent + 1 } else e
  let k' := { k with a := up k.a, b := up k.b }
  (s.setKeySlot slot k', ((k'.byId keyid).map (·.sent)).getD 0)

/-- The nonce of a frame: SENDER, KEYID, COUNTER (R243, R494). -/
def frameNonce (sender keyid ctr : Nat) : List Byte := beBytes 2 sender ++ beBytes 2 keyid ++ beBytes 8 ctr

/-- The payload of a management or budget frame: envelope bytes 0 to 15, the first 16 bytes of the body, the rest of the body
(encrypted if asked), the ICV. -/
def sealMgmt (kind mslot : Nat) (e : KeyEntry) (sender xid ctr : Nat) (body : List Byte) (enc : Bool) : List Byte :=
  let head := [BitVec.ofNat 8 kind, BitVec.ofNat 8 mslot] ++ beBytes 2 e.keyid ++ beBytes 2 sender ++ beBytes 2 xid
    ++ beBytes 8 ctr ++ body.take 16
  let rest := body.drop 16
  if enc then
    let (c, tag) := gcmSeal e.key (frameNonce sender e.keyid ctr) head rest
    head ++ c ++ tag
  else
    let (_, tag) := gcmSeal e.key (frameNonce sender e.keyid ctr) (head ++ rest) []
    head ++ rest ++ tag

/-- Send a frame of EtherType 0x88B6 under a given entry. -/
def State.sendSealed (s : State) (cls da kind mslot : Nat) (e : KeyEntry) (xid : Nat) (body : List Byte) (enc : Bool) : State :=
  match s.cabId with
  | none => s
  | some c =>
    let (s1, ctr) := s.drawCounter (1024 + mslot) e.keyid
    s1.originate cls da 0x88B6 (sealMgmt kind mslot e c xid ctr body enc)

/-- The address of a management frame's target. -/
def mgmtDa (target : Nat) : Nat := if target = 0xFFFF then daEvery else unicast target

/-- The management frames that wait, and the refresh requests, become frames of the egress queues, under the entries that were in force
when they were queued; one whose entry has been erased or replaced since is not sent (R242, R244, R255, R330, R531).
[DEDUCED, unsafe, log 45] -/
def flushMgmt (s : State) : State :=
  if !s.anyPortUp || s.cabId.isNone then s else
  let entry := fun (t : State) (mslot : Nat) (keyid : Option Nat) => keyid.bind (t.keySlot (1024 + mslot)).byId
  let s1 := s.cmds.tx.foldl (fun t m =>
    match entry t m.mslot m.keyid with
    | none => t
    | some e => t.sendSealed 4 (mgmtDa m.target) m.kind m.mslot e m.xid (hdrNet m.hdr ++ m.params) m.enc)
    { s with cmds := { s.cmds with tx := [] } }
  s1.dec.refresh.foldl (fun t r =>
    match entry t r.mslot r.keyid with
    | none => t
    | some e =>
      let body := beBytes 2 r.tenant ++ beBytes 2 (t.cabId.getD 0) ++ beBytes 4 r.fnum ++ beBytes 1 r.causes ++ beBytes 1 0 ++ beBytes 2 r.count
        ++ beBytes 2 r.x0 ++ beBytes 2 r.y0 ++ beBytes 2 r.x1 ++ beBytes 2 r.y1 ++ List.replicate 4 0
      t.sendSealed 4 daFeeders 0x12 r.mslot e 0 body false)
    { s1 with dec := { s1.dec with refresh := [] } }

/-- The plaintext behind the first 32 bytes of a sealed frame, if its ICV verifies (R243). -/
def mgmtText (enc : Bool) (e : KeyEntry) (p : List Byte) : Option (List Byte) :=
  let n := p.length - 16
  let head := p.take 32
  let mid := (p.take n).drop 32
  let nonce := frameNonce (beAt p 4 2) (beAt p 2 2) (beAt p 8 8)
  if enc then gcmOpen e.key nonce head mid (p.drop n) else (gcmOpen e.key nonce (head ++ mid) [] (p.drop n)).map fun _ => mid

/-- Orders 1 to 3 of R247 on a management, schedule, refresh or budget frame: the slot and USE asked for, the ICV, the replay
window. The frame's plaintext body follows, bytes 16 on. -/
def checkMgmt (slotOk : Nat → Bool) (need : List Nat) (enc : Bool) (p : List Byte) (s : State) : State × Option (List Byte) :=
  let mslot := byteAt p 1
  let keyid := beAt p 2 2
  let sender := beAt p 4 2
  let ctr := beAt p 8 8
  let bad := fun (t : State) => ((t.bump F.CMD_MGSTAT_AUTH 1).raise 157, (none : Option (List Byte)))
  match (s.keySlot (1024 + mslot)).byId keyid with
  | none => bad s
  | some e =>
    if 16 ≤ mslot || !slotOk mslot || !need.all (bitOf e.use) || p.length < 48 then bad s
    else
      match mgmtText enc e p with
      | none => bad s
      | some txt =>
        let same := fun (r : Replay) => r.slot == mslot && r.keyid == keyid && r.sender == sender
        let r : Replay := (s.replays.find? same).getD ⟨mslot, keyid, sender, 0, []⟩
        let pass := decide (r.hi < ctr) || (decide (r.hi < ctr + 64) && ctr != 0 && ctr != r.hi && !r.seen.contains ctr)
        if !pass then ((s.bump F.CMD_MGSTAT_REPLAY 1).raise 157, none)
        else
          let hi := max r.hi ctr
          let seen := (ctr :: r.hi :: r.seen).filter fun c => c != hi && decide (hi < c + 64) && c != 0
          let s1 := { s with replays := (s.replays.filter fun x => !same x) ++ [(⟨mslot, keyid, sender, hi, seen⟩ : Replay)] }
          let heard := (s1.cmds.heard.filter fun h => h.1 != sender) ++ [(sender, s1.tsu.now)]
          ({ s1 with cmds := { s1.cmds with heard := heard } }, some ((p.take 32).drop 16 ++ txt))

/-! ### Egress (R504) -/

/-- The place of a frame in the order of R504. -/
def RFrame.order (f : RFrame) : Nat := 2 * f.cls + b2n (!f.transit)

/-- The first frame that the order gives among those whose gate allows them; a local frame starts only while the transit queue of
its class is empty.
[DEDUCED, unsafe, log 45] -/
def State.nextFrame (s : State) (n : Nat) : Option RFrame :=
  let q := (s.rport n).queue
  let ok := q.filter fun f => s.gateAllows n f.cls && (f.transit || !(q.any fun g => g.cls == f.cls && g.transit))
  ok.foldl (fun acc f => match acc with
    | none => some f
    | some g => if f.order < g.order then some f else some g) none

/-- A port with its receive side down starts a wake frame that waits (R488, R530).
[DEDUCED, unsafe, log 45] -/
def wakeStart (n now : Nat) (s : State) : State :=
  match (s.rport n).queue.find? RFrame.wake with
  | none => s
  | some f =>
    let s0 := s.atTime now
    if s.portEnabled n && s0.gateAllows n f.cls then
      s0.setRport n { s0.rport n with queue := (s0.rport n).queue.erase f, tx := some f }
    else s0

/-- An egress starts its next frame; frames that have expired leave the queue first (R502, R504, R508).
[DEDUCED, unsafe, log 45] -/
def egressStart (n now : Nat) (s : State) : State :=
  if 2 ≤ n || !s.cclkOn then s
  else if !s.portUp n then wakeStart n now s
  else
  let s0 := flushMgmt (s.atTime now)
  let p := s0.rport n
  let dead := (p.queue.filter s0.expiredQ).length
  let s1 := (s0.setRport n { p with queue := p.queue.filter fun f => !s0.expiredQ f }).bump (F.RING_PORT_CNT0_EXPIRED n) dead
  match s1.nextFrame n with
  | none => s1
  | some f => s1.setRport n { s1.rport n with queue := (s1.rport n).queue.erase f, tx := some f }

/-! ### Supervision and records (R493, R495, R498) -/

/-- Every 2,000 ms the engine sends supervision frames on both ports (R498); their layout is that of IEC 62439-3 (PRESUMED).
[PRESUMED, unsafe, log 44] -/
def supervisionSend (s : State) : State :=
  match s.cabId with
  | none => s
  | some c =>
    if !s.cclkOn then s
    else
      let seq := (s.ring.seqNo + 1) % 65536
      s.originate 4 daSupervision 0x88FB (beBytes 2 1 ++ beBytes 2 seq ++ [23, 6] ++ beBytes 6 (unicast c) ++ [0, 0])

/-- A node that is heard enters the node table (R498, R536).
[PRESUMED, unsafe, log 44]
[DEDUCED, unsafe, log 45] -/
def nodeHeard (cab : Nat) (s : State) : State :=
  if s.ring.nodes.contains cab || 1024 ≤ s.ring.nodes.length then s
  else ({ s with ring := { s.ring with nodes := s.ring.nodes ++ [cab] } }).raise 103

def nodeForget (cab : Nat) (s : State) : State :=
  if s.ring.nodes.contains cab then
    ({ s with ring := { s.ring with nodes := s.ring.nodes.filter (· != cab) } }).raise 103
  else s

def replayRecordExpiry (sender tenant keyid : Nat) (s : State) : State :=
  { s with ring := { s.ring with
    vreps := s.ring.vreps.filter fun r => !(r.sender == sender && r.tenant == tenant && r.keyid == keyid) } }

def reassemblyForget (sender tenant : Nat) (s : State) : State :=
  { s with ring := { s.ring with reas := s.ring.reas.filter fun r => !(r.sender == sender && r.tenant == tenant) } }

/-! ### The meanings of the rows -/

/-- LINK_UP (R488): A port becomes up after 1 ms of block lock and starts preemption verification. -/
def execLinkUp (n now : Nat) (s : State) : Answer := .next (whileClocked s (linkUp n now s))
/-- LINK_DOWN (R488): A port goes down, clears its duplicate windows and starts the hold of queued frames. -/
def execLinkDown (n : Nat) (s : State) : Answer := .next (whileClocked s (linkDown n s))
/-- PORT_HOLD_EXPIRY (R503): At the end of a 250 µs hold the queued frames of a down port are dropped. -/
def execPortHoldExpiry (n : Nat) (s : State) : Answer := .next (whileClocked s (portHoldExpiry n s))
/-- PREEMPT_VERIFY_SEND (R487): Every verifyTime the port sends a verify mPacket until answered. -/
def execPreemptVerifySend (n : Nat) (s : State) : Answer := .next (whileClocked s (preemptVerifySend n s))
/-- PREEMPT_RESPOND (R487): A valid respond mPacket sets PREEMPT. -/
def execPreemptRespond (n : Nat) (s : State) : Answer := .next (whileClocked s (preemptRespond n s))
/-- PREEMPT_VERIFY_TIMEOUT (R487): No respond within 128 ms leaves preemption off and raises source 96 + n. -/
def execPreemptVerifyTimeout (n : Nat) (s : State) : Answer := .next (whileClocked s (preemptVerifyTimeout n s))
/-- SUPERVISION_SEND (R498): Every 2,000 ms the engine sends HSR supervision frames on both ports. -/
def execSupervisionSend (s : State) : Answer := .next (whileClocked s (supervisionSend s))
/-- NODE_FORGET (R498): A node not heard for NodeForgetTime leaves the node table. -/
def execNodeForget (cab : Nat) (s : State) : Answer := .next (whileClocked s (nodeForget cab s))
/-- DUP_WINDOW_CLEAR (R500): A duplicate window untouched for 400 ms is cleared. -/
def execDupWindowClear (who src : Nat) (s : State) : Answer := .next (whileClocked s (dupWindowClear who src s))
/-- REPLAY_RECORD_EXPIRY (R495): A VIDEO replay record idle for 1 s returns to the pool. -/
def execReplayRecordExpiry (sender tenant keyid : Nat) (s : State) : Answer := .next (whileClocked s (replayRecordExpiry sender tenant keyid s))
/-- REASSEMBLY_FORGET (R493): A sender-tenant pair idle for 1 s forgets its KEYID and COUNTER. -/
def execReassemblyForget (sender tenant : Nat) (s : State) : Answer := .next (whileClocked s (reassemblyForget sender tenant s))
/-- GATE_ENTRY_CHANGE (R507): The gate control list moves to its next entry. -/
def execGateEntryChange (n : Nat) (s : State) : Answer := .next (whileClocked s (gateEntryChange n s))
/-- GCL_TAKE_EFFECT (R509): A loaded gate list takes effect at the next cycle start and source 104 is raised. -/
def execGclTakeEffect (s : State) : Answer := .next (whileClocked s (gclTakeEffect s))

end Sys2Proof.Machine
end

