-- ==== Sys2Proof/Machine/Tsu.lean ====
section
/-!
DEFINITION. Wall time (R513 to R531, R598): Sync, domains, the hoist schedule and its changes, LATENCY, the grandmaster's
duties, takeover and handback.
-/

namespace Sys2Proof.Machine

/-! ### Schedules -/

/-- The schedule in force. -/
def State.sched (s : State) : Sched :=
  ⟨s.fld F.TSU_SCHED1_SSEQ, s.fld F.TSU_SCHED0_EPOCH, s.fld F.TSU_SCHED1_PERIOD, s.fld F.TSU_SCHED2_LATENCY, s.tsu.n0, s.tsu.suml⟩

/-- The schedule taken in last: the one that governs next, or the one in force. -/
def State.lastSched (s : State) : Sched := (s.tsu.next.getLast?).getD s.sched

/-- H(N) under a schedule. -/
def Sched.hoistAt (c : Sched) (n : Nat) : Nat := (c.epoch + n * c.period / 65536) % 2 ^ 64

/-- The first frame with H(N) at or after an instant. -/
def Sched.firstAt (c : Sched) (t : Nat) : Nat :=
  if t ≤ c.epoch || c.period = 0 then 0 else ((t - c.epoch) * 65536 + c.period - 1) / c.period

/-- The frame whose hoist is the last at or before an instant. -/
def Sched.frameAt (c : Sched) (t : Nat) : Nat :=
  if t ≤ c.epoch || c.period = 0 then 0 else (c.firstAt (t + 1)) - 1

/-- A schedule comes into force: the registers show it (R535); the entries of a gate list are cut if they reach its period.
[DEDUCED, unsafe, log 47] -/
def putSched (c : Sched) (s : State) : State :=
  let s1 := ((((s.setFld F.TSU_SCHED0_EPOCH c.epoch).setFld F.TSU_SCHED1_PERIOD c.period).setFld F.TSU_SCHED1_SSEQ c.sseq).setFld
    F.TSU_SCHED2_LATENCY c.latency).setFld F.TSU_SCHED2_N0 (c.n0 % 2 ^ 32)
  gclCut { s1 with tsu := { s1.tsu with n0 := c.n0, suml := c.suml } }

/-- The first schedule of an engine that has none in force: the LATENCY in use is its LATENCY; source 102 is raised at once if it
governs already, else at H(N0) (R518, R598).
[DEDUCED, unsafe, log 47] -/
def firstSched (c : Sched) (s : State) : State :=
  let s1 := putSched c s
  let cur := c.frameAt s1.tsu.now
  let governs := decide (c.hoistAt c.n0 ≤ s1.tsu.now)
  let s2 := { s1 with frame := cur, tsu := { s1.tsu with ran := false, lat := c.latency, fresh := !governs, next := [] } }
  if governs then s2.raise 102 else s2

/-- A schedule starts to govern at H(N0) (R518).
[DEDUCED, unsafe, log 47] -/
def governNext (s : State) : State :=
  match s.tsu.next with
  | [] => s
  | c :: rest => (putSched c { s with tsu := { s.tsu with next := rest, fresh := false } }).raise 102

/-- SCHEDULE_GOVERN: the next hoist's frame is one that the new schedule governs.
[DEDUCED, unsafe, log 47] -/
def scheduleGovern (s : State) : State :=
  match s.tsu.next with
  | [] => if s.tsu.fresh && decide (s.tsu.n0 ≤ s.frame + 1) then ({ s with tsu := { s.tsu with fresh := false } }).raise 102 else s
  | c :: _ => if c.n0 ≤ s.frame + 1 then governNext s else s

/-- Take in a schedule (R517, R518, R598): the first one is in force once time is held; a new SSEQ governs from its N0.
[DEDUCED, unsafe, log 47] -/
def takeSched (sseq epoch period latency n0 suml : Nat) (s : State) : State :=
  if !s.hoists then
    let base : Sched := ⟨sseq, epoch, period, latency, 0, suml⟩
    let n := resolveFrame (base.frameAt s.tsu.now) n0
    let c := { base with n0 := n.toNat }
    if period = 0 then s
    else if s.tsu.held then firstSched c s else { s with tsu := { s.tsu with waiting := some c } }
  else if s.lastSched.sseq = sseq then s
  else
    let n := resolveFrame s.frame n0
    let c : Sched := ⟨sseq, epoch, period, latency, n.toNat, suml⟩
    let s1 := { s with tsu := { s.tsu with next := s.tsu.next ++ [c] } }
    if c.n0 ≤ s.frame then s1.tsu.next.foldl (fun t _ => governNext t) s1 else s1

/-- The time is held from now on; a schedule that waited for it comes into force (R598). -/
def holdTime (s : State) : State :=
  let s1 := { s with tsu := { s.tsu with held := true } }
  match s1.tsu.waiting with
  | none => s1
  | some c =>
    let n := resolveFrame (c.frameAt s1.tsu.now) (c.n0 % 2 ^ 32)
    firstSched { c with n0 := n.toNat } { s1 with tsu := { s1.tsu with waiting := none } }

/-- A change of the schedule by the ensign (R518, R519): with none in force EPOCH is 250 ms after the change and N0 is 0; else N0 is
the first frame with H(N0) at least 250 ms after the change and H(N0) does not move. Answers N0. -/
def changeSched (period latency suml : Nat) (s : State) : State × Nat :=
  if !s.hoists then
    (firstSched ⟨0, s.tsu.now + 250000000, period, latency, 0, suml⟩ { s with tsu := { s.tsu with held := true } }, 0)
  else
    let old := s.lastSched
    let n0 := old.firstAt (s.tsu.now + 250000000)
    let epoch := (old.hoistAt n0 + 2 ^ 64 - n0 * period / 65536 % 2 ^ 64) % 2 ^ 64
    let c : Sched := ⟨(old.sseq + 1) % 65536, epoch, period, latency, n0, suml⟩
    ({ s with tsu := { s.tsu with next := s.tsu.next ++ [c] } }, n0)

/-- The TSU's part of a hoist: a schedule whose N0 has come governs, the LATENCY in use moves toward its target (R518, R519).
[DESIGN CHOICE, safe, log 6] -/
def tsuHoist (n : Nat) (s : State) : State :=
  let s1 := (s.tsu.next.filter fun c => decide (c.n0 ≤ n)).foldl (fun t _ => governNext t) s
  let s2 := if s1.tsu.fresh && decide (s1.tsu.n0 ≤ n) then ({ s1 with tsu := { s1.tsu with fresh := false } }).raise 102 else s1
  let goal := s2.fld F.TSU_SCHED2_LATENCY
  let d := s2.fld F.TSU_SCHED1_PERIOD / 65536 / 1000
  let lat := if s2.tsu.lat < goal then min goal (s2.tsu.lat + d) else max goal (s2.tsu.lat - d)
  ({ s2 with frame := n, tsu := { s2.tsu with ran := true, lat := lat, now := max s2.tsu.now (s2.hoistTime n) } }).setFld
    F.TSU_FRAME_N (n % 2 ^ 32)

/-! ### Bounds of the ring (R506, R519, R526) -/

/-- T_ring in ns for a number of engines and a sum of delays: VHOP is 1.5 µs for every hop if either of the engine's own ports has FEC,
which stands for the ring's links.
[DEDUCED, unsafe, log 47] -/
def State.tRing (s : State) (engines suml : Nat) : Nat :=
  let vhop := if s.flag (F.RING_PORT_CFG_FEC 0) || s.flag (F.RING_PORT_CFG_FEC 1) then 1500 else 1200
  max (engines - 1) 24 * vhop + suml

/-! ### The grandmaster -/

/-- The grandmaster's ID changes (R536).
[DEDUCED, unsafe, log 48] -/
def setGm (id : Nat) (s : State) : State :=
  if s.fld F.TSU_STAT_GMID = id then s else (s.setFld F.TSU_STAT_GMID id).raise 101

def State.isGm (s : State) : Bool := s.flag F.TSU_STAT_GM

/-- May the grandmaster send time: its duties are active and REFCLK is there (R91, R522, R527)? -/
def State.gmSends (s : State) : Bool := s.isGm && s.cclkOn && ensignModes s.mode && !s.ao.refAbsent

/-- A Sync message of a domain (IEEE 1588 layout, PRESUMED): two-step, logSyncInterval -3.
[PRESUMED, unsafe, log 44] -/
def syncBytes (cab dom port seq : Nat) : List Byte :=
  let u := unicast cab
  beBytes 6 daAs ++ beBytes 6 u ++ beBytes 2 0x88F7 ++ [0x10, 0x02] ++ beBytes 2 44 ++ beBytes 1 dom ++ [0] ++ beBytes 2 0x0200
    ++ beBytes 8 0 ++ beBytes 4 0 ++ beBytes 3 (u / 2 ^ 24) ++ [0xFF, 0xFE] ++ beBytes 3 (u % 2 ^ 24) ++ beBytes 2 (port + 1)
    ++ beBytes 2 seq ++ [0, 0xFD] ++ List.replicate 10 0

/-- Is a port fit for time: its mean link delay, in units of 2⁻⁸ ns, is at most meanLinkDelayThresh, 10 µs (R514)? What follows from
a longer delay is IEEE 802.1AS's: the port neither sends nor uses Sync.
[PRESUMED, unsafe, log 44] -/
def State.timeCapable (s : State) (n : Nat) : Bool := decide (s.fld (F.RING_PORT_STAT_MLD n) ≤ 2560000)

/-- Send a Sync of a domain on a port. -/
def sendSync (dom port : Nat) (s : State) : State :=
  match s.cabId, s.timeCapable port with
  | none, _ => s
  | some _, false => s
  | some c, true => s.enqueue port ⟨1, false, syncBytes c dom port s.tsu.syncSeq, false⟩

/-- Every 125 ms the grandmaster sends Sync in both domains on both ports (R514, R515). -/
def syncSend (s : State) : State :=
  if !s.gmSends then s
  else
    let s1 := { s with tsu := { s.tsu with syncSeq := (s.tsu.syncSeq + 1) % 65536 } }
    [(0, 0), (0, 1), (1, 0), (1, 1)].foldl (fun t p => sendSync p.1 p.2 t) s1

/-- The body of a hoist schedule frame (R517). -/
def schedBody (gm : Nat) (c : Sched) (acting : Bool) : List Byte :=
  beBytes 2 gm ++ beBytes 2 c.sseq ++ beBytes 8 c.epoch ++ beBytes 6 c.period ++ beBytes 4 c.latency ++ beBytes 4 c.n0
    ++ beBytes 1 (b2n acting) ++ beBytes 4 c.suml ++ [0]

/-- Send a schedule frame with a given GM; without an entry with USE bit 13 none is sent (R497). -/
def sendSched (gm : Nat) (acting : Bool) (s : State) : State :=
  match s.txEntry (s.fld F.RING_ID_MSLOT) [13] with
  | none => s
  | some e =>
    if s.hoists then s.sendSealed 1 daEvery 0x20 (s.fld F.RING_ID_MSLOT) e 0 (schedBody gm s.lastSched acting) false else s

def scheduleFrameSend (s : State) : State :=
  if s.gmSends then sendSched (s.cabId.getD 0xFFFF) (s.flag F.TSU_STAT_ACTING) s else s

/-- The engine becomes grandmaster of both domains from its own time (R527, R528, R529).
[DEDUCED, unsafe, log 48] -/
def becomeGm (acting : Bool) (s : State) : State :=
  let s1 := ((s.setFlag F.TSU_STAT_GM true).setFlag F.TSU_STAT_ACTING acting).setFlag F.TSU_STAT_DVALID false
  let s2 := (s1.setFlag F.TSU_STAT_HOLDOVER false)
  setGm (s2.cabId.getD 0xFFFF) (holdTime { s2 with tsu := { s2.tsu with doms := [], good := 0 } })

/-- The engine follows time again. -/
def stopGm (s : State) : State := (s.setFlag F.TSU_STAT_GM false).setFlag F.TSU_STAT_ACTING false

/-- The standby ensign takes the ensign as lost and takes over (R527, R528).
[DEDUCED, unsafe, log 48] -/
def ensignLost (s : State) : State :=
  if !s.cclkOn || !s.role 2 || !ensignModes s.mode || s.isGm then s
  else scheduleFrameSend (syncSend (becomeGm true s))

/-- The handback of R529: one schedule frame with ACTING = 0 and GM = ENSIGN, then the standby ensign follows.
[DEDUCED, unsafe, log 48] -/
def handBack (s : State) : State := stopGm (sendSched (s.fld F.RING_ID_ENSIGN) false s)

/-- A schedule frame that has been authenticated (R517, R527 to R529).
[DEDUCED, unsafe, log 48] -/
def schedFrame (sender : Nat) (b : List Byte) (s : State) : State :=
  let gm := beAt b 0 2
  let ens := s.fld F.RING_ID_ENSIGN
  let stb := s.fld F.RING_ID_STANDBY
  let actingF := bitOf (byteAt b 26) 0
  if sender != ens && sender != stb || decide (2 ≤ byteAt b 26) || byteAt b 31 != 0 then s
  else if sender = ens && gm != ens then ensignLost s
  else
    let s1 := if sender = stb then { s with tsu := { s.tsu with acting := actingF } } else s
    let s2 := if sender = stb && actingF && s1.role 1 && s1.isGm then stopGm s1 else s1
    let s3 := if sender = stb && !actingF && gm = ens && s2.role 1 && !s2.isGm then
        scheduleFrameSend (syncSend (becomeGm false s2)) else s2
    if s3.isGm then s3
    else takeSched (beAt b 2 2) (beAt b 4 8) (beAt b 12 6) (beAt b 18 4) (beAt b 22 4) (beAt b 27 4) s3

/-! ### Followers (R515, R516) -/

def State.setSync (s : State) (b : Bool) : State :=
  if s.flag F.TSU_STAT_SYNC = b then s else (s.setFlag F.TSU_STAT_SYNC b).raise 100

/-- Take a domain in use; source 100 is raised.
[DEDUCED, unsafe, log 48] -/
def useDomain (d : Nat) (s : State) : State :=
  (((s.setFlag F.TSU_STAT_DVALID true).setFld F.TSU_STAT_DOM d).raise 100)

/-- The domain that a follower without one takes: the fewer stepsRemoved, domain 0 on a tie, or the only one heard.
[DEDUCED, unsafe, log 48] -/
def pickDomain (l : List (Nat × Nat)) : Option Nat :=
  match l.find? (fun p => p.1 == 0), l.find? (fun p => p.1 == 1) with
  | some a, some b => some (if b.2 < a.2 then 1 else 0)
  | some _, none => some 0
  | none, some _ => some 1
  | none, none => none

/-- The servo's part of a Sync of the domain in use (R516): the first Sync gives the time; an engine outside the Show modes that
is more than 1 ms behind steps forward; every other offset is slewed.
[DEDUCED, safe, log 49] -/
def steer (offset : Int) (s : State) : State :=
  let behind := decide (offset < -1000000) && !showMode s.heldOrMode
  let off : Int := if s.tsu.held then offset else 0
  let s1 := if s.tsu.held then
      if behind then { s with tsu := { s.tsu with now := ((s.tsu.now : Int) - offset).toNat } } else s
    else holdTime { s with tsu := { s.tsu with now := ((s.tsu.now : Int) - offset).toNat } }
  let good := if decide (-100 < off) && decide (off < 100) then s1.tsu.good + 1 else 0
  let s2 := ({ s1 with tsu := { s1.tsu with good := good } }).setFld F.TSU_STAT_OFFSET
    (ofSigned (satI off (-2147483648) 2147483647) 32)
  let s3 := s2.setFlag F.TSU_STAT_HOLDOVER false
  if 8 ≤ good then s3.setSync true else s3

/-- A Sync arrives on a port (R515, R516, R528): in domain 0 on HL1, in domain 1 on HL0; it passes on to the master port.
[DEDUCED, unsafe, log 48]
[DEDUCED, safe, log 49] -/
def syncReceive (port dom gm steps : Nat) (offset : Int) (s : State) : State :=
  let ok := gm == (if s.tsu.acting then s.fld F.RING_ID_STANDBY else s.fld F.RING_ID_ENSIGN)
  if 2 ≤ dom || port + dom != 1 || s.isGm || !ok || s.ao.refAbsent || gm == 0xFFFF || !s.timeCapable port then s
  else
    let doms := (s.tsu.doms.filter fun p => p.1 != dom) ++ [(dom, steps)]
    let s1 := sendSync dom (1 - port) (setGm gm { s with tsu := { s.tsu with doms := doms } })
    let s2 := if !s1.flag F.TSU_STAT_DVALID && decide (2 ≤ doms.length) then
        match pickDomain doms with
        | some d => useDomain d s1
        | none => s1
      else s1
    if s2.flag F.TSU_STAT_DVALID && s2.fld F.TSU_STAT_DOM == dom then steer offset s2 else s2

/-- One Sync interval has passed since the first Sync heard; or the domain in use has missed three Sync intervals while the other
is live (R515). -/
def domainChoice (missed : Bool) (s : State) : State :=
  if s.isGm then s
  else if missed then
    if !s.flag F.TSU_STAT_DVALID then s
    else
      let d := s.fld F.TSU_STAT_DOM
      let live := s.tsu.doms.filter fun p => p.1 != d
      match pickDomain live with
      | some e => useDomain e { s with tsu := { s.tsu with doms := live } }
      | none => s
  else if s.flag F.TSU_STAT_DVALID then s
  else
    match pickDomain s.tsu.doms with
    | some d => useDomain d s
    | none => s

/-- No Sync has arrived for three intervals: SYNC clears and the TSU holds its last rate (R516).
[DEDUCED, unsafe, log 48] -/
def syncTimeout (s : State) : State :=
  if s.isGm || s.tsu.doms.isEmpty && !s.flag F.TSU_STAT_SYNC then s
  else
    let s1 := { s with tsu := { s.tsu with doms := [], good := 0 } }
    ((s1.setFlag F.TSU_STAT_DVALID false).setFlag F.TSU_STAT_HOLDOVER true).setSync false

/-- REFCLK is absent: SYNC clears (R522). -/
def tsuRefLost (s : State) : State := ({ s with tsu := { s.tsu with good := 0 } }).setSync false

/-- A Pdelay exchange learns the partner and the mean link delay (R513, R514). -/
def pdelayExchange (n partner mld : Nat) (s : State) : State :=
  if 2 ≤ n || !s.portUp n then s
  else (s.setFld (F.RING_PORT_STAT_PARTNER n) partner).setFld (F.RING_PORT_STAT_MLD n) mld

/-- The ensign raises LATENCY to T_ring + 2 × PERIOD where that exceeds the LATENCY in force (R31, R519). -/
def latencyRaise (now : Nat) (s : State) : State :=
  if !s.cclkOn || !s.role 1 || !s.hoists then s
  else
    let s0 := s.atTime now
    let c := s0.lastSched
    let need := s0.tRing (max (s0.fld F.RING_AREA_NENG) s0.ring.nodes.length) c.suml + (2 * c.period + 65535) / 65536
    if need ≤ c.latency then s0
    else scheduleFrameSend ((changeSched c.period need c.suml s0).1.raise 106)

/-- SYNC_SEND (R514): The grandmaster sends Sync and Follow_Up every 125 ms. -/
def execSyncSend (s : State) : Answer := .next (whileClocked s (syncSend s))
/-- PDELAY_EXCHANGE (R513): A Pdelay exchange measures link delay and learns the partner's ID. -/
def execPdelayExchange (n partner mld : Nat) (s : State) : Answer := .next (whileClocked s (pdelayExchange n partner mld s))
/-- SYNC_TIMEOUT (R516): No Sync for three intervals clears SYNC and enters holdover. -/
def execSyncTimeout (s : State) : Answer := .next (whileClocked s (syncTimeout s))
/-- DOMAIN_CHOICE (R515): A follower without a domain chooses one after one Sync interval, or switches on loss. -/
def execDomainChoice (missed : Bool) (s : State) : Answer := .next (whileClocked s (domainChoice missed s))
/-- SCHEDULE_FRAME_SEND (R517): The grandmaster sends a hoist schedule frame every 125 ms and after each change. -/
def execScheduleFrameSend (s : State) : Answer := .next (whileClocked s (scheduleFrameSend s))
/-- SCHEDULE_GOVERN (R518): A new schedule starts to govern at N0 and source 102 is raised. -/
def execScheduleGovern (s : State) : Answer := .next (whileClocked s (scheduleGovern s))
/-- LATENCY_RAISE (R519): The ensign raises LATENCY when T_ring + 2 × PERIOD exceeds it. -/
def execLatencyRaise (now : Nat) (s : State) : Answer := .next (whileClocked s (latencyRaise now s))
/-- ENSIGN_LOST (R527): 312.5 ms without Sync or schedule from the ensign makes the standby take it as lost. -/
def execEnsignLost (s : State) : Answer := .next (whileClocked s (ensignLost s))

end Sys2Proof.Machine
end

