-- ==== Sys2Proof/Machine/Budget.lean ====
section
/-!
DEFINITION. The current budget and the frame ledger (R459 to R485): demand, reports and leases, the solver, the grant, the cut and
the scales, SENSE, BUDGET_CFG and CEIL_SET.
-/

namespace Sys2Proof.Machine

/-! ### Instants and sources -/

/-- A TSU event is latched in every sequencer of the build, conditions 48 to 52 (R146, R520). -/
def seqEvent (c : Nat) (s : State) : State :=
  (List.range 19).foldl (fun t q =>
    if !seqPresent t.build q then t
    else
      let x := t.seq q
      let t1 := if bitOf x.latch (c - 48) then (t.setFlag (F.SQ_STAT_EVOVR q) true).raise (51 + q) else t
      t1.setSeq q { x with latch := setBit x.latch (c - 48) }) s

/-- A source of R485 is raised at most once per frame. -/
def baRaise (src : Nat) (s : State) : State :=
  if s.ba.raised.contains src then s else ({ s with ba := { s.ba with raised := s.ba.raised ++ [src] } }).raise src

/-- The frame whose D(N) is open. -/
def State.next (s : State) : Nat := s.frame + 1

/-- Is the engine a solver whose duties are active (R91, R467)? -/
def State.solves (s : State) : Bool := (s.role 1 || s.role 2) && ensignModes s.mode

/-- Is the member role active: a Show mode (R91, R461)? -/
def State.memberShows (s : State) : Bool := s.role 0 && showMode s.mode

/-! ### Demand (R460, R461) -/

def State.fmax (s : State) : Nat := s.fld F.BA_CFG_FMAX10

/-- ceil(a / b). -/
def cdiv (a b : Nat) : Nat := (a + b - 1) / b

/-- The static current in D16; a free value while FEEDMAX is not configured. -/
def State.sc (s : State) : Nat :=
  if s.fmax = 0 then (Config.noFeedMax (s.fld F.BA_CFG_STATIC)).toNat else cdiv (s.fld F.BA_CFG_STATIC * 65536) (s.fmax * 10000)

/-- A current in µA / d as a D16 value: rounded down, at most 0xFFFF; a free value while FEEDMAX is not configured (R459).
[DEDUCED, unsafe, log 56] -/
def State.d16 (s : State) (ua d : Nat) : Nat :=
  if s.fmax = 0 then (Config.noFeedMax ua).toNat else min 0xFFFF (ua * 65536 / (d * s.fmax * 10000))

/-- The least ceiling that takes part (R470, R473). -/
def State.ceilIn (s : State) : Nat := max (s.fld F.BA_LIM_CEIL) (s.sc + 0x40)

/-- Colour weights of a module: IFS × (CG + 1). -/
def State.colourWeights (s : State) (m : Nat) : Nat × Nat × Nat :=
  (s.fld (F.BA_MOD_IFS_R m) * (s.fld (F.LP_MOD_CM2_CG_R m) + 1), s.fld (F.BA_MOD_IFS_G m) * (s.fld (F.LP_MOD_CM2_CG_G m) + 1),
    s.fld (F.BA_MOD_IFS_B m) * (s.fld (F.LP_MOD_CM2_CG_B m) + 1))

/-- mled of a module at full scale. -/
def State.fullMled (s : State) (m : Nat) : Nat :=
  let (r, g, b) := s.colourWeights m
  (s.geom m).w * (s.geom m).h * 65535 * (r + g + b)

/-- mled of a module from its latched sums. -/
def State.sumMled (s : State) (m : Nat) : Nat :=
  let (r, g, b) := s.colourWeights m
  s.fld (F.LP_MOD_CSUM0_RSUM m) * r + s.fld (F.LP_MOD_CSUM0_GSUM m) * g + s.fld (F.LP_MOD_CSUM1_BSUM m) * b

/-- Are the sums of frame N latched? -/
def State.sumsLatched (s : State) (m : Nat) : Bool :=
  SMap.get (fun _ => 0) s.lp.packed m == (s.geom m).bands && s.fld (F.LP_MOD_CSUM1_FRAME m) == s.next % 65536

def figure (l : List (Nat × Nat)) (m : Nat) : Nat := ((l.find? fun p => p.1 == m).map (·.2)).getD 0

/-- Does module m show its previous frame because its half's LSQ was retired in this frame and the load of its lane is not complete
(R174)? -/
def State.keepsPrev (s : State) (m : Nat) : Bool :=
  s.seqState (17 + m / 32) == SeqState.retired && (s.lp.retired.any fun p => p.1 == m / 32 && p.2 == s.next)
    && !(s.carrier m).any s.loadDone

/-- The figure of a module for frame N: its sums, full scale where they are not latched, or the frame before for the lanes of a
retired LSQ that are not latched or not loaded (R174, R461). -/
def State.mledNow (s : State) (m : Nat) : Nat :=
  if s.keepsPrev m then figure s.ba.mledOld m
  else if s.sumsLatched m then s.sumMled m
  else if s.seqState (17 + m / 32) = 4 then figure s.ba.mledOld m
  else s.fullMled m

/-- dem of a list of figures. -/
def State.demOf (s : State) (l : List (Nat × Nat)) : Nat :=
  let den := s.fmax * 10000 * 1024
  min 65535 (cdiv ((l.map (·.2)).sum * s.fld F.BA_TRIM_TRIM) (den * 32768) + s.sc)

/-- req of R460. -/
def State.reqOf (s : State) (dem : Nat) : Nat := min dem (min s.ceilIn (s.fld F.BA_LIM_HARD))

/-! ### Tables of the solver (R466 to R469) -/

/-- The table CRC. -/
def State.tableCrc (s : State) : Nat :=
  (crc32 ((List.range 1024).flatMap (fun c => leBytes 2 (s.fld (F.BA_CAB_W c)) ++ leBytes 2 (s.fld (F.BA_CAB_SAFE c))
      ++ leBytes 1 (s.fld (F.BA_CAB_GROUP c)) ++ leBytes 1 (s.fld (F.BA_CAB_EN c)))
    ++ (List.range 64).flatMap fun g => leBytes 4 (s.fld (F.BA_GRP_CAP10 g)))).toNat

/-- The cabinets of the ledger. -/
def State.ledger (s : State) : List Nat := (List.range 1024).filter fun c => s.flag (F.BA_CAB_EN c)

/-- Do the safe leases of every group fit its capacity (R469)? -/
def State.groupsFit (s : State) : Bool :=
  let l := s.ledger
  (List.range 64).all fun g =>
    decide (((l.filter fun c => s.fld (F.BA_CAB_GROUP c) == g).map fun c => s.fld (F.BA_CAB_W c) * s.fld (F.BA_CAB_SAFE c)).sum
      ≤ s.fld (F.BA_GRP_CAP10 g) * 65536)

/-- The last blocks of the other solver: the commissioned ensign or standby ensign that is not this engine, heard as a solver or before. -/
def State.otherLeases (s : State) : Option (Nat × List (Nat × Nat)) :=
  (s.ba.other.find? fun p => s.cabId != some p.1 && (p.1 == s.fld F.RING_ID_ENSIGN || p.1 == s.fld F.RING_ID_STANDBY)).map (·.2)

/-- REC[c] at the moments of R468: the other solver's last lease for c, if heard, else 0xFFFF.
[DEDUCED, unsafe, log 56] -/
def recTake (c : Nat) (s : State) : State :=
  let v := match s.otherLeases with
    | some (f, l) => if f = s.frame ∨ f = s.next then figure l c else 0
    | none => 0
  s.setFld (F.BA_CAB_REC c) (if v = 0 then 0xFFFF else v)

def recTakeAll (s : State) : State := (List.range 1024).foldl (fun t c => recTake c t) s

/-- Budget state has been reset on a solver: REC comes from the blocks that were heard before (R468, R596).
[DEDUCED, unsafe, log 56] -/
def recRestart (heard : List (Nat × Nat × List (Nat × Nat))) (s : State) : State :=
  if s.role 1 || s.role 2 then
    let t := recTakeAll { s with ba := { s.ba with other := heard } }
    { t with ba := { t.ba with other := s.ba.other } }
  else s

/-! ### Reports (R463, R466) -/

/-- The entry that budget frames go under: USE bits 3 and 13. -/
def State.baEntry (s : State) : Option KeyEntry := s.txEntry (s.fld F.BA_CFG_KSLOT) [3, 13]

/-- A solver takes a report before the cut: the echo check, the first valid report of a cabinet.
[DEDUCED, unsafe, log 56] -/
def takeReport (cab : Nat) (b : List Byte) (s : State) : State :=
  let n := resolveFrame s.frame (beAt b 0 4)
  if !s.solves || n != (s.next : Int) || (s.ba.own.map (·.1)) == some s.next || 1024 ≤ cab then s
  else if s.flag (F.BA_CAB_EN cab) && s.fld (F.BA_CAB_W cab) == beAt b 8 2 && s.fld (F.BA_CAB_SAFE cab) == beAt b 10 2
      && s.fld (F.BA_CAB_GROUP cab) == byteAt b 12 then
    if s.ba.reports.any fun r => r.1 == cab then s
    else { s with ba := { s.ba with reports := s.ba.reports ++ [(cab, beAt b 4 2)] } }
  else baRaise 85 (({ s with ba := { s.ba with rejs := s.ba.rejs ++ [cab] } }).setFlag (F.BA_CAB_REJ cab) true)

/-- At H(N) − UPOFF the member reports (R461 to R463).
[DEDUCED, unsafe, log 56] -/
def budgetReportSend (now : Nat) (s : State) : State :=
  if !s.hoists || !s.cclkOn || s.ba.reported == some s.next then s
  else
    let s0 := seqEvent 51 (s.atTime now)
    let s0 := { s0 with ba := { s0.ba with reported := some s0.next } }
    if !s0.role 0 || s0.mode = Mode.rigging || s0.mode = Mode.halt then s0
    else
      let dormant := !s0.memberShows
      let late := !dormant && s0.mods.any fun m => !s0.sumsLatched m && s0.seqState (17 + m / 32) != 4
      let figs := if dormant then [] else s0.mods.map fun m => (m, s0.mledNow m)
      let dem := if dormant then 0 else s0.demOf figs
      let req := if dormant then 0 else s0.reqOf dem
      let flags := b2n (s0.flag F.BA_STAT_OPENLOOP) + 2 * b2n (s0.flag F.BA_STAT_EMERG) + 4 * b2n late
        + 8 * b2n (s0.mode == Mode.halfMast) + 16 * b2n dormant
      let s1 := s0.setFld F.BA_STAT_DEMAND dem
      let s2 := if late then s1.setFlag F.BA_STAT_LATESUM true else s1
      let s3 := { s2 with ba := { s2.ba with mled := figs } }
      let body := beBytes 4 s3.next ++ beBytes 2 req ++ beBytes 2 dem ++ beBytes 2 s3.fmax ++ beBytes 2 (s3.fld F.BA_LIM_SAFE)
        ++ beBytes 1 (s3.fld F.BA_CFG_GROUP) ++ beBytes 1 flags ++ beBytes 2 (s3.fld F.BA_TRIM_MEAS)
      match s3.baEntry, s3.cabId, s3.anyPortUp || s3.solves with
      | some e, some c, true => takeReport c body (s3.sendSealed 2 daSolvers 0x10 (s3.fld F.BA_CFG_KSLOT) e 0 body false)
      | _, _, _ => s3

/-! ### The solver (R467) -/

/-- The floor of a cabinet. -/
def State.floorOf (s : State) (c : Nat) : Nat :=
  let rc := s.fld (F.BA_CAB_REC c)
  rc - (rc - s.fld (F.BA_CAB_SAFE c) + 7) / 8

/-- The members of a group as (cabinet, weight, floor, request). -/
def State.groupOf (s : State) (g : Nat) : List (Nat × Nat × Nat × Nat) :=
  (s.ledger.filter fun c => s.fld (F.BA_CAB_GROUP c) == g).map fun c =>
    (c, s.fld (F.BA_CAB_W c), s.floorOf c, figure s.ba.reports c)

/-- total(l) of R467. -/
def groupTotal (l : List (Nat × Nat × Nat × Nat)) (lam : Nat) : Nat :=
  (l.map fun e => e.2.1 * max e.2.2.1 (min e.2.2.2 lam)).sum

/-- The largest l in 0 to 65535 whose total fits, given that 0 fits; total never decreases. -/
def largestFit (l : List (Nat × Nat × Nat × Nat)) (cap : Nat) : Nat :=
  (List.range 16).foldl (fun lam k => if groupTotal l (lam + 2 ^ (15 - k)) ≤ cap then lam + 2 ^ (15 - k) else lam) 0

/-- Solve one group: leases, REC, OVC and LAMBDA. -/
def solveGroup (g : Nat) (s : State) : State × List (Nat × Nat) :=
  let l := s.groupOf g
  let cap := s.fld (F.BA_GRP_CAP10 g) * 65536
  let ovc := decide (cap < groupTotal l 0)
  let lam := if ovc then 0 else largestFit l cap
  let leases := l.map fun e => (e.1, if ovc then s.fld (F.BA_CAB_SAFE e.1) else max e.2.2.1 (min e.2.2.2 lam))
  let s1 := leases.foldl (fun t e => t.setFld (F.BA_CAB_REC e.1) e.2) s
  ((s1.setFlag (F.BA_GRP_OVC g) ovc).setFld (F.BA_GRP_LAMBDA g) lam, leases)

/-- A form of BUDGET_CFG takes effect (R480). -/
def applyCfg (p : List Byte) (s : State) : State :=
  match byteAt p 0 with
  | 0 =>
    let s1 := (((s.setFld F.BA_CFG_GROUP (byteAt p 1)).setFld F.BA_CFG_KSLOT (byteAt p 2)).setFld F.BA_CFG_FMAX10 (leAt p 4 2)).setFld
      F.BA_CFG_STATIC (leAt p 12 4)
    let s2 := (s1.setFld F.BA_LIM_SAFE (leAt p 6 2)).setFld F.BA_LIM_HARD (leAt p 8 2)
    (((((s2.setFld F.BA_SLEW_NSTEP (leAt p 16 2)).setFld F.BA_SLEW_USLEW (leAt p 18 2)).setFld F.BA_SLEW_DSLEW (leAt p 20 2)).setFld
      F.BA_SLEW_HMENT (byteAt p 22)).setFld F.BA_SLEW_HMEXIT (byteAt p 23))
  | 1 => (List.range (byteAt p 2)).foldl (fun t j =>
      let m := byteAt p 1 + j
      (((t.setFld (F.BA_MOD_IFS_R m) (leAt p (8 + 8 * j) 2)).setFld (F.BA_MOD_IFS_G m) (leAt p (10 + 8 * j) 2)).setFld
        (F.BA_MOD_IFS_B m) (leAt p (12 + 8 * j) 2)).setFld (F.BA_MOD_MLIM m) (leAt p (14 + 8 * j) 2)) s
  | 2 => (((s.setFld F.BA_WIN_UPOFF (leAt p 8 2)).setFld F.BA_WIN_RCUT (leAt p 10 2)).setFld F.BA_WIN_DNOFF (leAt p 12 2)).setFld
      F.BA_WIN_LDOFF (leAt p 14 2)
  | 3 =>
    let s1 := (List.range (byteAt p 2)).foldl (fun t j => t.setFld (F.BA_GRP_CAP10 (byteAt p 1 + j)) (leAt p (8 + 8 * j) 4)) s
    s1.setFld F.BA_SOLV_LCRC s1.tableCrc
  | _ =>
    let s1 := (List.range (leAt p 4 2)).foldl (fun t j =>
      let c := leAt p 2 2 + j
      let e := (p.drop (8 + 8 * j)).take 8
      let same := t.fld (F.BA_CAB_W c) == leAt e 0 2 && t.fld (F.BA_CAB_SAFE c) == leAt e 2 2 && t.fld (F.BA_CAB_GROUP c) == byteAt e 4
      let t1 := (((t.setFld (F.BA_CAB_W c) (leAt e 0 2)).setFld (F.BA_CAB_SAFE c) (leAt e 2 2)).setFld (F.BA_CAB_GROUP c)
        (byteAt e 4)).setFld (F.BA_CAB_EN c) (byteAt e 5)
      if same then t1 else recTake c t1) s
    s1.setFld F.BA_SOLV_LCRC s1.tableCrc

/-- The forms that wait and belong to the solver's tables, or to the cabinet. -/
def solverForm (p : List Byte) : Bool := decide (3 ≤ byteAt p 0)

/-- The forms of one kind take effect. -/
def applyPending (solver : Bool) (s : State) : State :=
  let (now, later) := s.ba.pend.partition fun p => solverForm p == solver
  now.foldl (fun t p => applyCfg p t) { s with ba := { s.ba with pend := later } }

/-- USED and REJ of every cabinet tell of the reports of the solve (R484).
[DEDUCED, unsafe, log 56] -/
def markReports (s : State) : State :=
  (List.range 1024).foldl (fun t c =>
    let used := s.flag (F.BA_CAB_EN c) && s.ba.reports.any fun r => r.1 == c
    let rej := s.ba.rejs.contains c
    let t1 := if t.flag (F.BA_CAB_USED c) == used then t else t.setFlag (F.BA_CAB_USED c) used
    if t1.flag (F.BA_CAB_REJ c) == rej then t1 else t1.setFlag (F.BA_CAB_REJ c) rej) s

/-- SLDIFF counts a frame once in which the other solver's leases differ from the own ones, whichever came first (R484). -/
def countSlDiff (s : State) : State :=
  match s.ba.own, s.otherLeases with
  | some (f, own), some (n, l) =>
    if f = n && !s.ba.slCounted && l.any (fun e => figure own e.1 != e.2) then
      ({ s with ba := { s.ba with slCounted := true } }).bump F.BA_SOLV_SLDIFF 1
    else s
  | _, _ => s

/-- At H(N) − RCUT, after the uplink window, a solver closes its report set and solves the ledger (R32, R467). -/
def ledgerSolve (now : Nat) (s : State) : State :=
  if !s.hoists || !s.cclkOn || (s.ba.own.map (·.1)) == some s.next || s.ba.reported != some s.next then s
  else
    let s0 := applyPending true (s.atTime now)
    if !s0.solves then s0
    else
      let s1 := markReports s0
      let r := (List.range 64).foldl (fun (acc : State × List (Nat × Nat)) g =>
        let x := solveGroup g acc.1
        (x.1, acc.2 ++ x.2)) (s1, [])
      let ovc := (List.range 64).any fun g => r.1.flag (F.BA_GRP_OVC g)
      let s2 := r.1.setFlag F.BA_SOLV_OVC ovc
      let s3 := { s2 with ba := { s2.ba with own := some (s2.next, r.2), reports := [], rejs := [] } }
      countSlDiff (if ovc then baRaise 84 s3 else s3)

/-! ### Leases (R464, R465) -/

/-- A cabinet hears a lease block for its own ID (R465).
[DEDUCED, unsafe, log 56] -/
def takeLease (n : Int) (v : Nat) (s : State) : State :=
  if n < (s.next : Int) || (n = (s.next : Int) && s.ba.fixed == some s.next) then s.bump F.BA_CNT_LLATE 1
  else if n ≠ (s.next : Int) then s
  else if v = 0 || v < s.fld F.BA_LIM_SAFE then s.bump F.BA_CNT_LINVAL 1
  else
    match s.ba.lease with
    | none => { s with ba := { s.ba with lease := some v } }
    | some l =>
      let s1 := { s with ba := { s.ba with lease := some (min l v) } }
      if l = v then s1 else baRaise 81 (s1.bump F.BA_CNT_LDIFF 1)

/-- Every engine keeps the last leases it heard from a solver, which REC may later be taken from (R468).
[DEDUCED, unsafe, log 56] -/
def keepLeases (sender n first : Nat) (leases : List Nat) (s : State) : State :=
  let l := leases.zipIdx.map fun p => (first + p.2, p.1)
  let old := match s.ba.other.find? fun p => p.1 == sender with
    | some (_, f, x) => if f = n then x.filter fun e => decide (e.1 < first) || decide (first + leases.length ≤ e.1) else []
    | none => []
  { s with ba := { s.ba with other := (s.ba.other.filter fun p => p.1 != sender) ++ [(sender, n, old ++ l)] } }

/-- An engine hears a block of another solver; one that solves too compares LCRC and leases (R467, R468, R484). -/
def otherBlock (sender n first lcrc : Nat) (leases : List Nat) (s : State) : State :=
  let s1 := keepLeases sender n first leases s
  if !s.role 1 && !s.role 2 then s1
  else countSlDiff (if lcrc = s1.fld F.BA_SOLV_LCRC then s1 else baRaise 84 (s1.setFlag F.BA_SOLV_TBLDIFF true))

/-- A lease block that passed R463, from a sender, with the body of R464. -/
def leaseBlock (sender : Nat) (b : List Byte) (s : State) : State :=
  let n := resolveFrame s.frame (beAt b 0 4)
  let first := beAt b 4 2
  let count := beAt b 6 2
  let leases := (List.range (min count 256)).map fun i => beAt b (16 + 2 * i) 2
  if sender != s.fld F.RING_ID_ENSIGN && sender != s.fld F.RING_ID_STANDBY then s
  else
    let s1 := if s.cabId != some sender && decide (0 ≤ n) then otherBlock sender n.toNat first (beAt b 8 4) leases s else s
    match s1.cabId with
    | none => s1
    | some c => if s1.role 0 && decide (first ≤ c) && decide (c < first + leases.length) then takeLease n (leases.getD (c - first) 0) s1 else s1

/-- At H(N) − DNOFF each solver sends its four blocks (R464). -/
def leaseBlockSend (now : Nat) (s : State) : State :=
  if !s.hoists || !s.cclkOn then s
  else
    let s0 := seqEvent 52 (s.atTime now)
    match s0.ba.own, s0.baEntry, s0.cabId with
    | some (n, own), some e, some c =>
      if n != s0.next || !s0.solves then s0
      else
        (List.range 4).foldl (fun t k =>
          let body := beBytes 4 n ++ beBytes 2 (256 * k) ++ beBytes 2 256 ++ beBytes 4 (t.fld F.BA_SOLV_LCRC) ++ beBytes 1 (b2n (t.role 2))
            ++ [0, 0, 0] ++ (List.range 256).flatMap fun i => beBytes 2 (figure own (256 * k + i))
          leaseBlock c body (t.sendSealed 2 daEvery 0x11 (t.fld F.BA_CFG_KSLOT) e 0 body false)) s0
    | _, _, _ => s0

/-! ### The grant, the cut and the scales (R470 to R472) -/

/-- The fallback lease: the last one, decayed; SAFE after a reset. -/
def State.fallback (s : State) : Nat :=
  let safe := s.fld F.BA_LIM_SAFE
  let l := s.ba.last.getD safe
  l - (l - safe + 7) / 8

/-- CUT of R471. -/
def cutOf (dem geff sc : Nat) : Nat := if geff < dem then min 1023 (1024 * (geff - sc) / (dem - sc) - 1) else 1023

/-- Do two modules share an edge of at least one pixel (R472)? -/
def neighbours (a b : Geom) : Bool :=
  ((a.x0 + a.w == b.x0 || b.x0 + b.w == a.x0) && overlap a.y0 a.h b.y0 b.h)
    || ((a.y0 + a.h == b.y0 || b.y0 + b.h == a.y0) && overlap a.x0 a.w b.x0 b.w)

/-- One pass over the modules in ascending order: no K exceeds a neighbour's by more than NSTEP. -/
def neighbourPass (geo : List (Nat × Geom)) (nstep : Nat) (k : List (Nat × Nat)) : List (Nat × Nat) :=
  geo.foldl (fun k m =>
    let near := geo.filter fun j => j.1 != m.1 && neighbours m.2 j.2
    let lim := near.foldl (fun v j => min v (figure k j.1 + nstep)) (figure k m.1)
    k.map fun e => if e.1 = m.1 then (e.1, lim) else e) k

/-- The scales for frame N + 1 (R472).
[DEDUCED, unsafe, log 56] -/
def scales (s : State) (geff : Nat) : List (Nat × Nat) :=
  let g := geff
  let t := max 64 (g - g / 32 - s.sc)
  let den := s.fmax * 10000 * 1024
  let tm := t * den * 32768 / s.fld F.BA_TRIM_TRIM
  let ms := s.mods
  let u := ms.map fun m =>
    let kp := s.kOf m
    let fs := s.fullMled m
    (m, if kp = 0 || s.ba.first then fs else min fs (cdiv (figure s.ba.mled m * 32768) kp))
  let tot := (u.map (·.2)).sum
  let ks := if tot ≤ tm then 32768 else tm * 32768 / tot
  let k0 := u.map fun e =>
    let m := e.1
    let ml := s.fld (F.BA_MOD_MLIM m)
    let lim := if ml = 0 || e.2 = 0 then 32768 else ml * 10000 * 2 ^ 26 * 32768 / e.2
    let kp := s.kOf m
    (m, satN (min ks lim) (kp - s.fld F.BA_SLEW_DSLEW) (min 32768 (kp + s.fld F.BA_SLEW_USLEW)))
  let geo := ms.map fun m => (m, s.geom m)
  (List.range 64).foldl (fun k _ => neighbourPass geo (s.fld F.BA_SLEW_NSTEP) k) k0

/-- The lease deadline of a frame in a Show mode: the cut, the run of limited frames, the scales. -/
def fixShow (geff : Nat) (s : State) : State :=
  let figs := s.mods.map fun m =>
    let now := figure s.ba.mled m
    let whole := match s.carrier m with
      | some n => s.loadDone n
      | none => true
    (m, if whole then now else max now (figure s.ba.mledOld m))
  let cut := cutOf (s.demOf figs) geff s.sc
  let limited := decide (cut < 1023) || s.mods.any fun m => decide (s.kOf m < 32768)
  let k := scales s geff
  let s1 := (s.setFld F.LP_CUT_CUT cut).setFlag F.BA_STAT_LIMITED limited
  let s2 := k.foldl (fun t e => t.setFld (F.LP_MOD_SCL_K e.1) e.2) s1
  { s2 with ba := { s2.ba with
    limRun := if limited then s2.ba.limRun + 1 else 0, freeRun := if limited then 0 else s2.ba.freeRun + 1, first := false } }

/-- At H(N) − LDOFF, after the frame's report, the cabinet fixes its grant (R32, R470, R471). -/
def leaseDeadline (now : Nat) (s : State) : State :=
  if !s.hoists || !s.cclkOn || s.ba.fixed == some s.next || s.ba.reported != some s.next then s
  else
    let s0 := seqEvent 50 (s.atTime now)
    if !s0.role 0 then { s0 with ba := { s0.ba with fixed := some s0.next } }
    else
      let lease := s0.ba.lease.getD s0.fallback
      let geff := min lease (min s0.ceilIn (s0.fld F.BA_LIM_HARD))
      let geff := if s0.flag F.BA_STAT_EMERG then min geff (s0.fld F.BA_LIM_SAFE) else geff
      let s1 := if s0.ba.lease.isNone then baRaise 80 (s0.bump F.BA_CNT_LMISS 1) else s0
      let s2 := ((s1.setFld F.BA_STAT_LEASE lease).setFld F.BA_STAT_GEFF geff)
      let s3 := { s2 with ba := { s2.ba with fixed := some s2.next, last := some lease } }
      if s3.memberShows then fixShow geff s3 else (s3.setFld F.LP_CUT_CUT 1023).setFlag F.BA_STAT_LIMITED false

/-! ### SENSE (R474 to R478) -/

def State.chan (s : State) (k : Nat) : SenseCh := SMap.get (fun _ => SenseCh.reset) s.ba.chans k

def State.setChan (s : State) (k : Nat) (c : SenseCh) : State :=
  { s with ba := { s.ba with chans := SMap.put (fun _ => SenseCh.reset) s.ba.chans k c } }

/-- Is SENSE lost or frozen (R477)? -/
def State.senseBad (s : State) : Bool :=
  !s.flag F.BA_SNS_EN || s.fld F.BA_SNSERR_LOST != 0 || s.fld F.BA_SNSERR_FROZEN != 0 || decide (8 ≤ s.ba.bad)

/-- OPENLOOP follows SENSE: it sets with a loss or a freeze and clears after 256 valid samples of every enabled channel (R477).
[UNVERIFIED, unsafe, log 38] -/
def judgeSense (s : State) : State :=
  let chen := bitsSet (s.fld F.BA_SNS_CHEN) 8
  if s.senseBad then
    let s1 := { s with ba := { s.ba with chans := s.ba.chans.filterMap fun (p : Nat × SenseCh) =>
      let c : SenseCh := { p.2 with valid := 0 }
      if c = SenseCh.reset then none else some (p.1, c) } }
    let s2 := s1.setFld F.BA_TRIM_TRIM 0x9000
    let s3 := if s2.flag F.BA_STAT_OPENLOOP then s2 else baRaise 82 (s2.setFlag F.BA_STAT_OPENLOOP true)
    observe Cls.ba 0 Obs.failed (if s3.fld F.BA_SNSERR_FROZEN != 0 then Cause.sensefrozen else Cause.senselost) s3
  else if s.flag F.BA_STAT_OPENLOOP && !chen.isEmpty && chen.all fun k => decide (256 ≤ (s.chan k).valid) then
    observe Cls.ba 0 Obs.on 0 (baRaise 82 ((s.setFlag F.BA_STAT_OPENLOOP false).setFld F.BA_TRIM_TRIM 0x9000))
  else s

/-- The current of a sample in µA (R475). -/
def State.microAmp (s : State) (k smp : Nat) : Nat := (smp - s.fld (F.BA_SNSCH_OFFSET k)) * s.fld (F.BA_SNSCH_SCALE k)

/-- Does the mean of the last 16 samples of the enabled channels exceed HARD + HARD / 8 (R478)? -/
def State.overLimit (s : State) : Bool :=
  let hard := s.fld F.BA_LIM_HARD
  let sum := ((bitsSet (s.fld F.BA_SNS_CHEN) 8).map fun k => ((s.chan k).recent.map (s.microAmp k)).sum).sum
  !s.flag F.BA_STAT_OPENLOOP && decide (hard + hard / 8 < s.d16 sum 16)

/-- EMERG sets where a cause of R478 holds. -/
def judgeEmerg (s : State) : State :=
  if s.flag F.BA_STAT_EMERG then s
  else if 2 ≤ s.ba.alert || 4 ≤ s.ba.overRun then
    (({ s with ba := { s.ba with emergDue := true } }).setFlag F.BA_STAT_EMERG true).assertWatch 2
  else s

/-- The level of SNS_ALERT_N that a read finds: ENG_BUMPST reports it until the next read finds another (R65).
[DEDUCED, unsafe, log 56] -/
def snsLevel (alert : Bool) (s : State) : State := { s with ao := { s.ao with snsAlert := alert } }

/-- One read of the SENSE port: the 24-bit word, and whether SNS_ALERT_N is low (R474, R477, R478). -/
def senseRead (word : Nat) (alert : Bool) (s : State) : State :=
  if !s.flag F.BA_SNS_EN || !s.cclkOn || s.ao.refAbsent then s
  else
    let k := bitsOf word 20 4
    let smp := bitsOf word 4 16
    let ok := decide (k < 8) && bitsOf word 0 4 == 5 && bitOf (s.fld F.BA_SNS_CHEN) k
    let s1 := if ok then
        let c := s.chan k
        let run := if c.run ≠ 0 && s.fld (F.BA_SNSCH_LAST k) = smp then min 64 (c.run + 1) else 1
        let frozen := s.fld F.BA_SNSERR_FROZEN
        let s2 := s.setChan k ⟨c.sum + (smp - s.fld (F.BA_SNSCH_OFFSET k)), c.count + 1, run, min 256 (c.valid + 1),
          (smp :: c.recent).take 16⟩
        let s3 := (s2.setFld (F.BA_SNSCH_LAST k) smp).setFld F.BA_SNSERR_LOST (clrBit (s2.fld F.BA_SNSERR_LOST) k)
        let s4 := s3.setFld F.BA_SNSERR_FROZEN (if 64 ≤ run then setBit frozen k else clrBit frozen k)
        { s4 with ba := { s4.ba with bad := 0 } }
      else
        let s2 := s.bump F.BA_SNSERR_CHKERR 1
        { s2 with ba := { s2.ba with bad := s2.ba.bad + 1 } }
    let s5 := judgeSense s1
    let s6 := { s5 with ba := { s5.ba with
      alert := if alert then s5.ba.alert + 1 else 0, overRun := if s5.overLimit then s5.ba.overRun + 1 else 0 } }
    judgeEmerg s6

/-- An enabled channel has had no valid sample for 1 ms (R477). -/
def senseLost (k : Nat) (s : State) : State :=
  if 8 ≤ k || !s.flag F.BA_SNS_EN || !bitOf (s.fld F.BA_SNS_CHEN) k || !s.cclkOn then s
  else judgeSense (s.setFld F.BA_SNSERR_LOST (setBit (s.fld F.BA_SNSERR_LOST) k))

/-- A write of 1 to BA_STAT.EMERG clears it only while neither cause holds (R478). -/
def emergClear (s : State) : State :=
  if 2 ≤ s.ba.alert || 4 ≤ s.ba.overRun then s else s.setFlag F.BA_STAT_EMERG false

/-- BA_SNS: a write whose FDIV is below 52 × (SDIV + 1) is discarded whole (R474). -/
def snsWrite (w : Writer) (be : Nat) (data : W64) (s : State) : State :=
  let v := s.written w F.BA_SNS_EN.off be data
  if getBits v 0 16 < 52 * (getBits v 48 8 + 1) then s
  else
    let chen := getBits v 32 8
    let s1 := s.setReg F.BA_SNS_EN.off v
    let s2 := (s1.setFld F.BA_SNSERR_LOST (s1.fld F.BA_SNSERR_LOST &&& chen)).setFld F.BA_SNSERR_FROZEN (s1.fld F.BA_SNSERR_FROZEN &&& chen)
    judgeSense s2

/-! ### The arbiter's part of a hoist (R475, R476, R480) -/

/-- The measured current of the frame that was lit until now, and TRIM (R475, R476).
[DEDUCED, unsafe, log 56] -/
def senseFrame (s : State) : State :=
  match s.ba.lit with
  | none => s.setFld F.BA_TRIM_MEAS 0xFFFF
  | some (n, figs, cut) =>
    let chen := bitsSet (s.fld F.BA_SNS_CHEN) 8
    let have_ := chen.filter fun k => (s.chan k).count != 0
    if !s.flag F.BA_SNS_EN || have_.isEmpty then s.setFld F.BA_TRIM_MEAS 0xFFFF
    else
      let tot := (have_.map fun k => (s.chan k).sum * s.fld (F.BA_SNSCH_SCALE k) / (s.chan k).count).sum
      let meas : Int := (tot : Int) - s.fld F.BA_CFG_STATIC
      let s1 := (s.setFld F.BA_TRIM_MEAS (s.d16 tot 1)).setFld F.BA_TRIM_FRAME (n % 65536)
      let model := (figs.map (·.2)).sum * (cut + 1) / 2 ^ 36
      if s1.flag F.BA_STAT_OPENLOOP || 64 * model < s1.fmax * 10000 || model = 0 then s1
      else
        let r := satI (tdivI (meas * 32768) model) 0x4000 0x10000
        let trim : Int := s1.fld F.BA_TRIM_TRIM
        s1.setFld F.BA_TRIM_TRIM (satI (trim + tdivI (r - trim) 8) 0x7000 0xC000).toNat

/-- H(N): the frame that was lit ends, frame N is lit, the forms of BUDGET_CFG for D(N + 1) take effect. `n` is N.
[DEDUCED, unsafe, log 56] -/
def budgetHoist (n : Nat) (s : State) : State :=
  let s1 := senseFrame s
  let shows := showMode s1.mode
  let s2 := { s1 with ba := { s1.ba with
    lit := if shows then some (n, s1.ba.mled, s1.fld F.LP_CUT_CUT) else none
    mledOld := s1.ba.mled, mled := [], lease := none, reports := [], rejs := [], slCounted := false, raised := []
    chans := s1.ba.chans.filterMap fun (p : Nat × SenseCh) =>
      let c : SenseCh := { p.2 with sum := 0, count := 0 }
      if c = SenseCh.reset then none else some (p.1, c) } }
  applyPending false s2

/-! ### BUDGET_CFG and CEIL_SET (R473, R480, R481) -/

/-- The state with every form that waits in effect: what a new form is checked against.
[DEDUCED, unsafe, log 70] -/
def virtualBa (s : State) : State := applyPending true (applyPending false s)

/-- The values of a form of BUDGET_CFG are within their ranges (R480, R481).
[DEDUCED, unsafe, log 56] -/
def budgetBad (s : State) (p : List Byte) : Bool :=
  let v := virtualBa s
  let count := byteAt p 2
  match byteAt p 0 with
  | 0 =>
    let fm := leAt p 4 2
    let safe := leAt p 6 2
    let sc := cdiv (leAt p 12 4 * 65536) (fm * 10000)
    p.length != 32 || decide (64 ≤ byteAt p 1) || decide (16 ≤ byteAt p 2) || !zeroAt p 3 1 || fm == 0 || !zeroAt p 10 2
      || byteAt p 22 == 0 || byteAt p 23 == 0 || !zeroAt p 24 8 || decide (safe < 0x40) || decide (leAt p 8 2 < 0x40)
      || decide (safe < sc + 0x40) || decide (leAt p 8 2 < safe)
  | 1 => count == 0 || decide (64 < byteAt p 1 + count) || p.length != 8 + 8 * count || !zeroAt p 3 5
  | 2 =>
    p.length != 16 || !zeroAt p 1 7 || decide (leAt p 8 2 ≤ leAt p 10 2) || decide (leAt p 10 2 ≤ leAt p 12 2)
      || decide (leAt p 12 2 ≤ leAt p 14 2) || decide (leAt p 14 2 < s.fld F.LP_TIME_LATCHT + 4)
  | 3 =>
    count == 0 || decide (64 < byteAt p 1 + count) || p.length != 8 + 8 * count || !zeroAt p 3 5
      || (List.range count).any (fun j => !zeroAt p (12 + 8 * j) 4) || !(applyCfg p v).groupsFit
  | 4 =>
    let n := leAt p 4 2
    n == 0 || decide (127 < n) || decide (1024 < leAt p 2 2 + n) || p.length != 8 + 8 * n || !zeroAt p 1 1 || !zeroAt p 6 2
      || (List.range n).any (fun j =>
        let e := (p.drop (8 + 8 * j)).take 8
        decide (64 ≤ byteAt e 4) || decide (2 ≤ byteAt e 5) || !zeroAt e 6 2
          || (byteAt e 5 == 1 && (leAt e 0 2 == 0 || decide (leAt e 2 2 < 0x40))))
      || !(applyCfg p v).groupsFit
  | _ => true

def budgetCfg (id : Nat) (s : State) : State :=
  withStarted id 0x3001 s fun c =>
    let p := c.params
    let sub := byteAt p 0
    if budgetBad s p then finish id Status.badParam [] s
    else if (decide (sub ≤ 2) && showMode s.mode) || (decide (sub ≤ 1) && s.flag F.BA_LOCK_LOCK)
        || (decide (3 ≤ sub) && !s.role 1 && !s.role 2) then finish id Status.denied [] s
    else
      let s1 := { s with ba := { s.ba with pend := s.ba.pend ++ [p], configured := s.ba.configured || sub == 0 } }
      let s2 := if s1.hoists then s1 else virtualBa s1
      let crc := if 3 ≤ sub then (virtualBa s2).fld F.BA_SOLV_LCRC else 0
      finish id Status.ok (leBytes 1 sub ++ [0, 0, 0] ++ leBytes 4 crc) s2

/-- CEIL_SET, opcode 0x3002.
[DEDUCED, unsafe, log 56] -/
def ceilSet (id : Nat) (s : State) : State :=
  withStarted id 0x3002 s fun c =>
    let p := c.params
    let v := leAt p 0 2
    if p.length != 8 || v < 0x40 || !zeroAt p 2 6 then finish id Status.badParam [] s
    else
      let s1 := s.setFld F.BA_LIM_CEIL v
      let frame := if !s.hoists then 0xFFFFFFFF else if s.ba.fixed = some s.next then (s.next + 1) % 2 ^ 32 else s.next % 2 ^ 32
      let reply := fun (x : Nat) => leBytes 2 x ++ leBytes 4 frame ++ [0, 0]
      if v < s.sc + 0x40 then finish id Status.clipped (reply (s.sc + 0x40)) s1
      else if s.ba.last.isSome && decide (s.fld F.BA_STAT_GEFF < v) then finish id Status.clipped (reply (s.fld F.BA_STAT_GEFF)) s1
      else finish id Status.ok (reply v) s1

/-- BUDGET_REPORT_SEND (R463): At H(N) − UPOFF a member sends its demand report. -/
def execBudgetReportSend (now : Nat) (s : State) : Answer := .next (whileClocked s (budgetReportSend now s))
/-- LEDGER_SOLVE (R467): At H(N) − RCUT each solver solves the ledger per group. -/
def execLedgerSolve (now : Nat) (s : State) : Answer := .next (whileLive s (ledgerSolve now s))
/-- LEASE_BLOCK_SEND (R464): At H(N) − DNOFF each solver sends its four lease blocks. -/
def execLeaseBlockSend (now : Nat) (s : State) : Answer := .next (whileLive s (leaseBlockSend now s))
/-- LEASE_DEADLINE (R470): At H(N) − LDOFF the cabinet fixes LEASE and GEFF, computes the cut and sets K. -/
def execLeaseDeadline (now : Nat) (s : State) : Answer := .next (whileLive s (leaseDeadline now s))
/-- SENSE_READ (R474): Every FDIV REFCLK cycles the SENSE port reads one ADC word. -/
def execSenseRead (word : Nat) (alert : Bool) (s : State) : Answer := .next (let t := snsLevel alert s; whileLive t (senseRead word alert t))
/-- SENSE_LOST (R477): An enabled channel without a valid sample for 1 ms makes SENSE lost and OPENLOOP 1. -/
def execSenseLost (k : Nat) (s : State) : Answer := .next (whileLive s (senseLost k s))
/-- EMERG_CLEAR (R478): A write of 1 to BA_STAT.EMERG clears it while neither cause holds. -/
def execEmergClear (s : State) : Answer := .next (whileClocked s (emergClear s))
/-- BUDGET_CFG (R480): BUDGET_CFG sets cabinet, module, window, group or ledger settings. -/
def execBudgetCfg (id : Nat) (s : State) : Answer := .next (whileClocked s (budgetCfg id s))
/-- CEIL_SET (R473): CEIL_SET sets the software ceiling from the next lease deadline. -/
def execCeilSet (id : Nat) (s : State) : Answer := .next (whileClocked s (ceilSet id s))

end Sys2Proof.Machine
end

