-- ==== Sys2Proof/Machine/CodecEnc.lean ====
section
/-!
DEFINITION. The encoder's side of the codec: the forming of bins (the inverse of the parse of R286 to R306), the reverse rANS
encode, the forward transform and quantiser of R351, the bin limit of R352. What the encoder is free to choose (R350) comes as a
choice per cell.
-/

namespace Sys2Proof.Machine

/-- The state of the forward run: contexts and neighbours as the decoder will have them, and the bins, last first, each with
its probability of a 0. -/
structure EncSt where
  st : SegState
  bins : List (Nat × Bool)
  deriving DecidableEq, Repr

abbrev Enc := StateM EncSt

def putBin (p0 : Nat) (b : Bool) : Enc Unit := modify fun e => { e with bins := (p0, b) :: e.bins }

def putBypass (b : Bool) : Enc Unit := putBin 2048 b

/-- A bin of context k, which adapts (R288). -/
def putCtx (k : Nat) (b : Bool) : Enc Unit := do
  let e ← get
  let p0 := e.st.ctx.getD k 2048
  let r := ctxRate k
  let p1 := if b then p0 - p0 / 2 ^ r else p0 + (4096 - p0) / 2 ^ r
  putBin p0 b
  modify fun e => { e with st := { e.st with ctx := e.st.ctx.set k (satN p1 32 4064) } }

/-- fixed(n), most significant bit first. -/
def putBits : Nat → Nat → Enc Unit
  | 0, _ => pure ()
  | n + 1, v => do
    putBits n (v / 2)
    putBypass (v % 2 == 1)

/-- eg(k). -/
def putEg (k v : Nat) : Enc Unit := do
  let n := Nat.log2 (v / 2 ^ k + 1)
  let rec ones : Nat → Enc Unit
    | 0 => putBypass false
    | m + 1 => do
      putBypass true
      ones m
  ones n
  putBits (n + k) (v - (2 ^ n - 1) * 2 ^ k)

/-- sval(z, k). -/
def putSval (z k : Nat) (v : Int) : Enc Unit := do
  putCtx z (v == 0)
  if v ≠ 0 then
    putBypass (decide (v < 0))
    putEg k (v.natAbs - 1)

/-- tb(m). -/
def putTb (m v : Nat) : Enc Unit := do
  let k := Nat.log2 m
  let u := 2 * 2 ^ k - m
  if v < u then putBits k v
  else
    putBits k ((v + u) / 2)
    putBypass ((v + u) % 2 == 1)

/-- The mode bins (R295). -/
def putMode (mode : Nat) : List Nat → Enc Unit
  | [] => pure ()
  | k :: t => do
    let n := ((nbs (← get).st).filter fun c => c.mode == k).length
    putCtx (Ctx.mode + 3 * k + n) (k == mode)
    if k ≠ mode then putMode mode t

/-- The cell alpha (R296). A DELTA slice predicts it from the co-located cell, if the encoder may (R353).
[DESIGN CHOICE, safe, log 58] -/
def putAlpha (sc : SliceCtx) (mode alpha : Nat) (refAlpha : Option Nat) : Enc Unit := do
  if sc.amode = 2 then
    if mode ≠ 0 then
      let s ← get
      let p := if sc.delta then refAlpha else some s.st.pa
      putCtx Ctx.alpha (p == some alpha)
      if p ≠ some alpha then putBits 12 alpha
    modify fun e => { e with st := { e.st with pa := alpha } }

/-- The QP delta (R297). -/
def putQp (qp : Int) : Enc Unit := do
  let s ← get
  let d := qp - s.st.qp
  putCtx Ctx.dqp (d != 0)
  if d ≠ 0 then
    putBypass (decide (d < 0))
    putEg 0 (d.natAbs - 1)
    modify fun e => { e with st := { e.st with qp := qp } }

/-- The motion vector predictor (R303). -/
def mvPred (s : SegState) (width : Nat) : Int × Int :=
  let i := s.cur.length
  let mv := fun (c : Option NbCell) => match c with
    | some c => if c.mode = 1 then (c.mvx, c.mvy) else (0, 0)
    | none => (0, 0)
  let l := mv s.cur.getLast?
  let a := mv s.above[i]?
  let d := mv (if i + 1 < width ∧ i + 1 < s.above.length then s.above[i + 1]? else if i = 0 then none else s.above[i - 1]?)
  (medianI l.1 a.1 d.1, medianI l.2 a.2 d.2)

def putMv (width : Nat) (mvx mvy : Int) : Enc Unit := do
  let p := mvPred (← get).st width
  putSval Ctx.mvz 1 (mvx - p.1)
  putSval (Ctx.mvz + 1) 1 (mvy - p.2)

/-- The flat deltas (R299). -/
def putFlat (v : List Nat) : List Nat → Enc Unit
  | [] => pure ()
  | c :: t => do
    let x : Int := v.getD c 0
    let s ← get
    putSval (Ctx.flz + c) 2 (x - s.st.f.getD c 0)
    modify fun e => { e with st := { e.st with f := e.st.f.set c x } }
    putFlat v t

/-- A palette entry (R300): from the cache where it is there. -/
def putPal (e : List Nat) : Enc Unit := do
  match (← get).st.cache.findIdx? (· == e) with
  | some i =>
    putCtx Ctx.palc true
    putBits 3 i
  | none =>
    putCtx Ctx.palc false
    putBits 12 (e.getD 0 0)
    putBits 12 (e.getD 1 0)
    putBits 12 (e.getD 2 0)

def putPals : List (List Nat) → Enc Unit
  | [] => pure ()
  | e :: t => do
    putPal e
    putPals t

/-- One index (R301). -/
def putIndex (n i : Nat) (left up : Option Nat) : Enc Unit := do
  let tail := fun (ex : List Nat) => (do
    let cand := (List.range n).filter fun k => !ex.contains k
    putTb cand.length ((cand.findIdx? (· == i)).getD 0) : Enc Unit)
  let upper := fun (ex : List Nat) => (do
    match up with
    | some a =>
      if left = some a then tail ex
      else do
        putCtx (Ctx.pix + 2) (a == i)
        if a ≠ i then tail (ex ++ [a])
    | none => tail ex : Enc Unit)
  match left with
  | some l =>
    putCtx (Ctx.pix + (if up = some l then 1 else 0)) (l == i)
    if l ≠ i then upper [l]
  | none => upper []

def putIndices (n : Nat) (ix : Array Nat) : List Nat → Enc Unit
  | [] => pure ()
  | p :: t => do
    let left := if p % 32 = 0 then none else ix[p - 1]?
    let up := if p < 32 then none else ix[p - 32]?
    putIndex n (ix.getD p 0) left up
    putIndices n ix t

/-- The levels from scan index i down (R305); `lv` gives the level at a scan index. -/
def putLevels (cls last : Nat) (lv : Nat → Int) : Nat → Nat → Enc Unit
  | 0, _ => pure ()
  | i + 1, n1 => do
    let nz := fun k => lv k != 0
    if i ≠ last then
      putCtx (Ctx.sig + 24 * cls + 3 * min 7 (i / 8) + (b2n (decide (i + 1 ≤ last) && nz (i + 1)) + b2n (decide (i + 2 ≤ last) && nz (i + 2)))) (nz i)
    if nz i then
      let b := if i = 0 then 0 else 1
      let mag := (lv i).natAbs
      putCtx (Ctx.gt1 + 8 * cls + 4 * b + min 3 n1) (decide (1 < mag))
      if 1 < mag then
        putCtx (Ctx.gt2 + 2 * cls + b) (decide (2 < mag))
        if 2 < mag then putEg 0 (mag - 3)
      putBypass (decide (lv i < 0))
      putLevels cls last lv i (if 1 < mag then n1 + 1 else n1)
    else putLevels cls last lv i n1

/-- The node walk of LAST. -/
def putLast (cls last : Nat) : Nat → Nat → Enc Unit
  | 0, _ => pure ()
  | t + 1, node => do
    let b := bitOf last t
    putCtx (Ctx.last + 63 * cls + node - 1) b
    putLast cls last t (2 * node + b2n b)

/-- The residual of one block and component. -/
def putResidual (c kc : Nat) (cbf : Bool) (levels : List Int) : Enc Unit := do
  let cls := if c = 1 then 0 else 1
  putCtx (Ctx.cbf + 3 * cls + kc) cbf
  if cbf then
    let lv := fun (i : Nat) => match scanOrder[i]? with | some (u, v) => levels.getD (8 * v + u) 0 | none => 0
    let last := ((List.range 64).filter fun i => lv i != 0).getLast?.getD 0
    putLast cls last 6 1
    putLevels cls last lv (last + 1) 0

def putBlocks (intra : Bool) : List BlockSyn → List BlockSyn → Enc Unit
  | _, [] => pure ()
  | done, b :: t => do
    if intra then
      putCtx Ctx.imode (decide (2 ≤ b.imode))
      putCtx (Ctx.imode + 1 + b2n (decide (2 ≤ b.imode))) (b.imode % 2 == 1)
    let s := (← get).st
    let k := done.length
    putResidual 0 (cbfCtx s done k 0) (b.cbf.getD 0 false) (b.levels.getD 0 [])
    putResidual 1 (cbfCtx s done k 1) (b.cbf.getD 1 false) (b.levels.getD 1 [])
    putResidual 2 (cbfCtx s done k 2) (b.cbf.getD 2 false) (b.levels.getD 2 [])
    putBlocks intra (done ++ [b]) t

/-- The bins of one cell (R293). -/
def putCell (sc : SliceCtx) (refAlpha : Option Nat) (c : CellSyn) : Enc Unit := do
  putMode c.mode (if sc.delta then [0, 1, 2, 3] else [2, 3])
  putAlpha sc c.mode c.alpha refAlpha
  if c.mode = 1 ∨ c.mode = 3 then putQp c.qp
  if c.mode = 1 then putMv sc.width c.mvx c.mvy
  if c.mode = 2 then putFlat c.flat [0, 1, 2]
  if c.mode = 4 then
    let n := c.palette.length
    putBits 3 (n - 1)
    putPals c.palette
    if 1 < n then putIndices n c.indices.toArray (List.range 1024)
    modify fun e => { e with st := { e.st with cache := (c.palette ++ e.st.cache.filter fun x => !c.palette.contains x).take 8 } }
  if c.mode = 1 ∨ c.mode = 3 then putBlocks (c.mode == 3) [] c.blocks
  modify fun e => { e with st := { e.st with cur := e.st.cur ++ [c.nb] } }

/-- The reverse rANS encode of a segment's bins (R286, R287, R291): every state ends at 0x0001_0000. -/
def ransEncode (bins : List (Nat × Bool)) : List Nat :=
  let n := bins.length
  let r := (bins.zipIdx).foldl (fun (acc : List Nat × List Nat) e =>
    let k := (n - 1 - e.2) % 4
    let p0 := e.1.1
    let f := if e.1.2 then 4096 - p0 else p0
    let base := if e.1.2 then p0 else 0
    let x := acc.1.getD k 0
    let (x1, out) := if f * 2 ^ 20 ≤ x then (x / 65536, (x % 65536) :: acc.2) else (x, acc.2)
    (acc.1.set k (x1 / f * 4096 + base + x1 % f), out)) (List.replicate 4 0x10000, [])
  r.1.flatMap (fun x => [x / 65536, x % 65536]) ++ r.2

/-! ### Transform, quantiser and bin limit (R351, R352) -/

/-- The forward transform of a residual at 8y + x: coefficients at 8v + u. -/
def forwardT (r : List Int) : List Int :=
  let r8 := List.range 8
  let a := r.toArray
  let t := (r8.flatMap fun y => r8.map fun u => rshrI ((r8.map fun x => tAt u x * a.getD (8 * y + x) 0).sum) 6).toArray
  r8.flatMap fun v => r8.map fun u =>
    satI (rshrI ((r8.map fun y => tAt v y * t.getD (8 * y + u) 0).sum) 9) (-32768) 32767

/-- The linear-light weight of R307. -/
def lightWeight (lweight : Bool) (pred : List Nat) : Nat :=
  if lweight then min 64 (8 + 4 * ((pred.sum + 32) / 64 / 256)) else 64

/-- The quantiser. -/
def quantise (intra lweight : Bool) (qpc : Nat) (pred : List Nat) (c : List Int) : List Int :=
  let den := qstep qpc * lightWeight lweight pred
  c.map fun v =>
    let l : Int := (min 32767 ((v.natAbs * 1024 + (if intra then den / 3 else den / 6)) / den) : Nat)
    if v < 0 then -l else l

/-- The blocks of an INTRA or INTER cell at a QP, with the reconstruction as it grows. -/
def encodeBlocks (sc : SliceCtx) (ar : Around) (ref : Nat → Int → Int → Nat) (wx wy : Nat) (intra : Bool) (mvx mvy : Int)
    (imodes : List Nat) (qp : Int) (src : CellPix) : List BlockSyn × CellPix :=
  (List.range 16).foldl (fun acc b =>
    let im := imodes.getD b 0 % 4
    let one := fun (st : List Bool × List (List Int) × CellPix) (c : Nat) =>
      let inter : List Nat := (List.range 64).map fun p =>
        let x := 8 * (b % 4) + p % 8
        let y := 8 * (b / 4) + p / 8
        let ix : Int := (wx + x : Nat) + mvx / 2
        let iy : Int := (wy + y : Nat) + mvy / 2
        let fx := mvx % 2 == 1
        let fy := mvy % 2 == 1
        if fx && fy then (ref c ix iy + ref c (ix + 1) iy + ref c ix (iy + 1) + ref c (ix + 1) (iy + 1) + 2) / 4
        else if fx then (ref c ix iy + ref c (ix + 1) iy + 1) / 2
        else if fy then (ref c ix iy + ref c ix (iy + 1) + 1) / 2
        else ref c ix iy
      let pred := if intra then blockIntra ar st.2.2 im b c else inter
      let r := (List.range 64).map fun p =>
        (pixAt src c (8 * (b % 4) + p % 8) (8 * (b / 4) + p / 8) : Int) - pred.getD p 0
      let qpc := (satI (qp + sc.qpoff.getD c 0) 0 63).toNat
      let lv := quantise intra sc.lweight qpc pred (forwardT r)
      let cbf := lv.any (· != 0)
      let blk : BlockSyn := ⟨im, [cbf, cbf, cbf], [lv, lv, lv]⟩
      (st.1 ++ [cbf], st.2.1 ++ [if cbf then lv else []], putBlock st.2.2 b c (addResidual sc qp c pred blk))
    let r := [0, 1, 2].foldl one (([] : List Bool), ([] : List (List Int)), acc.2)
    (acc.1 ++ [⟨if intra then im else 0, r.1, r.2.1⟩], r.2.2)) ([], Array.replicate 3072 0)

/-- The cost of bins: the sum of ceil(log2(4096 / f)) (R352). -/
def binCost (l : List (Nat × Bool)) : Nat :=
  (l.map fun e => Nat.clog 2 ((4096 + (if e.2 then 4096 - e.1 else e.1) - 1) / (if e.2 then 4096 - e.1 else e.1))).sum

/-- Does the encoding of a cell between two states of the run stay within the limits of R352? -/
def withinLimit (a b : EncSt) : Bool :=
  let fresh := b.bins.take (b.bins.length - a.bins.length)
  decide (fresh.length ≤ 12288) && decide (binCost fresh ≤ 36864)

/-- The mean of each component (R352). -/
def cellMean (src : CellPix) : List Nat :=
  (List.range 3).map fun c => (((List.range 1024).map fun p => src.getD (1024 * c + p) 0).sum + 512) / 1024

end Sys2Proof.Machine
end

