-- ==== Sys2Proof/Machine/Send.lean ====
section
/-!
DEFINITION. The sending of units (R357, R492 to R494): the shaper, the packing of units into VIDEO frames, their sealing.
-/

namespace Sys2Proof.Machine

/-- F(N) of R32 in ns: H(N) less the LATENCY in use. -/
def State.feedTime (s : State) (n : Nat) : Nat := s.hoistTime n - s.tsu.lat

/-- Is it F(n): has F(n) come, and F(n + 1) not (R32, R354)?
[DEDUCED, unsafe, log 57] -/
def State.atFeedTime (s : State) (n : Nat) : Bool := decide (s.feedTime n ≤ s.tsu.now) && decide (s.tsu.now < s.feedTime (n + 1))

/-- PERIOD in whole ns. -/
def State.periodNs (s : State) : Nat := s.fld F.TSU_SCHED1_PERIOD / 65536

/-- The first frame N with F(N) at least one PERIOD after the present time (R341, R365). -/
def State.earliestFrame (s : State) : Nat := max (s.frame + 1) (s.sched.firstAt (s.tsu.now + s.periodNs + s.tsu.lat))

/-! ### VIDEO frames -/

/-- Split bytes into those that are encrypted and the others, in order. -/
def secretBytes (l : List (Byte × Bool)) : List Byte := (l.filter (·.2)).map (·.1)
def clearBytes (l : List (Byte × Bool)) : List Byte := (l.filter fun p => !p.2).map (·.1)

/-- Put the ciphertext into the places of the plaintext. -/
def mergeBytes : List (Byte × Bool) → List Byte → List Byte
  | [], _ => []
  | (b, false) :: t, c => b :: mergeBytes t c
  | (_, true) :: t, c :: r => c :: mergeBytes t r
  | (b, true) :: t, [] => b :: mergeBytes t []

/-- Bytes 0 to 23 of a VIDEO or BULK frame (R492). -/
def videoHead (kind enc tenant sender keyid ctr fnum plen uoff : Nat) : List Byte :=
  beBytes 1 kind ++ beBytes 1 enc ++ beBytes 2 tenant ++ beBytes 2 sender ++ beBytes 2 keyid ++ beBytes 8 ctr ++ beBytes 4 fnum
    ++ beBytes 2 plen ++ beBytes 2 uoff

/-- Send one VIDEO frame (R492 to R494). A tenant that needs authentication and has no entry for it sends nothing.
[DESIGN CHOICE, unsafe, log 59] -/
def sendVideo (tenant frame : Nat) (body : List (Byte × Bool)) (uoff : Nat) (s : State) : State :=
  match s.cabId with
  | none => s
  | some cab =>
    let sec := ((s.openTenant tenant).map (·.sec)).getD 0
    let enc := bitOf sec 1
    let entry := (s.keySlot tenant).entries.find? fun e => bitOf e.use 0 && (!enc || bitOf e.use 1)
    match entry with
    | some e =>
      let (s1, ctr) := s.drawCounter tenant e.keyid
      let head := videoHead 0x40 (b2n enc) tenant cab e.keyid ctr (frame % 2 ^ 32) body.length uoff
      let nonce := frameNonce cab e.keyid ctr
      if enc then
        let (c, tag) := gcmSeal e.key nonce (head ++ clearBytes body) (secretBytes body)
        s1.originate 3 daEvery 0x88B5 (head ++ mergeBytes body c ++ tag)
      else
        let pl := body.map (·.1)
        let (_, tag) := gcmSeal e.key nonce (head ++ pl) []
        s1.originate 3 daEvery 0x88B5 (head ++ pl ++ tag)
    | none =>
      if sec % 4 ≠ 0 then s
      else
        let ctr := SMap.get (fun _ => 0) s.ring.uctr tenant + 1
        let s1 := { s with ring := { s.ring with uctr := SMap.put (fun _ => 0) s.ring.uctr tenant ctr } }
        s1.originate 3 daEvery 0x88B5
          (videoHead 0x40 0 tenant cab 0xFFFF ctr (frame % 2 ^ 32) body.length uoff ++ body.map (·.1) ++ List.replicate 16 0)

/-- The offset of the first unit that starts in the 2,048 bytes from `a` on. -/
def unitOffset (starts : List Nat) (a n : Nat) : Nat :=
  match starts.find? fun x => decide (a ≤ x) && decide (x < a + n) with
  | some x => x - a
  | none => 0xFFFF

/-- Send the full frames of what a sender has packed, and with `last` the rest of the frame as well (R493).
[DESIGN CHOICE, unsafe, log 59] -/
def sendPack (tenant frame : Nat) (last : Bool) (p : Sender) (s : State) : State × Sender :=
  let len := p.pack.length
  let full := len / 2048
  let n := if last && len % 2048 != 0 then full + 1 else full
  let s1 := (List.range n).foldl (fun t k =>
    let b := (p.pack.drop (2048 * k)).take 2048
    sendVideo tenant frame b (unitOffset p.starts (2048 * k) b.length) t) s
  let out := min len (2048 * n)
  (s1, { p with pack := p.pack.drop out, starts := (p.starts.filter fun x => decide (out ≤ x)).map (· - out) })

/-! ### The shaper (R357) -/

/-- The cap of a share's bucket, and what it gains in a number of ns, in units of 1/65,536 bit. -/
def bucketCap (share burst : Nat) : Nat := (share + 1) * burst * 8
def bucketGain (share rate ns : Nat) : Nat := (share + 1) * rate * ns / 1000000

/-- The bucket at the present time; a bucket that has never been counted is full. -/
def Sender.refill (p : Sender) (share : Nat) (t : Tenant) (now : Nat) : Sender :=
  let cap := bucketCap share t.burst
  { p with tokens := some (min cap (p.tokens.getD cap + bucketGain share t.rate (now - p.tlast))), tlast := max p.tlast now }

/-- The bits that the policer counts for a unit of `len` bytes queued after `before` bytes of its frame: its bytes, and 84 for
each VIDEO frame that it begins (R357, R511). -/
def unitBits (before len : Nat) : Nat := 8 * (len + 84 * ((before + len + 2047) / 2048 - (before + 2047) / 2048))

/-- Append a unit to the queue. -/
def Sender.push (p : Sender) (frame : Nat) (bytes : List (Byte × Bool)) (slice : Bool) (cells mends : List Nat) : Sender :=
  { p with queue := p.queue ++ [(⟨frame, bytes, unitBits p.qbytes bytes.length, slice, cells, mends⟩ : SendUnit)]
           qbytes := p.qbytes + bytes.length }

/-- The head of the queue leaves if the bucket holds its bits. -/
def Sender.leave (p : Sender) : Option (SendUnit × Sender) :=
  match p.queue with
  | [] => none
  | u :: rest =>
    if u.bits * 65536 ≤ p.tokens.getD 0 then
      some (u, { p with queue := rest, tokens := some (p.tokens.getD 0 - u.bits * 65536), pack := p.pack ++ u.bytes,
                        starts := p.starts ++ [p.pack.length] })
    else none

/-- The time at which a STREAM unit leaves is noted (R342, R366).
[DEDUCED, unsafe, log 57] -/
def Sender.noteStream (p : Sender) (u : SendUnit) (now : Nat) : Sender :=
  if byteAt (u.bytes.map (·.1)) 0 = 1 then { p with stream := some now } else p

/-! ### Units (R273 to R278) -/

def unitHead (utype tenant len : Nat) : List Byte := beBytes 1 utype ++ [1] ++ beBytes 2 tenant ++ beBytes 4 len

/-- The bytes of a unit with the segment payloads marked: nothing but a SLICE has any. -/
def openBytes (l : List Byte) : List (Byte × Bool) := l.map fun b => (b, false)

def markUnit (l : List Byte) : List (Byte × Bool) :=
  if byteAt l 0 = 2 then l.zipIdx.map fun p => (p.1, decide (36 + 8 * byteAt l 15 ≤ p.2)) else openBytes l

/-- A HOLD unit. -/
def holdUnit (tenant fnum refnum : Nat) : List Byte := unitHead 3 tenant 16 ++ beBytes 4 fnum ++ beBytes 4 refnum

end Sys2Proof.Machine
end

