-- ==== Sys2Proof/Machine/Feed.lean ====
section
/-!
DEFINITION. Feeds (R340 to R360): arming, source buffers, cutting, encoding, the send queue, refresh.
-/

namespace Sys2Proof.Machine

def State.feed (s : State) (f : Nat) : Feed := SMap.get (fun _ => Feed.reset) s.feeds f

def State.setFeed (s : State) (f : Nat) (x : Feed) : State :=
  { s with feeds := SMap.put (fun _ => Feed.reset) s.feeds f x }

/-! ### The region of a feed -/

def State.feedCw (s : State) (f : Nat) : Nat := s.fld (F.FEED_GEOM_CW f) + 1
def State.feedCh (s : State) (f : Nat) : Nat := s.fld (F.FEED_GEOM_CH f) + 1
def State.feedTenant (s : State) (f : Nat) : Nat := s.fld (F.FEED_CFG_TENANT f)

/-- The wall cell of the region's top-left cell. -/
def State.feedOrigin (s : State) (f : Nat) (t : Tenant) : Nat × Nat :=
  (t.x0 / 32 + s.fld (F.FEED_GEOM_CX0 f), t.y0 / 32 + s.fld (F.FEED_GEOM_CY0 f))

/-- The commissioned cabinets that the region meets, with their rectangles in cells of the region. -/
def State.feedCabs (s : State) (f : Nat) (t : Tenant) : List (Nat × Nat × Nat × Nat × Nat) :=
  let o := s.feedOrigin f t
  s.ring.map.filterMap fun (p : Nat × MapEntry) =>
    let e := p.2
    let x0 := max e.x0 o.1
    let y0 := max e.y0 o.2
    let x1 := min (e.x0 + e.wc) (o.1 + s.feedCw f)
    let y1 := min (e.y0 + e.hc) (o.2 + s.feedCh f)
    if e.en = 1 ∧ x0 < x1 ∧ y0 < y1 then some (p.1, x0 - o.1, y0 - o.2, x1 - o.1, y1 - o.2) else none

/-- Bytes per 16 pixels of a format (R344). -/
def fmtBytes16 (fmt : Nat) : Nat := [72, 128, 64, 64].getD fmt 64

/-- Does a vertical edge at wall column x, over rows y0 to y1, lie on an edge of a commissioned cabinet, and cut through none; the same
for a horizontal edge with the axes exchanged.
[DEDUCED, unsafe, log 57] -/
def State.onCabEdge (s : State) (vertical : Bool) (x y0 y1 : Nat) : Bool :=
  let met := s.ring.map.filterMap fun (p : Nat × MapEntry) =>
    let e := p.2
    let a := if vertical then (e.x0, e.wc, e.y0, e.hc) else (e.y0, e.hc, e.x0, e.wc)
    if e.en = 1 ∧ a.2.2.1 < y1 ∧ y0 < a.2.2.1 + a.2.2.2 then some (a.1, a.1 + a.2.1) else none
  met.any (fun m => x == m.1 || x == m.2) && met.all fun m => decide (x ≤ m.1) || decide (m.2 ≤ x)

/-- The region lies in the window and its edges on window or cabinet edges (check 0x3). -/
def State.feedRegionOk (s : State) (f : Nat) (t : Tenant) : Bool :=
  let o := s.feedOrigin f t
  let w := s.feedCw f
  let h := s.feedCh f
  let x1 := o.1 + w
  let y1 := o.2 + h
  decide (x1 ≤ (t.x0 + t.w) / 32) && decide (y1 ≤ (t.y0 + t.h) / 32) && decide (w * h ≤ 65536)
    && (o.1 == t.x0 / 32 || s.onCabEdge true o.1 o.2 y1) && (x1 == (t.x0 + t.w) / 32 || s.onCabEdge true x1 o.2 y1)
    && (o.2 == t.y0 / 32 || s.onCabEdge false o.2 o.1 x1) && (y1 == (t.y0 + t.h) / 32 || s.onCabEdge false y1 o.1 x1)

/-- The address of reference buffer q of a feed. -/
def State.feedRef (s : State) (f q : Nat) : Nat := s.fld (F.FEED_REF_BASE f) * 4096 + q * (s.feedCw f * s.feedCh f * 4608)

/-- Does another feed or a playout channel of this engine send the tenant (check 0x5, R365)? -/
def State.sendsTenant (s : State) (t : Nat) (me : SendSrc) : Bool :=
  (s.feeds.any fun p => SendSrc.feed p.1 != me && p.2.live && s.feedTenant p.1 == t)
    || (s.plys.any fun p => SendSrc.ply p.1 != me && ((p.2.clip.any fun c => c.tenant == t)
      || (p.2.pend.any fun q => q.clip.any fun c => c.tenant == t)))

/-- The CFGERR of the first failing check of R341, 0 when every check passes.
[DEDUCED, unsafe, log 57] -/
def feedCheck (s : State) (f : Nat) : Nat :=
  match s.openTenant (s.feedTenant f) with
  | none => if s.role 3 then 2 else 1
  | some t =>
    let fmt := s.fld (F.FEED_SRC_FMT f)
    let span := s.fld (F.FEED_CFG_SPAN f)
    let one32 := fun (v : Nat) => decide (1 ≤ v) && decide (v ≤ 32)
    let srx := s.fld (F.FEED_RC_SRX f)
    let sry := s.fld (F.FEED_RC_SRY f)
    let line := s.fld (F.FEED_PITCH_LINE f)
    if !s.role 3 then 1
    else if !s.feedRegionOk f t then 3
    else if !(decide (fmt < 4) && s.fld (F.FEED_SRC_NBUF f) != 0 && one32 (s.fld (F.FEED_CFG_SEGW f)) && one32 (s.fld (F.FEED_CFG_SH f))
        && decide (1 ≤ span) && decide (span ≤ 64) && srx % 8 == 0 && decide (8 ≤ srx) && decide (srx ≤ 128)
        && sry % 8 == 0 && decide (8 ≤ sry) && decide (sry ≤ 64)) then 4
    else if s.sendsTenant (s.feedTenant f) (.feed f) then 5
    else if !Config.feedSpmOk f (s.feedCw f * s.feedCh f) then 6
    else if !s.inWindow (s.fld (F.FEED_REF_PORT f)) (s.feedRef f 0) (2 * (s.feedCw f * s.feedCh f * 4608)) then 7
    else if line < s.feedCw f * 2 * fmtBytes16 fmt || s.fld (F.FEED_PITCH_FRAME f) * 4096 < line * s.feedCh f * 32 then 8
    else 0

/-- The region is the whole tenant window (WHOLE). -/
def State.feedWhole (s : State) (f : Nat) : Bool :=
  (s.openTenant (s.feedTenant f)).any fun t =>
    s.fld (F.FEED_GEOM_CX0 f) == 0 && s.fld (F.FEED_GEOM_CY0 f) == 0 && s.feedCw f * 32 == t.w && s.feedCh f * 32 == t.h

/-- The checks that follow a write of EN = 1 (R341).
[DEDUCED, unsafe, log 57] -/
def feedArm (f : Nat) (s : State) : State :=
  let err := feedCheck s f
  let s1 := s.setFld (F.FEED_STAT_CFGERR f) err
  if err ≠ 0 then (s1.setFlag (F.FEED_CFG_EN f) false).raise 92
  else
    let x := s1.feed f
    let start := if s1.hoists then s1.earliestFrame else 0
    (s1.setFlag (F.FEED_CFG_WHOLE f) (s1.feedWhole f)).setFeed f
      { Feed.reset with start := start, live := true, qpf := s1.fld (F.FEED_RC_QPINIT f), posted := x.posted,
                        cur := x.cur, buf := x.buf, slices := x.slices, out := { x.out with tokens := none, stream := none } }

/-! ### Lines of source and reference -/

/-- Ask for quads that are neither held nor asked for; answers whether all are held. -/
def askQuads (use : MptUse) (port : Nat) (quads : List Nat) (s : State) : Bool × State :=
  let missing := quads.dedup.filter fun q => !s.lines.any fun d => d.use == use && d.addr == 256 * q
  let p := s.port port
  let asked := fun q => (p.queue.any fun r => r.use == use && r.quad == q)
    || p.out.any fun o => o.req.use == use && o.req.quad == q && !o.overdue
  (missing.isEmpty, (missing.filter fun q => !asked q).foldl (fun t q =>
    t.mptQueue port { write := false, quad := q, mask := 0xF, raw := [], use := use }) s)

/-- The quads of a byte range. -/
def quadsOf (a n : Nat) : List Nat := (List.range ((a + n - 1) / 256 - a / 256 + 1)).map (a / 256 + ·)

/-- Bytes from lines held; a byte that is not held counts as pennanted. -/
def heldBytes (l : List Delivery) (a n : Nat) : List PByte := (List.range n).map fun i => (refByteIn l (a + i)).getD ⟨0, true⟩

/-- The address of source buffer b of a feed (R345). -/
def State.feedBuf (s : State) (f b : Nat) : Nat :=
  s.fld (F.FEED_SRC_BASE f) * 64 + (if 2 ≤ s.fld (F.FEED_SRC_FMT f) then 8192 else 0) + b * s.fld (F.FEED_PITCH_FRAME f) * 4096

/-- The bytes of line y of a region cell: address and length. -/
def State.srcLine (s : State) (f b cx v : Nat) : Nat × Nat :=
  let n := 2 * fmtBytes16 (s.fld (F.FEED_SRC_FMT f))
  (s.feedBuf f b + v * s.fld (F.FEED_PITCH_LINE f) + cx * n, n)

/-- One pixel of 32 of a source line: R, G, B, A and whether a byte of it is pennanted (R344). -/
def srcPixel (fmt lutBase : Nat) (lut : List Delivery) (line : List PByte) (p : Nat) : List Nat × Bool :=
  let v := vals line
  match fmt with
  | 0 =>
    let x := leAt v (36 * p / 8) 5 / 2 ^ (36 * p % 8)
    ([x % 4096, x / 4096 % 4096, x / 2 ^ 24 % 4096, 4095], anyPen ((line.drop (36 * p / 8)).take 5))
  | 1 => ((List.range 4).map fun c => leAt v (8 * p + 2 * c) 2 / 16, anyPen ((line.drop (8 * p)).take 8))
  | _ =>
    let w := leAt v (4 * p) 4
    let code := fun (c : Nat) => if fmt = 2 then w / 2 ^ (10 * c) % 1024 else w / 2 ^ (8 * c) % 256
    let e := (List.range 3).map fun c => heldBytes lut (lutBase + 2048 * c + 2 * code c) 2
    (e.map (fun b => leNat (vals b) % 4096) ++ [4095], anyPen ((line.drop (4 * p)).take 4) || e.any anyPen)

/-- The samples of a source cell, its alpha, whether a byte of it is pennanted. -/
def sourceCell (s : State) (f b cx cy : Nat) : CellPix × Nat × Bool :=
  let fmt := s.fld (F.FEED_SRC_FMT f)
  let l := s.lines.filter fun d => d.use == .feed f b
  let lut := s.lines.filter fun d => d.use == .feed f 8
  let px := (List.range 32).flatMap fun y =>
    let a := s.srcLine f b cx (32 * cy + y)
    let line := heldBytes l a.1 a.2
    (List.range 32).map fun p => srcPixel fmt (s.fld (F.FEED_SRC_BASE f) * 64) lut line p
  let arr := px.toArray
  let at_ := fun (c i : Nat) => ((arr.getD i ([], true)).1).getD c 0
  (((List.range 3072).map fun i => at_ (i / 1024) (i % 1024)).toArray,
    (((List.range 1024).map fun i => at_ 3 i).sum + 512) / 1024, px.any (·.2))

/-- The quads of a slice's source. -/
def State.srcQuads (s : State) (f b : Nat) (sl : FSlice) : List Nat :=
  (List.range sl.h).flatMap fun j => (List.range sl.w).flatMap fun i => (List.range 32).flatMap fun y =>
    let a := s.srcLine f b (sl.x + i - s.fld (F.FEED_GEOM_CX0 f)) (32 * (sl.y + j - s.fld (F.FEED_GEOM_CY0 f)) + y)
    quadsOf a.1 a.2

/-- The place of a region pixel of the reference: (cell, tile, p) (R324). -/
def feedPlace (cw u v : Nat) : Nat × Nat × Nat := ((v / 32) * cw + u / 32, 2 * (v % 32 / 8) + u % 32 / 16, 16 * (v % 8) + u % 16)

/-- The address of a tile of the reference of a feed. -/
def State.feedTile (s : State) (f cell t : Nat) : Nat := s.feedRef f (s.fld (F.FEED_REF_CUR f)) + cell * 4608 + 576 * t

/-- The tiles of a pixel area ((u0, u1), (v0, v1)). -/
def feedTiles (cw : Nat) (a : (Nat × Nat) × (Nat × Nat)) : List (Nat × Nat) :=
  (List.range (a.2.2 / 8 - a.2.1 / 8 + 1)).flatMap fun j => (List.range (a.1.2 / 16 - a.1.1 / 16 + 1)).map fun i =>
    let q := feedPlace cw (16 * (a.1.1 / 16 + i)) (8 * (a.2.1 / 8 + j))
    (q.1, q.2.1)

/-- Sample c of a region pixel of the reference. -/
def State.feedSample (s : State) (f : Nat) (l : List Delivery) (c u v : Nat) : Nat :=
  let (cell, t, p) := feedPlace (s.feedCw f) u v
  let bit := 36 * p + 12 * c
  let b := heldBytes l (s.feedTile f cell t + bit / 8) 2
  leNat (vals b) / 2 ^ (bit % 8) % 4096

/-- The bounds of a segment's reference region, in cells of the feed's region (R271, R304). -/
abbrev Bounds := Nat × Nat × Nat × Nat

/-- The pixels that a prediction with a motion vector reads. -/
def feedArea (bd : Bounds) (cx cy : Nat) (mvx mvy : Int) : (Nat × Nat) × (Nat × Nat) :=
  let cl := fun (a : Int) (lo hi : Nat) => (satI a (32 * lo : Nat) (32 * hi - 1 : Nat)).toNat
  let u0 : Int := (32 * cx : Nat) + mvx / 2
  let v0 : Int := (32 * cy : Nat) + mvy / 2
  ((cl u0 bd.1 bd.2.2.1, cl (u0 + 31 + mvx % 2) bd.1 bd.2.2.1), (cl v0 bd.2.1 bd.2.2.2, cl (v0 + 31 + mvy % 2) bd.2.1 bd.2.2.2))

/-- Is a byte of the reference in an area pennanted? -/
def State.feedAreaPen (s : State) (f : Nat) (l : List Delivery) (a : (Nat × Nat) × (Nat × Nat)) : Bool :=
  (List.range (a.2.2 - a.2.1 + 1)).any fun j => (List.range (a.1.2 - a.1.1 + 1)).any fun i =>
    let (cell, t, p) := feedPlace (s.feedCw f) (a.1.1 + i) (a.2.1 + j)
    anyPen (heldBytes l (s.feedTile f cell t + 36 * p / 8) 5)

/-! ### Cutting (R348) -/

/-- The sorted cut lines of an axis. -/
def cutLines (hi : Nat) (l : List Nat) : List Nat := (List.range (hi + 1)).filter fun x => x == 0 || x == hi || l.contains x

/-- Consecutive pairs of a list. -/
def pairs (l : List Nat) : List (Nat × Nat) := l.zip (l.drop 1)

/-- Join the pieces of a strip into slices (R348 step 4): pieces are (cabinet, left, right) in cells of the region. -/
def joinPieces (segw span : Nat) : List (Nat × Nat × Nat) → List (List (Nat × Nat × Nat)) → List (List (Nat × Nat × Nat))
  | [], acc => acc
  | p :: t, acc =>
    match acc.getLast? with
    | none => joinPieces segw span t [[p]]
    | some g =>
      match g.getLast? with
      | some q =>
        if segw < 32 || q.2.2 != p.2.1 || p.1 != q.1 + 1 || decide (span ≤ g.length) then joinPieces segw span t (acc ++ [[p]])
        else joinPieces segw span t (acc.dropLast ++ [g ++ [p]])
      | none => joinPieces segw span t (acc ++ [[p]])

/-- The slices of a frame. -/
def cutSlices (s : State) (f : Nat) (t : Tenant) : List FSlice :=
  let cabs := s.feedCabs f t
  let o := s.feedOrigin f t
  let segw := s.fld (F.FEED_CFG_SEGW f)
  let every := fun (n : Nat) (lo hi first : Nat) => if n = 0 then [] else
    (List.range (hi - first + 1)).filterMap fun (k : Nat) => if k % n = 0 ∧ lo < first + k ∧ first + k < hi then some (first + k) else none
  let e := fun (c : Nat) => SMap.get (fun _ => (⟨0, 0, 0, 0, 0⟩ : MapEntry)) s.ring.map c
  let rows := cutLines (s.feedCh f) (cabs.flatMap fun (c : Nat × Nat × Nat × Nat × Nat) => [c.2.2.1, c.2.2.2.2]
    ++ (every (s.fld (F.FEED_CFG_SH f)) (o.2 + c.2.2.1) (o.2 + c.2.2.2.2) (e c.1).y0).map fun (x : Nat) => x - o.2)
  let cols := cutLines (s.feedCw f) (cabs.flatMap fun (c : Nat × Nat × Nat × Nat × Nat) => [c.2.1, c.2.2.2.1]
    ++ (if segw < 32 then (every segw (o.1 + c.2.1) (o.1 + c.2.2.2.1) (e c.1).x0).map fun (x : Nat) => x - o.1 else []))
  let raw := (pairs rows).flatMap fun (r : Nat × Nat) =>
    let pieces := (pairs cols).filterMap fun (k : Nat × Nat) =>
      (cabs.find? fun c => decide (c.2.1 ≤ k.1) && decide (k.1 < c.2.2.2.1) && decide (c.2.2.1 ≤ r.1) && decide (r.1 < c.2.2.2.2)).map
        fun (c : Nat × Nat × Nat × Nat × Nat) => (c.1, k.1, k.2)
    (joinPieces segw (s.fld (F.FEED_CFG_SPAN f)) pieces []).map fun (g : List (Nat × Nat × Nat)) => (r, g)
  let cx0 := s.fld (F.FEED_GEOM_CX0 f)
  let cy0 := s.fld (F.FEED_GEOM_CY0 f)
  raw.zipIdx.map fun p =>
    let r := p.1.1
    let g := p.1.2
    let x0 := ((g.head?).map (·.2.1)).getD 0
    let x1 := ((g.getLast?).map (·.2.2)).getD 0
    (⟨p.2, cx0 + x0, cy0 + r.1, x1 - x0, r.2 - r.1, g.map fun (q : Nat × Nat × Nat) => (q.1, cx0 + q.2.1, q.2.2 - q.2.1)⟩ : FSlice)

/-- The region cells of a slice. -/
def State.sliceCells (s : State) (f : Nat) (sl : FSlice) : List Nat :=
  (List.range sl.h).flatMap fun j => (List.range sl.w).map fun i =>
    (sl.y + j - s.fld (F.FEED_GEOM_CY0 f)) * s.feedCw f + (sl.x + i - s.fld (F.FEED_GEOM_CX0 f))

/-! ### Encoding a slice (R350 to R353, R359) -/

/-- What the encode of a slice yields so far. -/
structure EncOut where
  st : EncSt
  done : List (Nat × CellPix × Nat)
  payloads : List (Nat × List Byte)
  mends : List Nat
  broken : List Nat
  proxies : List (Nat × Nat)
  srcPen : Nat
  k : Nat
  lastBins : Nat

/-- What is fixed for the cells of a segment. -/
structure EncEnv where
  s : State
  f : Nat
  sc : SliceCtx
  qp : Nat
  buf : Option Nat
  bd : Bounds
  x0 : Nat
  y0 : Nat
  ref : List Delivery
  choices : List CellChoice

def startEnc (qp : Nat) : EncSt := ⟨⟨[], 0, 0, ctxInit, qp, [0, 0, 0], [], 4095, [], [], []⟩, []⟩

def CellChoice.skip : CellChoice := ⟨0, 0, 0, [], [], [], []⟩

/-- May a cell use the reference area that a motion vector gives: no DESYNC cell, no pennanted byte (R353)?
[DESIGN CHOICE, safe, log 58] -/
def EncEnv.refGood (v : EncEnv) (cx cy : Nat) (mvx mvy : Int) : Bool :=
  let a := feedArea v.bd cx cy mvx mvy
  let x := v.s.feed v.f
  ((feedTiles (v.s.feedCw v.f) a).all fun t => !x.desync.contains t.1) && !v.s.feedAreaPen v.f v.ref a

/-- Can MSE find a motion vector, in half-pel: a coarse vector within the search ranges, refined by ±4 pixels and ±1 half-pel (R350),
within R303?
[DESIGN CHOICE, safe, log 58] -/
def State.searched (s : State) (f : Nat) (mvx mvy : Int) : Bool :=
  let within := fun (v : Int) (range : Nat) (lim : Nat) => decide (v.natAbs ≤ min lim (2 * range + 9))
  within mvx (s.fld (F.FEED_RC_SRX f)) 256 && within mvy (s.fld (F.FEED_RC_SRY f)) 128

/-- The proxy of a source cell (R350): for each of its 8 × 8 blocks, its number in the region and the mean of G. -/
def cellProxy (cw cx cy : Nat) (pix : CellPix) : List (Nat × Nat) :=
  (List.range 16).map fun b =>
    (4 * cw * (4 * cy + b / 4) + 4 * cx + b % 4,
      (((List.range 64).map fun p => pixAt pix 1 (8 * (b % 4) + p % 8) (8 * (b / 4) + p / 8)).sum + 32) / 64)

/-- Encode one cell: the choice made by the images is held to the rules that bind them, FLAT with the mean where it breaks one.
[DESIGN CHOICE, safe, log 58] -/
def encodeCell (v : EncEnv) (cx cy : Nat) (o : EncOut) : EncOut :=
  let s := v.s
  let x := s.feed v.f
  let cw := s.feedCw v.f
  let cell := cy * cw + cx
  let ch := v.choices.getD o.k CellChoice.skip
  let src := match v.buf with | some b => sourceCell s v.f b cx cy | none => (flatCell [0, 0, 0], 4095, false)
  let refAlpha := SMap.get (fun _ => 4095) x.alphas cell
  let ref := fun (c : Nat) (u w : Int) =>
    s.feedSample v.f v.ref c (satI u (32 * v.bd.1 : Nat) (32 * v.bd.2.2.1 - 1 : Nat)).toNat
      (satI w (32 * v.bd.2.1 : Nat) (32 * v.bd.2.2.2 - 1 : Nat)).toNat
  let at_ := fun (a b : Nat) => (o.done.find? fun p => p.1 == b * cw + a).map (·.2.1)
  let left := if cx ≤ v.x0 then none else at_ (cx - 1) cy
  let up := if cy ≤ v.y0 then none else (at_ cx (cy - 1)).map fun p => rowOf p 31
  let corner := if cx ≤ v.x0 ∨ cy ≤ v.y0 then none else (at_ (cx - 1) (cy - 1)).map fun p => (List.range 3).map fun c => pixAt p c 31 31
  let ar : Around := ⟨up, left, corner⟩
  let alpha := if v.sc.amode = 2 then src.2.1 else 4095
  let blank : CellSyn := ⟨2, alpha, false, o.st.st.qp, 0, 0, [], [], [], []⟩
  let skip : CellSyn := { blank with mode := 0, alpha := if v.sc.amode = 2 then refAlpha else 4095 }
  let mean : CellSyn := { blank with flat := cellMean src.1 }
  let hold : CellSyn := { blank with flat := o.st.st.f.map Int.toNat, alpha := if v.sc.amode = 2 then o.st.st.pa else 4095 }
  let lost := x.desync.contains cell
  let run := fun (c : CellSyn) => ((putCell v.sc (if lost then none else some refAlpha) c).run o.st).2
  let refPen := v.sc.delta && s.feedAreaPen v.f v.ref (feedArea v.bd cx cy 0 0)
  let coded := fun (mode qp : Nat) =>
    let e := encodeBlocks v.sc ar ref (32 * cx) (32 * cy) (mode == 3) ch.mvx ch.mvy ch.imodes qp src.1
    ({ blank with mode := mode, qp := qp, mvx := if mode = 1 then ch.mvx else 0, mvy := if mode = 1 then ch.mvy else 0, blocks := e.1 } : CellSyn)
  let limited := fun (mode : Nat) =>
    let c1 := coded mode v.qp
    let c2 := coded mode (min 63 (v.qp + 12))
    if withinLimit o.st (run c1) then c1 else if withinLimit o.st (run c2) then c2 else mean
  let palOk := !ch.palette.isEmpty && decide (ch.palette.length ≤ 8) && ch.palette.Nodup
    && ch.palette.all (fun e => e.length == 3 && e.all fun w => decide (w < 4096)) && ch.indices.length == 1024
    && ch.indices.all fun i => decide (i < ch.palette.length)
  let c : CellSyn :=
    if v.buf.isNone then skip
    else if src.2.2 then (if v.sc.delta then skip else hold)
    else match ch.mode with
      | 0 => if v.sc.delta && !lost && v.refGood cx cy 0 0 then skip else mean
      | 1 => if v.sc.delta && !lost && s.searched v.f ch.mvx ch.mvy
            && v.refGood cx cy ch.mvx ch.mvy then limited 1 else mean
      | 2 => if ch.flat.length = 3 ∧ ch.flat.all (fun w => decide (w < 4096)) then { blank with flat := ch.flat } else mean
      | 3 => limited 3
      | _ => if palOk then { blank with mode := 4, palette := ch.palette, indices := if ch.palette.length = 1 then List.replicate 1024 0 else ch.indices } else mean
  let pix := reconCell v.sc ar ref (32 * cx) (32 * cy) c
  let st := run c
  let bad := src.2.2 || (refPen && decide (c.mode ≤ 1))
  { o with st := st, done := o.done ++ [(cell, pix, c.alpha)], k := o.k + 1, lastBins := st.bins.length - o.st.bins.length,
           mends := if (lost || refPen) && !bad && decide (2 ≤ c.mode) then o.mends ++ [cell] else o.mends,
           broken := if bad then o.broken ++ [cell] else o.broken,
           proxies := if v.buf.isNone then o.proxies else o.proxies ++ cellProxy cw cx cy src.1,
           srcPen := o.srcPen + b2n src.2.2 }

/-- Encode one segment of a slice. -/
def encodeSegment (env : EncEnv) (cab w h : Nat) (o : EncOut) : EncOut :=
  let o1 := (List.range h).foldl (fun (o : EncOut) j =>
    let r := (List.range w).foldl (fun (o : EncOut) i => encodeCell env (env.x0 + i) (env.y0 + j) o) o
    { r with st := { r.st with st := { r.st.st with above := r.st.st.cur, cur := [] } } })
    { o with st := startEnc env.qp }
  { o1 with payloads := o1.payloads ++ [(cab, (ransEncode o1.st.bins).flatMap (beBytes 2))] }

/-- The prediction areas that the choices of a slice name, by reference tile. -/
def State.sliceTiles (s : State) (f : Nat) (sl : FSlice) (bds : List (Nat × Bounds)) (choices : List CellChoice) : List (Nat × Nat) :=
  let cx0 := s.fld (F.FEED_GEOM_CX0 f)
  let cy0 := s.fld (F.FEED_GEOM_CY0 f)
  let cells := sl.segs.flatMap fun g => (List.range sl.h).flatMap fun j => (List.range g.2.2).map fun i => (g.1, g.2.1 - cx0 + i, sl.y - cy0 + j)
  (cells.zipIdx.flatMap fun p =>
    let ch := choices.getD p.2 CellChoice.skip
    let bd := ((bds.find? fun b => b.1 == p.1.1).map (·.2)).getD (0, 0, 1, 1)
    feedTiles (s.feedCw f) (feedArea bd p.1.2.1 p.1.2.2 0 0)
      ++ (if ch.mode = 1 then feedTiles (s.feedCw f) (feedArea bd p.1.2.1 p.1.2.2 ch.mvx ch.mvy) else [])).dedup

/-- The whole unit of an encoded slice (R276, R277, R349). -/
def sliceUnitBytes (tenant fnum : Nat) (key : Bool) (pset qp refnum : Nat) (sl : FSlice) (pl : List (Nat × List Byte)) : List Byte :=
  let n := pl.length
  let len := 36 + 8 * n + ((pl.map fun p => p.2.length).sum)
  unitHead 2 tenant len ++ beBytes 4 fnum ++ beBytes 1 (b2n (!key)) ++ beBytes 1 pset ++ beBytes 1 qp ++ beBytes 1 n
    ++ beBytes 4 (if key then 0 else refnum) ++ beBytes 2 ((pl.head?.map (·.1)).getD 0) ++ beBytes 2 ((pl.getLast?.map (·.1)).getD 0)
    ++ beBytes 2 sl.x ++ beBytes 2 sl.y ++ beBytes 2 sl.w ++ beBytes 2 sl.h ++ beBytes 4 0
    ++ pl.flatMap (fun p => beBytes 2 p.1 ++ [0, 0] ++ beBytes 4 p.2.length) ++ pl.flatMap (·.2)

/-! ### The end of a frame (R346, R353, R354, R358) -/

/-- The slices of a feed in the encode engines. -/
def State.feedJobs (s : State) (f : Nat) : List (Nat × EncJob) := s.encs.filter fun p => p.2.feed == f

/-- Source 90 is raised once for a frame; DROPS counts. -/
def feedDrop (f n : Nat) (cells : List Nat) (s : State) : State :=
  if n = 0 then s else
  let x := s.feed f
  let s1 := (s.bump (F.FEED_STAT_DROPS f) n).setFeed f { x with raised90 := true, broken := x.broken ++ cells }
  if x.raised90 then s1 else s1.raise 90

/-- SRC has read the buffer's last cell, or the frame is abandoned.
[DEDUCED, unsafe, log 57] -/
def releaseBuf (f : Nat) (s : State) : State :=
  let x := s.feed f
  match x.buf with
  | none => s
  | some b =>
    let s1 := s.setFld (F.FEED_STAT_INUSE f) (clrBit (s.fld (F.FEED_STAT_INUSE f)) b)
    ((s1.setFeed f { x with buf := none }).forget fun u => u == .feed f b || u == .feed f 8).raise 91

/-- An encode engine is free again. -/
def freeEngine (n res : Nat) (s : State) : State :=
  seBusy n (abortStages (n + 1) (setRowParams n [(5, res)] { s with encs := s.encs.filter fun p => p.1 != n }))

/-- QPMIN and QPMAX as they serve (R358). -/
def State.qpRange (s : State) (f : Nat) : Nat × Nat :=
  let hi := s.fld (F.FEED_RC_QPMAX f)
  (min (s.fld (F.FEED_RC_QPMIN f)) hi, hi)

/-- The bit target per frame. -/
def State.bitTarget (s : State) (f : Nat) (t : Tenant) : Nat :=
  ((s.fld (F.FEED_CFG_SHARE f) + 1) * t.rate * s.periodNs) / 65536000000

/-- qpf after a frame.
[DEDUCED, unsafe, log 57] -/
def nextQpf (lo hi tf b qpf : Nat) : Nat :=
  if tf < b then satN (qpf + 1) lo hi else if 4 * b < 3 * tf then (satI ((qpf : Int) - 1) lo hi).toNat else qpf

/-- The frame in hand has been sent or is abandoned: what is left of it is dropped, the reference buffers exchange their roles.
[DEDUCED, unsafe, log 57] -/
def endFeedFrame (f : Nat) (s : State) : State :=
  match (s.feed f).cur with
  | none => s
  | some n =>
    let x := s.feed f
    let jobs := s.feedJobs f
    let units := x.out.queue.filter (·.slice)
    let cells := (x.slices ++ jobs.map (·.2.slice)).flatMap (s.sliceCells f) ++ units.flatMap (·.cells)
    let s1 := jobs.foldl (fun t p => freeEngine p.1 1 t) s
    let s2 := releaseBuf f (feedDrop f (x.slices.length + jobs.length + units.length) cells s1)
    let r := sendPack (s2.feedTenant f) n true (s2.feed f).out s2
    let s3 := r.1
    let y := s3.feed f
    let range := s3.qpRange f
    let tf := ((s3.openTenant (s3.feedTenant f)).map (s3.bitTarget f)).getD 0
    let held := x.nosrc && s3.flag (F.FEED_CFG_WHOLE f)
    let out := { r.2 with queue := [], qbytes := 0, pack := [], starts := [] }
    let s4 := s3.setFeed f
      { y with cur := none, slices := [], desync := ((y.desync.filter fun c => !y.mended.contains c) ++ y.broken).dedup, mended := [],
               broken := [], alphas := SMap.splice (fun _ => 4095) y.alphas 0 ((List.range (s3.feedCw f * s3.feedCh f)).map fun c =>
                 SMap.get (fun _ => SMap.get (fun _ => 4095) y.alphas c) y.build c), build := [],
               proxy := [], proxyPrev := if y.proxy.isEmpty then y.proxyPrev else y.proxy,
               qpf := nextQpf range.1 range.2 tf y.bDone y.qpf, bDone := 0, tDone := 0,
               raised90 := false, raised94 := false, live := y.live && !y.stopping, stopping := false, out := out }
    let s5 := s4.forget fun u => u == .feedRef f
    if held then s5 else s5.setFld (F.FEED_REF_CUR f) (1 - s5.fld (F.FEED_REF_CUR f))

/-- Has the frame in hand nothing left to encode or send? -/
def State.feedIdle (s : State) (f : Nat) : Bool :=
  (s.feed f).slices.isEmpty && (s.feedJobs f).isEmpty && (s.feed f).out.queue.isEmpty

/-! ### Binding (R346, R347, R349) -/

/-- The STREAM unit that every feed of the tenant sends (R342). -/
def feedStream (tenant fmt : Nat) (t : Tenant) : List Byte :=
  unitHead 1 tenant 24 ++ [BitVec.ofNat 8 (b2n (fmt == 1)), if fmt = 1 then 5 else 1] ++ beBytes 2 (t.w / 32) ++ beBytes 2 (t.h / 32)
    ++ [0, 0, 0, 1] ++ List.replicate 6 0

/-- Does a feed carry out its duties (R91, R340)? -/
def State.feeds? (s : State) (bit : Nat) : Bool :=
  s.build == .x && s.cclkOn && s.role bit && feederModes s.mode && s.hoists

/-- The cells of the region in a rectangle of window cells, both corners included. -/
def State.rectCells (s : State) (f : Nat) (r : Nat × Nat × Nat × Nat) : List Nat :=
  let cx0 := s.fld (F.FEED_GEOM_CX0 f)
  let cy0 := s.fld (F.FEED_GEOM_CY0 f)
  (List.range (s.feedCw f * s.feedCh f)).filter fun c =>
    let x := cx0 + c % s.feedCw f
    let y := cy0 + c / s.feedCw f
    decide (r.1 ≤ x) && decide (x ≤ r.2.2.1) && decide (r.2.1 ≤ y) && decide (y ≤ r.2.2.2)

/-- F(N): the feed binds a buffer and cuts the frame.
[DEDUCED, unsafe, log 57] -/
def feedBind (f n now : Nat) (s : State) : State :=
  let s1 := s.atTime now
  let s0 := if s1.atFeedTime n then endFeedFrame f s1 else s1
  let x := s0.feed f
  match s0.openTenant (s0.feedTenant f) with
  | none => s0
  | some t =>
    if 16 ≤ f || !s0.feeds? 3 || !s0.atFeedTime n || !x.live || decide (n < x.start) || (x.posted.isNone && x.first.isNone) then s0
    else
      let due := match x.out.stream with | none => true | some a => decide (a + 1000000000 ≤ s0.feedTime n)
      let out := if due then
          x.out.push n (openBytes (feedStream (s0.feedTenant f) (s0.fld (F.FEED_SRC_FMT f)) t)) false [] []
        else x.out
      let desync := (x.desync ++ x.rects.flatMap (s0.rectCells f)).dedup
      let first := x.first.getD n
      let ki := s0.fld (F.FEED_CFG_KEYINT f)
      let base : Feed := { x with cur := some n, first := some first, refF := x.lastF, posted := none, rects := [], desync := desync, start := n + 1 }
      match x.posted with
      | some b =>
        let s1 := s0.setFld (F.FEED_STAT_INUSE f) (setBit (s0.fld (F.FEED_STAT_INUSE f)) b)
        let s2 := s1.setFeed f { base with buf := some b, nosrc := false, key := n == first || (ki != 0 && (n - first) % ki == 0),
                                           slices := cutSlices s1 f t, out := out }
        if 2 ≤ s2.fld (F.FEED_SRC_FMT f) then (askQuads (.feed f 8) 0 (quadsOf (s2.fld (F.FEED_SRC_BASE f) * 64) 8192) s2).2 else s2
      | none =>
        let s1 := s0.setFlag (F.FEED_STAT_NOSRC f) true
        if s1.flag (F.FEED_CFG_WHOLE f) then
          s1.setFeed f { base with buf := none, nosrc := true, key := false, slices := []
                                   out := out.push n (openBytes (holdUnit (s1.feedTenant f) (n % 2 ^ 32) ((x.lastF.getD 0) % 2 ^ 32))) false [] [] }
        else s1.setFeed f { base with buf := none, nosrc := true, key := false, slices := cutSlices s1 f t, out := out }

/-! ### Dispatch and queueing (R354 to R358) -/

/-- May engine n take a slice: in service, assigned to encode, with nothing in hand? -/
def State.encodes (s : State) (n : Nat) : Bool :=
  s.build == .x && decide (n < seCount s.build) && s.inService Cls.se n && s.flag (F.SEN_CTL_ENC n) && (s.rows n).isEmpty
    && !(s.encs.any fun p => p.1 == n) && s.cclkOn

/-- The feed whose deadline is earliest, the lower index on a tie. -/
def State.dueFeed (s : State) : Option Nat :=
  ((List.range 16).foldl (fun (acc : Option (Nat × Nat)) f =>
    match (s.feed f).cur, (s.feed f).slices.isEmpty, acc with
    | some n, false, none => some (n, f)
    | some n, false, some a => if n < a.1 then some (n, f) else some a
    | _, _, _ => acc) none).map (·.2)

/-- The QP of a slice at its dispatch and its target (R358). Where tf is zero the spec states no dev: it is free.
[DESIGN CHOICE, safe, log 2] -/
def sliceQp (s : State) (f : Nat) (t : Tenant) (cells : Nat) : State × Nat × Nat :=
  let x := s.feed f
  let out := x.out.refill (s.fld (F.FEED_CFG_SHARE f)) t s.tsu.now
  let cap := bucketCap (s.fld (F.FEED_CFG_SHARE f)) t.burst
  let tf := s.bitTarget f t
  let total := ((cutSlices s f t).map fun sl => sl.w * sl.h).sum
  let dev : Int := if tf = 0 then toSigned (s.free 8) 8 else tdivI (16 * ((x.bDone : Int) - x.tDone)) tf
  let fill := 16 * (cap - out.tokens.getD 0) / max cap 1
  let add : Int := if 12 ≤ fill then 4 else if 8 ≤ fill then 2 else 0
  let r := s.qpRange f
  let s1 := if tf = 0 then s.drew else s
  (s1.setFeed f { x with out := out }, (satI ((x.qpf : Int) + dev + add) r.1 r.2).toNat, tf * cells / max total 1)

/-- A free encode engine takes the next slice.
[DESIGN CHOICE, safe, log 58] -/
def encodeDispatch (n now : Nat) (s : State) : State :=
  let s0 := s.atTime now
  match s0.encodes n, s0.dueFeed with
  | true, some f =>
    let x := s0.feed f
    match x.slices, s0.openTenant (s0.feedTenant f) with
    | sl :: rest, some t =>
      let q := sliceQp s0 f t (sl.w * sl.h)
      let s1 := q.1.setFeed f { q.1.feed f with slices := rest }
      let s2 := seBusy n (({ s1 with encs := SMap.insert n (⟨f, sl, q.2.1, q.2.2⟩ : EncJob) s1.encs }).setFld (F.FEED_STAT_QP f) q.2.1)
      let s3 := setRowParams n [(0, f), (1, sl.idx), (2, (x.cur.getD 0) % 2 ^ 32), (3, q.2.1), (4, 0), (5, 0), (6, 0), (7, 0)] s2
      let s4 := (List.range 11).foldl (fun u k => if k = 8 then u else u.setStage (n + 1) k { u.stage (n + 1) k with busy := true, done := false }) s3
      match x.buf with
      | some b => (askQuads (.feed f b) 0 (s4.srcQuads f b sl) s4).2
      | none => s4
    | _, _ => s0
  | _, _ => s0

/-- The writes of a reconstructed cell to the build buffer. -/
def feedWrites (s : State) (f cell : Nat) (pix : CellPix) : List MptReq :=
  let a := s.feedRef f (1 - s.fld (F.FEED_REF_CUR f)) + cell * 4608
  let d := cellBytes pix
  (List.range 18).map fun i =>
    { write := true, quad := a / 256 + i, mask := 0xF
      raw := (List.range 4).flatMap fun n => (d.drop (256 * i + 64 * n)).take 64 ++ List.replicate 16 0
      use := .feedWrite f cell }

/-- The proxies that SRC has formed of frame N (R350).
[DESIGN CHOICE, safe, log 58] -/
def noteProxies (f : Nat) (l : List (Nat × Nat)) (s : State) : State :=
  s.setFeed f { s.feed f with proxy := l.foldl (fun t p => SMap.put (fun _ => 4096) t p.1 p.2) (s.feed f).proxy }

/-- ENT has finished the last segment of the slice in engine n: SLI queues the unit. While lines of source or reference are awaited
the slice stays in hand.
[DESIGN CHOICE, safe, log 58] -/
def sliceQueued (n : Nat) (choices : List CellChoice) (s : State) : State :=
  match (s.encs.find? fun p => p.1 == n).map (·.2) with
  | none => s
  | some j =>
    let f := j.feed
    let x := s.feed f
    match s.openTenant (s.feedTenant f), x.cur with
    | some t, some frame =>
      let cells := s.sliceCells f j.slice
      let key := !x.nosrc && (x.key || cells.all x.desync.contains)
      let bds := (s.feedCabs f t).map fun (c : Nat × Nat × Nat × Nat × Nat) => (c.1, c.2)
      let a := match x.buf with | some b => askQuads (.feed f b) 0 (s.srcQuads f b j.slice) s | none => (true, s)
      let lut := x.buf.isSome && decide (2 ≤ s.fld (F.FEED_SRC_FMT f))
      let b := if lut then askQuads (.feed f 8) 0 (quadsOf (s.fld (F.FEED_SRC_BASE f) * 64) 8192) a.2 else (true, a.2)
      let tiles := if key then [] else s.sliceTiles f j.slice bds choices
      let c := askQuads (.feedRef f) (s.fld (F.FEED_REF_PORT f)) (tiles.flatMap fun q => tileQuads (s.feedTile f q.1 q.2)) b.2
      if !(a.1 && b.1 && c.1) then c.2
      else
        let s1 := c.2
        let fmt := s1.fld (F.FEED_SRC_FMT f)
        let cx0 := s1.fld (F.FEED_GEOM_CX0 f)
        let cy0 := s1.fld (F.FEED_GEOM_CY0 f)
        let ref := s1.lines.filter fun d => d.use == .feedRef f
        let o := j.slice.segs.foldl (fun (o : EncOut) g =>
          encodeSegment ⟨s1, f, ⟨!key, if fmt = 1 then 2 else 0, 0, g.2.2, [0, 0, 0], true⟩, j.qp, x.buf,
            ((bds.find? fun p => p.1 == g.1).map (·.2)).getD (0, 0, 1, 1), g.2.1 - cx0, j.slice.y - cy0, ref, choices⟩ g.1 g.2.2 j.slice.h o)
          ⟨startEnc j.qp, [], [], [], [], [], 0, 0, 0⟩
        let bytes := sliceUnitBytes (s1.feedTenant f) (frame % 2 ^ 32) key (b2n (fmt == 1)) j.qp ((x.refF.getD 0) % 2 ^ 32) j.slice o.payloads
        let s2 := if o.srcPen = 0 then s1 else
          let u := (s1.bump (F.FEED_STAT_SRCPEN f) o.srcPen).setFeed f { s1.feed f with raised94 := true }
          if x.raised94 then u else u.raise 94
        let used := (x.out.queue.map fun u => u.bytes.length).sum
        let full := decide (Config.sendSpace f < used + bytes.length)
        let s3 := noteProxies f o.proxies (setRowParams n [(4, o.done.length), (6, o.lastBins), (7, (o.payloads.map fun p => p.2.length).sum)]
          (freeEngine n (if full then 2 else 0) s2))
        let s4 := if full then feedDrop f 1 cells s3
          else
            let y := s3.feed f
            let out := y.out.push frame (markUnit bytes) true cells o.mends
            let bits := ((out.queue.getLast?).map (·.bits)).getD 0
            let s5 := s3.setFeed f { y with out := out, bDone := y.bDone + bits, tDone := y.tDone + j.target, broken := y.broken ++ o.broken
                                            build := o.done.foldl (fun l p => SMap.put (fun _ => 4096) l p.1 p.2.2) y.build }
            o.done.foldl (fun u p => (feedWrites u f p.1 p.2.1).foldl (fun v r => v.mptQueue (v.fld (F.FEED_REF_PORT f)) r) u) s5
        let s6 := if (s4.feed f).slices.isEmpty && (s4.feedJobs f).isEmpty then releaseBuf f s4 else s4
        if s6.feedIdle f then endFeedFrame f s6 else s6
    | _, _ => freeEngine n 1 s

/-- A retired engine's slice returns to the head of dispatch order (R355). -/
def returnSlice (n : Nat) (s : State) : State :=
  match (s.encs.find? fun p => p.1 == n).map (·.2) with
  | none => s
  | some j =>
    let x := s.feed j.feed
    (freeEngine n 0 s).setFeed j.feed { x with slices := j.slice :: x.slices }

/-- The head unit of a feed's queue leaves (R357).
[DEDUCED, unsafe, log 57] -/
def feedSend (f : Nat) (s : State) : State :=
  let x := s.feed f
  match s.openTenant (s.feedTenant f), x.cur with
  | some t, some n =>
    if !s.feeds? 3 then s else
    match (x.out.refill (s.fld (F.FEED_CFG_SHARE f)) t s.tsu.now).leave with
    | none => s
    | some (u, out) =>
      let r := sendPack (s.feedTenant f) n false (out.noteStream u s.tsu.now) s
      let t1 := ownUnit (u.bytes.map (·.1)) r.1
      let y := t1.feed f
      let s1 := t1.setFeed f { y with out := r.2, mended := y.mended ++ u.mends, lastF := if u.slice then some n else y.lastF }
      if s1.feedIdle f then endFeedFrame f s1 else s1
  | _, _ => s

/-! ### Registers and refresh -/

/-- A write of FEEDf_CFG (R341, R369).
[DEDUCED, unsafe, log 57] -/
def feedCfgWrite (w : Writer) (f be : Nat) (data : W64) (s : State) : State :=
  let old := s.reg (F.FEED_CFG_EN f).off
  let new := s.written w (F.FEED_CFG_EN f).off be data
  let was := s.flag (F.FEED_CFG_EN f)
  let en := getBits new 63 1 == 1
  let v := if was then setBits (setBits old 24 8 (getBits new 24 8)) 63 1 (b2n en) else new
  let s1 := s.setReg (F.FEED_CFG_EN f).off v
  if en && !was then feedArm f s1
  else if was && !en then
    let x := s1.feed f
    s1.setFeed f (if x.cur.isSome then { x with stopping := true } else { x with live := false })
  else s1

/-- A write of FEEDf_SRC, GEOM, PITCH or REF: discarded while EN is 1. -/
def feedSetupWrite (w : Writer) (f off be : Nat) (data : W64) (s : State) : State :=
  if s.flag (F.FEED_CFG_EN f) then s else s.plainWrite w off be data

/-- A write of FEEDf_POST (R346). -/
def feedPost (f buf : Nat) (s : State) : State :=
  if 16 ≤ f || s.build == .d then s
  else if s.fld (F.FEED_SRC_NBUF f) < buf || bitOf (s.fld (F.FEED_STAT_INUSE f)) buf then s.setFlag (F.FEED_STAT_POSTERR f) true
  else s.setFeed f { s.feed f with posted := some buf }

/-- A refresh request of a tenant (R360). -/
def feedRefresh (tenant : Nat) (r : Nat × Nat × Nat × Nat) (s : State) : State :=
  (List.range 16).foldl (fun t f =>
    if (t.feed f).live && t.feedTenant f == tenant && !(t.rectCells f r).isEmpty then
      (t.bump (F.FEED_STAT_RFRQ f) 1).setFeed f { t.feed f with rects := (t.feed f).rects ++ [r] }
    else t) s

/-- A write to the build buffer failed (R353). -/
def feedWriteFailed (f cell : Nat) (s : State) : State :=
  let x := s.feed f
  if x.cur.isSome then s.setFeed f { x with broken := x.broken ++ [cell] } else s.setFeed f { x with desync := addOnce x.desync cell }

/-- FEED_ARM (R341): A write of FEEDf_CFG.EN = 1 arms the feed and firmware checks it. -/
def execFeedArm (w : Writer) (f : Nat) (v : W64) (now : Nat) (s : State) : Answer :=
  .next (whileClocked s (if f < 16 then feedCfgWrite w f 0xFF (setBits v 63 1 1) (s.atTime now) else s))
/-- FEED_STOP (R341): A write of FEEDf_CFG.EN = 0 stops the feed after the frame in hand. -/
def execFeedStop (w : Writer) (f : Nat) (s : State) : Answer :=
  .next (whileClocked s (if f < 16 then feedCfgWrite w f 0xFF (setBits (s.reg (F.FEED_CFG_EN f).off) 63 1 0) s else s))
/-- FEED_POST (R346): A write of FEEDf_POST posts a complete source buffer. -/
def execFeedPost (f buf : Nat) (s : State) : Answer := .next (whileClocked s (feedPost f (buf % 8) s))
/-- FEED_BIND (R346): At F(N) the feed binds the latest posted buffer, or sends HOLD or SKIP slices, and cuts the frame into slices. -/
def execFeedBind (f n now : Nat) (s : State) : Answer := .next (whileLive s (feedBind f n now s))
/-- SLICE_ENCODE_DISPATCH (R354): A free encode engine takes the next slice in deadline order and RCA sets its QP. -/
def execSliceEncodeDispatch (n now : Nat) (s : State) : Answer := .next (whileLive s (encodeDispatch n now s))
/-- SLICE_QUEUED (R354): When ENT finishes a slice's last segment, SLI queues the unit for sending. -/
def execSliceQueued (n : Nat) (choices : List CellChoice) (s : State) : Answer := .next (whileLive s (sliceQueued n choices s))

end Sys2Proof.Machine
end

