-- ==== Sys2Proof/Machine/FrameRx.lean ====
section
/-!
DEFINITION. The receive side of the ring (R491 to R502): the forwarding rules, VIDEO authentication and reassembly, delivery of
management, budget, schedule, refresh, supervision and BULK frames.
-/

namespace Sys2Proof.Machine

/-! ### VIDEO: units in the stream (R272 to R277, R493) -/

/-- The stream of a pair split at its unit headers: complete units, the rest, and whether a header with ULEN below 8 ends it. -/
structure Split where
  units : List (List Byte)
  rest : List Byte
  broken : Bool
  deriving DecidableEq, Repr

/-- Split a byte string into units; `fuel` bounds the number of units. -/
def splitStream : Nat → List Byte → Split
  | 0, l => ⟨[], l, false⟩
  | n + 1, l =>
    if l.length < 8 then ⟨[], l, false⟩
    else
      let len := beAt l 4 4
      if len < 8 then ⟨[], [], true⟩
      else if l.length < len then ⟨[], l, false⟩
      else
        let r := splitStream n (l.drop len)
        ⟨l.take len :: r.units, r.rest, r.broken⟩

/-- Mark the bytes of a stream that starts at a unit header: which of them lie in segment payloads (R277, R494). -/
def markStream : Nat → List Byte → List (Byte × Bool)
  | 0, l => openBytes l
  | n + 1, l =>
    let len := beAt l 4 4
    if l.length < 8 || len < 8 then openBytes l
    else markUnit (l.take len) ++ markStream n (l.drop len)

/-- Does a stream hold, from byte `from` on, bytes of a unit that the engine keeps?
[DEDUCED, unsafe, log 43] -/
def State.keptFrom (s : State) : Nat → List Byte → Nat → Bool
  | 0, l, _ => !l.isEmpty
  | n + 1, l, start =>
    if l.isEmpty then false
    else if l.length < 8 then decide (start < l.length)
    else
      let len := beAt l 4 4
      if len < 8 then true
      else (decide (start < len) && s.keeps (l.take len)) || s.keptFrom n (l.drop len) (start - len)

/-- A frame of the layout of R492, parsed. -/
structure VideoFrame where
  enc : Bool
  tenant : Nat
  sender : Nat
  keyid : Nat
  ctr : Nat
  plen : Nat
  uoff : Nat
  head : List Byte
  body : List Byte
  icv : List Byte
  deriving DecidableEq, Repr

def parseVideo (p : List Byte) : VideoFrame :=
  let plen := beAt p 20 2
  ⟨bitOf (byteAt p 1) 0, beAt p 2 2, beAt p 4 2, beAt p 6 2, beAt p 8 8, plen, beAt p 22 2, p.take 24, (p.drop 24).take plen,
    (p.drop (24 + plen)).take 16⟩

/-- Does a VIDEO or BULK frame break its own layout (R493)?
[DEDUCED, unsafe, log 43] -/
def videoBad (p : List Byte) : Bool :=
  let v := parseVideo p
  v.plen == 0 || decide (2048 < v.plen) || decide (2 ≤ byteAt p 1) || decide (1024 ≤ v.tenant)
    || (v.uoff != 0xFFFF && decide (v.plen ≤ v.uoff)) || decide (p.length < 40 + v.plen)

/-- The plaintext body of a frame under an entry, when its ICV verifies (R494); `marks` says which bytes are encrypted.
[DEDUCED, unsafe, log 43] -/
def openVideo (e : KeyEntry) (v : VideoFrame) (marks : List Bool) : Option (List Byte) :=
  let nonce := frameNonce v.sender v.keyid v.ctr
  if v.enc then
    let l := v.body.zip marks
    (gcmOpen e.key nonce (v.head ++ clearBytes l) (secretBytes l) v.icv).map fun txt => mergeBytes l txt
  else (gcmOpen e.key nonce (v.head ++ v.body) [] v.icv).map fun _ => v.body

/-- R495, orders 1 to 4, against the entries of a key slot: the plaintext body, or none when a check fails.
[DEDUCED, unsafe, log 43] -/
def checkVideo (slot : Nat) (need : List Nat) (v : VideoFrame) (marks : List Bool) (s : State) : State × Option (List Byte) :=
  let bad := fun (t : State) => (authDrop (t.bump F.RING_AUTH_AUTHFAIL 1), (none : Option (List Byte)))
  match (s.keySlot slot).byId v.keyid with
  | none => bad s
  | some e =>
    if !need.all (bitOf e.use) then bad s
    else
      match openVideo e v marks with
      | none => bad s
      | some body =>
        let same := fun (r : VReplay) => r.sender == v.sender && r.tenant == slot && r.keyid == v.keyid
        let have_ := s.ring.vreps.find? same
        if have_.isNone && decide (1024 ≤ s.ring.vreps.length) then (authDrop (s.bump F.RING_AUTH_VPOOL 1), none)
        else
          let r : VReplay := have_.getD ⟨v.sender, slot, v.keyid, 0, []⟩
          let pass := decide (r.hi < v.ctr)
            || (v.ctr != 0 && v.ctr != r.hi && decide (r.hi ≤ v.ctr + 2048) && !r.seen.contains v.ctr)
          if !pass then (s.bump F.RING_AUTH_VREPLAY 1, none)
          else
            let hi := max r.hi v.ctr
            let seen := (v.ctr :: r.hi :: r.seen).filter fun c => c != hi && decide (hi ≤ c + 2048) && c != 0
            let rest := s.ring.vreps.filter fun x => !same x
            ({ s with ring := { s.ring with vreps := rest ++ [(⟨v.sender, slot, v.keyid, hi, seen⟩ : VReplay)] } }, some body)

def State.reasm (s : State) (sender tenant : Nat) : Option Reasm :=
  s.ring.reas.find? fun r => r.sender == sender && r.tenant == tenant

def State.setReasm (s : State) (r : Reasm) : State :=
  { s with ring := { s.ring with
      reas := (s.ring.reas.filter fun x => !(x.sender == r.sender && x.tenant == r.tenant)) ++ [r] } }

/-- Bytes enter reassembly: the complete units that the engine keeps go to intake.
[DEDUCED, unsafe, log 43] -/
def reassemble (v : VideoFrame) (stream : List Byte) (skip : Bool) (s : State) : State :=
  let sp := splitStream (stream.length / 8 + 1) stream
  let s1 := s.setReasm ⟨v.sender, v.tenant, v.keyid, v.ctr, if sp.broken then [] else sp.rest, skip || sp.broken⟩
  (sp.units.filter s.keeps).foldl (fun t u => unitIntake (plain u) t) s1

/-- A VIDEO frame is delivered (R493 to R495).
[DEDUCED, unsafe, log 43] -/
def videoDeliver (p : List Byte) (s : State) : State :=
  let v := parseVideo p
  if (s.winOf v.tenant).isNone then s
  else
    let sec := ((s.openTenant v.tenant).map (·.sec)).getD 0
    let need := if v.enc then [0, 1] else [0]
    let pair := s.reasm v.sender v.tenant
    let continues := match pair with | some r => r.keyid == v.keyid && v.ctr == r.ctr + 1 | none => false
    let old := match pair with | some r => r.keyid == v.keyid && decide (v.ctr ≤ r.ctr) | none => false
    let skip := match pair with | some r => r.skip && continues | none => false
    let buf := if continues && !skip then ((pair.map (·.buf)).getD []) else []
    -- bytes whose units are known start here: after a loss, at UOFF
    let aligned := continues && !skip
    let from_ := if aligned then 0 else if v.uoff = 0xFFFF then v.body.length else v.uoff
    let known := buf ++ v.body.drop from_
    let n := known.length / 8 + 1
    let marks := (List.replicate from_ false) ++ ((markStream n known).drop buf.length).map (·.2)
    let blind := v.enc && from_ != 0
    let kept := decide (from_ != 0) || s.keptFrom n known buf.length
    if old then
      if sec % 4 = 0 || blind then s else (checkVideo v.tenant need v marks s).1
    else if sec % 4 = 0 then reassemble v known (!aligned && v.uoff == 0xFFFF) s
    else if blind then s
    else if !kept then reassemble v known (!aligned && v.uoff == 0xFFFF) s
    else
      match checkVideo v.tenant need v marks s with
      | (s1, none) => s1
      | (s1, some body) => reassemble v (buf ++ body.drop from_) (!aligned && v.uoff == 0xFFFF) s1

/-- A BULK frame for the command core (R496): checked under the management slot of RING_CFG, USE bit 12.
[DEDUCED, unsafe, log 43] -/
def bulkDeliver (p : List Byte) (s : State) : State :=
  let v := parseVideo p
  if v.tenant ≠ 0 || v.enc then s
  else
    match checkVideo (1024 + s.fld F.RING_ID_MSLOT) [12] v [] s with
    | (s1, none) => s1
    | (s1, some body) => { s1 with ring := { s1.ring with bulk := s1.ring.bulk ++ [(v.sender, body)] } }

/-! ### Management frames (R245 to R249) -/

/-- A command that has been accepted and stops acceptance: MODE_SET to Furled or Watch, SOFT_RESET (R86, R96). -/
def Cmd.blocks (c : Cmd) : Bool :=
  (c.opc == 1 && (byteAt c.params 0 == Mode.furled || byteAt c.params 0 == Mode.watch) && c.early.isNone) || (c.opc == 2 && c.early.isNone)

/-- Does an accepted command stop acceptance by this engine: one that this engine itself carries out? -/
def State.blocks (s : State) (c : Cmd) : Bool := c.blocks && !s.remote c

/-- Is acceptance stopped (R86, R96)? -/
def State.blocked (s : State) : Bool := s.cmds.list.any s.blocks || s.ao.softPending.isSome || s.ao.sleep != .none

/-- Order 5 of R247: the USE bit of the opcode's group, and no plaintext KEY_LOAD. -/
def mgmtAllowed (use opc : Nat) (params : List Byte) : Bool :=
  let g := opc / 4096
  (decide (g ≤ 9) && bitOf use g || g == 12 && bitOf use 12)
    && !(opc == 0x1010 && byteAt params 6 == 0 && byteAt params 7 == 0xFF)

/-- The ring-sourced commands that hold an egress MGMT buffer for their reply (R249).
[DEDUCED, unsafe, log 45] -/
def State.mgmtHeld (s : State) : Nat :=
  s.cmds.rx.length + (s.cmds.list.filter fun c => !c.onRing).length + (s.cmds.tx.filter fun m => m.kind == 2).length

/-- A management command that passed orders 1 to 3: orders 4 to 6 (R245, R247, R249).
[DEDUCED, unsafe, log 42] -/
def mgmtCommand (p body : List Byte) (s : State) : State :=
  let hdr := hdrNet (body.take 16)
  let params := body.drop 16
  let mslot := byteAt p 1
  let keyid := beAt p 2 2
  let sender := beAt p 4 2
  let xid := beAt p 6 2
  let target := leAt hdr 10 2
  let use := (((s.keySlot (1024 + mslot)).byId keyid).map (·.use)).getD 0
  if target ≠ 0xFFFF && s.cabId ≠ some target then s
  else if !mgmtAllowed use (leAt hdr 0 2) params then
    { s with cmds := { s.cmds with
        tx := s.cmds.tx ++ [⟨2, mslot, some keyid, xid, sender, replyHeader s hdr Status.denied 0, [], bitOf (byteAt hdr 2) 2⟩] } }
  else if s.blocked then s.bump F.CMD_MGSTAT_DROP 1
  else if decide (16 ≤ s.cmds.rx.length) || decide (16 + Config.moreMgmtBuffers ≤ s.mgmtHeld) then (s.bump F.CMD_MGSTAT_DROP 1).raise 158
  else { s with cmds := { s.cmds with rx := s.cmds.rx ++ [⟨⟨mslot, keyid, sender, xid⟩, hdr, params⟩] } }

/-- Does the frame's header ask for encryption: FLAGS.ENC of R231? -/
def mgmtEnc (p : List Byte) : Bool := bitOf (byteAt p 18) 2

/-- A frame of KIND 0x01.
[DEDUCED, unsafe, log 42] -/
def mgmtFrame (p : List Byte) (s : State) : State :=
  match checkMgmt (fun _ => true) [13] (mgmtEnc p) p s with
  | (s1, none) => s1
  | (s1, some body) => mgmtCommand p body s1

/-- A reply that no entry of the gateway awaits: one that passes orders 1 to 3 is heard, and is discarded and counted as LATE (R248, R268).
Whether it is encrypted shows only in its ICV.
[DEDUCED, unsafe, log 42] -/
def lateReply (p : List Byte) (s : State) : State :=
  let enc := ((s.keySlot (1024 + byteAt p 1)).byId (beAt p 2 2)).any fun e => (mgmtText false e p).isNone
  let (t, r) := checkMgmt (fun _ => true) [13] enc p s
  if r.isSome then t.bump F.CMD_MGSTAT_LATE 1 else t

/-- A frame of KIND 0x02, a reply to a command that this gateway sent (R244, R246, R248).
[DEDUCED, unsafe, log 42] -/
def gwReply (p : List Byte) (s : State) : State :=
  let xid := beAt p 6 2
  let sender := beAt p 4 2
  match s.cmds.gw.find? fun g => g.xid == xid && (g.target == sender || g.target == 0xFFFF) with
  | none => lateReply p s
  | some g =>
    let c? := s.cmd? g.cmd
    match checkMgmt (fun _ => true) [13] ((c?.map (·.enc)).getD false) p s with
    | (s1, none) => s1
    | (s1, some body) =>
      let hdr := hdrNet (body.take 16)
      let st := byteAt hdr 2
      let final := st != Status.accepted
      if g.target = 0xFFFF then
        if final then { s1 with cmds := { s1.cmds with gw := s1.cmds.gw.map fun h => if h = g then g.note sender st else h } } else s1
      else
        match c? with
        | none => s1
        | some c =>
          if c.target ≠ g.target then
            if !final then s1 else
            let walls := if okStatus st then s1.tdu.walls else s1.tdu.walls.filter fun w => w.cab != g.target
            finish c.id st [] { s1 with cmds := { s1.cmds with gw := s1.cmds.gw.erase g }, tdu := { s1.tdu with walls := walls } }
          else
          match c.src with
          | .cab _ => s1
          | .ring k =>
            let n := 16 + leAt hdr 8 2
            let s2 := if final then { s1 with cmds := { s1.cmds with gw := s1.cmds.gw.erase g } } else s1
            cqPush k ⟨c.id, (hdr ++ body.drop 16).take n, final, c.quiet⟩ (if final then s2.setCmd { c with phase := .replying } else s2)

/-- A cabinet's report replaces the one before (R268).
[DEDUCED, unsafe, log 42] -/
def noteReport (cab : Nat) (r : Nat × Nat × Nat) (l : List (Nat × (Nat × Nat × Nat))) : List (Nat × (Nat × Nat × Nat)) :=
  l.filter (fun x => x.1 != cab) ++ [(cab, r)]

/-- A frame of KIND 0x03: the last unit-state report of a cabinet (R265, R268).
[DEDUCED, unsafe, log 42] -/
def reportFrame (p : List Byte) (s : State) : State :=
  if !s.role 1 && !s.role 2 then s
  else
    match checkMgmt (fun _ => true) [13] (mgmtEnc p) p s with
    | (s1, none) => s1
    | (s1, some body) =>
      let r := (leAt body 16 2, leAt body 18 2, byteAt body 20)
      { s1 with cmds := { s1.cmds with reports := noteReport (beAt p 4 2) r s1.cmds.reports } }

/-- Frames of EtherType 0x88B6 that are delivered.
[DEDUCED, unsafe, log 56] -/
def ctlDeliver (p : List Byte) (s : State) : State :=
  let own := fun (m : Nat) => m == s.fld F.RING_ID_MSLOT
  let kslot := fun (m : Nat) => m == s.fld F.BA_CFG_KSLOT
  let sender := beAt p 4 2
  match byteAt p 0 with
  | 0x01 => mgmtFrame p s
  | 0x02 => gwReply p s
  | 0x03 => reportFrame p s
  | 0x10 =>
    match checkMgmt kslot [3, 13] false p s with
    | (s1, some body) => if s1.mode = Mode.halt then s1 else takeReport sender body s1
    | (s1, none) => s1
  | 0x11 =>
    match checkMgmt kslot [3, 13] false p s with
    | (s1, some body) => if s1.mode = Mode.halt then s1 else leaseBlock sender body s1
    | (s1, none) => s1
  | 0x12 =>
    match checkMgmt own [13] false p s with
    | (s1, some b) => feedRefresh (beAt b 0 2 % 1024) (beAt b 12 2, beAt b 14 2, beAt b 16 2, beAt b 18 2) s1
    | (s1, none) => s1
  | 0x20 =>
    match checkMgmt own [13] false p s with
    | (s1, some body) => schedFrame sender body s1
    | (s1, none) => s1
  | _ => s

/-- Deliver a frame. -/
def deliver (h : HsrFrame) (s : State) : State :=
  if h.etype = 0x88B6 then ctlDeliver h.payload s
  else if h.etype = 0x88FB then nodeHeard (h.sa % 65536) s
  else if videoBad h.payload then s
  else if h.kind = 0x40 then videoDeliver h.payload s
  else bulkDeliver h.payload s

/-! ### The rules of R499 -/

/-- addressed(). -/
def State.addressed (s : State) (da : Nat) : Bool :=
  (match s.cabId with | some c => da == unicast c | none => false) || da == daEvery || da == daWake || da == daSupervision
    || (da == daSolvers && (s.role 1 || s.role 2)) || (da == daFeeders && s.role 3)

/-- A frame received on port p while the engine forwards.
[DEDUCED, unsafe, log 45] -/
def frameIn (p : Nat) (bytes : List Byte) (bad : Bool) (s : State) : State :=
  match parseHsr bytes with
  | none => if beAt bytes 12 2 = 0x88F7 then s else s.bump (F.RING_PORT_CNT1_NOTAG p) 1
  | some h =>
    match h.cls with
    | none => s.bump (F.RING_PORT_CNT1_NOTAG p) 1
    | some (rank, size) =>
      let q := 1 - p
      let own := match s.cabId with | some c => h.sa == unicast c | none => false
      if size < bytes.length + 4 then s.bump (F.RING_PORT_CNT1_NOTAG p) 1
      else if own then s
      else if s.expired h then s.bump (F.RING_PORT_CNT0_EXPIRED p) 1
      else
        let partner := s.fld (F.RING_PORT_STAT_PARTNER p)
        let first := partner == 0xFFFF || h.sa == unicast partner
        let (s1, ok) := if rank = 3 && first then police (beAt h.payload 2 2 % 1024) (beAt h.payload 20 2) s else (s, true)
        if !ok then s1
        else
          let s2 := if bad then s1.bump (F.RING_PORT_CNT0_FCSERR p) 1 else s1
          let s3 := if (rank = 3 || rank = 5) && videoBad h.payload then s2.bump (F.RING_PORT_CNT1_NOTAG p) 1 else s2
          let toMe := match s3.cabId with | some c => h.da == unicast c | none => false
          let fwd := s3.carries q h && !toMe && !s3.seen q h.sa h.seq
          let s4 := if fwd then (s3.mark q h.sa h.seq).pushFrame q ⟨rank, true, bytes, bad⟩ else s3
          let here := s4.addressed h.da && !s4.seen 2 h.sa h.seq
          let dup := !fwd && !here && ((s3.carries q h && !toMe && s3.seen q h.sa h.seq) || (s3.addressed h.da && s3.seen 2 h.sa h.seq))
          let s5 := if dup then s4.bump (F.RING_PORT_CNT0_DUPDISC p) 1 else s4
          if here && !bad then deliver h (s5.mark 2 h.sa h.seq) else s5

/-- A frame is received on a port that is up; Sync is delivered to the TSU (R499, R515, R516). -/
def frameReceive (p now : Nat) (f : RxFrame) (s : State) : State :=
  if 2 ≤ p || !s.cclkOn || !s.portUp p then s
  else
    let s1 := s.atTime now
    match f with
    | .sync dom gm steps offset => syncReceive p dom gm steps offset s1
    | .eth bytes fcsOk pen => frameIn p bytes (!fcsOk || pen) s1

/-- FRAME_RECEIVE (R499): A frame received on a port is filtered, policed, forwarded and delivered under the HSR rules. -/
def execFrameReceive (p now : Nat) (f : RxFrame) (s : State) : Answer := .next (whileClocked s (frameReceive p now f s))

end Sys2Proof.Machine
end

