-- ==== Sys2Proof/Machine/Gateway.lean ====
section
/-!
DEFINITION. The management gateway (R241, R246, R248), the unit-state reports (R265) and the record of the wall (R268).
-/

namespace Sys2Proof.Machine

/-! ### Commands to other cabinets -/

/-- The KEYID of the entry under which a frame of the gateway's slot that is queued now goes (R255).
[DEDUCED, unsafe, log 45] -/
def State.gwKey (s : State) : Option Nat := (s.txEntry (s.fld F.CMD_GWCFG_MSLOT) [13]).map (·.keyid)

/-- The gateway sends a command to one cabinet, or to every one, under a new transaction number (R242, R245). -/
def gatewaySend (cmd target : Nat) (hdr params : List Byte) (enc : Bool) (s : State) : State :=
  let xid := s.cmds.nextXid
  { s with cmds := { s.cmds with
    nextXid := (xid + 1) % 65536
    gw := s.cmds.gw ++ [⟨xid, cmd, target, [], []⟩]
    tx := s.cmds.tx ++ [⟨1, s.fld F.CMD_GWCFG_MSLOT, s.gwKey, xid, target, hdr, params, enc⟩] } }

/-- An entry of the gateway is done. -/
def State.dropGw (s : State) (g : GwEntry) : State := { s with cmds := { s.cmds with gw := s.cmds.gw.erase g } }

/-- A grant that the wall did not take is forgotten (R563). -/
def dropWall (cab : Nat) (s : State) : State :=
  { s with tdu := { s.tdu with walls := s.tdu.walls.filter fun w => w.cab != cab } }

/-- No reply has come within RTMO: FAULT, with the cabinet that was addressed as SOURCE (R246).
[DEDUCED, unsafe, log 42] -/
def gatewayTimeout (xid : Nat) (s : State) : State :=
  match s.cmds.gw.find? fun g => g.xid == xid && g.target != 0xFFFF with
  | none => s
  | some g =>
    let s1 := s.dropGw g
    match s1.cmd? g.cmd with
    | none => s1
    | some c =>
      if c.target ≠ g.target then finish c.id Status.fault [] (dropWall g.target s1)
      else
        match c.src with
        | .cab _ => s1
        | .ring k =>
          let h := replyHeader s1 c.hdr Status.fault 0
          cqPush k ⟨c.id, h.take 10 ++ leBytes 2 g.target ++ h.drop 12, true, c.quiet⟩ (s1.setCmd { c with phase := .replying })

/-- A map of cabinets: bit c of byte c / 8. -/
def cabMap (l : List Nat) : List Byte := (List.range 128).map fun i =>
  BitVec.ofNat 8 (((List.range 8).filter fun b => l.contains (8 * i + b)).foldl setBit 0)

/-- RTMO after a broadcast: its aggregate reply; an own execution that has not ended goes on (R248).
[DEDUCED, unsafe, log 42] -/
def aggregateReply (xid : Nat) (s : State) : State :=
  match s.cmds.gw.find? fun g => g.xid == xid && g.target == 0xFFFF with
  | none => s
  | some g =>
    let s1 := s.dropGw g
    match s1.cmd? g.cmd with
    | none => s1
    | some c => sendReply c (if g.fail.isEmpty then Status.ok else Status.fault) (cabMap g.ok ++ cabMap g.fail) true s1

/-! ### Unit-state reports (R242, R265) -/

/-- The units that diverge, by unit number 64 × CLASS + INDEX. -/
def State.diverged (s : State) : List Nat := (List.range 640).filter fun u => s.flag (F.CMD_UST_DIV u)

/-- What a unit-state report says: the diverged units, the lowest of their IDs, its CAUSE.
[DEDUCED, unsafe, log 42] -/
def State.unitReport (s : State) : Nat × Nat × Nat :=
  match s.diverged with
  | [] => (0, 0, 0)
  | u :: l => (l.length + 1, u / 64 * 256 + u % 64, s.fld (F.CMD_UST_CAUSE u))

/-- The parameters of a unit-state report. -/
def reportParams (s : State) : List Byte :=
  let r := s.unitReport
  leBytes 2 r.1 ++ leBytes 2 r.2.1 ++ leBytes 1 r.2.2 ++ List.replicate 3 0

/-- The report that is due is sent to the ensign; the ensign notes its own.
[DEDUCED, unsafe, log 42] -/
def unitStateReport (s : State) : State :=
  match s.cabId with
  | none => s
  | some me =>
    let ens := s.fld F.RING_ID_ENSIGN
    if !s.cmds.reportDue || !s.firmware || !s.anyPortUp || 1024 ≤ ens then s
    else
      let c := s.cmds
      if ens = me then
        { s with cmds := { c with reportDue := false, reports := noteReport me s.unitReport c.reports } }
      else
        let hdr := leBytes 3 0 ++ [1] ++ leBytes 12 0
        flushMgmt { s with cmds := { c with
          reportDue := false
          tx := c.tx ++ [⟨3, s.fld F.CMD_GWCFG_MSLOT, s.gwKey, 0, ens, hdr, reportParams s, false⟩] } }

/-! ### What the ensign and the standby ensign know of the wall (R268) -/

/-- Has a BUDGET report or an authenticated management frame come from a cabinet within the last second? The own cabinet counts
as heard.
[DEDUCED, unsafe, log 42] -/
def State.heardCab (s : State) (c : Nat) : Bool :=
  s.cabId == some c || s.cmds.heard.any fun h => h.1 == c && decide (s.tsu.now ≤ h.2 + 1000000000)

/-- Has a cabinet reported diverged units last? -/
def State.divCab (s : State) (c : Nat) : Bool := s.cmds.reports.any fun r => r.1 == c && r.2.1 != 0

/-- WALL_STATUS (R268). -/
def wallStatus (id now : Nat) (s : State) : State :=
  withStarted id 0x0005 s fun _ =>
    let s1 := s.atTime now
    finish id Status.ok (cabMap ((List.range 1024).filter s1.divCab) ++ cabMap ((List.range 1024).filter s1.heardCab)) s1

/-! ### The commands -/

/-- GATEWAY_REPLY_TIMEOUT (R246): No reply within RTMO makes the gateway write a FAULT reply. -/
def execGatewayReplyTimeout (xid : Nat) (s : State) : Answer := .next (whileClocked s (if s.firmware then gatewayTimeout xid s else s))
/-- AGGREGATE_REPLY (R248): RTMO after a broadcast, the gateway writes the aggregate reply with OKMAP and FAILMAP. -/
def execAggregateReply (xid : Nat) (s : State) : Answer := .next (whileClocked s (if s.firmware then aggregateReply xid s else s))
/-- UNIT_STATE_REPORT (R265): After a divergence change, a unit-state report is sent to the ensign in the first MGMT gate window. -/
def execUnitStateReport (s : State) : Answer := .next (whileClocked s (unitStateReport s))
/-- WALL_STATUS (R268): WALL_STATUS returns DIVMAP and HEARDMAP on an ensign or standby ensign. -/
def execWallStatus (id now : Nat) (s : State) : Answer := .next (whileClocked s (wallStatus id now s))

end Sys2Proof.Machine
end

