-- ==== Sys2Proof/Machine/Playout.lean ====
section
/-!
DEFINITION. Playout (R361 to R367): the catalogue, CLIP_ADD, PLAY, the frames of a channel.
-/

namespace Sys2Proof.Machine

def State.ply (s : State) (c : Nat) : Ply := SMap.get (fun _ => Ply.reset) s.plys c
def State.setPly (s : State) (c : Nat) (x : Ply) : State := { s with plys := SMap.put (fun _ => Ply.reset) s.plys c x }

/-! The states of a channel (R372). -/
namespace PlyState
abbrev idle : Nat := 0
abbrev playing : Nat := 1
abbrev paused : Nat := 2
abbrev held : Nat := 3
end PlyState

def State.plyState (s : State) (c : Nat) : Nat := s.fld (F.PLY_STAT_STATE c)
def State.setPlyState (s : State) (c v : Nat) : State := s.setFld (F.PLY_STAT_STATE c) v

/-! ### Commands that read DRAM, one at a time -/

/-- The address of a catalogue entry (R363). -/
def State.catAddr (s : State) (clip : Nat) : Nat := s.fld F.PLY_CAT_BASE * 2 ^ 21 + 32 * clip

def askRange (use : MptUse) (addr len : Nat) (s : State) : State := (askQuads use 0 (quadsOf addr len) s).2

/-- The clip number that a CLIP_ADD or PLAY names. -/
def Cmd.clip (c : Cmd) : Nat := if c.opc = 0x9001 then leAt c.params 0 2 else leAt c.params 4 2

/-- The run at the head begins with its catalogue line.
[DEDUCED, unsafe, log 60] -/
def clipBegin (s : State) : State :=
  match s.clipRuns with
  | [] => s
  | r :: _ =>
    match s.cmd? r.cmd with
    | none => s
    | some c => askRange (.cmdRead r.cmd) (s.catAddr c.clip) 32 s

/-- Queue a run.
[DEDUCED, unsafe, log 60] -/
def clipStart (id : Nat) (ns : Option Nat) (s : State) : State :=
  let s1 := { s.running id with clipRuns := s.clipRuns ++ [(⟨id, 0, [], [], 0, ns, false⟩ : ClipRun)] }
  if s.clipRuns.isEmpty then clipBegin s1 else s1

/-- The run at the head is over; the next begins. -/
def clipOver (id : Nat) (s : State) : State :=
  clipBegin { s.dropLines (.cmdRead id) with clipRuns := s.clipRuns.filter fun r => r.cmd != id }

/-- The run at the head ends with a final reply. -/
def clipEnd (id status : Nat) (params : List Byte) (s : State) : State := clipOver id (finish id status params s)

def State.setRun (s : State) (r : ClipRun) : State := { s with clipRuns := s.clipRuns.map fun x => if x.cmd = r.cmd then r else x }

def zeros16 : List Byte := List.replicate 16 0

/-- Is a clip in use (R364 BUSY)? -/
def State.clipUsed (s : State) (n : Nat) : Bool :=
  s.plys.any fun p => (p.2.clip.any fun c => c.num == n) || p.2.pend.any fun q => q.clip.any fun c => c.num == n

/-- The checks of R274 on a clip's STREAM unit. -/
def clipStreamOk (b : List Byte) : Bool :=
  let p := psetOf b
  byteAt b 0 == 1 && byteAt b 1 == 1 && decide (beAt b 2 2 < 1024) && beAt b 4 4 == 24 && decide (p.flags < 8) && p.flags / 2 != 3
    && decide (1 ≤ p.wc) && decide (p.wc ≤ 32768) && decide (1 ≤ p.hc) && decide (p.hc ≤ 32768)
    && p.qpoff.all (fun q => decide (-8 ≤ q) && decide (q ≤ 7)) && byteAt b 17 == 1 && zeroAt b 18 6

/-- Is a range of bytes read with a pennant? A check on such bytes does not fail: FAULT comes after the other checks (R364). -/
def penIn (l : List PByte) (o n : Nat) : Bool := anyPen ((l.drop o).take n)

/-- The checks of CLIP_ADD on a header (R361, R364). -/
def clipHeaderOk (l : List PByte) (len : Nat) : Bool :=
  let h := vals l
  let n := leAt h 8 4
  (penIn l 0 4 || leAt h 0 4 == 0x50434C5A) && (penIn l 4 2 || leAt h 4 2 == 1)
    && (penIn l 8 4 || (decide (1 ≤ n) && decide (n ≤ 16777216)))
    && (penIn l 8 4 || penIn l 16 8 || decide (leAt h 16 8 + 16 * n ≤ len))
    && (penIn l 24 24 || clipStreamOk ((h.drop 24).take 24))

/-- Entry i of an index. -/
def idxLen (x : List Byte) (i : Nat) : Nat := leAt x (16 * i + 8) 4
def idxKey (x : List Byte) (i : Nat) : Bool := bitOf (byteAt x (16 * i + 12)) 0

/-- The checks of CLIP_ADD on the index (R362, R364).
[DEDUCED, unsafe, log 60] -/
def clipIndexOk (l : List PByte) (n len : Nat) : Bool :=
  let x := vals l
  (penIn l 0 16 || idxKey x 0) && (List.range n).all fun i => penIn l (16 * i) 16 ||
    decide (leAt x (16 * i) 8 + idxLen x i ≤ len) && idxLen x i % 2 == 0 && decide (byteAt x (16 * i + 12) < 2) && zeroAt x (16 * i + 13) 3

def entryValid (e : List Byte) : Bool := bitOf (leAt e 0 8) 63

/-- Write a catalogue entry: its whole line, with the other entry as it stands. -/
def catWrite (id clip : Nat) (entry : List Byte) (s : State) : State :=
  let a := s.catAddr clip / 64 * 64
  match s.gather (.cmdRead id) a 64 with
  | none => s
  | some l =>
    let o := s.catAddr clip % 64
    let line := (vals l).take o ++ entry ++ (vals l).drop (o + 32)
    (lineWrites (.cmdWrite id) [(a, line)]).foldl (fun t r => t.mptQueue 0 r) s

/-- CLIP_ADD's parameters out of range. -/
def clipParamsBad (p : List Byte) : Bool :=
  let act := byteAt p 2
  let addr := leAt p 8 8
  let len := leAt p 16 8
  p.length != 32 || decide (2 ≤ act) || !zeroAt p 3 5 || !zeroAt p 24 8
    || (act == 0 && (addr % 64 != 0 || decide (2 ^ 48 ≤ addr) || len % 64 != 0 || decide (2 ^ 48 < addr + len)))

def clipAdd (id : Nat) (s : State) : State :=
  withStarted id 0x9001 s fun c =>
    if !s.role 4 || !s.flag F.PLY_CAT_EN then finish id Status.denied [] s
    else if clipParamsBad c.params then finish id Status.badParam [] s
    else clipStart id none s

/-- The steps of CLIP_ADD as its lines arrive. The statuses follow the order of R364: a pennanted read ends in FAULT once no earlier
check fails on what was read.
[DEDUCED, unsafe, log 60] -/
def clipAddStep (r : ClipRun) (c : Cmd) (s : State) : State :=
  let p := c.params
  let addr := leAt p 8 8
  let len := leAt p 16 8
  let stop := fun (st : Nat) => clipEnd r.cmd st [] s
  match r.phase with
  | 0 =>
    match s.gather (.cmdRead r.cmd) (s.catAddr c.clip / 64 * 64) 64 with
    | none => s
    | some l =>
      let e := (vals l).drop (s.catAddr c.clip % 64) |>.take 32
      let bad := anyPen l
      if byteAt p 2 = 1 then
        if !bad && !entryValid e then stop Status.stale
        else if s.clipUsed c.clip then stop Status.busy
        else if bad then stop Status.fault
        else catWrite r.cmd c.clip (List.replicate 32 0) (s.setRun { r with phase := 3, entry := e, hdr := zeros16 })
      else askRange (.cmdRead r.cmd) addr 64 (s.setRun { r with phase := 1, entry := if bad then [] else e, bad := bad })
  | 1 =>
    match s.gather (.cmdRead r.cmd) addr 64 with
    | none => s
    | some l =>
      let h := vals l
      if !clipHeaderOk l len then stop Status.badParam
      else if penIn l 8 4 || penIn l 16 8 then stop (if entryValid r.entry then Status.stale else Status.fault)
      else askRange (.cmdRead r.cmd) (addr + leAt h 16 8) (16 * leAt h 8 4) (s.setRun { r with phase := 2, hdr := h, bad := r.bad || anyPen l })
  | 2 =>
    let n := leAt r.hdr 8 4
    match s.gather (.cmdRead r.cmd) (addr + leAt r.hdr 16 8) (16 * n) with
    | none => s
    | some l =>
      let x := vals l
      let crc := (crc32 x).toNat
      let maxf := (List.range n).foldl (fun m i => max m (idxLen x i)) 0
      let keys := ((List.range n).filter (idxKey x)).length
      let entry := leBytes 8 (addr + 2 ^ 63) ++ leBytes 8 len ++ leBytes 4 n ++ leBytes 4 maxf ++ leBytes 4 crc ++ (r.hdr.drop 6).take 2
        ++ (r.hdr.drop 32).take 1 ++ [0]
      let reply := leBytes 4 n ++ leBytes 4 maxf ++ (r.hdr.drop 6).take 2 ++ (r.hdr.drop 32).take 1 ++ [0] ++ leBytes 4 keys
      let bad := r.bad || anyPen l
      if !clipIndexOk l n len then stop Status.badParam
      else if (!bad && crc ≠ leAt r.hdr 12 4) || entryValid r.entry then stop Status.stale
      else if bad then stop Status.fault
      else catWrite r.cmd c.clip entry (s.setRun { r with phase := 3, hdr := reply })
  | _ => s

/-! ### PLAY (R365) -/

def playBad (s : State) (p : List Byte) : Bool :=
  let act := byteAt p 1
  let at_ := leAt p 12 4
  p.length != 32 || decide (16 ≤ byteAt p 0) || decide (4 ≤ act) || !zeroAt p 6 2 || !zeroAt p 18 14
    || (act == 0 && (decide (3 ≤ byteAt p 2) || byteAt p 3 == 0 || decide (16 < byteAt p 3)))
    || (s.hoists && at_ != 0xFFFFFFFF && decide (resolveFrame s.frame at_ < (s.earliestFrame : Int)))

/-- Ns of a PLAY that starts now; none while no schedule is in force (R598). -/
def playNs (s : State) (at_ : Nat) : Option Nat :=
  if !s.hoists then none else if at_ = 0xFFFFFFFF then some s.earliestFrame else some (resolveFrame s.frame at_).toNat

/-- The reply of a PLAY. -/
def playReply (start : Nat) (ns : Option Nat) (clip : Nat) : List Byte :=
  leBytes 4 start ++ leBytes 4 ((ns.map fun n => n % 2 ^ 32).getD 0xFFFFFFFF) ++ leBytes 2 clip ++ List.replicate 6 0

/-- A pending PLAY takes effect on channel c (R367). The spec gives a stop and a pause no start frame for their reply: it is free.
[DESIGN CHOICE, safe, log 2]
[DEDUCED, unsafe, log 60] -/
def playEffect (c : Nat) (s : State) : State :=
  let x := s.ply c
  match x.pend with
  | none => s
  | some q =>
    let s0 := s.setFlag (F.PLY_STAT_PEND c) false
    let done := fun (start clip : Nat) (t : State) => (finish q.cmd Status.ok (playReply start q.ns clip) t).raise 93
    let num := s.fld (F.PLY_STAT_CLIP c)
    match q.action with
    | 0 =>
      let out := { x.out with tokens := none, stream := none }
      let y : Ply := { x with clip := q.clip, end_ := q.end_, rept := q.rept, share := q.share, i := q.start, r := 0, pend := none, out := out }
      let n := (q.clip.map (·.num)).getD 0
      done q.start n (((s0.setPly c y).setPlyState c PlyState.playing).setFld (F.PLY_STAT_CLIP c) n)
    | 1 =>
      if s.plyState c = PlyState.idle then finish q.cmd Status.ok (playReply (s0.free 32) q.ns num) (s0.drew.setPly c { x with pend := none })
      else done (s0.free 32) num ((s0.drew.setPly c { x with clip := none, pend := none }).setPlyState c PlyState.idle)
    | 2 => done (s0.free 32) num ((s0.drew.setPly c { x with pend := none }).setPlyState c
        (if s.plyState c = PlyState.idle then PlyState.idle else PlyState.paused))
    | _ =>
      let i := s.fld (F.PLY_STAT_FRAME c) + 1
      done i num ((s0.setPly c { x with i := i, r := 0, pend := none }).setPlyState c
        (if s.plyState c = PlyState.idle then PlyState.idle else PlyState.playing))

/-- A PLAY is accepted for its channel: it waits for Ns, or takes effect at once without a schedule. -/
def playPend (c : Nat) (q : Play) (s : State) : State :=
  let s1 := (s.setPly c { s.ply c with pend := some q }).setFlag (F.PLY_STAT_PEND c) true
  if q.ns.isNone then playEffect c s1 else s1

/-- PLAY, opcode 0x9010.
[DEDUCED, unsafe, log 70] -/
def play (id now : Nat) (s : State) : State :=
  withStarted id 0x9010 (s.atTime now) fun c =>
    let s0 := s.atTime now
    let p := c.params
    let ch := byteAt p 0
    let act := byteAt p 1
    let at_ := leAt p 12 4
    let stop := fun (st : Nat) => finish id st [] s0
    if !s0.role 4 || ((act == 2 || act == 3) && decide (ch < 16) && s0.plyState ch == PlyState.idle) then stop Status.denied
    else if playBad s0 p then stop Status.badParam
    else if !s0.hoists && at_ != 0xFFFFFFFF then stop Status.deferred
    else if act = 0 then clipStart id (playNs s0 at_) s0
    else if (s0.ply ch).pend.isSome then stop Status.busy
    else playPend ch ⟨id, act, 0, 1, 0, playNs s0 at_, 0, none⟩ (s0.running id)

/-- MAXF > s × BURST + s × RATE × PERIOD / 8 (R365). -/
def clipTooFast (s : State) (maxf share : Nat) (t : Tenant) : Bool :=
  decide ((share + 1) * (t.burst * (65536 * 8000000) + t.rate * s.fld F.TSU_SCHED1_PERIOD) < maxf * 65536 * (65536 * 8000000))

/-- The steps of PLAY with ACTION 0 as its lines arrive.
[DEDUCED, unsafe, log 60] -/
def playStep (r : ClipRun) (c : Cmd) (s : State) : State :=
  let p := c.params
  let ch := byteAt p 0
  let stop := fun (st : Nat) => clipEnd r.cmd st [] s
  let e := r.entry
  let addr := leAt e 0 6
  let share := leAt p 16 2
  let idx := fun (h : List Byte) (i : Nat) => addr + leAt h 16 8 + 16 * i
  match r.phase with
  | 0 =>
    match s.gather (.cmdRead r.cmd) (s.catAddr c.clip) 32 with
    | none => s
    | some l =>
      let v := vals l
      if anyPen l then stop Status.fault
      else if !entryValid v then stop Status.stale
      else if leAt v 16 4 ≤ leAt p 8 4 then stop Status.badParam
      else askRange (.cmdRead r.cmd) (leAt v 0 6) 64 (s.setRun { r with phase := 1, entry := v, i := leAt p 8 4 })
  | 1 =>
    match s.gather (.cmdRead r.cmd) addr 64 with
    | none => s
    | some l =>
      let h := vals l
      let tn := leAt e 28 2
      let ps := psetOf ((h.drop 24).take 24)
      if !penIn l 12 4 && leAt h 12 4 ≠ leAt e 24 4 then stop Status.stale
      else match s.openTenant tn with
        | none => stop Status.badTenant
        | some t =>
          if (!penIn l 34 4 && (32 * ps.wc ≠ t.w || 32 * ps.hc ≠ t.h)) || clipTooFast s (leAt e 20 4) share t then stop Status.denied
          else if (s.ply ch).pend.isSome || s.sendsTenant tn (.ply ch) then stop Status.busy
          else if anyPen l then stop Status.fault
          else askRange (.cmdRead r.cmd) (idx h r.i) 16 (s.setRun { r with phase := 2, hdr := h })
  | 2 =>
    match s.gather (.cmdRead r.cmd) (idx r.hdr r.i) 16 with
    | none => s
    | some l =>
      if anyPen l then stop Status.fault
      else if idxKey (vals l) 0 || r.i == 0 then
        if (s.ply ch).pend.isSome then stop Status.busy
        else
          let clip : Clip := ⟨c.clip, addr, leAt e 8 8, leAt e 16 4, leAt r.hdr 16 8, leAt e 28 2, (r.hdr.drop 24).take 24⟩
          clipOver r.cmd (playPend ch ⟨r.cmd, 0, byteAt p 2, byteAt p 3, share, r.ns, r.i, some clip⟩ s)
      else askRange (.cmdRead r.cmd) (idx r.hdr (r.i - 1)) 16 (s.setRun { r with i := r.i - 1 })
  | _ => s

/-- Lines for a CLIP_ADD or PLAY have been delivered. -/
def clipLines (id : Nat) (s : State) : State :=
  match s.clipRuns.find? fun r => r.cmd == id, s.cmd? id with
  | some r, some c => if c.opc = 0x9001 then clipAddStep r c s else playStep r c s
  | _, _ => s

/-- The write of the catalogue entry has been answered. -/
def clipWritten (id : Nat) (ok : Bool) (s : State) : State :=
  match s.clipRuns.find? fun r => r.cmd == id with
  | none => s
  | some r => if ok then clipEnd id Status.ok r.hdr s else clipEnd id Status.fault [] s

/-! ### The frames of a channel (R366, R367) -/

/-- Split the units of a clip frame; bytes whose header is broken or pennanted stay together.
[DEDUCED, unsafe, log 60] -/
def splitUnits : Nat → List PByte → List (List PByte)
  | 0, _ => []
  | fuel + 1, l =>
    let n := beAt (vals l) 4 4
    if l.isEmpty then []
    else if l.length < 8 || anyPen (l.take 8) || decide (n < 8) || decide (l.length < n) then [l]
    else l.take n :: splitUnits fuel (l.drop n)

/-- Put bytes at an offset. -/
def patch (l : List Byte) (o : Nat) (b : List Byte) : List Byte := l.take o ++ b ++ l.drop (o + b.length)

/-- The unit as it is sent in frame n: FNUM, and REFNUM of a DELTA slice. -/
def clipUnit (n l : Nat) (u : List Byte) : List Byte :=
  let u1 := patch u 8 (beBytes 4 (n % 2 ^ 32))
  if byteAt u 12 = 1 then patch u1 16 (beBytes 4 (l % 2 ^ 32)) else u1

/-- A channel sends a HOLD for its frame. Before any slice of the channel the spec gives no L: REFNUM is free.
[DEDUCED, unsafe, log 60] -/
def plyHold (c n : Nat) (s : State) : State :=
  let x := s.ply c
  let tn := (x.clip.map (·.tenant)).getD 0
  let l := x.l.getD (s.free 32)
  let s1 := if x.l.isNone then s.drew else s
  s1.setPly c { x with out := x.out.push n (openBytes (holdUnit tn (n % 2 ^ 32) (l % 2 ^ 32))) false [] [] }

/-- Source 94 or PENN for pennanted clip data. -/
def plyPenn (c k : Nat) (s : State) : State :=
  if k = 0 then s else
  let x := s.ply c
  let s1 := (s.bump (F.PLY_ERR_PENN c) k).setPly c { x with raised94 := true }
  if x.raised94 then s1 else s1.raise 94

/-- The units of the frame have been read: they enter the send queue.
[DEDUCED, unsafe, log 60] -/
def plyUnits (c n : Nat) (bytes : List PByte) (s : State) : State :=
  let us := splitUnits bytes.length bytes
  let good := us.filter fun u => !anyPen u
  let s1 := plyPenn c (us.length - good.length) s
  let x := s1.ply c
  let out := good.foldl (fun (p : Sender) u => p.push n (markUnit (clipUnit n (x.l.getD 0) (vals u))) true [] []) x.out
  s1.setPly c { x with units := none, out := out }

/-- Clip lines have arrived for channel c: the index entry, then the units. -/
def plyLines (c : Nat) (s : State) : State :=
  let x := s.ply c
  match x.cur, x.clip with
  | some n, some k =>
    let s1 :=
      if !x.index then s else
      match s.gather (.clip c) (k.addr + k.index + 16 * x.i) 16 with
      | none => s
      | some l =>
        let t := s.setPly c { x with index := false }
        if anyPen l then plyHold c n (plyPenn c 1 t)
        else
          let len := leAt (vals l) 8 4
          let a := k.addr + leAt (vals l) 0 8
          if len = 0 then plyHold c n t
          else askRange (.clip c) a len (t.setPly c { t.ply c with units := some (a, len) })
    match (s1.ply c).units with
    | none => s1
    | some (a, len) =>
      match s1.gather (.clip c) a len with
      | none => s1
      | some b => plyUnits c n b s1
  | _, _ => s

/-- The frame in hand of a channel is over: what is left of it is discarded (R366). -/
def endPlyFrame (c : Nat) (s : State) : State :=
  let x := s.ply c
  match x.cur with
  | none => s
  | some n =>
    let late := x.out.queue.length + b2n (x.index || x.units.isSome)
    let s1 := s.bump (F.PLY_ERR_LATE c) late
    let s2 := if late = 0 then s1 else s1.raise 95
    let r := sendPack ((x.clip.map (·.tenant)).getD 0) n true x.out s2
    (r.1.setPly c { x with cur := none, index := false, units := none, raised94 := false,
                           out := { r.2 with queue := [], qbytes := 0, pack := [], starts := [] } }).forget fun u => u == .clip c

/-- The clip is at its end (R367). -/
def clipFinished (c : Nat) (s : State) : State :=
  let x := s.ply c
  let s1 := s.raise 93
  match x.end_ with
  | 0 => s1.setPlyState c PlyState.held
  | 1 => s1.setPly c { x with i := 0, r := 0 }
  | _ => (s1.setPly c { x with clip := none }).setPlyState c PlyState.idle

/-- A PLAY whose Ns has come governs the frame; the frame in hand before it is over, since F(Ns) is its deadline (R366).
[DEDUCED, unsafe, log 60] -/
def playDue (c n : Nat) (s : State) : State :=
  match (s.ply c).pend with
  | some q =>
    match q.ns with
    | some m => if m ≤ n then playEffect c (if (s.ply c).cur.any fun f => decide (f < m) then endPlyFrame c s else s) else s
    | none => s
  | none => s

/-- F(N) on channel c.
[DESIGN CHOICE, safe, log 2] -/
def playoutFrame (c n now : Nat) (s : State) : State :=
  let s0 := s.atTime now
  if 16 ≤ c || !s0.feeds? 4 || !s0.atFeedTime n then s0 else
  let s1 := playDue c n (endPlyFrame c s0)
  let x1 := s1.ply c
  let s2 := if s1.plyState c = PlyState.playing ∧ x1.rept ≤ x1.r then s1.setPly c { x1 with i := x1.i + 1, r := 0 } else s1
  let nf := ((s2.ply c).clip.map (·.nframes)).getD 0
  let s3 := if s2.plyState c = PlyState.playing ∧ nf ≤ (s2.ply c).i then clipFinished c s2 else s2
  let x := s3.ply c
  match x.clip with
  | none => s3
  | some k =>
    let due := match x.out.stream with | none => true | some a => decide (a + 1000000000 ≤ s3.feedTime n)
    let out := if due then x.out.push n (openBytes k.stream) false [] [] else x.out
    let s4 := s3.setPly c { x with cur := some n, out := out }
    if s4.plyState c = PlyState.playing then
      if x.r = 0 then
        let s5 := (s4.setPly c { s4.ply c with r := 1, index := true }).setFld (F.PLY_STAT_FRAME c) x.i
        plyLines c (askRange (.clip c) (k.addr + k.index + 16 * x.i) 16 s5)
      else plyHold c n (s4.setPly c { s4.ply c with r := x.r + 1 })
    else plyHold c n s4

/-- The head unit of a channel's queue leaves.
[DEDUCED, unsafe, log 60] -/
def plySend (c : Nat) (s : State) : State :=
  let x := s.ply c
  match x.clip, x.cur with
  | some k, some n =>
    match s.openTenant k.tenant with
    | none => s
    | some t =>
      if !s.feeds? 4 then s else
      match (x.out.refill x.share t s.tsu.now).leave with
      | none => s
      | some (u, out) =>
        let r := sendPack k.tenant n false (out.noteStream u s.tsu.now) s
        let s1 := ownUnit (u.bytes.map (·.1)) (r.1.setPly c { x with out := r.2, l := if u.slice then some n else x.l })
        if r.2.queue.isEmpty && !x.index && x.units.isNone then endPlyFrame c s1 else s1
  | _, _ => s

/-- A tenant has closed: its channels become IDLE, a pending PLAY of it fails (R365, R367).
[DEDUCED, unsafe, log 60] -/
def plyTenantClosed (tn : Nat) (s : State) : State :=
  (List.range 16).foldl (fun t c =>
    let x := t.ply c
    let t1 := match x.pend with
      | some q => if q.clip.any fun (k : Clip) => k.tenant == tn then
          (finish q.cmd Status.fault [] (t.setPly c { x with pend := none })).setFlag (F.PLY_STAT_PEND c) false else t
      | none => t
    let y := t1.ply c
    if y.clip.any fun (k : Clip) => k.tenant == tn then ((t1.setPly c { y with clip := none, cur := none, index := false, units := none, out := .reset }).forget fun u => u == .clip c).setPlyState
      c PlyState.idle else t1) s

/-! ### The catalogue (R363, R372) -/

/-- A write of PLY_CAT: with EN rising and INIT the 2 MiB table is zeroed; BASE stands while EN is 1. -/
def plyCatWrite (w : Writer) (be : Nat) (data : W64) (s : State) : State :=
  let off := F.PLY_CAT_EN.off
  let old := s.reg off
  let new := s.written w off be data
  let was := s.flag F.PLY_CAT_EN
  let v := if was then setBits new 0 48 (getBits old 0 48) else new
  let s1 := s.setReg off v
  if s.build = .x ∧ !was ∧ getBits v 63 1 = 1 ∧ bitOf be 7 ∧ getBits data 62 1 = 1 then
    (List.range 8192).foldl (fun t i => t.mptQueue 0
      { write := true, quad := s1.fld F.PLY_CAT_BASE * 8192 + i, mask := 0xF, raw := List.replicate 320 0, use := .cat }) s1
  else s1

/-! ### What feeds and channels share -/

/-- F(N) + PERIOD: the units of frame n not sent are dropped.
[DEDUCED, unsafe, log 60] -/
def sendDeadline (src : SendSrc) (n : Nat) (s : State) : State :=
  match src with
  | .feed f => match (s.feed f).cur with | some m => if m ≤ n then endFeedFrame f s else s | none => s
  | .ply c => match (s.ply c).cur with | some m => if m ≤ n then endPlyFrame c s else s | none => s

def unitSend (src : SendSrc) (now : Nat) (s : State) : State :=
  match src with
  | .feed f => feedSend f (s.atTime now)
  | .ply c => plySend c (s.atTime now)

/-- CLIP_ADD (R364): CLIP_ADD checks a clip and adds or removes its catalogue entry. -/
def execClipAdd (id : Nat) (s : State) : Answer := .next (whileClocked s (clipAdd id s))
/-- PLAY (R365): PLAY plays, stops, pauses or resumes a playout channel from a wall frame. -/
def execPlay (id now : Nat) (s : State) : Answer := .next (whileClocked s (play id now s))
/-- PLAY_EFFECT (R367): At Ns a pending PLAY takes effect on its channel and source 93 is raised. -/
def execPlayEffect (c n : Nat) (s : State) : Answer := .next (whileLive s (if c < 16 then playDue c n s else s))
/-- PLY_CAT_ENABLE (R363): A write setting PLY_CAT.EN, with INIT, zeroes the catalogue before use. -/
def execPlyCatEnable (w : Writer) (v : W64) (s : State) : Answer := .next (whileClocked s (plyCatWrite w 0xFF (setBits v 63 1 1) s))
/-- PLAYOUT_FRAME (R366): At F(N) each active channel sends its STREAM unit, clip frame units or a HOLD for wall frame N. -/
def execPlayoutFrame (c n now : Nat) (s : State) : Answer := .next (whileClocked s (playoutFrame c n now s))
/-- SEND_DEADLINE (R354): At F(N) + PERIOD unfinished slices of frame N are abandoned and counted. -/
def execSendDeadline (src : SendSrc) (n : Nat) (s : State) : Answer := .next (whileLive s (sendDeadline src n s))
/-- UNIT_SEND (R357): A queued unit leaves once the feed's token bucket holds its bits. -/
def execUnitSend (src : SendSrc) (now : Nat) (s : State) : Answer := .next (whileLive s (unitSend src now s))

end Sys2Proof.Machine
end

