-- ==== Sys2Proof/Machine/Reset.lean ====
section
/-!
DEFINITION. What survives (R94, R95, R100 to R102): the resets, their effect on the register file by the rows of R101 and on the
state beside it; UNIT_RESET's part of it.
-/

namespace Sys2Proof.Machine

/-- The resets that reach the core: the start-up after R79, the engine reset, the watchdog and debug resets, the soft reset. -/
inductive ResetKind where
  | start | engine | wdog | soft
  deriving DecidableEq, Repr

/-- Is a row of R101 held in the AO island, or a constant or a live level that no reset touches?
[DEDUCED, unsafe, log 11] -/
def Surv.island : Surv → Bool
  | .fixed | .live | .ao | .aoRec | .tmr | .trip => true
  | _ => false

/-- Does a row of R101 keep its value across a reset? -/
def ResetKind.keeps : ResetKind → Surv → Bool
  | .start, v => v.island
  | .engine, v => v.island || v == .cstore
  | .wdog, v => v.island || v == .cstore || v == .hptErr || v == .scrubSum || v == .tdu
  | .soft, v => !(v == .cc || v == .seqState || v == .baState || v == .aoMode)

/-- Does a row keep its value in Furled and Watch without being saved? Every RWL field is kept (R100). -/
def sleepKeeps (f : FDesc) : Bool :=
  f.surv.island || f.surv == .cstore || f.surv == .cvalid || f.surv == .aoMode || f.acc == .rwl

/-- Is a row saved into HB and restored at the wake (code S)? -/
def Surv.saved : Surv → Bool
  | .pu | .hptErr | .dicSet | .cmd | .seqSet | .mpt | .scrubSum | .se | .lp | .baSet | .ringSet => true
  | _ => false

/-- A register after a reset: the fields that are kept, the Reset value elsewhere.
[DEDUCED, unsafe, log 11] -/
def keptReg (b : Build) (keep : FDesc → Bool) (off : Nat) (v : W64) : W64 :=
  match regAt off with
  | none => v
  | some (g, _) =>
    g.flds.foldl (fun acc f => if keep f then setBits acc f.lo f.w (getBits v f.lo f.w) else acc) (regReset b off)

/-- The register file after a reset. -/
def keptRegs (b : Build) (keep : FDesc → Bool) (rf : List (Nat × W64)) : List (Nat × W64) :=
  rf.filterMap fun p =>
    let v := keptReg b keep p.1 p.2
    if v = regReset b p.1 then none else some (p.1, v)

/-- Put the saved fields of one register back. RWL fields have been kept (R100). -/
def restoreReg (t : State) (p : Nat × W64) : State :=
  match regAt p.1 with
  | none => t
  | some (g, _) =>
    t.setReg p.1 (g.flds.foldl (fun acc f => if f.surv.saved && f.acc != .rwl then setBits acc f.lo f.w (getBits p.2 f.lo f.w) else acc) (t.reg p.1))

/-- Does a register hold a setting that is saved? -/
def savedReg (off : Nat) : Bool := match regAt off with | none => false | some (g, _) => g.flds.any (·.surv.saved)

/-- `n` free bytes. -/
def freeBytes : Nat → State → List Byte × State
  | 0, s => ([], s)
  | n + 1, s => let r := freeBytes n s.drew; (BitVec.ofNat 8 (s.free 8) :: r.1, r.2)

/-- Firmware saves the settings of R102 into HB: 8 bytes for each register that differs from its Reset value, at a place and in an
encoding of its own, clear of the hook table.
[DESIGN CHOICE, safe, log 2]
[DEDUCED, unsafe, log 12] -/
def settingsToHb (s : State) : State :=
  let n := min (8 * (s.rf.filter fun p => savedReg p.1).length) (hbSize - 64)
  let a := 64 + 8 * (s.free 15 % ((hbSize - 64 - n) / 8 + 1))
  let r := freeBytes n s.drew
  let s1 := writeBytes .hb a (plain r.1) r.2
  { s1 with ao := { s1.ao with savedAt := a, savedHb := r.1 } }

/-- Are the bytes that firmware saved still in HB as it wrote them?
[DEDUCED, unsafe, log 12] -/
def State.hbIntact (s : State) : Bool := readBytes .hb s.ao.savedAt s.ao.savedHb.length s == plain s.ao.savedHb

/-- The settings that firmware reads back: those saved, or free values where HB has been changed meanwhile.
[DESIGN CHOICE, safe, log 2]
[DEDUCED, unsafe, log 12] -/
def freeSettings : List (Nat × W64) → State → List (Nat × W64) × State
  | [], s => ([], s)
  | p :: l, s => let r := freeSettings l s.drew; ((p.1, BitVec.ofNat 64 (s.free 64)) :: r.1, r.2)

/-- The settings of R102 are restored.
[DEDUCED, unsafe, log 12] -/
def restoreSettings (s : State) : State :=
  match s.ao.saved with
  | none => s
  | some l =>
    let r := if s.hbIntact then (l, s) else freeSettings l s
    let s1 := r.1.foldl restoreReg r.2
    { s1 with ao := { s1.ao with saved := none } }

/-- The timers whose source is absent are observed FAILED again.
[UNVERIFIED, unsafe, log 38] -/
def observeTmrs (s : State) : State :=
  (List.range 32).foldl (fun t n => if t.flag (F.TMR_STAT_SRCLOST n) then observe Cls.tmr n Obs.failed Cause.srclost t else t) s

/-- An access of the debug port that waits is abandoned with ERR (R60). -/
def DbgAcc.abandoned (a : DbgAcc) : DbgAcc :=
  ⟨a.done || a.wait.isSome, a.err || a.wait.isSome, a.data, none⟩

/-- The test and debug unit after a reset or a sleep that covers it: the TAP keeps its instruction and its cells (R568). -/
def TduSt.dropped (t : TduSt) : TduSt := { TduSt.reset with ir := t.ir, cells := t.cells, acc := t.acc.abandoned }

/-- The state that every reset of the core drops: the command core, the sequencers, lines on their way, budget state.
[DEDUCED, unsafe, log 12] -/
def dropCore (s : State) : State :=
  { s with
    cc := { CcSt.reset with nextLmov := s.cc.nextLmov }, seqs := [], lines := [], fixups := [], encs := [], clipRuns := []
    ba := { BaSt.reset with configured := s.ba.configured } }

/-- The state that the resets of the whole core drop beyond that: everything outside the AO island and the retention island.
[DEDUCED, unsafe, log 12] -/
def dropEngine (s : State) : State :=
  { dropCore s with
    hpt := .reset, dic := .reset, scrubs := [], mpt0 := .idle, mpt1 := .idle, cmds := .reset, keys := [], replays := []
    tenants := [], pus := [], dec := .reset, ring := .reset, tsu := .reset, lp := .reset, ba := .reset, feeds := [], plys := []
    unitOff := [], frame := 0 }

/-- A soft reset of the slice engines (R332): rows abandoned, band buffers and queues discarded, REFOK cleared.
[DEDUCED, unsafe, log 12] -/
def softSlices (s : State) : State :=
  let s1 := (List.range 64).foldl (fun t k => if t.refOk k then t.setFlag (F.SE_WSTAT_REFOK k) false else t) (stopDecode s)
  { s1 with
    dec := { s1.dec with
      wins := s1.dec.wins.map fun p => (p.1, { Win.empty with cfg := p.2.cfg, ref := p.2.ref, asked := p.2.asked, qbase := p.2.qbase, qsize := p.2.qsize })
      refresh := [] }
    feeds := s1.feeds.map fun p => (p.1, { p.2 with cur := none, buf := none, slices := [] }) }

/-- The mode controller when a reset ends a transition, a wake or an entry to a low-power mode (R95). -/
def Ao.idle (a : Ao) : Ao :=
  { a with modeWait := none, sleep := .none, sleepCmd := none, saved := none, wakeHeld := false, waking := false,
           heldFrame := none, softPending := none, coreHeld := true }

/-- CCLK has been released at its target. -/
def State.ccOk (s : State) : Bool := s.flag F.AO_CLKST_CC_OK

/-- A reset of the core (R94, R100, R101). HPT is awake again as soon as no reset is in effect and CCLK is stable (R54).
[DEDUCED, unsafe, log 10] -/
def resetCore (k : ResetKind) (s : State) : State :=
  let s0 := { s with rf := keptRegs s.build (fun f => k.keeps f.surv) s.rf, ao := s.ao.idle }
  match k with
  | .soft =>
    let s1 := dropCore (lanesQuiet (softSlices (virtualBa s0)))
    let s2 := { s1 with lp := { LpSt.reset with lanes := s1.lp.lanes, shortG := s1.lp.shortG, ks := s1.lp.ks }
                        cmds := { s1.cmds with list := [], after := [], rx := [] }
                        ring := { s1.ring with reas := [], bulk := [] } }
    recRestart s.ba.other (s2.setFld F.AO_MODE_MODE Mode.standby)
  | .start =>
    let s1 := dropEngine s0
    observeTmrs { s1 with tdu := s1.tdu.dropped, cstore := [], hb := .zero, spm := .zero }
  | .engine => observeTmrs { dropEngine s0 with tdu := s0.tdu.dropped }
  | .wdog =>
    let s1 := dropEngine s0
    observeTmrs { s1 with tdu := { s1.tdu with acc := s1.tdu.acc.abandoned, loops := [], grants := [], walls := [], selftest := none, haltReq := none } }

/-- The pulse outputs and lanes after a reset: held low, quiet (R43, R95). -/
def resetOutputs (s : State) : State := observePus (2 ^ 64 - 1) (puHoldAll s)

/-- HPT accepts requests as soon as CCLK is stable and no reset covers it (R54, R60). -/
def hptWakes (s : State) : State :=
  if s.cclkOn && s.ccOk && s.ao.sleep != .replying then { s with hpt := { s.hpt with awake := true } } else s

/-- The power-on state (R94): the whole engine, the AO island included. Pin levels, the build and the model's counters stay.
[DESIGN CHOICE, safe, log 9] -/
def powerOnState (s : State) : State :=
  { State.reset with
    build := s.build, pending := s.pending, freeCtr := s.freeCtr
    trip := { State.reset.trip with pins := s.trip.pins }
    ao := { Ao.reset with porHeld := true, pwrgood := s.ao.pwrgood, wakeLvl := s.ao.wakeLvl, snsAlert := s.ao.snsAlert
                          engHeld := s.ao.engHeld, engDis := s.ao.engDis } }

/-! ### The registers of one unit (R94, R101) -/

/-- Does a register belong to a unit, so that the Unit column of R101 acts on it? -/
def unitOwns (cls idx off : Nat) : Bool :=
  let within := fun (lo n : Nat) => decide (lo ≤ off) && decide (off < lo + n)
  match cls with
  | 1 => within (0x100000 + 0x1000 * idx) 0x1000 || within (seqBase (1 + idx)) 0x100
  | 2 => within (seqBase (17 + idx)) 0x100
  | 3 => within (F.LP_MOD_GEOM_EN idx).off 0x40 || within (F.ZLL_STAT_STATE idx).off 0x20
  | 4 => within (F.PU_CFG_SW idx).off 0x40
  | 5 => decide (0x2C0000 ≤ off) && decide (off < 0x300000) && within (F.TMR_CFG_OUTPOL idx).off 0x80
  | 6 => within (F.RING_PORT_CFG_EN idx).off 0x20
  | 7 => within (0x040000 + 0x1000 * idx) 0x1000
  | 8 => within 0x300000 0x100000
  | _ => false

/-- The registers of a unit return to their Reset values; control stores, keys and trip settings are kept. -/
def resetUnitRegs (cls idx : Nat) (s : State) : State :=
  let keep := fun (f : FDesc) => f.surv == .cstore || f.surv == .cvalid || f.surv == .fixed || f.surv == .live
  { s with rf := s.rf.filterMap fun p =>
      if unitOwns cls idx p.1 then
        let v := keptReg s.build keep p.1 p.2
        if v = regReset s.build p.1 then none else some (p.1, v)
      else some p }

end Sys2Proof.Machine
end

