-- ==== Sys2Proof/Machine/Timer.lean ====
section
/-!
DEFINITION. Timers (R441 to R450, R455 to R458).
-/

namespace Sys2Proof.Machine

def State.tmr (s : State) (n : Nat) : Tmr := SMap.get (fun _ => Tmr.reset) s.tmrs n
def State.setTmr (s : State) (n : Nat) (t : Tmr) : State := { s with tmrs := SMap.put (fun _ => Tmr.reset) s.tmrs n t }

/-- Does timer n raise its doorbell source for IE bit `b` (R450, R456)? -/
def State.tmrIe (s : State) (n b : Nat) : Bool := bitOf (s.fld (F.TMR_CFG_IE n)) (b - 4)

/-- Source 288 + n for an event of timer n (R450). -/
def tmrRaise (n b : Nat) (s : State) : State := if s.tmrIe n b then s.raise (288 + n) else s

/-- One step of timer n (R442): up to TOP, down to 0; a committed TOP is loaded at 0 counting up, a committed CMP at every
step (R446); the turn at TOP and the zero may raise source 288 + n (R450).
[DEDUCED, unsafe, log 63] -/
def tmrStep (n : Nat) (s : State) : State :=
  let t := s.tmr n
  let t := { t with cmp := t.cmpC }
  if t.up then
    let c := t.cnt + 1
    if t.top ≤ c then tmrRaise n 6 (s.setTmr n { t with cnt := c, up := false }) else s.setTmr n { t with cnt := c }
  else
    let c := t.cnt - 1
    if c = 0 then tmrRaise n 5 (s.setTmr n { t with cnt := 0, up := true, top := t.topC }) else s.setTmr n { t with cnt := c }

/-- A number of steps.
[DEDUCED, unsafe, log 63] -/
def tmrSteps (n : Nat) : Nat → State → State
  | 0, s => s
  | k + 1, s => tmrSteps n k (tmrStep n s)

/-- The source edges that make one step, in the units in which the accumulator counts an edge (R443). -/
def State.tmrDiv (s : State) (n : Nat) : Nat :=
  if isPrecision s.build n then max (s.fld (F.TMR_DIV_DIV n)) 65536 else 65536 * 2 ^ s.fld (F.TMR_CFG_PSC n)

/-- `edges` edges of the source of timer n (R443). An edge adds 65,536 to the accumulator, and at most one step follows from
an edge, so the steps are the quotient and the accumulator is the remainder. A timer whose source is absent holds
(R444).
[DEDUCED, unsafe, log 63] -/
def tmrEdges (n edges : Nat) (s : State) : State :=
  if !decide (n < 32) || s.flag (F.TMR_STAT_SRCLOST n) || s.ao.porHeld || !s.ao.supplies then s
  else
    let t := s.tmr n
    let a := t.acc + 65536 * edges
    let d := s.tmrDiv n
    if a / d = 0 then s.setTmr n { t with acc := a }
    else endWindows (tmrSteps n (a / d) (s.setTmr n { t with acc := a % d }))

/-- The capture of timer n's event (R449): the count and direction; STALE while the source is absent; OVR over a capture that
was not taken.
[DEDUCED, unsafe, log 63] -/
def tmrCapture (n : Nat) (s : State) : State :=
  let t := s.tmr n
  let cs := s.fld (F.TMR_CFG_CSEL n)
  if !decide (n < 32) || cs == 0 then s
  else if !(decide (1 ≤ cs) && decide (cs ≤ 8)) && !bitOf s.tmrDue n then s
  else
    let cap : TmrCap := ⟨t.cnt, !t.up, s.flag (F.TMR_STAT_SRCLOST n), t.full⟩
    let s1 := { s.setTmr n { t with cap := cap, full := true } with tmrDue := clrBit s.tmrDue n }
    tmrRaise n 7 (s1.setFlag (F.TMR_STAT_FULL n) true)

/-- A read of TMRn_CAPL (R449): the capture register goes to the read buffer; FULL, OVR and STALE clear. Answers bits 31:0 of
the buffer. VALID sets once a capture has been taken.
[DEDUCED, unsafe, log 19] -/
def tmrCaplRead (n : Nat) (s : State) : State × W64 :=
  let t := s.tmr n
  let s1 := (((((s.setFlag (F.TMR_CAPH_VALID n) (s.flag (F.TMR_CAPH_VALID n) || t.full)).setFlag (F.TMR_CAPH_OVR n) t.cap.ovr).setFlag (F.TMR_CAPH_STALE n)
    t.cap.stale).setFlag (F.TMR_CAPH_DIR n) t.cap.down).setFld (F.TMR_CAPH_CAP_HI n) (t.cap.cnt / 2 ^ 32)).setFld
    (F.TMR_CAPL_CAP_LO n) t.cap.cnt
  let s2 := (s1.setFlag (F.TMR_STAT_FULL n) false).setTmr n { t with full := false, cap := { t.cap with ovr := false, stale := false } }
  (s2, BitVec.ofNat 64 (t.cap.cnt % 2 ^ 32))

/-- A write of the high register of a pair commits it (R448): 0 TOP, 1 CMP, 2 PHASE. A commit of TOP = 0 is discarded.
[DEDUCED, unsafe, log 19] -/
def tmrCommit (p : TmrPair) (n hi : Nat) (s : State) : State :=
  let t := s.tmr n
  match p with
  | .top =>
    let v := hi % 2 ^ 16 * 2 ^ 32 + s.fld (F.TMR_TOPL_TOP_LO n)
    if v = 0 then s else (s.setFld (F.TMR_TOPH_TOP_HI n) hi).setTmr n { t with topC := v }
  | .cmp =>
    (s.setFld (F.TMR_CMPH_CMP_HI n) hi).setTmr n { t with cmpC := hi % 2 ^ 16 * 2 ^ 32 + s.fld (F.TMR_CMPL_CMP_LO n) }
  | .phase =>
    (s.setFld (F.TMR_PHH_PH_HI n) hi).setTmr n { t with phC := hi % 2 ^ 17 * 2 ^ 32 + s.fld (F.TMR_PHL_PH_LO n) }

/-- Restart timer n from its phase (R447). -/
def tmrRestart (n : Nat) (s : State) : State :=
  let t := s.tmr n
  let p := t.phC % (2 * t.top)
  s.setTmr n { t with cnt := if p < t.top then p else 2 * t.top - p, up := decide (p < t.top), acc := 0 }

def tmrSync (mask : Nat) (s : State) : State := endWindows ((bitsSet mask 32).foldl (fun s n => tmrRestart n s) s)

/-- A write of TMR_SWCAP is a capture event for the timers named whose CSEL is 0x0A (R458). -/
def tmrSwcap (mask : Nat) (s : State) : State :=
  { s with tmrDue := (bitsSet mask 32).foldl (fun d n => if s.fld (F.TMR_CFG_CSEL n) = 0x0A then setBit d n else d) s.tmrDue }

/-- A write of TMRn_CFG: on a plain timer a SRC other than 0 is a reserved encoding; a change of SRC or PSC clears the
accumulator (R443, R456).
[DEDUCED, unsafe, log 19] -/
def tmrCfgWrite (w : Writer) (n be : Nat) (data : W64) (s : State) : State :=
  let off := (F.TMR_CFG_SRC n).off
  let v := s.written w off be data
  let v := if isPrecision s.build n then v else setBits v 16 3 0
  let s1 := s.setReg off v
  if bitOf be 1 || bitOf be 2 then s1.setTmr n { s1.tmr n with acc := 0 } else s1

/-- A write of TMRn_DIV: read-only zero on a plain timer (R443, R456). -/
def tmrDivWrite (w : Writer) (n be : Nat) (data : W64) (s : State) : State :=
  if !isPrecision s.build n then s
  else
    let s1 := s.plainWrite w (F.TMR_DIV_DIV n).off be data
    s1.setTmr n { s1.tmr n with acc := 0 }

/-- The source of timer n becomes absent (R444).
[DEDUCED, unsafe, log 63] -/
def tmrLost (n : Nat) (s : State) : State :=
  if !decide (n < 32) || s.flag (F.TMR_STAT_SRCLOST n) then s
  else
    let s1 := (s.setFlag (F.TMR_STAT_SRCLOST n) true).setFlag (F.TMR_STAT_LOSTEV n) true
    observe Cls.tmr n Obs.failed Cause.srclost (tmrRaise n 4 s1)

/-- The source of timer n returns: counting continues from the held count with the prescaler cleared (R444).
[DEDUCED, unsafe, log 63] -/
def tmrReturn (n : Nat) (s : State) : State :=
  if !decide (n < 32) || !s.flag (F.TMR_STAT_SRCLOST n) then s
  else
    let s1 := (s.setFlag (F.TMR_STAT_SRCLOST n) false).setTmr n { s.tmr n with acc := 0 }
    observe Cls.tmr n Obs.on 0 (tmrRaise n 4 s1)

/-- The timers of a source code of TMRn_CFG.SRC on this build. -/
def State.tmrsOn (s : State) (src : Nat) : List Nat :=
  (List.range 32).filter fun n => isPrecision s.build n && s.fld (F.TMR_CFG_SRC n) == src

/-- Every timer of a source loses it, or has it back (R444): 1 REFCLK, 2 ring time clock, 3 PNCLK. -/
def tmrsLost (src : Nat) (s : State) : State := (s.tmrsOn src).foldl (fun t n => tmrLost n t) s
def tmrsReturn (src : Nat) (s : State) : State := (s.tmrsOn src).foldl (fun t n => tmrReturn n t) s

/-- The level of TOUTk (R446). -/
def State.tout (s : State) (k : Nat) : Bool :=
  let b := bitsOf (s.fld (if k < 4 then F.TOUT_SEL0_PINS else F.TOUT_SEL1_PINS)) (8 * (k % 4)) 8
  bitOf b 7 && s.tmrOut (b % 32)

/-! ### The commands -/

/-- TIMER_STEP (R442): A timer step moves the counter up or down and loads a new TOP at zero. -/
def execTimerStep (n edges : Nat) (s : State) : Answer := .next (whilePowered s (tmrEdges n edges s))
/-- TIMER_CAPTURE (R449): A capture event records the count and direction and sets FULL.
[DESIGN CHOICE, safe, log 17] -/
def execTimerCapture (n : Nat) (s : State) : Answer := .next (whilePowered s (tmrCapture n s))
/-- TIMER_CAPL_READ (R449): A read of TMRn_CAPL takes the capture into the read buffer and clears FULL. -/
def execTimerCaplRead (n : Nat) (s : State) : Answer := .next (whileClocked s (if n < 32 then (tmrCaplRead n s).1 else s))
/-- TIMER_PAIR_COMMIT (R448): A write of a TOP, CMP or PHASE high register commits the pair. -/
def execTimerPairCommit (n : Nat) (p : TmrPair) (hi : Nat) (s : State) : Answer := .next (whileClocked s (if n < 32 then tmrCommit p n hi s else s))

/-- A write of SRC and PSC, or of DIV (R443). -/
def execTimerSourceWrite (w : Writer) (n : Nat) (v : TmrSrcWrite) (s : State) : Answer :=
  .next (whileClocked s (if 32 ≤ n then s else match v with
    | .cfg src psc =>
      tmrCfgWrite w n 0x0F (setBits (setBits (s.reg (F.TMR_CFG_SRC n).off) 16 3 src) 8 4 psc) s
    | .div d => tmrDivWrite w n 0x0F (BitVec.ofNat 64 (d % 2 ^ 32)) s))

/-- TIMER_SOURCE_LOST (R444): A timer's source becomes absent: the count holds and SRCLOST sets. -/
def execTimerSourceLost (n : Nat) (s : State) : Answer := .next (whilePowered s (tmrLost n s))
/-- TIMER_SOURCE_RETURN (R444): A timer's source returns: counting resumes and SRCLOST clears. -/
def execTimerSourceReturn (n : Nat) (s : State) : Answer := .next (whilePowered s (tmrReturn n s))
/-- TMR_SYNC (R447): A write of TMR_SYNC restarts the named timers from their phases. -/
def execTmrSync (mask : Nat) (s : State) : Answer := .next (whileClocked s (tmrSync mask s))
/-- TMR_SWCAP (R458): A write of TMR_SWCAP is a capture event for timers with CSEL 0x0A. -/
def execTmrSwcap (mask : Nat) (s : State) : Answer := .next (whileClocked s (tmrSwcap mask s))

end Sys2Proof.Machine
end

