-- ==== Sys2Proof/Machine/Mode.lean ====
section
/-!
DEFINITION. Clocks, modes, hooks, sleep and wake (R67 to R103, R215, R216, R588, R589).
-/

namespace Sys2Proof.Machine

/-! ### Hooks: the call (R215, R216) -/

/-- A step that calls hook `k` is due: its g5 and, for CMD, its command.
[DEDUCED, unsafe, log 13] -/
def queueHook (k arg : Nat) (cmd : Option Nat) (s : State) : State :=
  { s with cc := { s.cc with hooks := s.cc.hooks ++ [⟨k, arg, cmd⟩] } }

/-- What calling a hook finds. -/
inductive HookCall where
  | entered | absent | pennant
  deriving DecidableEq, Repr

/-- The command core address of hook entry k. -/
def hookAddr (k : Nat) : Nat := 0x600000 + 8 * k

/-- Firmware loads a hook entry and calls the routine: g4 = k, g5, the return address in g31; bit 0 of PC is always 0 (R183). A byte 4
that is neither 0 nor 1 runs the routine at Task level.
[DESIGN CHOICE, safe, log 2]
[DEDUCED, unsafe, log 13] -/
def callHook (h : HookDue) (s : State) : State × HookCall :=
  let b := s.codeBytes (hookAddr h.k) 8
  let s1 := noteCode (hookAddr h.k) 8 s
  if anyPen b then (trapEnter 2 0 s1.cc.pc (BitVec.ofNat 32 (hookAddr h.k)) s1, .pennant)
  else if leAt (vals b) 0 4 = 0 then (s1, .absent)
  else
    let ret := BitVec.ofNat 32 (0x01000000 + 2 * (s1.free 15))
    let pl := if byteAt (vals b) 4 = 1 then 1 else 0
    let run : HookRun := ⟨h, ret, s1.cc.pc, s1.cc.pl, false⟩
    let s2 := ((s1.drew.setG 4 (BitVec.ofNat 32 h.k)).setG 5 (BitVec.ofNat 32 h.arg)).setG 31 ret
    ({ s2 with cc := { (s2.cc.setPl pl) with pc := BitVec.ofNat 32 (leAt (vals b) 0 4 / 2 * 2), hook := some run, wait := none } }, .entered)

/-! ### Entering a mode (R80, R81, R84, R91) -/

/-- The TYPE 0x8 packet of a mode entered (R581). -/
def traceMode (s : State) : State := traceEmit 8 (leBytes 1 s.mode ++ leBytes 1 (s.fld F.AO_MODE_DCAUSE)) s

/-- Enter a mode: the panel starts or stops with the Show modes, decode stops on leaving Display and Half-Mast (R43, R91, R332). -/
def enterMode (m : Nat) (s : State) : State :=
  let old := s.mode
  let s1 := traceMode (s.setMode m)
  let shown := fun (x : Nat) => x == Mode.display || x == Mode.halfMast
  let s2 := if shown old && !shown m then stopDecode s1 else s1
  if showMode old && !showMode m then observePus (2 ^ 64 - 1) (lightPathOff s2)
  else if !showMode old && showMode m then
    observePus (2 ^ 64 - 1) (lightPathOn { s2 with ba := { s2.ba with first := true, limRun := 0, freeRun := 0 } })
  else s2

/-- A mode transition is complete: the MODE hook (R215). In Halt the call waits, as firmware does (R574).
[DEDUCED, unsafe, log 13] -/
def modeDone (s : State) : State := queueHook 3 s.mode none s

/-- The 8 bytes of a MODE_SET reply (R238).
[DEDUCED, unsafe, log 14] -/
def modeReply (m : Nat) : List Byte := leBytes 8 m

/-- The final reply of a command that is queued and of which nothing has been written yet becomes another one.
[DEDUCED, unsafe, log 14] -/
def recallReply (id : Nat) (bytes : List Byte) (s : State) : State :=
  let other := fun (l : List Reply) => l.map fun r => if r.cmd = id ∧ r.final then { r with bytes := bytes } else r
  { s with cmds := { s.cmds with cq := s.cmds.cq.map fun p =>
    (p.1, { p.2 with queue :=
      if p.2.left ≠ 0 ∨ p.2.filling then p.2.queue.take 1 ++ other (p.2.queue.drop 1) else other p.2.queue }) } }

/-- An entry to Furled or Watch that Dark overtakes: the settings saved are discarded, the port stays awake (R53, R84). The OK of step 4
of R85 becomes FAULT as long as nothing of it has been written.
[DEDUCED, unsafe, log 14] -/
def endSleep (s : State) : State :=
  let s0 := match s.ao.sleepCmd.bind s.cmd? with
    | some c => recallReply c.id (replyHeader s c.hdr Status.fault 8 ++ modeReply Mode.dark) s
    | none => s
  let s1 := if s0.ao.sleep = .replying then { s0 with hpt := { s0.hpt with awake := true } } else s0
  { s1 with
    ao := { s1.ao with modeWait := none, sleep := .none, sleepCmd := none, saved := none, wakeHeld := false }
    hpt := { s1.hpt with slpReq := false } }

/-- MODE_SETs of this engine to a mode other than Dark that are accepted and not completed end with FAULT at the entry to Dark (R84).
One that has failed an early check asks for no transition: it keeps its status. -/
def endModeSets (s : State) : State :=
  let hit := fun (c : Cmd) =>
    c.opc == 1 && !s.remote c && c.phase != .replying && c.early.isNone && byteAt c.params 0 != Mode.dark
  endSleep (((s.cmds.list ++ s.cmds.after).filter hit).foldl (fun t c => finish c.id Status.fault (modeReply Mode.dark) t) s)

/-- Enter Dark for a cause; a later cause does not overwrite the code (R84, R588). -/
def enterDark (cause : Nat) (s : State) : State :=
  if s.mode < Mode.rigging || Mode.dark ≤ s.mode then s
  else
    let s1 := enterMode Mode.dark (endModeSets (s.setFld F.AO_MODE_DCAUSE cause))
    let s2 := observePus (2 ^ 64 - 1) (puHoldAll (lanesQuiet s1))
    modeDone ((s2.setFlag F.AO_MODE_BUSY false).assertWatch 6)

/-- A fault that leads to Dark from the Show modes only.
[DEDUCED, unsafe, log 14] -/
def darkIfShow (cause : Nat) (s : State) : State := if showMode s.mode then enterDark cause s else s

/-! ### Clocks (R67 to R77) -/

/-- Is the core island powered and clocked, reset or not (R68, R78)? -/
def State.clocked (s : State) : Bool :=
  s.ao.supplies && s.ao.pwrgood && !s.ao.porHeld && !s.ao.engDis && !s.asleep && s.mode != Mode.off

/-- What holds while PNCLK runs on the safe clock (R74). -/
def pnSafe (s : State) : State := observePus (2 ^ 64 - 1) (tmrsLost 3 (lanesHush (puHoldAll s)))

/-- A relock of CCLK starts (R71): the domain switches to the safe clock, which REFCLK must feed (R77). -/
def relockCc (changed : Bool) (s : State) : State :=
  let s1 := (s.setFlag F.AO_CLKST_CC_OK false).setFlag F.AO_CLKST_CC_SAFE (!s.ao.refAbsent)
  { s1 with ao := { s1.ao with cclk := ⟨true, 0, false, changed || s1.ao.cclk.changed⟩ } }

/-- A relock of PNCLK starts (R71, R74, R76). -/
def relockPn (changed : Bool) (s : State) : State :=
  let s0 := if s.flag F.AO_CLKST_PN_SAFE || s.ao.refAbsent then s else s.bump F.AO_CLKST_PN_RELOCKS 1
  let s1 := (s0.setFlag F.AO_CLKST_PN_OK false).setFlag F.AO_CLKST_PN_SAFE (!s.ao.refAbsent)
  pnSafe { s1 with ao := { s1.ao with pnclk := ⟨true, 0, false, changed || s1.ao.pnclk.changed⟩ } }

/-- A clock's synthesiser relocks; its release test starts anew (R72 to R76).
[DEDUCED, unsafe, log 16] -/
def relock (d : ClkDom) (changed : Bool) (s : State) : State :=
  match d with | .cclk => relockCc changed s | .pnclk => relockPn changed s

/-- A synthesiser loses lock (R71, R73). -/
def synthLockLost (d : ClkDom) (s : State) : State := if s.clocked then relock d false s else s

/-- The domain is released at its target (R72). -/
def releaseClk (d : ClkDom) (s : State) : State :=
  match d with
  | .cclk =>
    let s1 := (s.setFlag F.AO_CLKST_CC_OK true).setFlag F.AO_CLKST_CC_SAFE false
    hptWakes { s1 with ao := { s1.ao with cclk := ⟨false, 0, false, false⟩ } }
  | .pnclk =>
    let changed := s.ao.pnclk.changed
    let s1 := (s.setFlag F.AO_CLKST_PN_OK true).setFlag F.AO_CLKST_PN_SAFE false
    observePus (2 ^ 64 - 1) (lanesAfterRelock changed (tmrsReturn 3 { s1 with ao := { s1.ao with pnclk := ⟨false, 0, false, false⟩ } }))

/-- The target count of a window (R72). -/
def State.clkTarget (s : State) (d : ClkDom) : Nat :=
  match d with | .cclk => 1024 * s.fld F.AO_CLKCFG_CCLK_MUL | .pnclk => 16 * s.fld F.AO_CLKCFG_PN_MUL

/-- The two inequalities of the release test (R72).
[DEDUCED, unsafe, log 16] -/
def windowPasses (c t : Nat) : Bool := decide (499 * t + 500 ≤ 500 * c) && decide (500 * c + 500 ≤ 501 * t)

/-- The bounds of R73 after release.
[DEDUCED, unsafe, log 16] -/
def windowHolds (c t : Nat) : Bool := decide (996 * t ≤ 1000 * c) && decide (1000 * c ≤ 1004 * t)

def State.clk (s : State) (d : ClkDom) : ClkState := match d with | .cclk => s.ao.cclk | .pnclk => s.ao.pnclk

def State.setClk (s : State) (d : ClkDom) (c : ClkState) : State :=
  match d with
  | .cclk => { s with ao := { s.ao with cclk := c } }
  | .pnclk => { s with ao := { s.ao with pnclk := c } }

/-- A window of 1,024 REFCLK cycles ends with a count (R72, R73, R76).
[DEDUCED, unsafe, log 16] -/
def releaseTestWindow (d : ClkDom) (count : Nat) (locked : Bool) (s : State) : State :=
  if !s.clocked || s.ao.refAbsent then s
  else
    let s0 := match d with | .cclk => s | .pnclk => s.setFld F.AO_CLKST_PN_MEAS (min count 65535)
    let t := s0.clkTarget d
    let c := s0.clk d
    if c.relocking then
      if locked && windowPasses count t then
        if 3 ≤ c.passes then releaseClk d s0 else s0.setClk d { c with passes := c.passes + 1 }
      else s0.setClk d { c with passes := 0 }
    else if locked && windowHolds count t then s0
    else relock d false s0

/-- PNCLK has not been released within 2 ms of the start of the relock (R75). -/
def pnclkTimeout (s : State) : State :=
  if !s.clocked || !s.ao.pnclk.relocking || s.ao.pnclk.late then s
  else
    let s1 := (s.setClk .pnclk { s.ao.pnclk with late := true }).setFlag F.AO_CLKST_PN_FAIL true
    darkIfShow Cause.pnfail s1

/-- An AOCLK period without a REFCLK edge (R77, R522): REF_LOST sets in each one. CC_SAFE and PN_SAFE of a domain that is on the safe
clock already stay as they are.
[DEDUCED, unsafe, log 16] -/
def refclkLost (s : State) : State :=
  if !s.clocked then s
  else
    let s1 := s.setFlag F.AO_CLKST_REF_LOST true
    darkIfShow Cause.reflost
      (if s.ao.refAbsent then s1 else tsuRefLost (tmrsLost 1 { s1 with ao := { s1.ao with refAbsent := true } }))

/-- REFCLK edges in 64 consecutive AOCLK periods (R588).
[DEDUCED, unsafe, log 16] -/
def refclkReturn (s : State) : State :=
  if !s.clocked || !s.ao.refAbsent then s
  else
    let s1 := tmrsReturn 1 { s with ao := { s.ao with refAbsent := false } }
    -- a relock of PNCLK that was asked for in the absence switches to the safe clock now
    let s2 := if s1.ao.pnclk.relocking && !s1.flag F.AO_CLKST_PN_SAFE then s1.bump F.AO_CLKST_PN_RELOCKS 1 else s1
    (s2.setFlag F.AO_CLKST_PN_SAFE s2.ao.pnclk.relocking).setFlag F.AO_CLKST_CC_SAFE s2.ao.cclk.relocking

/-- A write of AO_CLKCFG (R69, R70).
[DEDUCED, unsafe, log 16] -/
def clkcfgWrite (w : Writer) (be : Nat) (data : W64) (s : State) : State :=
  let off := F.AO_CLKCFG_LOCK.off
  let old := s.reg off
  let v0 := s.written w off be data
  let v1 := if s.mode = Mode.rigging || s.mode = Mode.standby then v0 else setBits v0 0 6 (getBits old 0 6)
  let v2 := if showMode s.mode then setBits v1 16 12 (getBits old 16 12) else v1
  let s1 := s.setReg off v2
  let s2 := if getBits v2 0 6 = getBits old 0 6 then s1 else relockCc true s1
  if getBits v2 16 12 = getBits old 16 12 then s2 else relockPn true s2

/-! ### The watchdog (R97, R98) -/

/-- Does the watchdog count? -/
def State.wdogRuns (s : State) : Bool :=
  s.ao.supplies && !s.ao.porHeld && !s.ao.engDis && s.fld F.AO_WDOG_PERIOD != 0 && !s.asleep && s.mode != Mode.halt && s.mode != Mode.off

def watchdogWarning (s : State) : State :=
  if !s.wdogRuns || s.ao.wdogExpired then s
  else ({ s with ao := { s.ao with wdogExpired := true } }).setFlag F.AO_WDOG_WARNED true

/-- A kick (R97). -/
def wdogKick (v : Nat) (s : State) : State :=
  if v = 0x5A3C then ({ s with ao := { s.ao with wdogExpired := false } }).setFlag F.AO_WDOG_WARNED false else s

/-- A write of AO_WDOG: PERIOD, LOCK, WARNED and KICK.
[DEDUCED, unsafe, log 16] -/
def wdogWrite (w : Writer) (be : Nat) (data : W64) (s : State) : State :=
  let s1 := s.plainWrite w F.AO_WDOG_LOCK.off be data
  let s2 := if s1.fld F.AO_WDOG_PERIOD = 0 then { s1 with ao := { s1.ao with wdogExpired := false } } else s1
  if bitOf be 2 && bitOf be 3 then wdogKick (getBits data 16 16) s2 else s2

/-! ### MODE_SET (R81 to R86) -/

/-- The targets that R81 gives MODE_SET from a mode. -/
def modeTargets (m : Nat) : List Nat :=
  match m with
  | 0x3 => [0x4, 0xA]
  | 0x4 => [0x5, 0x8, 0x9, 0x6, 0x1, 0x2, 0xA]
  | 0x5 => [0x4, 0x8, 0x6, 0xA]
  | 0x6 => [0x4, 0x5, 0x8, 0xA]
  | 0x7 => [0x4, 0x5, 0x8, 0xA, 0x6]
  | 0x8 => [0x6, 0x4, 0x5, 0xA]
  | 0x9 => [0x4, 0xA]
  | 0xA => [0x4]
  | _ => []

/-- The modules in use. -/
def State.modulesOn (s : State) : List Nat := (List.range 64).filter fun m => s.flag (F.LP_MOD_GEOM_EN m)

/-- Does the condition that caused Dark persist (R588)? -/
def State.darkPersists (s : State) : Bool :=
  match s.fld F.AO_MODE_DCAUSE with
  | 0x01 => !s.flag F.AO_CLKST_PN_OK
  | 0x02 => s.ao.refAbsent
  | 0x03 => (List.range (mptCount s.build)).any fun n => s.flag (F.MPT_STAT_FAILED n)
  | 0x04 => s.seqState 17 == SeqState.retired || s.seqState 18 == SeqState.retired
  | 0x05 => (List.range (seCount s.build)).all fun n => s.seqState (n + 1) == SeqState.retired
  | _ => false

/-- The cases of DENIED, in the order of R82, R481 and R589.
[DEDUCED, unsafe, log 70] -/
def State.modeDenied (s : State) (t : Nat) : Bool :=
  let lit := t == Mode.display || t == Mode.calibrate
  (s.mode == Mode.rigging && t == Mode.standby
    && !((List.range 19).all fun q => !seqPresent s.build q || s.flag (F.SQ_STAT_VALID q)))
  || ((t == Mode.relay || lit)
    && !((s.flag (F.RING_PORT_CFG_EN 0) || s.flag (F.RING_PORT_CFG_EN 1)) && (s.flag F.TSU_STAT_SYNC || s.isGm)))
  || (lit && !s.hoists)
  || (lit && s.role 0 && !(s.modulesOn.all fun m => s.flag (F.LP_MOD_GEOM_CALOK m)))
  || (s.mode == Mode.dark && t == Mode.standby && s.darkPersists)
  || (lit && s.role 0 && !(s.ba.configured && s.modulesOn.all fun m =>
        s.fld (F.BA_MOD_IFS_R m) != 0 && s.fld (F.BA_MOD_IFS_G m) != 0 && s.fld (F.BA_MOD_IFS_B m) != 0))
  || (lit && s.role 0 && !((List.range (seCount s.build)).any fun n => s.inService Cls.se n))

/-- A transition by MODE_SET takes place and the command completes OK.
[DEDUCED, unsafe, log 14] -/
def modeSetEffect (id t : Nat) (s : State) : State :=
  let s1 := if t = Mode.dark then enterDark 0 s else modeDone (enterMode t s)
  finish id Status.ok (modeReply s1.mode) ((({ s1 with ao := { s1.ao with modeWait := none } })).setFlag F.AO_MODE_BUSY false)

/-- A MODE_SET whose transition waits.
[DEDUCED, unsafe, log 14] -/
def modeSetWait (id t frame : Nat) (s : State) : State :=
  (({ s with ao := { s.ao with modeWait := some ⟨id, t, frame⟩ } }).setFlag F.AO_MODE_BUSY true).running id

/-- MODE_SET (R82).
[DEDUCED, unsafe, log 14] -/
def modeSet (id : Nat) (s : State) : State :=
  withStarted id 0x0001 s fun c =>
    let t := byteAt c.params 0
    if c.params.length ≠ 8 || !zeroAt c.params 1 7 || 0xB < t then finish id Status.badParam [] s
    else if s.flag F.AO_MODE_BUSY then finish id Status.busy [] s
    else if t = Mode.halfMast || !(modeTargets s.mode).contains t then finish id Status.badParam [] s
    else if s.mode = Mode.halfMast && t = Mode.display then finish id Status.ok (modeReply s.mode) s
    else if s.modeDenied t then finish id Status.denied [] s
    else if t = Mode.furled || t = Mode.watch then
      (({ s with ao := { s.ao with sleepCmd := some id, sleepTo := t } }).setFlag F.AO_MODE_BUSY true).running id
    else if t = Mode.display then modeSetWait id t (max (c.frame + 3) (s.frame + 2)) s
    else if t ≠ Mode.dark && (s.mode = Mode.display || s.mode = Mode.halfMast) && s.hoists then modeSetWait id t (s.frame + 1) s
    else if s.mode = Mode.test && t = Mode.standby && (!s.tdu.loops.isEmpty || s.tdu.selftest.isSome) then modeSetWait id t 0 s
    else modeSetEffect id t s

/-- A transition that waits for a hoist is due at hoist n (R81, R83).
[DEDUCED, unsafe, log 14] -/
def State.modeDue (s : State) (n : Nat) : Option ModeWait :=
  match s.ao.modeWait with
  | some w => if s.mode != Mode.test && decide (w.frame ≤ n) then some w else none
  | none => none

/-- The hoist at which a MODE_SET takes effect. -/
def modeAtHoist (n : Nat) (s : State) : State :=
  match s.modeDue n with
  | some w => modeSetEffect w.cmd w.target s
  | none => s

/-- Test ends once every loopback and self-test has stopped (R81). -/
def testSettle (s : State) : State :=
  match s.ao.modeWait with
  | some w => if s.mode = Mode.test && s.tdu.loops.isEmpty && s.tdu.selftest.isNone then modeSetEffect w.cmd w.target s else s
  | none => s

/-! ### Furled and Watch (R85 to R90, R102) -/

/-- Steps 1 and 2 of R85: every other command has its final reply; the settings are saved, then the SAVE hook.
[DEDUCED, unsafe, log 12] -/
def saveSettings (s : State) : State :=
  let s1 := settingsToHb s
  queueHook 0 0 none { s1 with ao := { s1.ao with saved := some s.rf } }

/-- Step 3: the handshake begins (R53). -/
def startHandshake (s : State) : State :=
  if s.ao.saved.isNone then s
  else { s with ao := { s.ao with sleep := .handshake }, hpt := { s.hpt with slpReq := true } }

/-- Step 5: the clocks stop and the islands are gated.
[DEDUCED, unsafe, log 14] -/
def goToSleep (s : State) : State :=
  let s1 := tmrsLost 1 (tmrsLost 2 (tmrsLost 3 (s.setMode s.ao.sleepTo)))
  let s2 := (((s1.setFlag F.AO_CLKST_CC_OK false).setFlag F.AO_CLKST_CC_SAFE false).setFlag F.AO_CLKST_PN_OK false).setFlag
    F.AO_CLKST_PN_SAFE false
  let lp : LpSt := { LpSt.reset with shortG := s2.lp.shortG }
  let ports := { RingSt.reset with
    map := s2.ring.map
    p0 := { RingPort.reset with gcl := s2.ring.p0.gcl, gclNext := s2.ring.p0.gclNext }
    p1 := { RingPort.reset with gcl := s2.ring.p1.gcl, gclNext := s2.ring.p1.gclNext } }
  let lost := s2.tdu.haltReq.isSome
  let s3 := dropCore (s2.setFlag F.AO_MODE_BUSY false)
  let s4 := { s3 with
    rf := keptRegs s3.build sleepKeeps s3.rf
    hpt := .reset, dic := .reset, scrubs := [], mpt0 := .idle, mpt1 := .idle, replays := s3.replays, dec := .reset, ring := ports
    tsu := .reset, lp := lp, feeds := [], plys := [], tdu := s3.tdu.dropped, frame := 0
    cmds := { Cmds.reset with nextId := s3.cmds.nextId, lastSrc := s3.cmds.lastSrc, nextXid := s3.cmds.nextXid }
    ao := { s3.ao with sleep := .none, sleepCmd := none, waking := s3.ao.wakeHeld, wakeHeld := false, coreHeld := true
                       cclk := .unlocked, pnclk := .unlocked } }
  if lost then s4.setFlag F.TDU_STAT_HALTLOST true else s4

/-- Is a reply to another cabinet still to be sent: not yet a frame, or a frame that an egress has not started? A port that is down
sends none. -/
def State.replyToSend (s : State) : Bool :=
  s.anyPortUp && (!s.cmds.tx.isEmpty
    || [0, 1].any fun n => s.portUp n && (s.rport n).queue.any fun f => f.cls == 4 && !f.transit)

/-- The engine sleeps once the reply has been written, to a completion ring or to the sender cabinet (R85).
[DEDUCED, unsafe, log 14] -/
def sleepSettle (s : State) : State :=
  if s.ao.sleep = .replying && s.mode == Mode.standby
      && (match s.ao.sleepCmd with | some id => (s.cmd? id).isNone | none => true) && !s.replyToSend then goToSleep s else s

/-- HPT_SLP_ACK is high and no response is outstanding (R53, R85). -/
def hptSlpAck (s : State) : State :=
  if s.ao.sleep = .replying then sleepSettle s
  else if s.ao.sleep ≠ .handshake || !s.hpt.slots.isEmpty || !s.firmware then s
  else
    let s1 := { s with hpt := { s.hpt with awake := false, slpReq := false }, ao := { s.ao with sleep := .replying } }
    sleepSettle (match s1.ao.sleepCmd with
      | some id => finish id Status.ok (modeReply s1.mode) s1
      | none => s1)

/-- The handshake fails: the engine stays in its mode (R53, R85, R87). -/
def hptSleepTimeout (s : State) : State :=
  if s.ao.sleep ≠ .handshake then s
  else
    let s1 := { s with hpt := { s.hpt with slpReq := false }
                       ao := { s.ao with sleep := .none, sleepCmd := none, saved := none, wakeHeld := false } }
    let s2 := s1.setFlag F.AO_MODE_BUSY false
    match s.ao.sleepCmd with
    | some id => finish id Status.fault (modeReply s2.mode) s2
    | none => s2

/-- SLEEP_ENTRY: once all earlier commands have replied, the settings are saved (R85, R86). -/
def sleepEntry (s : State) : State :=
  match s.ao.sleepCmd with
  | none => s
  | some id =>
    if s.ao.sleep = .none && s.ao.saved.isNone && s.firmware && s.mode = Mode.standby && (s.cmds.list.all fun c => c.id == id) then
      saveSettings s
    else s

/-- Is a wake in progress: the RESTORE hook is due or runs (R89)? -/
def State.wakeBusy (s : State) : Bool :=
  (s.cc.hooks.any fun h => h.k == 1) || (match s.cc.hook with | some r => r.due.k == 1 | none => false)

/-- Are wake events recorded: asleep, from step 3 of R85 on, or while a wake is in progress (R87, R88)?
[DEDUCED, unsafe, log 15] -/
def State.wakeRecorded (s : State) : Bool := s.asleep || s.ao.sleep != .none || s.wakeBusy

/-- An edge of a WAKE pin (R88, R552). -/
def wakePinEdge (k : Nat) (rising : Bool) (s : State) : State :=
  if 8 ≤ k || !s.ao.supplies || s.ao.engDis then s
  else
    let lvl := if rising then setBit s.ao.wakeLvl k else clrBit s.ao.wakeLvl k
    let s1 := { s with ao := { s.ao with wakeLvl := lvl } }
    if s.ao.porHeld || rising == bitOf (s1.fld F.AO_WAKEEN_PIN_POL) k then s1
    else
      let s2 := (s1.setFld F.DIC_EDGE_EDGE (setBit (s1.fld F.DIC_EDGE_EDGE) k)).assertWatch (8 + k)
      if bitOf (s2.fld F.AO_WAKEEN_PIN_EN) k && s2.wakeRecorded then
        (s2.setFld F.AO_WAKEST_PIN (setBit (s2.fld F.AO_WAKEST_PIN) k)).wakeEvent
      else s2

/-- A rising edge of HPT_WAKE (R54, R88). -/
def hptWakeEdge (s : State) : State :=
  if s.flag F.AO_WAKEEN_HPT && s.wakeRecorded && s.ao.supplies && !s.ao.porHeld then (s.setFlag F.AO_WAKEST_HPT true).wakeEvent else s

/-- The own cabinet ID while ring settings are not in their registers: from the saved settings.
[DEDUCED, unsafe, log 15] -/
def State.sleepId (s : State) : Option Nat :=
  match s.ao.saved with
  | none => s.cabId
  | some l =>
    let v := getBits (SMap.get (regReset s.build) l F.RING_ID_CABID.off) F.RING_ID_CABID.lo F.RING_ID_CABID.w
    if v = 0xFFFF then none else some v

/-- In Watch a received frame matches the wake-frame pattern (R530). -/
def wakeMatches (s : State) (b : List Byte) : Bool :=
  match parseHsr b with
  | none => false
  | some h =>
    let target := beAt h.payload 26 2
    h.da == daWake && h.etype == 0x88B6 && h.kind == 1 && (target == 0xFFFF || s.sleepId == some target)

/-- A wake frame at a sleeping engine (R530).
[DEDUCED, unsafe, log 15] -/
def wakeFrameMatch (b : List Byte) (s : State) : State :=
  if (s.mode = Mode.watch || (s.wakeBusy && s.fld F.AO_MODE_LAST = Mode.watch)) && s.flag F.AO_WAKEEN_RING && wakeMatches s b then
    (({ s with ao := { s.ao with heldFrame := some (s.ao.heldFrame.getD b) } }).setFlag F.AO_WAKEST_RING true).wakeEvent
  else s

/-- A raising of a watched source in Furled or Watch (R551).
[DEDUCED, unsafe, log 15] -/
def watcherHit (src : Nat) (s : State) : State := s.watchHit src

/-- At the end of a wake each watched source with HIT is raised once and HIT clears; a level source stands by its condition (R538,
R551).
[DEDUCED, unsafe, log 15] -/
def watcherReplay (s : State) : State :=
  (List.range 64).foldl (fun t w =>
    if t.flag (F.DIC_WATCH_HIT w) then (t.setFlag (F.DIC_WATCH_HIT w) false).raise (t.fld (F.DIC_WATCH_SRC w)) else t) s

/-- A woken engine forwards the held frame under R499 (R530): PathId tells the direction it travels in, out of HL0 or out of HL1 (R490).
[DEDUCED, unsafe, log 15] -/
def heldFrameForward (s : State) : State :=
  match s.ao.heldFrame, s.ao.heldFrame.bind parseHsr with
  | some b, some h =>
    let q := min 1 h.path
    if s.carries q h && !s.seen q h.sa h.seq then (s.mark q h.sa h.seq).pushFrame q ⟨4, true, b, false⟩ else s
  | _, _ => s

/-- The frame held in Watch is authenticated: its command runs, or AUTHFAIL sets and with REWATCH the engine goes back to Watch
(R90). -/
def heldFrameAuth (s : State) : State :=
  match s.ao.heldFrame with
  | none => s
  | some b =>
    let s0 := { s with ao := { s.ao with heldFrame := none } }
    match parseHsr b with
    | none => s0
    | some h =>
      match checkMgmt (fun _ => true) [13] (mgmtEnc h.payload) h.payload s0 with
      | (s1, some body) => mgmtCommand h.payload body s1
      | (s1, none) =>
        let s2 := s1.setFlag F.AO_WAKEST_AUTHFAIL true
        if s2.flag F.AO_WAKEEN_REWATCH then
          saveSettings (({ s2 with ao := { s2.ao with sleepTo := Mode.watch } }).setFlag F.AO_MODE_BUSY true)
        else s2

/-- Step 6 of R89: Standby, BUSY clears, the watcher's sources are raised, the held frame is judged.
[DEDUCED, unsafe, log 13]
[DEDUCED, unsafe, log 15] -/
def wakeDone (s : State) : State := heldFrameAuth (heldFrameForward <| modeDone (watcherReplay (s.setFlag F.AO_MODE_BUSY false)))

/-- Steps 1 to 5 of R89: islands, clocks, HPT_AWAKE, the command core from its reset vector, the settings, the RESTORE hook. -/
def wakeSequence (s : State) : State :=
  if !s.asleep || !s.ao.waking || s.inReset then s
  else
    let s1 := (s.setMode Mode.standby).setFlag F.AO_MODE_BUSY true
    let s2 := { s1 with ao := { s1.ao with waking := false, coreHeld := false, refAbsent := false } }
    let s3 := releaseClk .cclk ((s2.setFlag F.AO_CLKST_PN_SAFE true).setFlag F.AO_CLKST_PN_OK false)
    let s4 := tmrsReturn 1 (tmrsReturn 2 (restoreSettings s3))
    let s5 := observePort 0 (observePort 1 (puWakeReport (observePus (2 ^ 64 - 1) (puHoldAll s4))))
    queueHook 1 (getBits (s5.reg F.AO_WAKEST_PIN.off) 0 13) none s5

/-! ### Hooks: what follows (R216) -/

/-- A hook has returned, was absent, or was abandoned: the step that called it goes on. `status` is the reply STATUS of CMD.
[DEDUCED, unsafe, log 13]
[DESIGN CHOICE, safe, log 41] -/
def hookDone (h : HookDue) (status : Nat) (s : State) : State :=
  match h.k with
  | 0 => startHandshake s
  | 1 => wakeDone s
  | 2 => match h.cmd with | some id => finish id status [] s | none => s
  | 4 => { s with cc := { s.cc with booting := false } }
  | _ => s

/-- The hooks that are due are called, one at a time, while firmware acts and no customer instruction is in progress.
[DEDUCED, unsafe, log 13] -/
def pumpHooks : Nat → State → State
  | 0, s => s
  | n + 1, s =>
    if s.cc.hook.isSome || s.cc.cx.isSome || !s.firmware then s
    else
      match s.cc.hooks with
      | [] => s
      | h :: rest =>
        match callHook h { s with cc := { s.cc with hooks := rest } } with
        | (t, .entered) => t
        | (t, .absent) => pumpHooks n (hookDone h Status.badOpc t)
        | (t, .pennant) => pumpHooks n (hookDone h Status.fault t)

/-! ### Halt (R573, R574, R577) -/

/-- Does CCLK run, at its target or on the safe clock? -/
def State.ccRuns (s : State) : Bool := s.cclkOn && (s.flag F.AO_CLKST_CC_OK || s.flag F.AO_CLKST_CC_SAFE)

/-- The TYPE 0x6 packet: 1 halt, 2 resume, 3 step done (R581). -/
def traceHalt (kind : Nat) (s : State) : State :=
  traceEmit 6 (leBytes 1 kind ++ leBytes 1 (s.fld F.TDU_STAT_CAUSE) ++ leBytes 4 s.cc.pc.toNat) s

/-- The engine enters Halt: it holds its mode, the lanes go quiet, the pulse outputs stay as they are (R439, R574).
[DEDUCED, unsafe, log 13]
[DEDUCED, unsafe, log 65] -/
def haltEnter (cause : Nat) (s : State) : State :=
  let s1 := ({ s with ao := { s.ao with heldMode := s.mode }, cc := { s.cc with step := false, stepped := false } }).setMode Mode.halt
  let s2 := (s1.setFlag F.TDU_STAT_HALTED true).setFld F.TDU_STAT_CAUSE cause
  modeDone (traceMode (traceHalt 1 (lanesHush s2)))

/-- A request for Halt: it waits while BUSY is 1, and is lost while CCLK is stopped (R573).
[DEDUCED, unsafe, log 14]
[DEDUCED, unsafe, log 65] -/
def haltRequest (cause : Nat) (s : State) : State :=
  if s.mode = Mode.halt then s
  else if s.asleep || !s.ccRuns then s.setFlag F.TDU_STAT_HALTLOST true
  else if s.flag F.AO_MODE_BUSY then { s with tdu := { s.tdu with haltReq := some (s.tdu.haltReq.getD cause) } }
  else haltEnter cause s

/-- A request that waited for BUSY. -/
def haltSettle (s : State) : State :=
  match s.tdu.haltReq with
  | none => s
  | some c => if s.flag F.AO_MODE_BUSY then s else haltRequest c { s with tdu := { s.tdu with haltReq := none } }

/-- Firmware takes up the hooks that are due; a Halt that waited for the end of a transition takes effect. -/
def settle (s : State) : State := haltSettle (pumpHooks 16 s)

/-- The hook that runs has ended, with a STATUS for CMD: the core goes on where it was called. A command whose hook issued a write that
was discarded completes with BUSY (R119, R597).
[DEDUCED, unsafe, log 13] -/
def hookEnd (status : Nat) (s : State) : State :=
  match s.cc.hook with
  | none => s
  | some r =>
    let s1 := { s with cc := { (s.cc.setPl r.pl) with pc := r.pc, hook := none, wait := none } }
    settle (hookDone r.due (if r.busy then Status.busy else status) s1)

/-- A hook has not returned within its limit (R216). -/
def hookTimeout (s : State) : State :=
  if s.cc.hook.isNone || s.mode = Mode.halt || !s.cclkOn then s else hookEnd Status.fault (s.setFlag F.CC_STAT_HOOKTMO true)

/-! ### Resets (R60, R79, R94 to R99, R116) -/

def powerOnReset (s : State) : State :=
  { powerOnState s with ao := { (powerOnState s).ao with supplies := true } }

/-- The islands are switched on, the synthesisers lock, the fill waits for CCLK's release (R79, R94).
[DEDUCED, unsafe, log 11] -/
def startUp (s : State) : State :=
  let s1 := { s with ao := { s.ao with filling := true, coreHeld := true, cclk := .unlocked, pnclk := .unlocked, refAbsent := false } }
  let s2 := (s1.setFlag F.AO_CLKST_CC_SAFE true).setFlag F.AO_CLKST_PN_SAFE true
  tmrsReturn 1 (tmrsReturn 2 ((s2.setFlag F.AO_CLKST_CC_OK false).setFlag F.AO_CLKST_PN_OK false))

def powerOnRelease (s : State) : State :=
  if !s.ao.porHeld || !s.ao.supplies || s.ao.engDis then s
  else
    let s1 := { s with ao := { s.ao with porHeld := false } }
    if s1.ao.pwrgood then startUp s1 else s1

def pwrgoodRise (s : State) : State :=
  if s.ao.pwrgood || !s.ao.supplies then s
  else
    let s1 := { s with ao := { s.ao with pwrgood := true } }
    if s1.ao.porHeld || s1.ao.engDis then s1 else startUp s1

/-- PWRGOOD falls (R79). Every effect of the start-up's reset takes place here; the fill follows the rise.
[DEDUCED, unsafe, log 11] -/
def pwrgoodFall (s : State) : State :=
  if !s.ao.pwrgood then s
  else
    let s0 := { s with ao := { s.ao with pwrgood := false } }
    if s0.ao.porHeld || s0.ao.engDis || !s0.ao.supplies then s0
    else
      let s1 := tmrsLost 1 (tmrsLost 2 (tmrsLost 3 s0))
      let s2 := resetOutputs (resetCore .start s1)
      (({ s2 with ao := { s2.ao with filling := false } }).setFlag F.AO_RSTCAUSE_PWRLOSS true)

/-- Off (R81): nothing is kept; AO_MODE shows the code only in LAST. -/
def suppliesRemoved (s : State) : State :=
  let s1 := powerOnState s
  ({ s1 with ao := { s1.ao with supplies := false, porHeld := false, pwrgood := false } }).setFld F.AO_MODE_MODE Mode.off

/-- The fill of SPM, HB and the control stores ends (R94, R116), and with it the transition from Off to Rigging (R81).
[DESIGN CHOICE, safe, log 9] -/
def fillComplete (s : State) : State :=
  if !s.ao.filling || s.inReset || !s.ccOk then s
  else
    let s1 := { s with ao := { s.ao with filling := false }, spm := .zero, hb := .zero, cstore := [], fixups := [] }
    let s2 := modeDone ((List.range (spmBanks s1.build)).foldl (fun t b => t.setFld (F.SCRUB_OWN_OWNER b) 0) s1)
    (((s2.setReg F.SCRUB_ERR_VALID.off 0).setFld F.SCRUB_CCNT_SPM 0).setFld F.SCRUB_CCNT_HB 0).setReg F.HB_COLL_VALID.off 0

/-- The command core is released (R94): BUSY clears, the BOOT hook runs before commands are accepted; the MODE hook of a start-up
follows it.
[DEDUCED, unsafe, log 10]
[DEDUCED, unsafe, log 13] -/
def coreRelease (s : State) : State :=
  if s.inReset || s.asleep || !s.ao.coreHeld || s.ao.filling || s.mode = Mode.off then s
  else
    let s1 := { s with ao := { s.ao with coreHeld := false }, cc := { CcSt.reset with booting := true, nextLmov := s.cc.nextLmov } }
    let s2 := queueHook 4 (getBits (s1.reg F.AO_RSTCAUSE_POR.off) 0 6) none (hptWakes (s1.setFlag F.AO_MODE_BUSY false))
    settle { s2 with cc := { s2.cc with hooks := s2.cc.hooks ++ s.cc.hooks } }

/-- After a reset that ends Furled or Watch the clocks start anew. -/
def clocksAfter (slept : Bool) (s : State) : State :=
  if slept then startUp { s with ao := { s.ao with filling := false } } |> fun t => { t with ao := { t.ao with filling := false } }
  else s

/-- ENG_RST_N falls (R60). -/
def engineReset (s : State) : State :=
  if s.ao.engHeld || !s.ao.supplies then s
  else
    let s0 := { s with ao := { s.ao with engHeld := true } }
    if s.ao.porHeld || s.ao.engDis || s.mode = Mode.off then s0
    else (clocksAfter (s.asleep && s.ao.pwrgood) (resetOutputs (resetCore .engine s0))).setFlag F.AO_RSTCAUSE_ENG true

def engineResetRelease (s : State) : State :=
  if s.ao.engHeld then hptWakes { s with ao := { s.ao with engHeld := false } } else s

/-- The second expiry without a kick (R97). -/
def watchdogReset (s : State) : State :=
  if !s.wdogRuns || !s.ao.wdogExpired then s
  else
    let s1 := { s with ao := { s.ao with wdogExpired := false } }
    hptWakes ((resetOutputs (resetCore .wdog s1)).setFlag F.AO_RSTCAUSE_WDOG true)

/-- The debug reset (R94): Rigging, or Halt when HALTONRST is 1 (R573).
[DEDUCED, unsafe, log 10] -/
def debugReset (s : State) : State :=
  if s.inReset || s.mode = Mode.off then s
  else
    let s1 := clocksAfter s.asleep (resetOutputs (resetCore .wdog s))
    let s2 := hptWakes (s1.setFlag F.AO_RSTCAUSE_DBG true)
    if s2.flag F.TDU_CTL_HALTONRST then
      let s3 := { s2 with ao := { s2.ao with heldMode := Mode.rigging } }
      ((s3.setFld F.AO_MODE_MODE Mode.halt).setFlag F.TDU_STAT_HALTED true).setFld F.TDU_STAT_CAUSE 4
    else s2.setFlag F.TDU_STAT_HALTED false

/-- SOFT_RESET (R96): once every earlier command has its final reply it writes its own. -/
def softReset (id : Nat) (s : State) : State :=
  withStarted id 0x0002 s fun c =>
    if c.params.length ≠ 8 || leAt c.params 0 4 ≠ 0x5AFE0002 || !zeroAt c.params 4 4 then finish id Status.badParam [] s
    else if !(s.cmds.list.all fun d => d.id == id) then s
    else finish id Status.ok [] { s with ao := { s.ao with softPending := some id } }

/-- The soft reset takes effect once its reply is written (R94, R96).
[DEDUCED, unsafe, log 10]
[DEDUCED, unsafe, log 12] -/
def softResetEffect (s : State) : State :=
  match s.ao.softPending with
  | none => s
  | some id =>
    if (s.cmd? id).isSome || !s.cclkOn then s
    else
      let old := s.mode
      let s1 := (resetCore .soft s).setFlag F.AO_RSTCAUSE_SOFT true
      if showMode old then observePus (2 ^ 64 - 1) (observeGclks s1) else s1

/-! ### The commands -/

/-- POWER_ON_RESET (R94): AORST_N sampled low at three consecutive AOCLK edges, or VDD_AO rising, resets the whole engine, the AO island included.
[DESIGN CHOICE, safe, log 17] -/
def execPowerOnReset (s : State) : Answer := .next (powerOnReset s)
/-- POWER_ON_RESET_RELEASE (R94): AORST_N sampled high releases power-on reset; the AO island runs and the rest waits for PWRGOOD. -/
def execPowerOnResetRelease (s : State) : Answer := .next (powerOnRelease s)
/-- PWRGOOD_RISE (R79): PWRGOOD rising switches on the core, IO and SerDes islands, relocks the synthesisers and starts the SPM and HB fill. -/
def execPwrgoodRise (s : State) : Answer := .next (pwrgoodRise s)
/-- PWRGOOD_FALL (R79): PWRGOOD falling holds the pulse outputs low, holds the core in reset, treats retention as lost and sets PWRLOSS. -/
def execPwrgoodFall (s : State) : Answer := .next (pwrgoodFall s)
/-- SUPPLIES_REMOVED (R81): Removal of the supplies takes the engine to Off at once. -/
def execSuppliesRemoved (s : State) : Answer := .next (suppliesRemoved s)
/-- CORE_RELEASE (R94): The command core is released after its reset delay and enters at its reset vector, running the BOOT hook before accepting commands. -/
def execCoreRelease (s : State) : Answer := .next (whilePowered s (coreRelease s))
/-- ENGINE_RESET (R60): A falling edge of ENG_RST_N asynchronously resets everything but the AO island.
[DESIGN CHOICE, safe, log 17] -/
def execEngineReset (s : State) : Answer := .next (engineReset s)
/-- ENGINE_RESET_RELEASE (R60): ENG_RST_N rising releases the engine reset at a CCLK edge; MPT requests wait for MPTn_IDLE. -/
def execEngineResetRelease (s : State) : Answer := .next (engineResetRelease s)
/-- WATCHDOG_WARNING (R97): The first expiry of the watchdog period sets WARNED, asserts the watchdog-warning source and restarts the period. -/
def execWatchdogWarning (s : State) : Answer := .next (whilePowered s (watchdogWarning s))
/-- WATCHDOG_RESET (R97): A second watchdog expiry without a kick causes a watchdog reset. -/
def execWatchdogReset (s : State) : Answer := .next (whilePowered s (watchdogReset s))
/-- WATCHDOG_KICK (R97): A write of 0x5A3C to AO_WDOG.KICK restarts the period and clears WARNED. -/
def execWatchdogKick (v : Nat) (s : State) : Answer := .next (if s.cclkOn then wdogKick v s else s)
/-- SOFT_RESET (R96): SOFT_RESET stops acceptance, lets earlier commands finish and writes its own OK reply. -/
def execSoftReset (id : Nat) (s : State) : Answer := .next (whileClocked s (softReset id s))
/-- SOFT_RESET_EFFECT (R94): Once TAIL has advanced past the SOFT_RESET reply, the soft reset takes effect and the engine enters Standby. -/
def execSoftResetEffect (s : State) : Answer := .next (whileClocked s (softResetEffect s))
/-- SYNTH_LOCK_LOST (R71): Loss of lock of the CCLK or PNCLK synthesiser switches its domain to the safe clock and starts a relock. -/
def execSynthLockLost (d : ClkDom) (s : State) : Answer := .next (whilePowered s (synthLockLost d s))

/-- CCLK_MUL_WRITE (R70): A write of AO_CLKCFG.CCLK_MUL in Rigging or Standby starts a relock of CCLK to the new target. -/
def execCclkMulWrite (w : Writer) (v : Nat) (s : State) : Answer :=
  .next (if s.cclkOn then clkcfgWrite w 0xFF (setBits (s.reg F.AO_CLKCFG_LOCK.off) 0 6 v) s else s)

/-- PN_MUL_WRITE (R70): A write of AO_CLKCFG.PN_MUL outside Show modes starts a relock of PNCLK to the new target. -/
def execPnMulWrite (w : Writer) (v : Nat) (s : State) : Answer :=
  .next (if s.cclkOn then clkcfgWrite w 0xFF (setBits (s.reg F.AO_CLKCFG_LOCK.off) 16 12 v) s else s)

/-- RELEASE_TEST_WINDOW (R72): Each 1,024-REFCLK window counts the relocking clock; four passes release it, and after release a failing window falls back to the safe clock. -/
def execReleaseTestWindow (d : ClkDom) (count : Nat) (locked : Bool) (s : State) : Answer := .next (whilePowered s (releaseTestWindow d count locked s))
/-- PNCLK_RELOCK_TIMEOUT (R75): PNCLK not released within 2 ms sets PN_FAIL, asserts the clock-fault source and enters Dark from a Show mode. -/
def execPnclkRelockTimeout (s : State) : Answer := .next (whilePowered s (settle (pnclkTimeout s)))
/-- REFCLK_LOST (R77): An AOCLK period without a REFCLK edge sets REF_LOST, asserts the clock-fault source and enters Dark from a Show mode. -/
def execRefclkLost (s : State) : Answer := .next (whilePowered s (settle (refclkLost s)))
/-- REFCLK_RETURN (R588): REFCLK edges return in 64 consecutive AOCLK periods, ending the REFLOST condition and making the safe clock available again. -/
def execRefclkReturn (s : State) : Answer := .next (whilePowered s (refclkReturn s))
/-- MODE_SET (R82): MODE_SET checks the target mode and starts or refuses the transition. -/
def execModeSet (id : Nat) (s : State) : Answer := .next (whileClocked s (settle (modeSet id s)))
/-- SLEEP_ENTRY (R85): Once all earlier commands have replied, firmware saves settings to HB and starts the port sleep handshake for Furled or Watch. -/
def execSleepEntry (s : State) : Answer := .next (whilePowered s (settle (sleepEntry s)))
/-- HPT_SLP_ACK (R53): HPT_SLP_ACK high with no response outstanding lets the engine lower HPT_AWAKE, write the OK reply, stop clocks and gate islands. -/
def execHptSlpAck (s : State) : Answer := .next (whilePowered s (hptSlpAck s))
/-- HPT_SLEEP_TIMEOUT (R53): HPT_SLP_ACK not risen within 1 ms lowers HPT_SLP_REQ, keeps the mode and completes the MODE_SET with FAULT. -/
def execHptSleepTimeout (s : State) : Answer := .next (whilePowered s (settle (hptSleepTimeout s)))
/-- WAKE_PIN_EDGE (R552): An edge of a WAKE pin at its polarity is latched in DIC_EDGE and, if enabled, starts a wake. -/
def execWakePinEdge (k : Nat) (rising : Bool) (s : State) : Answer := .next (wakePinEdge k rising s)
/-- HPT_WAKE_EDGE (R54): A rising edge of HPT_WAKE is a wake source of the AO island. -/
def execHptWakeEdge (s : State) : Answer := .next (whilePowered s (hptWakeEdge s))
/-- WAKE_FRAME_MATCH (R530): In Watch, a received frame matching the wake-frame pattern is held and starts a wake. -/
def execWakeFrameMatch (frame : List Byte) (s : State) : Answer := .next (whilePowered s (wakeFrameMatch frame s))
/-- WATCHER_HIT (R551): In Furled or Watch, a raising of a watched source sets HIT and may wake the engine. -/
def execWatcherHit (src : Nat) (s : State) : Answer := .next (whilePowered s (watcherHit src s))
/-- WAKE_SEQUENCE (R89): A synchronised wake event powers the islands, relocks clocks, raises HPT_AWAKE, restores settings and enters Standby. -/
def execWakeSequence (s : State) : Answer := .next (whilePowered s (settle (wakeSequence s)))
/-- HOOK_TIMEOUT (R216): A hook not returned within its limit is abandoned, HOOKTMO is set and the calling step continues. -/
def execHookTimeout (s : State) : Answer := .next (whileClocked s (hookTimeout s))

/-- EGRESS_START (R504): An egress starts the next frame whose gate allows it in priority order; the reply that entry
to sleep awaits may leave with it (R85). -/
def execEgressStart (n now : Nat) (s : State) : Answer := .next (whileClocked s (sleepSettle (egressStart n now s)))

end Sys2Proof.Machine
end

