-- ==== Sys2Proof/Machine/Loopback.lean ====
section
/-!
DEFINITION. Loopbacks, planned breaks and self-test (R558 to R567).
-/

namespace Sys2Proof.Machine

/-! ### Parameters (R558, R559) -/

structure LoopParams where
  kind : Nat
  depth : Nat
  unit : Nat
  pat : Nat
  count : Nat
  addr : Nat
  len : Nat
  word : Nat
  deriving DecidableEq, Repr

def loopParams (b : List Byte) : LoopParams :=
  ⟨byteAt b 0, byteAt b 1, byteAt b 2, byteAt b 3, leAt b 4 4, leAt b 8 8, leAt b 16 8, leAt b 24 8⟩

/-- Is UNIT in range for KIND? -/
def LoopParams.unitOk (p : LoopParams) (b : Build) : Bool :=
  match p.kind with
  | 0 => decide (p.unit < 2)
  | 1 => decide (p.unit < 64)
  | 2 => p.unit == 0 || (p.unit == 1 && b == .x)
  | _ => false

/-- Does a byte range lie outside every coded window of a port (R559)? -/
def State.uncoded (s : State) (n addr len : Nat) : Bool :=
  (List.range 8).all fun k => !s.flag (F.MPT_CWIN_EN n k) || decide ((s.fld (F.MPT_CWIN_LIMIT n k) + 1) * 2 ^ 20 ≤ addr)
    || decide (addr + len ≤ s.fld (F.MPT_CWIN_BASE n k) * 2 ^ 20)

/-- The BADPARAM cases of R561.
[DEDUCED, unsafe, log 67] -/
def loopBad (s : State) (p : LoopParams) : Bool :=
  if !p.unitOk s.build then true
  else if p.depth = 0xFF then false
  else
    let top := match p.kind with | 0 => 4 | 1 => 1 | _ => 2
    let units := (p.kind == 0 && p.depth == 4) || (p.kind == 1 && p.depth == 1)
    decide (top < p.depth) || decide (3 < p.pat) || (p.pat != 3 && p.word != 0)
      || (p.kind != 2 && (p.count == 0 || decide ((if units then 65535 else 10000000) < p.count)))
      || (p.kind == 0 && p.depth == 4 && (decide (1023 < p.addr % 65536) || s.cabId == some (p.addr % 65536)))
      || (p.kind == 2 && (p.addr % 64 != 0 || p.len % 64 != 0 || decide (p.len < 64) || decide (2 ^ 30 < p.len)
        || (p.depth == 1 && !s.inWindow p.unit p.addr p.len)
        || (p.depth == 2 && (decide (2 ^ 48 < p.addr + p.len) || !s.uncoded p.unit p.addr p.len))))

/-- What the mode permits (R562): DENIED, DEFERRED, or nothing against it.
[DEDUCED, unsafe, log 67] -/
def loopRefusal (s : State) (p : LoopParams) : Option Nat :=
  let show_ := showMode s.mode
  let other := s.mode == Mode.standby || s.mode == Mode.relay || s.mode == Mode.dark
  let idle := s.laneSt p.unit == LaneSt.down || s.laneSt p.unit == LaneSt.failed || s.unitOff.contains (ustIdx Cls.lane p.unit)
  let granted := s.tdu.grants.any fun g => g.port == p.unit && decide (g.first ≤ s.frame) && decide (s.frame < g.first + g.frames)
  if !(s.mode == Mode.test || show_ || other) then some Status.denied
  else
    match p.kind, p.depth with
    | 0, 4 => none
    | 0, _ => if s.mode = Mode.test then none else if other then some Status.denied else if granted then none else some Status.deferred
    | 1, 1 => if !show_ then some Status.denied else if idle then none else some Status.deferred
    | 1, _ => if show_ && !idle then some Status.deferred else none
    | _, _ => none

/-! ### Patterns -/

/-- One byte of a pseudo-random pattern, its first bit lowest, and the state of its generator after it: 31 bits with taps 31 and
28, or 7 bits with taps 7 and 6.
[DEDUCED, unsafe, log 67] -/
def prbsByte (n : Nat) (x : Nat) : Nat × Nat :=
  let tap := if n = 31 then 27 else n - 2
  (List.range 8).foldl (fun (p : Nat × Nat) i =>
    let b := b2n (bitOf p.2 (n - 1) != bitOf p.2 tap)
    (p.1 + b * 2 ^ i, (2 * p.2 + b) % 2 ^ n)) (0, x)

/-- The 64 bytes of the next line of a pattern, and its generator after it.
[DEDUCED, unsafe, log 67] -/
def patternLine (p : LoopParams) (x : Nat) : List Byte × Nat :=
  match p.pat with
  | 2 => ((List.range 64).map fun k => if k % 2 = 0 then 0x55 else 0xAA, x)
  | 3 => ((List.replicate 8 (leBytes 8 p.word)).flatten, x)
  | pat => (List.range 64).foldl (fun (q : List Byte × Nat) _ =>
      let r := prbsByte (if pat = 0 then 31 else 7) q.2
      (q.1 ++ [BitVec.ofNat 8 r.1], r.2)) ([], x)

/-- Where a pattern begins. -/
def patternSeed (p : LoopParams) : Nat := (Config.prbsSeed p.pat).toNat % 2 ^ (if p.pat = 0 then 31 else 7)

/-! ### Loopbacks in progress -/

def State.loop? (s : State) (kind unit : Nat) : Option Loop := s.tdu.loops.find? fun l => l.kind == kind && l.unit == unit
def State.loopOf? (s : State) (id : Nat) : Option Loop := s.tdu.loops.find? fun l => l.cmd == id

def State.setLoop (s : State) (l : Loop) : State :=
  { s with tdu := { s.tdu with loops := s.tdu.loops.map fun (m : Loop) => if m.cmd = l.cmd then l else m } }

def Loop.lp (l : Loop) : LoopParams := loopParams l.params
def Loop.total (l : Loop) : Nat := l.lp.len / 64

/-- The next quad of a memory depth: its first line is written, or read back (R559). -/
def loopNext (id : Nat) (s : State) : State :=
  match s.loopOf? id with
  | none => s
  | some l =>
    let p := l.lp
    if l.stopping || 2 * l.total ≤ l.pos then s
    else
      let i := l.pos % l.total
      let a := p.addr + 64 * i
      if l.pos < l.total then
        let n := min (l.total - i) (4 - a / 64 % 4)
        let gen := (List.range n).foldl (fun (q : List (Nat × List Byte) × Nat) k =>
          let r := patternLine p q.2
          (q.1 ++ [(a / 64 % 4 + k, r.1)], r.2)) ([], if l.pos = 0 then patternSeed p else l.lfsr)
        let req : MptReq :=
          { write := true, quad := a / 256, mask := (gen.1.map (·.1)).foldl setBit 0, raw := hostRaw gen.1, use := .test id }
        (s.setLoop { l with lfsr := gen.2, left := l.left + 1 }).mptQueue l.unit req
      else
        (s.setLoop { l with left := l.left + 1 }).mptQueue l.unit
          { write := false, quad := a / 256, mask := 0xF, raw := [], use := .test id }

/-- How many lines the quad in hand holds. -/
def Loop.step (l : Loop) : Nat :=
  let i := l.pos % l.total
  min (l.total - i) (4 - (l.lp.addr + 64 * i) / 64 % 4)

/-- The write in hand has been answered. -/
def loopWritten (id : Nat) (failed : Bool) (s : State) : State :=
  match s.loopOf? id with
  | none => s
  | some l => loopNext id (s.setLoop { l with pos := l.pos + l.step, left := 0, fault := l.fault || failed })

/-- The lines of the quad in hand have come back: each is compared with the pattern (R560). -/
def loopLines (id : Nat) (failed : Bool) (ls : List LineRead) (s : State) : State :=
  match s.loopOf? id with
  | none => s
  | some l =>
    let p := l.lp
    let i := l.pos - l.total
    let a := p.addr + 64 * i
    let l0 := { l with lfsr := if i = 0 then patternSeed p else l.lfsr, fault := l.fault || failed }
    let l1 := (List.range l.step).foldl (fun (m : Loop) k =>
      let r := patternLine p m.lfsr
      let x := ls.getD (a / 64 % 4 + k) lostLine
      let bad := x.line.pen || x.line.data != r.1
      { m with
        lfsr := r.2, fault := m.fault || x.line.pen, corr := m.corr + x.out.fixes.length, errors := m.errors + b2n bad
        first := if bad then some (m.first.getD (i + k)) else m.first }) l0
    loopNext id (s.setLoop { l1 with pos := l.pos + l.step, left := 0 })

/-- The 64 bytes of a reply (R560).
[DEDUCED, unsafe, log 67] -/
def loopReply (sent errors first elapsed lost dups corr : Nat) : List Byte :=
  leBytes 8 sent ++ leBytes 8 errors ++ leBytes 8 first ++ leBytes 8 elapsed ++ leBytes 4 lost ++ leBytes 4 dups ++ leBytes 4 corr
    ++ List.replicate 20 0

/-! ### LOOPBACK (R558 to R562) -/

/-- What the start of a loopback does to the path it uses (R559). -/
def loopBegin (l : Loop) (s : State) : State :=
  match l.kind with
  | 0 => if l.depth < 4 && s.portUp l.unit then observePort l.unit (portDown l.unit s) else s
  | 1 => if l.depth = 1 then sendPackets l.unit [(0x05, s.fld (F.ZLL_STAT_CHIPS l.unit) - 1, [2, 0, 0, 0])] s else s
  | _ => if l.depth = 0 then s else loopNext l.cmd s

/-- LOOPBACK with KIND other than 4 and 5.
[DEDUCED, unsafe, log 67] -/
def loopback (id : Nat) (s : State) : State :=
  withStarted id 0x6001 s fun c =>
    let p := loopParams c.params
    if p.kind = 4 || p.kind = 5 then s
    else if loopBad s p then finish id Status.badParam [] s
    else if p.depth = 0xFF then
      let s1 := match s.loop? p.kind p.unit with
        | some l => s.setLoop { l with stopping := true }
        | none => s
      finish id Status.ok (loopReply 0 0 (2 ^ 64 - 1) 0 0 0 0) s1
    else
      match loopRefusal s p with
      | some st => finish id st [] s
      | none =>
        if (s.loop? p.kind p.unit).isSome then finish id Status.busy [] s
        else
          let l : Loop := { kind := p.kind, depth := p.depth, unit := p.unit, cmd := id, params := c.params, pos := 0, lfsr := 0,
                            errors := 0, first := none, corr := 0, fault := false, stopping := false, left := 0 }
          let s1 := s.running id
          loopBegin l { s1 with tdu := { s1.tdu with loops := s1.tdu.loops ++ [l] } }

/-- What a path carries has been counted: the numbers that the environment decides. -/
structure LoopCounts where
  sent : Nat
  errors : Nat
  first : Nat
  lost : Nat
  dups : Nat
  deriving DecidableEq, Repr

/-- The counts of a loopback: of a memory depth from what was read back, of the others as the path gave them. -/
def Loop.counts (l : Loop) (m : LoopCounts) : LoopCounts :=
  let all := 2 ^ 64 - 1
  if l.kind = 2 then
    if l.depth = 0 then ⟨if l.stopping then min m.sent l.total else l.total, 0, all, 0, 0⟩
    else ⟨l.pos - l.total, l.errors, l.first.getD all, 0, 0⟩
  else
    let units := (l.kind == 0 && l.depth == 4) || (l.kind == 1 && l.depth == 1)
    let sent := if !units then m.sent else if l.stopping then min m.sent l.lp.count else l.lp.count
    let errors := min m.errors sent
    ⟨sent, errors, if errors = 0 then all else m.first, if units then m.lost else 0, if l.kind == 0 && l.depth == 4 then m.dups else 0⟩

/-- A loopback ends: its reply, its port or lane back in service (R560).
[DEDUCED, unsafe, log 67] -/
def loopbackDone (kind unit : Nat) (m : LoopCounts) (elapsed : Nat) (s : State) : State :=
  match s.loop? kind unit with
  | none => s
  | some l =>
    if !s.cclkOn || l.left ≠ 0 || (l.kind == 2 && l.depth != 0 && !l.stopping && decide (l.pos < 2 * l.total)) then s
    else
      let r := l.counts m
      let s1 := { s with tdu := { s.tdu with loops := s.tdu.loops.filter fun (x : Loop) => x.cmd != l.cmd } }
      let s2 := if l.kind = 1 then
          let t := if l.depth = 1 then sendPackets l.unit [(0x05, s1.fld (F.ZLL_STAT_CHIPS l.unit) - 1, [0, 0, 0, 0])] s1 else s1
          if showMode t.mode then wantTraining [l.unit] t else t
        else s1
      let s3 := finish l.cmd (if l.fault then Status.fault else Status.ok)
        (loopReply r.sent r.errors r.first elapsed r.lost r.dups l.corr) s2
      settle (testSettle s3)

/-! ### Planned breaks (R563) -/

structure BreakParams where
  cab : Nat
  port : Nat
  first : Nat
  frames : Nat
  deriving DecidableEq, Repr

/-- CABINET, PORT, FROM as a whole frame number, FRAMES. -/
def breakParams (s : State) (b : List Byte) : BreakParams :=
  ⟨leAt b 2 2, byteAt b 4, (resolveFrame s.frame (leAt b 8 4)).toNat, leAt b 6 2⟩

/-- Do the parameters of a planned break fail its checks?
[DEDUCED, unsafe, log 67] -/
def breakBad (b : List Byte) : Bool :=
  !zeroAt b 1 1 || !zeroAt b 5 1 || !zeroAt b 12 20 || decide (1023 < leAt b 2 2) || decide (1 < byteAt b 4) || leAt b 6 2 == 0

/-- GRANT's own checks beyond its source: FROM lies at least two periods ahead. -/
def grantTimely (s : State) (b : List Byte) : Bool :=
  s.hoists && decide ((s.frame : Int) + 2 ≤ resolveFrame s.frame (leAt b 8 4))

def takeGrant (b : List Byte) (s : State) : State :=
  let p := breakParams s b
  { s with tdu := { s.tdu with grants := s.tdu.grants ++ [⟨p.cab, p.port, p.first, p.frames⟩] } }

/-- GRANT (KIND 5): ring-sourced from the ensign, or from the standby ensign while it acts.
[DEDUCED, unsafe, log 67]
[DEDUCED, unsafe, log 70] -/
def grant (id : Nat) (s : State) : State :=
  withStarted id 0x6001 s fun c =>
    if byteAt c.params 0 ≠ 5 then s
    else
      let from_ := match c.src with
        | .ring _ => false
        | .cab x => x == s.fld F.RING_ID_ENSIGN || (x == s.fld F.RING_ID_STANDBY && s.tsu.acting)
      if breakBad c.params then finish id Status.badParam [] s
      else if !from_ then finish id Status.denied [] s
      else if !s.hoists then finish id Status.deferred [] s
      else if !grantTimely s c.params then finish id Status.denied [] s
      else finish id Status.ok (loopReply 0 0 (2 ^ 64 - 1) 0 0 0 0) (takeGrant c.params s)

/-- Does the wall stand against a planned break: another grant, a cabinet not heard, a cabinet with diverged units? -/
def State.wallBusy (s : State) (p : BreakParams) : Bool :=
  (s.tdu.walls.any fun g => decide (g.first < p.first + p.frames) && decide (p.first < g.first + g.frames))
    || s.ring.map.any fun e => e.2.en == 1 && (!s.heardCab e.1 || s.divCab e.1)

/-- APPROVE (KIND 4), on the grandmaster: a GRANT goes to the cabinet through the gateway, and its status is the reply.
[DEDUCED, unsafe, log 67]
[DEDUCED, unsafe, log 70] -/
def approve (id now : Nat) (s : State) : State :=
  withStarted id 0x6001 s fun c =>
    if byteAt c.params 0 ≠ 4 then s
    else
      let s1 := s.atTime now
      let p := breakParams s1 c.params
      if breakBad c.params then finish id Status.badParam [] s1
      else if !s1.isGm || !s1.flag F.CMD_GWCFG_EN then finish id Status.denied [] s1
      else if !s1.hoists || s1.wallBusy p then finish id Status.deferred [] s1
      else
        let s2 := { s1 with tdu := { s1.tdu with walls := s1.tdu.walls ++ [⟨p.cab, p.port, p.first, p.frames⟩] } }
        let params := leBytes 1 5 ++ c.params.drop 1
        if s2.cabId = some p.cab then
          if grantTimely s2 params then finish id Status.ok (loopReply 0 0 (2 ^ 64 - 1) 0 0 0 0) (takeGrant params s2)
          else finish id Status.denied [] s1
        else
          let hdr := leBytes 2 0x6001 ++ leBytes 1 (4 * b2n c.enc) ++ [1] ++ leBytes 4 0 ++ leBytes 2 32 ++ leBytes 2 p.cab ++ leBytes 4 0
          flushMgmt (gatewaySend id p.cab hdr params c.enc (s2.running id))

/-- The range of a planned break on a port has ended: a loopback of that port stops (R563). -/
def grantEnd (n : Nat) (s : State) : State :=
  let over_ := fun (g : Grant) => decide (g.first + g.frames ≤ s.frame)
  let ended := s.tdu.grants.any fun g => g.port == n && over_ g
  { s with tdu := { s.tdu with
      grants := s.tdu.grants.filter fun g => !(g.port == n && over_ g)
      walls := s.tdu.walls.filter fun g => !over_ g
      loops := s.tdu.loops.map fun (l : Loop) =>
        if ended && l.kind == 0 && decide (l.depth < 4) && l.unit == n then { l with stopping := true } else l } }

/-! ### SELFTEST (R565 to R567) -/

/-- The SPM banks that item 0 may test.
[DEDUCED, unsafe, log 68] -/
def State.freeBanks (s : State) : List Nat := (List.range (spmBanks s.build)).filter fun b => s.fld (F.SCRUB_OWN_OWNER b) == 0

/-- SELFTEST, opcode 0x6002 (R565 to R567).
[DEDUCED, unsafe, log 68] -/
def selfTest (id : Nat) (s : State) : State :=
  withStarted id 0x6002 s fun c =>
    let b := c.params
    let items := leAt b 0 4
    let engines := if bitOf items 3 then leAt b 4 2 else 0
    let test := s.mode == Mode.test
    if decide (255 < items) || !zeroAt b 6 10 || (bitsSet engines 16).any (fun n => decide (seCount s.build ≤ n)) then
      finish id Status.badParam [] s
    else if !test && (bitOf items 1 || bitOf items 4) then finish id Status.denied [] s
    else if !test && (bitsSet engines 16).any (fun n => s.decl Cls.se n != Obs.off || s.obs Cls.se n != Obs.off) then
      finish id Status.deferred [] s
    else if !test && bitOf items 0 && s.freeBanks.isEmpty then finish id Status.deferred [] s
    else if s.tdu.selftest.isSome then finish id Status.busy [] s
    else
      let banks := if bitOf items 0 then s.freeBanks else []
      let s1 := banks.foldl (fun t k => t.setFld (F.SCRUB_OWN_OWNER k) 0xFF) (s.running id)
      { s1 with tdu := { s1.tdu with selftest := some ⟨id, items, engines, banks⟩ } }

/-- The outcome of one item, as the hardware under test gives it: failures found, and the first address, bank, engine or vector
that failed; of items 3 and 4 the mask of the engines or halves that failed. -/
structure ItemOutcome where
  fails : Nat
  first : Nat
  deriving DecidableEq, Repr

/-- One entry of the reply.
[DEDUCED, unsafe, log 68] -/
def itemEntry (asked : Bool) (fails first : Nat) : List Byte :=
  if !asked then List.replicate 16 0
  else leBytes 1 (if fails = 0 then 1 else 2) ++ leBytes 1 0 ++ leBytes 2 (min fails 65535) ++ leBytes 8 (if fails = 0 then 0 else first)
    ++ leBytes 4 0

/-- The items finish: banks and engines come back, engines and halves that failed are observed FAILED, the reply is written.
[DEDUCED, unsafe, log 68] -/
def selfTestDone (out : List ItemOutcome) (s : State) : State :=
  match s.tdu.selftest with
  | none => s
  | some x =>
    if !s.cclkOn then s else
    let o := fun (i : Nat) => out.getD i ⟨0, 0⟩
    let mask := fun (i : Nat) => if i = 3 then bitsSet ((o 3).first &&& x.engines) 16 else bitsSet (o 4).first 2
    let fails := fun (i : Nat) => if !bitOf x.items i then 0 else if i = 3 || i = 4 then (mask i).length else (o i).fails
    let first := fun (i : Nat) => if i = 3 || i = 4 then (mask i).headD 0 else (o i).first
    let reply := (List.range 16).flatMap fun i => itemEntry (decide (i < 8) && bitOf x.items i) (fails i) (first i)
    let s1 := { s with tdu := { s.tdu with selftest := none } }
    let s2 := x.banks.foldl (fun t b => (zeroBank b t).setFld (F.SCRUB_OWN_OWNER b) 0) s1
    let s3 := if bitOf x.items 3 then (mask 3).foldl (fun t n => observe Cls.se n Obs.failed Cause.selftest t) s2 else s2
    let s4 := if bitOf x.items 4 then (mask 4).foldl (fun t n => observe Cls.lp n Obs.failed Cause.selftest t) s3 else s3
    settle (testSettle (finish x.cmd (if (List.range 8).all fun i => fails i == 0 then Status.ok else Status.fault) reply s4))

/-! ### The commands -/

/-- LOOPBACK (R558): LOOPBACK runs or stops a ring, lane or memory loopback test. -/
def execLoopback (id : Nat) (s : State) : Answer := .next (whileClocked s (loopback id s))
/-- LOOPBACK_DONE (R560): A loopback ends when its COUNT or LENGTH is done, completes with its counts and returns the port or lane to service. -/
def execLoopbackDone (kind unit sent errors first lost dups elapsed : Nat) (s : State) : Answer :=
  .next (whileLive s (loopbackDone kind unit ⟨sent, errors, first, lost, dups⟩ elapsed s))
/-- APPROVE (R563): APPROVE on the grandmaster checks the wall and sends a GRANT for a planned break. -/
def execApprove (id now : Nat) (s : State) : Answer := .next (whileClocked s (approve id now s))
/-- GRANT (R563): GRANT records a planned break on a port for a range of wall frames. -/
def execGrant (id : Nat) (s : State) : Answer := .next (whileClocked s (grant id s))
/-- GRANT_END (R563): At H(FROM + FRAMES) the granted loopback stops and the port returns to service. -/
def execGrantEnd (n : Nat) (s : State) : Answer := .next (whileClocked s (grantEnd n s))
/-- SELFTEST (R565): SELFTEST runs the requested self-test items and replies with their results. -/
def execSelftest (id : Nat) (s : State) : Answer := .next (whileClocked s (selfTest id s))

end Sys2Proof.Machine
end

