-- ==== Sys2Proof/Machine/Lmov.lean ====
section
/-!
DEFINITION. Line moves of the command core (R198).
-/

namespace Sys2Proof.Machine

/-! ### The local side -/

/-- The store and offset of a command core address in HB or SPM. -/
def localAt (b : Build) (a : Nat) : Option (StoreSel × Nat) :=
  if 0x600000 ≤ a ∧ a < 0x640000 then some (.hb, a - 0x600000)
  else if 0x800000 ≤ a ∧ a < 0x800000 + spmSize b then some (.spm, a - 0x800000)
  else none

/-- Does the command core own every SPM bank that a range touches (R111, R187)? -/
def State.coreOwns (s : State) (x : StoreSel) (a n : Nat) : Bool :=
  match x with
  | .hb => true
  | .spm => n == 0 || (List.range ((a + n - 1) / 0x20000 - a / 0x20000 + 1)).all fun i =>
      s.fld (F.SCRUB_OWN_OWNER (a / 0x20000 + i)) == 1

/-- A descriptor as it reads (R198). -/
structure LmovDesc where
  daddr : Nat
  laddr : Nat
  count : Nat
  dir : Nat
  deriving DecidableEq, Repr

def lmovDesc (b : List Byte) : LmovDesc := ⟨leAt b 0 8, leAt b 8 4, leAt b 12 2, byteAt b 14⟩

/-- The local range of a descriptor that keeps every rule.
[DESIGN CHOICE, unsafe, log 33] -/
def LmovDesc.place (d : LmovDesc) (s : State) : Option (StoreSel × Nat) :=
  if d.daddr % 64 ≠ 0 ∨ 2 ^ 48 < d.daddr + 64 * d.count ∨ d.laddr % 64 ≠ 0 ∨ d.count = 0 ∨ 64 < d.count ∨ 1 < d.dir then none
  else
    match localAt s.build d.laddr, localAt s.build (d.laddr + 64 * d.count - 1) with
    | some (x, a), some (y, _) => if x = y ∧ s.coreOwns x a (64 * d.count) then some (x, a) else none
    | _, _ => none

/-! ### The move -/

def State.setLmov (s : State) (m : Lmov) : State :=
  { s with cc := { s.cc with lmovs := s.cc.lmovs.map fun (l : Lmov) => if l.id = m.id then m else l } }

def State.lmov? (s : State) (id : Nat) : Option Lmov := s.cc.lmovs.find? fun m => m.id == id

/-- The write requests of a move to DRAM: coded quads carry the pennants of their lines. -/
def lmovWrites (m : Lmov) (lines : List (List PByte)) : List MptReq :=
  let l := lines.zipIdx.map fun p => (m.daddr + 64 * p.2, vals p.1)
  (groupQuads l).map fun g =>
    let pens := g.2.filter fun p => anyPen (lines.getD ((256 * g.1 + 64 * p.1 - m.daddr) / 64) [])
    { write := true, quad := g.1, mask := (g.2.map (·.1)).foldl setBit 0, raw := hostRaw g.2, use := .lmov m.id,
      pens := (pens.map (·.1)).foldl setBit 0 }

/-- Start the move described at an HB offset, with fewer than four outstanding (R198).
[DESIGN CHOICE, unsafe, log 33] -/
def lmovStart (desc : Nat) (s : State) : State :=
  let b := readBytes .hb desc 16 s
  let d := lmovDesc (vals b)
  let s0 := noteReads .hb desc 16 s
  let status := fun (v : Nat) (t : State) => writeBytes .hb (desc + 15) (plain (leBytes 1 v)) t
  match d.place s0 with
  | none => status 3 s0
  | some (x, a) =>
    let m : Lmov := { id := s0.cc.nextLmov, desc := desc, out := d.dir == 1, daddr := d.daddr, st := x, laddr := a,
                      count := d.count, left := 0, pen := false, failed := false }
    let reqs : List MptReq × Bool × Bool :=
      if d.dir = 0 then (rangeQuads (.lmov m.id) d.daddr (64 * d.count), false, false)
      else
        let lines := (List.range d.count).map fun i => readBytes x (a + 64 * i) 64 s0
        let host := lines.zipIdx.any fun p => anyPen p.1 && !s0.coded 0 ((d.daddr + 64 * p.2) / 256)
        (lmovWrites m lines, lines.any anyPen, host)
    let s1 := if d.dir = 1 then noteReads x a (64 * d.count) s0 else s0
    if reqs.2.2 then status 5 s1
    else
      let m1 := { m with left := reqs.1.length, pen := reqs.2.1 }
      reqs.1.foldl (fun t q => t.mptQueue 0 q) { s1 with cc := { s1.cc with lmovs := s1.cc.lmovs ++ [m1], nextLmov := m.id + 1 } }
where
  /-- Read requests for every quad of a range. -/
  rangeQuads (use : MptUse) (a n : Nat) : List MptReq :=
    (List.range ((a + n - 1) / 256 - a / 256 + 1)).map fun i =>
      { write := false, quad := a / 256 + i, mask := 0xF, raw := [], use := use }

/-- The lines of a quad have come: those of the range are copied, with their pennants.
[DESIGN CHOICE, unsafe, log 33] -/
def lmovLines (id quad : Nat) (failed : Bool) (ls : List Line) (s : State) : State :=
  match s.lmov? id with
  | none => s
  | some m =>
    let mine := (ls.zipIdx.map fun p => (256 * quad + 64 * p.2, p.1)).filter fun p =>
      decide (m.daddr ≤ p.1) && decide (p.1 < m.daddr + 64 * m.count)
    let s1 := mine.foldl (fun t p => portWrite m.st (m.laddr + (p.1 - m.daddr)) (p.2.data.map fun b => ⟨b, p.2.pen⟩) t) s
    s1.setLmov { m with left := m.left - 1, pen := m.pen || mine.any fun p => p.2.pen, failed := m.failed || failed }

/-- A write of a move has been answered.
[DESIGN CHOICE, unsafe, log 33] -/
def lmovWritten (id : Nat) (failed : Bool) (s : State) : State :=
  match s.lmov? id with
  | none => s
  | some m => s.setLmov { m with left := m.left - 1, failed := m.failed || failed }

/-- A move whose every request has been answered ends: STATUS goes into its descriptor, and an LMOV that stalled goes on.
[DESIGN CHOICE, unsafe, log 33] -/
def lmovComplete (id : Nat) (s : State) : State :=
  match s.lmov? id with
  | none => s
  | some m =>
    if m.left ≠ 0 then s
    else
      let v := if m.failed then 4 else if m.pen then 2 else 1
      let s1 := portBWrite (m.desc + 15) (plain (leBytes 1 v)) s
      let wait := if s1.cc.wait = some .lmov then none else s1.cc.wait
      { s1 with cc := { s1.cc with lmovs := s1.cc.lmovs.filter fun (l : Lmov) => l.id != id, wait := wait } }

/-- LMOV_COMPLETE (R198): A line move ends and writes its STATUS into the descriptor. -/
def execLmovComplete (id : Nat) (s : State) : Answer := .next (if s.cclkOn then lmovComplete id s else s)

end Sys2Proof.Machine
end

