-- ==== Sys2Proof/Machine/Mpt.lean ====
section
/-!
DEFINITION. The memory ports: issue, responses, overdue requests, delivery to the units (R55 to R60, R118 to R130, R597).
-/

namespace Sys2Proof.Machine

/-! ### Beats (R55, R57) -/

/-- B of R55: the bytes of a beat, the width W of a port being 512 bits on AVLIN-X and 256 on AVLIN-D. -/
def beatBytes (b : Build) : Nat := match b with | .x => 64 | .d => 32

/-- The beats of a quad: 5 or 10. -/
def beatCount (b : Build) : Nat := 320 / beatBytes b

/-- The beats in which the 320 raw bytes of a quad travel on MPTn_WDATA or MPTn_RDATA. -/
def toBeats (b : Build) (raw : List Byte) : List Nat :=
  (List.range (beatCount b)).map fun j => leNat ((raw.drop (beatBytes b * j)).take (beatBytes b))

/-- Raw byte k of the quad, found in its beat. -/
def beatByte (b : Build) (beats : List Nat) (k : Nat) : Byte :=
  BitVec.ofNat 8 (bitsOf (beats.getD (k / beatBytes b) 0) (8 * (k % beatBytes b)) 8)

/-- The raw bytes of a quad from its beats. -/
def ofBeats (b : Build) (beats : List Nat) : List Byte := (List.range 320).map (beatByte b beats)

/-- The beats that an outstanding write has sent. -/
def State.sentBeats (s : State) (o : MptOut) : List Nat := toBeats s.build o.sent

/-! ### Delivery to the unit that asked -/

/-- Keep the lines of a quad for their unit. -/
def keepLines (n : Nat) (r : MptReq) (ls : List LineRead) (s : State) : State :=
  let d : Delivery := ⟨r.use, n, 256 * r.quad, ls.map (·.line)⟩
  { s with lines := (s.lines.filter fun x => !(x.use == d.use && x.port == n && x.addr == d.addr)) ++ [d] }

/-- The opcode of the command that reads or writes lines. -/
def State.opcOf (s : State) (id : Nat) : Nat := ((s.cmd? id).map Cmd.opc).getD 0

/-- The lines of a read reach their requester; `failed` when the port has no data for them (R59, R128, R597). -/
def deliverRead (n : Nat) (r : MptReq) (failed : Bool) (ls : List LineRead) (s : State) : State :=
  match r.use with
  | .cqFill k =>
    let i := s.cqAddr k (s.fld (F.CMD_CQPTR_TAIL k) / 64 * 64) / 64 % 4
    cqFilled k (ls.getD i lostLine).line s
  | .scrub sp => scrubLines sp r.quad (!failed) ls s
  | .lmov id => lmovLines id r.quad failed (ls.map (·.line)) s
  | .test id => loopLines id failed ls s
  | .mask m i => maskRead m i (keepLines n r ls s)
  | .cmdRead id =>
    let t := keepLines n r ls s
    if s.opcOf id = 0x2001 then calImage id t else clipLines id t
  | .clip c => plyLines c (keepLines n r ls s)
  | .ucode _ | .ref _ _ | .cal _ | .feed _ _ | .feedRef _ => keepLines n r ls s
  | .cqWrite _ | .scrubWrite _ | .refWrite _ _ _ _ | .maskWrite _ | .cmdWrite _ | .feedWrite _ _ | .cat | .gone => s

/-- The writer of a quad hears how its write ended (R127, R128, R597). -/
def deliverWrite (r : MptReq) (failed : Bool) (s : State) : State :=
  match r.use with
  | .cqWrite k => if failed then cqFailed k r s else cqWritten k s
  | .lmov id => lmovWritten id failed s
  | .refWrite w f cy cx => if failed then buildWriteFailed w f cy cx s else s
  | .cmdWrite id => if s.opcOf id = 0x2001 then calWritten id (!failed) s else clipWritten id (!failed) s
  | .feedWrite f cell => if failed then feedWriteFailed f cell s else s
  | .test id => loopWritten id failed s
  | .scrubWrite _ | .maskWrite _ | .cat | .cqFill _ | .scrub _ | .ucode _ | .ref _ _ | .cal _ | .mask _ _ | .cmdRead _
  | .feed _ _ | .feedRef _ | .clip _ | .gone => s

/-- A request ends without data. -/
def deliverLost (n : Nat) (r : MptReq) (s : State) : State :=
  if r.write then deliverWrite r true s else deliverRead n r true (List.replicate 4 lostLine) s

/-- What firmware does next once a memory access has ended. -/
def mptSettle (s : State) : State := settle (sleepSettle s)

/-! ### Issue (R57, R58, R60, R120, R125, R134) -/

/-- The bank key of a quad (R125): its channel bits and the bank index. -/
def State.bankKey (s : State) (n quad : Nat) : Nat :=
  let a := 256 * quad
  bitsOf a (s.fld (F.MPT_CFG_CHLO n)) (s.fld (F.MPT_CFG_CHN n)) * 4 + bitsOf a 9 2

/-- Does the shaping of R125 admit a quad in the present slot? -/
def State.shapeOk (s : State) (n quad : Nat) : Bool :=
  let p := s.port n
  let key := s.bankKey n quad
  !s.flag (F.MPT_CFG_SHAPE n) || (!p.keys.contains key && (2 * (key % 4) + p.slot / 8) % 8 != p.slot % 8)

/-- The first queued request that may go: no clash with one outstanding or queued before it, admitted by the shaping.
[DESIGN CHOICE, unsafe, log 23] -/
def State.nextReq (s : State) (n : Nat) : List MptReq → List MptReq → Option MptReq
  | _, [] => none
  | before, r :: rest =>
    if (before.any r.clash) || (s.port n).out.any (fun o => r.clash o.req) || !s.shapeOk n r.quad then s.nextReq n (before ++ [r]) rest
    else some r

/-- The request transfers under a free identifier; an armed injection has corrupted a coded write (R134).
[DESIGN CHOICE, safe, log 2]
[DESIGN CHOICE, unsafe, log 23] -/
def mptTransfer (n : Nat) (r : MptReq) (s : State) : State :=
  let p := s.port n
  let used := p.out.map (·.aid)
  let open_ := (List.range 64).filter fun a => !used.contains a
  let aid := open_.getD (s.free 6 % open_.length) 0
  let hit := r.write && s.coded n r.quad && s.injects n && (bitsSet r.mask 4) != []
  let o : MptOut := ⟨aid, r, if r.write then s.sentRaw n r else [], false⟩
  let keys := if s.flag (F.MPT_CFG_SHAPE n) then p.keys ++ [s.bankKey n r.quad] else p.keys
  let s1 := s.drew.setPort n { p with queue := p.queue.erase r, out := p.out ++ [o], keys := keys }
  if hit then s1.setFlag F.SCRUB_INJ_ARM false else s1

/-- The first answer without issue is recorded (R597); the request has no identifier.
[DESIGN CHOICE, unsafe, log 23] -/
def noteUnissued (n : Nat) (r : MptReq) (s : State) : State :=
  if s.flag (F.MPT_ERR_VALID n) && s.fld (F.MPT_ERR_CAUSE n) == 7 then s
  else (mptErr n 7 (s.free 6) r.firstLine s).drew

/-- A port without service answers its oldest queued request (R597).
[DESIGN CHOICE, unsafe, log 23] -/
def answerUnissued (n : Nat) (s : State) : State :=
  match (s.port n).queue with
  | [] => s
  | r :: rest => mptSettle (deliverLost n r (noteUnissued n r (s.setPort n { s.port n with queue := rest })))

/-- A port that has no service answers the requests queued for it, in the order in which they were made (R597); in Halt they wait
(R574). Those that units make later are answered at the next MPT_REQUEST_ISSUE.
[DESIGN CHOICE, unsafe, log 23] -/
def answerQueued (n : Nat) (s : State) : State :=
  if decide (n < 2) && s.portDead n && s.mode != Mode.halt then (s.port n).queue.foldl (fun t _ => answerUnissued n t) s else s

/-- MPT_REQUEST_ISSUE in a shaping slot, with MPTn_IDLE as it is.
[DESIGN CHOICE, unsafe, log 23] -/
def mptIssue (n slot : Nat) (idle : Bool) (s : State) : State :=
  if 2 ≤ n || !s.cclkOn || s.mode = Mode.halt then s
  else if s.portDead n then answerQueued n s
  else
    let p := s.port n
    if p.waitIdle && !idle then s
    else
      let s1 := s.setPort n { p with waitIdle := false, slot := max p.slot slot, keys := if p.slot < slot then [] else p.keys }
      if 64 ≤ p.out.length then s1
      else
        match s1.nextReq n [] (s1.port n).queue with
        | none => s1
        | some r => mptTransfer n r s1

/-! ### Responses (R59, R122, R127 to R130) -/

/-- Take a request out of the outstanding ones. -/
def State.dropOut (s : State) (n : Nat) (o : MptOut) : State := s.setPort n { s.port n with out := (s.port n).out.erase o }

/-- A late response is discarded and recorded (R128). -/
def lateResponse (n : Nat) (o : MptOut) (s : State) : State := mptErr n 5 o.aid o.req.firstLine (s.dropOut n o)

/-- Is a read counted as a data-path read (R130)? -/
def MptUse.dataPath (u : MptUse) : Bool := match u with
  | .scrub _ => false
  | _ => true

/-- A read response (R59, R127): each line is decoded, corrected or pennanted, and delivered. -/
def mptRead (n aid : Nat) (rerr : Bool) (raw : List Byte) (s : State) : State :=
  match (s.port n).out.find? fun o => o.aid == aid && !o.req.write with
  | none => s
  | some o =>
    if 2 ≤ n || !s.cclkOn then s
    else if o.overdue then lateResponse n o s
    else
      let r := o.req
      let s1 := s.dropOut n o
      if rerr then
        mptSettle (deliverRead n r true (List.replicate 4 lostLine) ((mptErr n 2 aid r.firstLine s1).raise (320 + n)))
      else
        let c := s.coded n r.quad
        let ls := (List.range 4).map fun i => readLine c ((raw.drop (80 * i)).take 80)
        let s2 := ls.zipIdx.foldl (fun t p => noteLine n aid (4 * r.quad + p.2) r.use.dataPath p.1.out t) s1
        mptSettle (deliverRead n r false ls s2)

/-- A write response (R127). -/
def mptWritten (n aid : Nat) (berr : Bool) (s : State) : State :=
  match (s.port n).out.find? fun o => o.aid == aid && o.req.write with
  | none => s
  | some o =>
    if 2 ≤ n || !s.cclkOn then s
    else if o.overdue then lateResponse n o s
    else
      let s1 := s.dropOut n o
      let s2 := if berr then (mptErr n 3 aid o.req.firstLine s1).raise (324 + n) else s1
      mptSettle (deliverWrite o.req berr s2)

/-- How many requests of a port are overdue. -/
def State.overdue (s : State) (n : Nat) : Nat := ((s.port n).out.filter (·.overdue)).length

/-- The port fails: 32 requests are overdue at once (R128, R263).
[DESIGN CHOICE, unsafe, log 23] -/
def portFails (n : Nat) (s : State) : State :=
  enterDark Cause.mptfail (observe Cls.mpt n Obs.failed Cause.mptfail ((s.setFlag (F.MPT_STAT_FAILED n) true).raise (322 + n)))

/-- A request has had no response for TMO (R128); the limit pauses in Halt (R574).
[DESIGN CHOICE, unsafe, log 23] -/
def mptOverdue (n aid : Nat) (s : State) : State :=
  match (s.port n).out.find? fun o => o.aid == aid && !o.overdue with
  | none => s
  | some o =>
    if 2 ≤ n || !s.cclkOn || s.mode = Mode.halt then s
    else
      let s1 := s.setPort n { s.port n with out := (s.port n).out.map fun (x : MptOut) => if x = o then { x with overdue := true } else x }
      let s2 := (mptErr n 4 aid o.req.firstLine s1).raise (322 + n)
      let s3 := if 32 ≤ s2.overdue n && !s2.flag (F.MPT_STAT_FAILED n) then portFails n s2 else s2
      mptSettle (answerQueued n (mptSettle (deliverLost n o.req s3)))

/-! ### The commands -/

/-- MPT_REQUEST_ISSUE (R57): The engine issues a queued quad request on MPTn once a request slot, the shaping slot and the address hazard allow it. -/
def execMptRequestIssue (n slot : Nat) (idle : Bool) (s : State) : Answer := .next (whileClocked s (mptIssue n slot idle s))
/-- MPT_READ_RESPONSE (R59): A read response for a quad arrives; each line is decoded, corrected or pennanted and delivered to the requester. -/
def execMptReadResponse (n aid : Nat) (rerr : Bool) (raw : List Byte) (s : State) : Answer := .next (whileClocked s (mptRead n aid rerr raw s))
/-- MPT_WRITE_RESPONSE (R127): A write response arrives; MPTn_BERR loses the data, records the error and reports the address to the writer. -/
def execMptWriteResponse (n aid : Nat) (berr : Bool) (s : State) : Answer := .next (whileClocked s (mptWritten n aid berr s))
/-- MPT_EN_WRITE (R597): A write of MPTn_CFG.EN enables or disables the port, discarded while requests are outstanding. -/
def execMptEnWrite (w : Writer) (n : Nat) (en : Bool) (s : State) : Answer :=
  .next (whileClocked s (answerQueued n (mptCfgWrite w n 0x01 (setBits (s.reg (F.MPT_CFG_EN n).off) 0 1 (b2n en)) s)))
/-- MPT_REQUEST_OVERDUE (R128): A request without response after TMO becomes overdue: its reads are pennanted or its write data lost. -/
def execMptRequestOverdue (n aid : Nat) (s : State) : Answer := .next (whileClocked s (mptOverdue n aid s))

end Sys2Proof.Machine
end

