-- ==== Sys2Proof/Machine/Dic.lean ====
section
/-!
DEFINITION. The doorbell interrupt controller (R537 to R557): raising, selection, landing, claim, completion, masking.
-/

namespace Sys2Proof.Machine

/-- May a writer raise a source through DIC_DOORBELL (R541)? -/
def mayRaise (w : Writer) (src : Nat) : Bool :=
  !reservedSource src && (match w with
    | .host => decide (1024 ≤ src)
    | .core pl => decide (pl = 2) || (decide (pl = 1) && decide (32 ≤ src))
    | .seq _ => decide (32 ≤ src))

/-- A doorbell write (R540, R541): ADD = 0 counts as 1; a level source takes SWA; a write that R541 does not allow is counted.
[DEDUCED, unsafe, log 22] -/
def dicDoorbell (w : Writer) (src add : Nat) (s : State) : State :=
  if !s.cclkOn then s
  else if !mayRaise w src then s.bump F.DIC_STAT_DBREJ 1
  else if src < 32 then s.setFlag (F.DIC_SRC_SWA src) true
  else s.raiseN src (if add = 0 then 1 else add)

/-- The class of a group: fast or normal (R542). -/
def State.grpFast (s : State) (g : Nat) : Bool := s.flag (F.DIC_GRP_FAST g)

/-- The full slots of a class. -/
def State.dicSlots (s : State) (fast : Bool) : List (Nat × DicMsg) := if fast then s.dic.fast else s.dic.normal

def State.setDicSlots (s : State) (fast : Bool) (l : List (Nat × DicMsg)) : State :=
  if fast then { s with dic := { s.dic with fast := l } } else { s with dic := { s.dic with normal := l } }

/-- The message in a target's slot. -/
def slotMsg (l : List (Nat × DicMsg)) (t : Nat) : Option DicMsg := (l.find? fun p => p.1 == t).map (·.2)

/-- Is a target's slot of a class free: no message and no reservation (R543)?
[DEDUCED, unsafe, log 22] -/
def State.slotFree (s : State) (fast : Bool) (t : Nat) : Bool :=
  (slotMsg (s.dicSlots fast) t).isNone && !(s.dic.flights.any fun f => f.target == t && f.fast == fast)

/-- Can target t receive a message of group g (R543)? In Halt target 8 is not served (R574).
[DEDUCED, unsafe, log 65] -/
def State.targetOk (s : State) (g t : Nat) : Bool :=
  bitOf (s.fld (F.DIC_GRP_TGTMASK g)) t && s.flag (F.DIC_TGTCFG_EN t) && s.slotFree (s.grpFast g) t
    && !(t == 8 && s.mode == Mode.halt)

/-- The target that round robin chooses for a group: the first able one after RRPTR (R545). -/
def State.chooseTarget (s : State) (g : Nat) : Option Nat :=
  ((List.range 9).map fun k => (s.fld (F.DIC_GRP_RRPTR g) + 1 + k) % 9).find? (s.targetOk g)

/-- The group of a source. -/
def State.srcGroup (s : State) (src : Nat) : Nat := s.fld (F.DIC_SRC_GROUP src)

/-- Is a source eligible for its class (R543)? A machine-check source does not go through groups (R549). -/
def State.eligible (s : State) (fast : Bool) (src : Nat) : Bool :=
  s.pend src && s.flag (F.DIC_SRC_EN src) && !s.flag (F.DIC_SRC_INFL src)
    && !(decide (src < 32) && s.flag (F.DIC_SRC_MC src))
    && s.grpFast (s.srcGroup src) == fast
    && (decide (src < 32) || !s.dic.held.contains (s.srcGroup src))
    && (s.chooseTarget (s.srcGroup src)).isSome

/-- The sources that can be pending: the level sources and the counting sources whose register is not at its reset value, in
rising order. -/
def State.pendCandidates (s : State) : List Nat :=
  List.range 32 ++ (s.rf.filterMap fun p =>
    if 0x028100 ≤ p.1 ∧ p.1 < 0x030000 ∧ p.1 % 8 = 0 then some ((p.1 - 0x028000) / 8) else none)

/-- Send one source to its target (R544, R545, R546). -/
def dicSend (s : State) (fast : Bool) (src : Nat) : State :=
  let g := s.srcGroup src
  match s.chooseTarget g with
  | none => s
  | some t =>
    let n := if src < 32 then 1 else s.fld (F.DIC_SRC_COUNT src)
    let s1 := ((s.setFld (F.DIC_SRC_COUNT src) 0).setFlag (F.DIC_SRC_INFL src) true).setFld (F.DIC_SRC_TGT src) t
    let s2 := s1.setFld (F.DIC_GRP_RRPTR g) t
    let held := if 32 ≤ src ∧ s.fld (F.DIC_GRP_HOLDOFF g) ≠ 0 then s2.dic.held ++ [g] else s2.dic.held
    { s2 with dic := { s2.dic with flights := s2.dic.flights ++ [⟨t, fast, ⟨src, n⟩, false⟩], held := held } }

/-- The selection of one class in one DIC clock: the lowest eligible source (R544). -/
def dicSelectClass (s : State) (fast : Bool) : State :=
  match s.pendCandidates.find? (s.eligible fast) with
  | some src => dicSend s fast src
  | none => s

/-- One DIC clock's selection, one source of each class (R544).
[DEDUCED, unsafe, log 22] -/
def dicSelectStep (s : State) : State :=
  if s.cclkOn then dicSelectClass (dicSelectClass s true) false else s

/-- A message goes back to its source: INFL clears and the snapshot is added back (R550).
[DEDUCED, unsafe, log 22] -/
def dicReturn (s : State) (m : DicMsg) : State :=
  let s1 := s.setFlag (F.DIC_SRC_INFL m.src) false
  if m.src < 32 then s1
  else s1.setFld (F.DIC_SRC_COUNT m.src) (satAdd (s1.fld (F.DIC_SRC_COUNT m.src)) m.count 15)

/-- Three clocks after the selection the message lands in the slot, or returns when its target was disabled (R544, R547,
R550).
[DEDUCED, unsafe, log 22] -/
def dicLanding (t : Nat) (fast : Bool) (s : State) : State :=
  if !s.cclkOn then s else
  match s.dic.flights.find? fun f => f.target == t && f.fast == fast with
  | none => s
  | some f =>
    let s1 := { s with dic := { s.dic with flights := s.dic.flights.erase f } }
    if f.recalled then dicReturn s1 f.msg
    else s1.setDicSlots fast (SMap.insert t f.msg (s1.dicSlots fast))

/-- Take the fast message of a target, else the normal one (R547). -/
def dicTake (s : State) (t : Nat) : Option (Bool × DicMsg) :=
  match slotMsg s.dic.fast t with
  | some m => some (true, m)
  | none => (slotMsg s.dic.normal t).map fun m => (false, m)

/-- The word that a read of DIC_CLAIMt returns (R555). -/
def claimWord (o : Option (Bool × DicMsg)) : W64 :=
  match o with
  | none => 0
  | some (fast, m) => BitVec.ofNat 64 (2 ^ 63 + b2n fast * 2 ^ 62 + m.count * 2 ^ 16 + m.src)

/-- A read of DIC_CLAIMt: HPT cannot take target 8's messages (R547).
[DEDUCED, unsafe, log 19] -/
def dicClaimRead (w : Writer) (t : Nat) (s : State) : State × W64 :=
  if (w = .host ∧ t = 8) ∨ !s.cclkOn then (s, 0)
  else match dicTake s t with
    | none => (s, 0)
    | some (fast, m) => (s.setDicSlots fast ((s.dicSlots fast).filter fun p => p.1 != t), claimWord (some (fast, m)))

/-- May a writer complete a message of target t: DIC_COMPLETE8 is Machine-only (R547, R555)? -/
def mayComplete (w : Writer) (t : Nat) : Bool :=
  t != 8 || w == .core 2

/-- A write of DIC_COMPLETEt (R547). -/
def dicCompleteWrite (w : Writer) (t src : Nat) (s : State) : State :=
  if !mayComplete w t || !s.cclkOn then s
  else if s.flag (F.DIC_SRC_INFL src) && s.fld (F.DIC_SRC_TGT src) == t then
    let s1 := (s.setFlag (F.DIC_SRC_INFL src) false).setFlag (F.DIC_SRC_SWA src) false
    let keep := fun (p : Nat × DicMsg) => !(p.1 == t && p.2.src == src)
    { s1 with dic := { s1.dic with
        fast := s1.dic.fast.filter keep, normal := s1.dic.normal.filter keep,
        mcSlot := if t = 8 ∧ s1.dic.mcSlot = some src then none else s1.dic.mcSlot } }
  else s.bump F.DIC_STAT_BADCOMP 1

/-- A write of DIC_TGTCFGt.EN = 0 (R550).
[DEDUCED, unsafe, log 64] -/
def dicDisable (t : Nat) (s : State) : State :=
  if !s.cclkOn then s else
  let back := ((slotMsg s.dic.fast t).toList) ++ ((slotMsg s.dic.normal t).toList)
  let s1 := s.setFlag (F.DIC_TGTCFG_EN t) false
  let s2 := { s1 with dic := { s1.dic with
      fast := s1.dic.fast.filter fun p => p.1 != t, normal := s1.dic.normal.filter fun p => p.1 != t,
      flights := s1.dic.flights.map fun f => if f.target = t then { f with recalled := true } else f } }
  back.foldl dicReturn s2

/-- A write of DIC_SRCs.EN: a machine-check source cannot be masked (R548, R549). -/
def dicMask (src : Nat) (en : Bool) (s : State) : State :=
  if !en && s.flag (F.DIC_SRC_MC src) then s else s.setFlag (F.DIC_SRC_EN src) en

/-- A write of DIC_SRCs.CLR: clears the count of a counting source (R557). -/
def dicClear (src : Nat) (s : State) : State :=
  if src < 32 then s else s.setFld (F.DIC_SRC_COUNT src) 0

/-- HOST_IRQ[t] (R547, R551).
[DEDUCED, unsafe, log 64] -/
def hostIrq (s : State) (t : Nat) : Bool :=
  s.cclkOn && s.flag (F.DIC_TGTCFG_EN t) && (dicTake s t).isSome

/-- A source of the machine-check class enters the command core's machine-check slot: the lowest one that is asserted and not
in flight, when the slot is empty (R549).
[DEDUCED, unsafe, log 22] -/
def dicMachineCheck (s : State) : State :=
  if !s.cclkOn || s.dic.mcSlot.isSome then s else
  match (List.range 32).find? fun k => s.flag (F.DIC_SRC_MC k) && s.asserted k && !s.flag (F.DIC_SRC_INFL k) with
  | none => s
  | some k =>
    let s1 := (s.setFlag (F.DIC_SRC_INFL k) true).setFld (F.DIC_SRC_TGT k) 8
    { s1 with dic := { s1.dic with mcSlot := some k } }

/-! ### The commands -/

/-- DOORBELL_WRITE (R540): A write of DIC_DOORBELL raises a source by ADD events if the writer may. -/
def execDoorbellWrite (w : Writer) (src add : Nat) (s : State) : Answer := .next (whileClocked s (dicDoorbell w src add s))
/-- DIC_SELECT (R544): In each DIC clock the lowest eligible source of each class is selected for a target. -/
def execDicSelect (s : State) : Answer := .next (whileClocked s (dicSelectStep s))
/-- DIC_LAND (R544): Three clocks after selection the message lands in the target's slot. -/
def execDicLand (t : Nat) (fast : Bool) (s : State) : Answer := .next (whileClocked s (dicLanding t fast s))

/-- A group's hold-off ends (R546). -/
def execHoldoffExpiry (g : Nat) (s : State) : Answer :=
  .next (whileClocked s ({ s with dic := { s.dic with held := s.dic.held.filter (· != g) } }))

/-- DIC_CLAIM (R547): A read of DIC_CLAIMt takes the fast or normal message from the target's slot. -/
def execDicClaim (w : Writer) (t : Nat) (s : State) : Answer := .next (whileClocked s (dicClaimRead w t s).1)
/-- DIC_COMPLETE (R547): A write of DIC_COMPLETEt completes an in-flight source. -/
def execDicComplete (w : Writer) (t src : Nat) (s : State) : Answer := .next (whileClocked s (dicCompleteWrite w t src s))
/-- DIC_TARGET_DISABLE (R550): A write of DIC_TGTCFGt.EN = 0 returns the target's messages to their sources. -/
def execDicTargetDisable (t : Nat) (s : State) : Answer := .next (whileClocked s (dicDisable t s))
/-- DIC_SOURCE_MASK (R548): A write of DIC_SRCs.EN blocks or allows selection of the source. -/
def execDicSourceMask (src : Nat) (en : Bool) (s : State) : Answer := .next (whileClocked s (dicMask src en s))
/-- DIC_SOURCE_CLEAR (R557): A write of DIC_SRCs.CLR clears COUNT and PEND of a counting source. -/
def execDicSourceClear (src : Nat) (s : State) : Answer := .next (whileClocked s (dicClear src s))

end Sys2Proof.Machine
end

