-- ==== Sys2Proof/Machine/SeqExec.lean ====
section
/-!
DEFINITION. The execution of microwords (R143 to R160), machine checks and retirement (R170 to R175, R589, R590), the
synchronisation registers (R156, R157, R180), the ends of stage operations (R145).
-/

namespace Sys2Proof.Machine

/-! ### Conditions (R145) -/

/-- Any ring pair with a packet that has not been accepted (R225). -/
def State.submissions (s : State) : Bool :=
  (List.range 8).any fun k => s.flag (F.CMD_CFG_EN k) && s.fld (F.CMD_SQPTR_HEAD k) != s.fld (F.CMD_SQPTR_TAIL k)

/-- Does a message of a class wait in the command core's slot (R207)? -/
def State.coreMsg (s : State) (fast : Bool) : Bool := (slotMsg (s.dicSlots fast) 8).isSome

/-- The flags of a sequencer; those of the CSQ are STAT[11:8] (R183). -/
def State.seqFlags (s : State) (q : Nat) : AluFlags :=
  if q = 0 then s.cc.aluFlags else ⟨(s.seq q).z, (s.seq q).n, (s.seq q).c, (s.seq q).v⟩

def State.setSeqFlags (s : State) (q : Nat) (f : AluFlags) : State :=
  if q = 0 then { s with cc := s.cc.setFlags f } else s.setSeq q { s.seq q with z := f.z, n := f.n, c := f.c, v := f.v }

/-- The row that slice engine n has in hand. -/
def State.rowInHand (s : State) (n : Nat) : Option RowJob := (s.rows n).head?

/-- Is the row in hand the last of its segment? -/
def State.endOfSlice (s : State) (n : Nat) : Bool :=
  match s.rowInHand n with
  | some j => match j.kind with
    | .decode id => (s.unit? j.win id).any fun u => u.seg.any fun g => decide (g.h ≤ g.next + 1)
    | _ => false
  | none => false

/-- The conditions of the CSQ from 16 to 47; none where the spec leaves the value open.
[DEDUCED, safe, log 26] -/
def csqCond (s : State) (c : Nat) : Option Bool :=
  match c with
  | 17 => some (s.coreMsg false && s.cc.bit 2)
  | 18 => some (s.coreMsg true)
  | 19 => some (s.cc.bit 5)
  | 20 => some (!s.cc.dividing)
  | 21 => some (s.cc.pl == 2)
  | 22 => some (s.cc.pl == 1)
  | 23 => some s.submissions
  | 24 => some (!s.cmds.rx.isEmpty)
  | _ => none

/-- The conditions of PSQn from 16 to 47.
[DEDUCED, safe, log 26] -/
def psqCond (s : State) (n c : Nat) : Option Bool :=
  if c < 28 then some (!(s.stage (n + 1) (c - 16)).busy)
  else if c < 40 then some (s.stage (n + 1) (c - 28)).done
  else match c with
    | 40 => some (s.queueRows.any fun x => x.job.win == (SMap.get (fun _ => (0 : W32)) (s.seq (n + 1)).p 0).toNat)
    | 41 => if (s.stage (n + 1) 0).busy then none else some true
    | 42 => some (s.endOfSlice n)
    | 43 => some ((s.rowInHand n).any (·.pen))
    | 44 => some (s.dec.late.contains n || (s.rowInHand n).any fun j => j.kind != .conceal && s.dec.closed.contains j.band)
    | 45 => some (s.flag (F.SEN_CTL_ENC n))
    | _ => none

/-- The conditions of LSQh from 16 to 47.
[DEDUCED, safe, log 26] -/
def lsqCond (s : State) (h c : Nat) : Option Bool :=
  if c < 21 then some (!(s.lpStage h (c - 16)).busy)
  else if c < 26 then some (s.lpStage h (c - 21)).done
  else if c < 31 then some (!(s.lpStage (1 - h) (c - 26)).busy)
  else if c < 36 then some (s.lpStage (1 - h) (c - 31)).done
  else match c with
    | 36 => some (s.lp.bands.any fun b => !bitOf b.halves h)
    | 37 => some (s.lp.bands.any fun b => !bitOf b.halves (1 - h))
    | 38 => some (s.ba.fixed == some (s.frame + 1))
    | 39 => some ((List.range 32).any fun j => s.laneOn (32 * h + j) && decide ((s.lane (32 * h + j)).fifo.length < Config.lowWater))
    | 40 => some (s.seqState (18 - h) == SeqState.retired && s.flag (F.SQ_CTL_CROSS (17 + h)))
    | _ => none

/-- A condition of sequencer q before CPOL; none where the spec leaves the value open.
[DEDUCED, safe, log 26] -/
def State.cond (s : State) (q c : Nat) : Option Bool :=
  let x := s.seq q
  let f := s.seqFlags q
  if c < 16 then
    match c with
    | 0 => some true
    | 1 => some f.z
    | 2 => some f.n
    | 3 => some f.c
    | 4 => some f.v
    | 5 => some (x.lc0 == 0)
    | 6 => some (x.lc1 == 0)
    | 7 => some x.stack.isEmpty
    | _ => some (s.fld (F.SYN_COUNT (c - 8)) != 0)
  else if c < 48 then
    match seqKind q with
    | .csq => csqCond s c
    | .psq => psqCond s (q - 1) c
    | .lsq => lsqCond s (q - 17) c
  else if c < 53 then some (bitOf x.latch (c - 48))
  else match c with
    | 54 => some x.memRdy
    | 55 => some x.memPen
    | _ => none

/-- The condition vector; open values are free, reserved conditions read 0 (R158).
[DESIGN CHOICE, safe, log 2]
[DEDUCED, safe, log 26] -/
def condVector (q : Nat) (s : State) : List Byte :=
  let l := (List.range 64).map fun c =>
    if cmxReserved (seqKind q) c then false else (s.cond q c).getD (bitOf (s.free 64) c)
  leBytes 8 (((List.range 64).filter fun c => l.getD c false).foldl setBit 0)

/-! ### Operands (R148, R322, R356, R415) -/

/-- May a word write parameter register k of sequencer q?
[DEDUCED, unsafe, log 28] -/
def State.pWritable (s : State) (q k : Nat) : Bool :=
  match seqKind q with
  | .csq => false
  | .psq => decide (k < if s.flag (F.SEN_CTL_ENC (q - 1)) then 8 else 6)
  | .lsq => decide (k < 6) || k == 9

/-- Parameter register k of sequencer q.
[DEDUCED, unsafe, log 28] -/
def State.pReg (s : State) (q k : Nat) : W32 :=
  let kept := SMap.get (fun _ => (0 : W32)) (s.seq q).p k
  match seqKind q with
  | .csq => 0
  | .psq => if s.pWritable q k then kept else 0
  | .lsq =>
    match k with
    | 6 => BitVec.ofNat 32 (s.frame + 1)
    | 7 => BitVec.ofNat 32 (s.doneLanes (q - 17))
    | 8 => BitVec.ofNat 32 (s.upLanes (q - 17))
    | _ => if s.pWritable q k then kept else 0

def flagsWord (f : AluFlags) : W32 := BitVec.ofNat 32 (b2n f.z + 2 * b2n f.n + 4 * b2n f.c + 8 * b2n f.v)

/-- The operand that a SRCA or SRCB code selects. -/
def State.operand (s : State) (q code imm : Nat) : W32 :=
  let x := s.seq q
  if 0x20 ≤ code then (if q = 0 then s.g (code - 0x20) else s.pReg q (code - 0x20))
  else if 0x10 ≤ code then SMap.get (fun _ => (0 : W32)) x.w (code - 0x10)
  else match code with
    | 1 => BitVec.ofNat 32 imm
    | 2 => (BitVec.ofNat 16 imm).signExtend 32
    | 3 => x.lc0.setWidth 32
    | 4 => x.lc1.setWidth 32
    | 5 => x.mdr
    | 6 => x.mar
    | 7 => flagsWord (s.seqFlags q)
    | _ => 0

/-- Write a result to the register that DST names. -/
def State.setOperand (s : State) (q code : Nat) (v : W32) : State :=
  let x := s.seq q
  if 0x20 ≤ code then
    if q = 0 then s.setG (code - 0x20) v
    else if s.pWritable q (code - 0x20) then s.setSeq q { x with p := SMap.put (fun _ => (0 : W32)) x.p (code - 0x20) v } else s
  else if 0x10 ≤ code then s.setSeq q { x with w := SMap.put (fun _ => (0 : W32)) x.w (code - 0x10) v }
  else match code with
    | 3 => s.setSeq q { x with lc0 := v.setWidth 16 }
    | 4 => s.setSeq q { x with lc1 := v.setWidth 16 }
    | 6 => s.setSeq q { x with mar := v }
    | 7 => s.setSeqFlags q ⟨v.getLsbD 0, v.getLsbD 1, v.getLsbD 2, v.getLsbD 3⟩
    | _ => s

/-- The ALU operation of a code other than NOP (R149). -/
def microAlu (code : Nat) (a b : W32) (f : AluFlags) : AluOut :=
  let n := b.toNat % 32
  match code with
  | 0x01 => aluAdd a b false
  | 0x02 => aluAdd a b f.c
  | 0x03 => aluSub a b false
  | 0x04 => aluSub a b f.c
  | 0x05 => aluLogic (a &&& b)
  | 0x06 => aluLogic (a ||| b)
  | 0x07 => aluLogic (a ^^^ b)
  | 0x08 => aluLogic (~~~a)
  | 0x09 => aluLogic a
  | 0x0A => aluLogic b
  | 0x0B => aluShl a n
  | 0x0C => aluShr a n
  | 0x0D => aluSar a n
  | 0x0E => aluRol a n
  | 0x0F => aluSub a b false
  | 0x10 => aluLogic (minS a b)
  | 0x11 => aluLogic (maxS a b)
  | _ => aluLogic (BitVec.ofNat 32 (clz a))

/-! ### Machine checks (R170, R171, R175, R590) -/

/-- The code by which SCRUB_OWN names the unit of a sequencer (R111). -/
def ownerOf (q : Nat) : Nat := if q = 0 then 1 else if q ≤ 16 then 0x10 + (q - 1) else 0x20 + (q - 17)

/-- A machine check on sequencer q and what the engine does with it: the unit is observed FAILED; a CSQ parity error in a writable
region is the command core's machine check, anything else stops the CSQ. -/
def seqCheck (q cause pgrp : Nat) (s : State) : State :=
  if q = 0 then
    let a := s.issueAddr 0 (s.upc 0)
    let pc := (s.cc.cx.map (·.pc)).getD s.cc.pc
    let s1 := machineCheck 0 cause pgrp s
    if cause = 1 && decide (0x2000 ≤ a) then coreMachineCheck 1 pc (BitVec.ofNat 32 a) (s1.setSeqState 0 SeqState.running)
    else { s1 with cc := { s1.cc with cx := none } }
  else
    let s1 := machineCheck q cause pgrp s
    let s2 := s1.setSeq q { s1.seq q with mem := [] }
    if q ≤ 16 then observe Cls.se (q - 1) Obs.failed Cause.mchk (returnSlice (q - 1) (returnRows (q - 1) s2)) else observe Cls.lp (q - 17) Obs.failed Cause.mchk s2

/-! ### Strobes (R153, R154, R396, R399, R410) -/

/-- The parameters that S1 loads.
[DEDUCED, unsafe, log 28] -/
def State.pSnapshot (s : State) (q : Nat) : List (Nat × W32) :=
  ((List.range 10).map fun k => (k, s.pReg q k)).filter fun p => p.2 != 0

/-- The strobes of one stage group: of stage j of sequencer r, by a word of sequencer q with the P registers of `s0`.
[DEDUCED, unsafe, log 25] -/
def stageStrobe (q r j strobes : Nat) (s0 s : State) : State :=
  if strobes = 0 then s
  else
    let s1 := if bitOf strobes 3 then
        let t := s.setStage r j { s.stage r j with busy := false }
        if seqKind r = .psq then abortRows (r - 1) j t else t
      else s
    let g := s1.stage r j
    if g.busy && bitsOf strobes 0 2 != 0 then strobeLost q s1
    else
      let g1 := if bitOf strobes 1 then { g with params := s0.pSnapshot q } else g
      let g2 := if bitOf strobes 0 then { g1 with busy := true, done := false } else g1
      s1.setStage r j g2

/-- The lane strobes of half h (R153): ARM, STAT, CURR, TRAIN on the lanes in P1's mask.
[DEDUCED, unsafe, log 54] -/
def laneStrobe (h strobes mask round : Nat) (s : State) : State :=
  let l := (bitsSet mask 32).map (32 * h + ·)
  let s1 := if bitOf strobes 0 then l.foldl (fun t n => armLane n t) s else s
  let s2 := if bitOf strobes 1 then l.foldl (fun t n => readStatusRound n (bitsOf round 0 10) (bitsOf round 16 7) t) s1 else s1
  let s3 := if bitOf strobes 2 then l.foldl (fun t n => setCurrentSend n t) s2 else s2
  if bitOf strobes 3 then wantTraining l s3 else s3

/-- Every strobe of a word of a PSQ or LSQ.
[DEDUCED, unsafe, log 25] -/
def strobes (q : Nat) (m : MicroWord) (s0 s : State) : State :=
  match seqKind q with
  | .csq => s
  | .psq => (List.range 12).foldl (fun t g => stageStrobe q q g (m.group g) s0 t) s
  | .lsq =>
    let h := q - 17
    let cross := s0.flag (F.SQ_CTL_CROSS q)
    let mask := (s0.pReg q 1).toNat
    let round := (s0.pReg q 9).toNat
    let s1 := (List.range 5).foldl (fun t g => stageStrobe q q g (m.group g) s0 t) s
    let s2 := (List.range 5).foldl (fun t g =>
      let x := m.group (5 + g)
      if x = 0 then t else if cross then stageStrobe q (35 - q) g x s0 t else strobeLost q t) s1
    let s3 := laneStrobe h (m.group 10) mask round s2
    if m.group 11 = 0 then s3 else if cross then laneStrobe (1 - h) (m.group 11) mask round s3 else strobeLost q s3

/-! ### The CSQ's own groups in customer words (R153, R194, R195, R211) -/

/-- A multiply and a divide as they are started: their results in flight. -/
def mulFlight (a b : W32) (signed : Bool) : CcFlight :=
  let p : BitVec 64 := if signed then a.signExtend 64 * b.signExtend 64 else a.setWidth 64 * b.setWidth 64
  .mul (p.setWidth 32) (BitVec.ofNat 32 (p.toNat / 2 ^ 32))

def divFlight (a b : W32) (signed : Bool) : CcFlight :=
  if b = 0 then .div 0xFFFFFFFF a true
  else if signed then .div (a.sdiv b) (a.srem b) false
  else .div (a / b) (a % b) false

/-- A divide begins: an earlier one in flight is abandoned (R195). -/
def CcSt.startDiv (c : CcSt) (f : CcFlight) : CcSt :=
  { c with flights := (c.flights.filter fun (x : CcFlight) => match x with | .div _ _ _ => false | .mul _ _ => true) ++ [f] }

def CcSt.startMul (c : CcSt) (f : CcFlight) : CcSt := { c with flights := c.flights ++ [f] }

/-- FETCH, MUL, DIV and the shadow bank of a word that the CSQ issues; RBUS waits for the access (R194: 2 to 64 CCLK). There is no
fetched instruction behind the one in progress, so that FETCH S2 has nothing to flush.
[DESIGN CHOICE, safe, log 73] -/
def csqStrobes (m : MicroWord) (a b r : W32) (s : State) : State :=
  let c := if bitOf (m.group 3) 2 then s.cc.setStatBit 4 (!s.cc.bit 4) else s.cc
  let c1 := match c.cx with
    | none => c
    | some x =>
      let t := if bitOf (m.group 0) 1 then some r else if bitOf (m.group 0) 0 then some x.next else x.target
      { c with cx := some { x with target := t, rbus := x.rbus ||| m.group 4 } }
  let c2 := if m.group 1 = 0 then c1 else c1.startMul (mulFlight a b (bitOf (m.group 1) 0))
  let c3 := if m.group 2 = 0 then c2 else c2.startDiv (divFlight a b (bitOf (m.group 2) 0))
  { s with cc := c3 }

/-! ### One word -/

/-- Does MEM issue an access, and is it a read? -/
def MicroWord.memOp (m : MicroWord) : Nat := bitsOf m.mem 9 3
def MicroWord.memAccess (m : MicroWord) : Bool := decide (1 ≤ m.memOp) && decide (m.memOp ≤ 4)
def MicroWord.synOp (m : MicroWord) : Nat := bitsOf m.syn 6 2
def MicroWord.synF (m : MicroWord) : Nat := bitsOf m.syn 3 3

/-- Does the word use the ALU result beyond DST? -/
def MicroWord.usesResult (m : MicroWord) : Bool :=
  m.nxt == 8 || m.memOp == 2 || m.memOp == 4 || m.memOp == 5 || (bitOf m.trc 3 && bitsOf m.trc 0 3 == 1) || bitOf (m.group 0) 1

/-- The store and word address of a MEM access.
[DEDUCED, unsafe, log 25] -/
def memPlace (m : MicroWord) (mar : W32) : StoreSel × Nat :=
  if bitOf m.mem 8 then (.hb, mar.toNat % 0x40000 / 8 * 8) else (.spm, mar.toNat / 8 * 8)

/-- Does the unit of sequencer q own the bank that a word's MEM field addresses (R111)? -/
def State.memOwned (s : State) (q : Nat) (m : MicroWord) : Bool :=
  let p := memPlace m (s.seq q).mar
  match p.1 with
  | .hb => true
  | .spm => decide (p.2 < spmSize s.build) && s.fld (F.SCRUB_OWN_OWNER (p.2 / 0x20000)) == ownerOf q

/-- The MEM field acts with the ALU result r (R150, R151).
[DEDUCED, unsafe, log 25] -/
def memAct (q : Nat) (m : MicroWord) (r : W32) (mar : W32) (s : State) : State :=
  let p := memPlace m mar
  let op := m.memOp
  let s1 := if op = 1 || op = 3 then
      let b := readBytes p.1 p.2 4 s
      let t := noteReads p.1 p.2 4 s
      t.setSeq q { t.seq q with mem := (t.seq q).mem ++ [⟨BitVec.ofNat 32 (leAt (vals b) 0 4), anyPen b⟩], memRdy := false }
    else if op = 2 || op = 4 then
      let b := leBytes 8 r.toNat
      (bitsSet (bitsOf m.mem 0 8) 8).foldl (fun t k => writeBytes p.1 (p.2 + k) [⟨b.getD k 0, false⟩] t) s
    else s
  if op = 3 || op = 4 then s1.setSeq q { s1.seq q with mar := mar + 8 }
  else if op = 5 then s1.setSeq q { s1.seq q with mar := r }
  else s1

/-- The trace packet of a word (R158, R581). -/
def traceWord (q : Nat) (m : MicroWord) (upc : Nat) (r : W32) (s : State) : State :=
  let sel := bitsOf m.trc 0 3
  if !bitOf m.trc 3 || !bitOf (s.fld F.TDU_CFG_SEQTR) (q / 8) then s
  else
    let x := s.seq q
    let more := match sel with
      | 1 => leBytes 4 r.toNat
      | 2 => leBytes 4 x.mdr.toNat
      | 3 => leBytes 2 x.lc0.toNat ++ leBytes 2 x.lc1.toNat
      | 4 => leBytes 1 (flagsWord (s.seqFlags q)).toNat ++ condVector q s
      | _ => []
    traceEmit 2 (leBytes 1 (q + 32 * sel) ++ leBytes 2 upc ++ more) (if sel = 4 then s.drew else s)

/-- A free bit where a condition is open.
[DEDUCED, safe, log 26] -/
def State.condOr (s : State) (q c : Nat) : Bool := (s.cond q c).getD (bitOf (s.free 1) 0)

/-- The word's condition (R145). -/
def wordCond (s : State) (q : Nat) (m : MicroWord) : Bool := s.condOr q m.cmx != m.cpol

/-- Does NXT test the condition? -/
def MicroWord.tests (m : MicroWord) : Bool := m.nxt == 2 || m.nxt == 4 || m.nxt == 6 || m.nxt == 0xA

/-- SYN acts (R156).
[DEDUCED, unsafe, log 25] -/
def synAct (q : Nat) (m : MicroWord) (s : State) : State :=
  let f := m.synF
  match m.synOp with
  | 1 => if s.fld (F.SYN_COUNT f) = 255 then (s.setFlag (F.SYN_OVF f) true).raise (51 + q) else s.setFld (F.SYN_COUNT f) (s.fld (F.SYN_COUNT f) + 1)
  | 2 => s.setFld (F.SYN_COUNT f) (s.fld (F.SYN_COUNT f) - 1)
  | _ => s

/-- LCTL loads a counter (R147). -/
def lctlAct (q : Nat) (m : MicroWord) (a : W32) (s : State) : State :=
  let op := bitsOf m.lctl 6 2
  let v : BitVec 16 := if op = 1 then BitVec.ofNat 16 m.imm else a.setWidth 16
  if op = 0 then s
  else if bitOf m.lctl 5 then s.setSeq q { s.seq q with lc1 := v } else s.setSeq q { s.seq q with lc0 := v }

/-- The counter that LOOP tests. -/
def loopCounter (x : Seq) (m : MicroWord) : BitVec 16 := if bitOf m.lctl 4 then x.lc1 else x.lc0

/-- Does the word load counter k, by LCTL or DST (R147)? -/
def MicroWord.loads (m : MicroWord) (k : Nat) : Bool :=
  (bitsOf m.lctl 6 2 != 0 && b2n (bitOf m.lctl 5) == k) || (m.alu != 0 && m.alu != 0xF && m.dst == 3 + k)

/-- The next address and what NXT does to the stack and counters (R143).
[DEDUCED, unsafe, log 25] -/
def nextAct (q : Nat) (m : MicroWord) (cond : Bool) (r : W32) (s0 s : State) : State :=
  let x := s.seq q
  let upc := s0.upc q
  let plus := (upc + 1) % storeWords (seqKind q)
  let go := fun (a : Nat) (t : State) => t.setFld (F.SQ_STAT_UPC q) a
  let push := s.setSeq q { x with stack := plus :: x.stack }
  let pop := s.setSeq q { x with stack := x.stack.drop 1 }
  match m.nxt with
  | 1 => go m.bra s
  | 2 => go (if cond then m.bra else plus) s
  | 3 => go m.bra push
  | 4 => if cond then go m.bra push else go plus s
  | 5 => go (x.stack.headD 0) pop
  | 6 => if cond then go (x.stack.headD 0) pop else go plus s
  | 7 =>
    let k := b2n (bitOf m.lctl 4)
    let v := loopCounter (s0.seq q) m
    if v = 0 then go plus s
    else
      let t := if m.loads k then s else if k = 1 then s.setSeq q { x with lc1 := v - 1 } else s.setSeq q { x with lc0 := v - 1 }
      go m.bra t
  | 8 => go (m.bra / 64 * 64 + r.toNat % 64) s
  | 0xB => ((go plus s).setSeqState q SeqState.stopped).raise (32 + q)
  | _ => go plus s

/-- Every field of a word acts together (R160).
[DESIGN CHOICE, safe, log 2]
[DEDUCED, unsafe, log 25] -/
def wordAct (q : Nat) (m : MicroWord) (s : State) : State :=
  let a := s.operand q m.srca m.imm
  let b := s.operand q m.srcb m.imm
  let f := s.seqFlags q
  let cond := wordCond s q m
  let s0 := if (s.cond q m.cmx).isNone && m.tests then s.drew else s
  let out := microAlu m.alu a b f
  let r := if m.alu = 0 then BitVec.ofNat 32 (s0.free 32) else out.r
  let s1 := if m.alu = 0 && m.usesResult then s0.drew else s0
  let s2 := s1.setSeqState q SeqState.running
  let s3 := traceWord q m (s.upc q) r s2
  let s4 := if m.alu = 0 then s3 else s3.setSeqFlags q out.f
  let s5 := if m.alu = 0 || m.alu = 0xF then s4 else s4.setOperand q m.dst r
  let s6 := lctlAct q m a s5
  let s7 := memAct q m r (s.seq q).mar s6
  let s8 := if q = 0 then csqStrobes m a b r s7 else strobes q m s s7
  let s9 := if m.evt = 0 then s8 else dicDoorbell (.seq q) m.evt 0 s8
  let s10 := synAct q m s9
  let s11 := if bitOf m.cus 8 then
      rawCommand (q - 17) (s.pReg q 1).toNat (m.cus % 256) ((s.pReg q 2).toNat % 65536)
        (beBytes 4 (s.pReg q 3).toNat ++ beBytes 4 (s.pReg q 4).toNat ++ beBytes 4 (s.pReg q 5).toNat) s10
    else s10
  let hit := m.tests && decide (48 ≤ m.cmx) && decide (m.cmx < 53) && bitOf (s.seq q).latch (m.cmx - 48)
  let s12 := if hit then s11.setSeq q { s11.seq q with latch := clrBit (s11.seq q).latch (m.cmx - 48) } else s11
  nextAct q m cond r s s12

/-- What keeps a word from executing: a stall, or a machine check with its cause (R156, R160, R170). -/
inductive WordFate where
  | runs | stalls | check (cause : Nat) | arrives
  deriving DecidableEq, Repr

/-- The word that sequencer q is about to issue. -/
def State.nextWord (s : State) (q : Nat) : MicroWord := decodeMicro (s.ucWord q (s.issueAddr q (s.upc q)))

/-- Does sequencer r stall on a SYN WAIT of SYNf, with nothing else that holds its word (R157)? -/
def State.waitsOn (s : State) (f r : Nat) : Bool :=
  let m := s.nextWord r
  seqPresent s.build r && s.seqState r == SeqState.stalled && (s.seq r).barrier.isNone && m.synOp == 2 && m.synF == f
    && (m.nxt != 0xA || wordCond s r m) && !(m.memAccess && decide (2 ≤ (s.seq r).mem.length))

/-- The lower-numbered sequencers that a SYN WAIT of sequencer q on SYNf stands behind (R157).
[DESIGN CHOICE, safe, log 4] -/
def State.waitsBefore (s : State) (f q : Nat) : Nat := ((List.range q).filter (s.waitsOn f)).length

/-- What becomes of a word at its cycle: it goes on, holds, or ends in a machine check. Of the sequencers that wait on one register
as many as its COUNT go on, the lowest-numbered ones (R157).
[DEDUCED, unsafe, log 25] -/
def wordFate (q : Nat) (m : MicroWord) (s : State) : WordFate :=
  let x := s.seq q
  let cond := wordCond s q m
  let pops := m.nxt == 5 || (m.nxt == 6 && cond)
  let pushes := m.nxt == 3 || (m.nxt == 4 && cond)
  if reservedUse (seqKind q) m || branchBad (seqKind q) m || (s.build == .d && strobesAbsentSlot (seqKind q) m) then .check 4
  else if m.nxt = 0xA && !cond then .stalls
  else if m.synOp = 2 && decide (s.fld (F.SYN_COUNT m.synF) ≤ s.waitsBefore m.synF q) then .stalls
  else if m.memAccess && decide (2 ≤ x.mem.length) then .stalls
  else if pushes && decide (8 ≤ x.stack.length) then .check 2
  else if pops && x.stack.isEmpty then .check 3
  else if m.memAccess && !s.memOwned q m then .check 5
  else if m.synOp = 3 then (if bitOf (s.fld (F.SYN_MASK m.synF)) q then .arrives else .check 7)
  else .runs

/-- The customer instruction ends: execution goes on behind it, or where its microcode has set PC, bit 0 of which is always 0 (R183).
[DEDUCED, unsafe, log 32] -/
def customEnd (x : CxRun) (s : State) : State :=
  settle (ccJump (BitVec.ofNat 32 ((x.target.getD x.next).toNat / 2 * 2)) { s with cc := { s.cc with cx := none } })

/-- A trap that the TRAP group enters: the vector, the subcause and TVAL are open.
[DESIGN CHOICE, safe, log 73] -/
def customTrap (x : CxRun) (s : State) : State :=
  let t := s.drew
  ccTrap (s.free 6) (t.free 4) x.pc (BitVec.ofNat 32 (t.drew.free 32)) t.drew.drew

/-- What a word that the CSQ has executed does to the customer instruction in progress (R143, R153, R212): TRAP enters or returns,
IDEC ends the instruction, a JMP or CALL comes to a service entry. -/
def customTail (m : MicroWord) (s : State) : State :=
  match s.cc.cx with
  | none => s
  | some x =>
    if bitOf (m.group 3) 0 then customTrap x s
    else if bitOf (m.group 3) 1 then ccMark (returnFromTrap { s with cc := { s.cc with cx := none } })
    else if m.nxt = 9 then customEnd x s
    else if (m.nxt = 1 ∨ m.nxt = 3) ∧ 0x1F00 ≤ m.bra ∧ m.bra ≤ 0x1F3F then
      { s with cc := { s.cc with cx := some { x with entry := some (m.nxt == 3) } } }
    else s

/-- A word is executed, with what it does to a customer instruction. -/
def wordRun (q : Nat) (m : MicroWord) (s : State) : State :=
  if q = 0 then customTail m (wordAct 0 m s) else wordAct q m s

/-- A sequencer with a word to issue executes it or stalls on it (R160).
[DEDUCED, unsafe, log 25]
[DEDUCED, unsafe, log 27] -/
def issueWord (q : Nat) (m : MicroWord) (s : State) : State :=
  match wordFate q m s with
  | .runs => wordRun q m s
  | .check c => seqCheck q c 0 s
  | .stalls =>
    let t := if (s.cond q m.cmx).isNone && m.nxt == 0xA then s.drew else s
    t.setSeqState q SeqState.stalled
  | .arrives =>
    let f := m.synF
    let t := s.setFld (F.SYN_ARRIVED f) (setBit (s.fld (F.SYN_ARRIVED f)) q)
    (t.setSeq q { t.seq q with barrier := some f }).setSeqState q SeqState.stalled

/-- Does a sequencer issue words: running or stalled, not held at a barrier, the engine clocked and not in Halt (R574)? -/
def State.issues (s : State) (q : Nat) : Bool :=
  seqPresent s.build q && s.cclkOn && s.mode != Mode.halt
    && (s.seqState q == SeqState.running || s.seqState q == SeqState.stalled) && (s.seq q).barrier.isNone

/-- One word of a PSQ or LSQ. -/
def lightWord (q : Nat) (s : State) : State :=
  if !s.issues q then s
  else
    let m := s.nextWord q
    if parityErrors m ≠ 0 then seqCheck q 1 (parityErrors m) s else issueWord q m s

/-! ### Synchronisation (R156, R157, R180) -/

/-- A barrier's word is executed; its access to a bank that its unit has lost while it waited is a machine check (R111, R170). -/
def barrierWord (q : Nat) (s : State) : State :=
  let m := s.nextWord q
  if m.memAccess && !s.memOwned q m then seqCheck q 5 0 s else wordRun q m s

/-- A barrier whose ARRIVED equals MASK completes: every waiting sequencer executes its word, ARRIVED clears. -/
def barrierComplete (f : Nat) (s : State) : State :=
  if 8 ≤ f || !barrierReady f s || s.mode = Mode.halt || !s.cclkOn then s
  else
    let waiting := (bitsSet (s.fld (F.SYN_ARRIVED f)) 19).filter fun q => (s.seq q).barrier == some f
    let s1 := s.setFld (F.SYN_ARRIVED f) 0
    let s2 := waiting.foldl (fun t q => t.setSeq q { t.seq q with barrier := none }) s1
    waiting.foldl (fun t q => barrierWord q t) s2

/-- A write of SYNf (R180): a waiting sequencer that loses its MASK bit takes a machine check. -/
def synWrite (w : Writer) (f be : Nat) (data : W64) (s : State) : State :=
  let t := s.plainWrite w (F.SYN_MASK f).off be data
  let lost := (bitsSet (t.fld (F.SYN_ARRIVED f)) 19).filter fun q => !bitOf (t.fld (F.SYN_MASK f)) q && (t.seq q).barrier == some f
  lost.foldl (fun u q => seqCheck q 7 0 u) t

/-! ### The hang limit, MEM reads, stage operations -/

/-- A word with IDLE = 0 has been stalled for HANGLIM cycles (R170); the count pauses in Halt. -/
def hangLimit (q : Nat) (s : State) : State :=
  if !seqPresent s.build q || !s.cclkOn || s.mode = Mode.halt || s.seqState q ≠ SeqState.stalled || s.fld (F.SQ_CTL_HANGLIM q) = 0
      || bitOf (s.nextWord q).lctl 0 then s
  else seqCheck q 6 0 s

/-- The data of the oldest MEM read lands (R151). -/
def memReadLand (q : Nat) (s : State) : State :=
  let x := s.seq q
  match x.mem with
  | [] => s
  | r :: rest =>
    if !s.cclkOn || s.mode = Mode.halt then s
    else s.setSeq q { x with mem := rest, mdr := r.data, memPen := r.pen, memRdy := true }

/-- A stage ends its operation (R145): its results, done and ready. -/
def stageDone (q k : Nat) (s : State) : State :=
  if !s.cclkOn || s.mode = Mode.halt || !seqPresent s.build q then s
  else match seqKind q with
    | .csq => s
    | .lsq => if k < 5 then lightStageDone (q - 17) k s else s
    | .psq =>
      if s.flag (F.SEN_CTL_ENC (q - 1)) || (s.encs.any fun p => p.1 == q - 1) then
        let g := s.stage q k
        if g.busy then s.setStage q k { g with busy := false, done := true } else s
      else decodeStageDone (q - 1) k s

/-! ### Retirement (R173, R174, R331, R589) -/

/-- Barriers that every remaining member has reached complete at once. -/
def barriersComplete (s : State) : State := (List.range 8).foldl (fun t f => barrierComplete f t) s

/-- The cause of a retired unit replaces the one recorded (R591, R589).
[DEDUCED, unsafe, log 28] -/
def retiredCause (cls idx cause : Nat) (s : State) : State :=
  s.setFld (F.CMD_UST_CAUSE (ustIdx cls idx)) cause

/-- Are all slice engines of the build retired? -/
def State.allRetired (s : State) : Bool := (List.range (seCount s.build)).all fun n => s.seqState (n + 1) == SeqState.retired

/-- RETIRE of PSQn.
[DEDUCED, unsafe, log 28] -/
def retirePsq (n : Nat) (s : State) : State :=
  let q := n + 1
  let s1 := leaveBarriers q ((s.setSeqState q SeqState.retired).setSeq q { s.seq q with barrier := none, mem := [] })
  let s2 := (s1.banksOf (0x10 + n)).foldl (fun t b => t.setFld (F.SCRUB_OWN_OWNER b) 0xFF) s1
  let s3 := abortStages q (returnSlice n (returnRows n s2))
  let s4 := retiredCause Cls.se n Cause.retired (observe Cls.se n Obs.retired Cause.retired s3)
  let s5 := barriersComplete s4
  if s5.allRetired && s5.role 0 then
    darkIfShow Cause.seall ((List.range (seCount s5.build)).foldl (fun t k => retiredCause Cls.se k Cause.seall t) s5)
  else s5

/-- The frame that is being loaded when LSQm is retired (R174). -/
def noteRetired (m : Nat) (s : State) : State :=
  { s with lp := { s.lp with retired := SMap.put (fun _ => 0) s.lp.retired m s.next } }

/-- RETIRE of LSQm.
[DEDUCED, unsafe, log 28] -/
def retireLsq (m : Nat) (s : State) : State :=
  let q := 17 + m
  let s1 := leaveBarriers q ((s.setSeqState q SeqState.retired).setSeq q { s.seq q with barrier := none, mem := [] })
  let s2 := (s1.banksOf (0x20 + m)).foldl (fun t b => t.setFld (F.SCRUB_OWN_OWNER b) (0x21 - m)) s1
  let s3 := noteRetired m (s2.setFlag (F.SQ_CTL_CROSS (18 - m)) true)
  let s4 := retiredCause Cls.lp m Cause.retired (observe Cls.lp m Obs.retired Cause.retired s3)
  let s5 := barriersComplete s4
  if s5.seqState 17 = SeqState.retired && s5.seqState 18 = SeqState.retired then enterDark Cause.lsqall s5 else s5

/-- RETIRE: a PSQ or LSQ of the build that is not retired yet. -/
def seqRetire (q : Nat) (s : State) : State :=
  if !seqPresent s.build q || s.seqState q = SeqState.retired then s
  else match seqKind q with
    | .csq => s
    | .psq => settle (retirePsq (q - 1) s)
    | .lsq => settle (retireLsq (q - 17) s)

/-- A write of xSQ_CTL, Machine level only (R176, R178): RETIRE governs, then STOP, then START. -/
def sqCtlWrite (w : Writer) (q be : Nat) (data : W64) (s : State) : State :=
  if w ≠ .core 2 || !seqPresent s.build q then s
  else
    let old := s.reg (F.SQ_CTL_RETIRE q).off
    let t := s.plainWrite w (F.SQ_CTL_RETIRE q).off be data
    if q = 0 then (s.setReg (F.SQ_CTL_RETIRE q).off old).setFld (F.SQ_CTL_HANGLIM 0) (t.fld (F.SQ_CTL_HANGLIM 0))
    else
      let t := if seqKind q = .lsq then t else t.setFlag (F.SQ_CTL_CROSS q) false
      let on := fun (b : Nat) => bitOf be 7 && data.getLsbD b
      if on 63 then seqRetire q t else if on 62 then seqStop q t else if on 61 then seqStart q t else t

/-! ### The commands -/

/-- SYN_BARRIER_COMPLETE (R156): In the cycle after ARRIVED equals MASK, every waiting sequencer executes its barrier word and ARRIVED clears. -/
def execSynBarrierComplete (f : Nat) (s : State) : Answer := .next (whileClocked s (barrierComplete f s))
/-- HANG_LIMIT (R170): A word stalled for HANGLIM cycles with IDLE = 0 raises a hang machine check. -/
def execHangLimit (sq : Nat) (s : State) : Answer := .next (whileClocked s (hangLimit sq s))
/-- RETIRE (R173): A write of xSQ_CTL.RETIRE retires a PSQ or LSQ, releasing or reassigning its banks and returning its work. -/
def execRetire (sq : Nat) (s : State) : Answer := .next (if s.cclkOn then seqRetire sq s else s)
/-- SEQ_STOP (R178): A write of xSQ_CTL.STOP stops the sequencer at the next word boundary. -/
def execSeqStop (sq : Nat) (s : State) : Answer := .next (if s.cclkOn && sq != 0 && seqPresent s.build sq then seqStop sq s else s)
/-- SEQ_START (R178): A write of xSQ_CTL.START runs a stopped, valid sequencer from ENTRY. -/
def execSeqStart (sq : Nat) (s : State) : Answer := .next (if s.cclkOn && sq != 0 && seqPresent s.build sq then seqStart sq s else s)
/-- SYNF_WRITE (R180): A write of SYNf may complete a barrier or raise a machine check on a waiting sequencer whose MASK bit it clears. -/
def execSynfWrite (w : Writer) (f : Nat) (be : BitVec 8) (v : W64) (s : State) : Answer :=
  .next (if s.cclkOn && decide (f < 8) then synWrite w f be.toNat v s else s)
/-- SEQ_MEM_READ_LAND (R151): The data of a sequencer MEM read lands in MDR and MEMRDY and MEMPEN are set, three cycles after issue or later under contention. -/
def execSeqMemReadLand (sq : Nat) (s : State) : Answer := .next (whileClocked s (memReadLand sq s))
/-- STAGE_OPERATION_DONE (R145): A fixed-function stage finishes the operation started by START, producing its results and making its done and ready conditions true. -/
def execStageOperationDone (sq k : Nat) (s : State) : Answer := .next (whileClocked s (stageDone sq k s))

end Sys2Proof.Machine
end

