-- ==== Sys2Proof/Machine/Cmd.lean ====
section
/-!
DEFINITION. The command machinery: ring registers (R223 to R225), acceptance (R227 to R233), start and order (R236, R237, R245,
R259, R260), and the commands of groups 0x0, 0x1 and 0xC and CUSTOP_DEF (R238 to R240, R254 to R258, R262 to R267, R214).
-/

namespace Sys2Proof.Machine

/-! ### The registers of a ring pair (R223 to R225) -/

/-- The bytes from one offset of a ring to another. -/
def ringSpan (size a b : Nat) : Nat := (b + size - a) % size

/-- A write of CMDk_CFG (R223, R224). -/
def cmdCfgWrite (w : Writer) (k be : Nat) (data : W64) (s : State) : State :=
  let off := (F.CMD_CFG_EN k).off
  let old := s.reg off
  let en := getBits old 63 1
  let stuck := en == 1 || s.inflight k != 0
  let v0 := s.written w off be data
  let v1 := if stuck then setBits v0 48 8 (getBits old 48 8) else v0
  let v2 := if en = 0 ∧ s.inflight k ≠ 0 then setBits v1 63 1 0 else v1
  let s1 := s.setReg off v2
  if en = 0 ∧ getBits v2 63 1 = 1 then
    (((s1.setReg (F.CMD_SQPTR_TAIL k).off 0).setReg (F.CMD_CQPTR_HEAD k).off 0).setFlag (F.CMD_CFG_STOPPED k) false).setCqw k CqWriter.idle
  else s1

/-- A write of CMDk_SQBASE or CMDk_CQBASE (R224). -/
def cmdBaseWrite (w : Writer) (k off be : Nat) (data : W64) (s : State) : State :=
  if s.flag (F.CMD_CFG_EN k) || s.inflight k != 0 then s else s.plainWrite w off be data

/-- The submission doorbell: a write of CMDk_SQPTR.TAIL can only add packets (R225). -/
def sqTailSet (k tail : Nat) (s : State) : State :=
  let size := s.sqSize k
  let head := s.fld (F.CMD_SQPTR_HEAD k)
  if tail % 8 ≠ 0 || size ≤ tail || ringSpan size head tail < ringSpan size head (s.fld (F.CMD_SQPTR_TAIL k)) then s
  else s.setFld (F.CMD_SQPTR_TAIL k) tail

/-- A write of CMDk_CQPTR.HEAD can only consume replies (R225). -/
def cqHeadSet (k head : Nat) (s : State) : State :=
  let size := s.cqSize k
  let tail := s.fld (F.CMD_CQPTR_TAIL k)
  if head % 8 ≠ 0 || size ≤ head || ringSpan size (s.fld (F.CMD_CQPTR_HEAD k)) tail < ringSpan size head tail then s
  else s.setFld (F.CMD_CQPTR_HEAD k) head

/-! ### The opcode table (R7, R235) -/

/-- The PLEN that an opcode permits, its RMAX and whether it honours INTERIM. -/
def opRow (b : Build) (opc plen : Nat) : Option (Bool × Nat × Bool) :=
  let row := fun (p rmax : Nat) (i : Bool) => some (plen == p, rmax, i)
  match opc with
  | 0x0000 => row 0 0 false
  | 0x0001 => row 8 8 true
  | 0x0002 => row 8 0 false
  | 0x0003 => row 8 8 false
  | 0x0004 => row 8 0 false
  | 0x0005 => row 0 256 false
  | 0x0006 => row 8 8 false
  | 0x0007 => row 8 0 false
  | 0x1001 => row 32 8 false
  | 0x1002 => row 8 0 false
  | 0x1010 => row 80 0 false
  | 0x1011 => row 8 16 false
  | 0x2001 => row 24 8 true
  | 0x3001 => some (decide (16 ≤ plen), 8, false)
  | 0x3002 => row 8 8 false
  | 0x4001 => some (decide (16 ≤ plen), 8, false)
  | 0x4002 => some (decide (16 ≤ plen) && decide (plen ≤ 520), 8, false)
  | 0x5001 => row 24 288 true
  | 0x6001 => row 32 64 true
  | 0x6002 => row 16 256 true
  | 0x7001 => row 24 8 true
  | 0x7002 => row 16 0 false
  | 0x8001 => row 32 8 false
  | 0x9001 => if b == .d then none else row 32 16 true
  | 0x9010 => if b == .d then none else row 32 16 true
  | _ => if opc / 4096 = 12 then some (true, 0, false) else none

/-! ### Orders 1 to 5 of R233 -/

/-- Order 3: TARGET from a host ring (R245). -/
def State.targetStatus (s : State) (target : Nat) : Option Nat :=
  if target = 0xFFFF then none
  else
    match s.cabId with
    | none => some Status.badParam
    | some me =>
      if target = me then none
      else if 1024 ≤ target then some Status.badParam
      else if s.flag F.CMD_GWCFG_EN then none
      else some Status.denied

/-- The status of the first of orders 1 to 5 that fails.
[DESIGN CHOICE, unsafe, log 35] -/
def State.headerStatus (s : State) (onRing : Bool) (h : List Byte) : Option Nat :=
  let flags := byteAt h 2
  if 16 ≤ flags || (onRing && bitOf flags 2) then some Status.badParam
  else
    match opRow s.build (leAt h 0 2) (leAt h 8 2) with
    | none => some Status.badOpc
    | some (plenOk, _, _) =>
      match if onRing then s.targetStatus (leAt h 10 2) else none with
      | some st => some st
      | none =>
        if 1024 ≤ leAt h 6 2 then some Status.badTenant
        else if plenOk then none
        else some Status.badParam

/-- Does a host command go to every cabinet with the aggregate reply (R245)? -/
def State.broadcasts (s : State) (onRing : Bool) (h : List Byte) : Bool :=
  onRing && leAt h 10 2 == 0xFFFF && s.cabId.isSome && s.flag F.CMD_GWCFG_EN

/-- The reservation of a packet: an interim reply that is asked for adds 16; RMAX is 0 for one that fails one of orders 1 to 5 (R227, R228,
R237, R248).
[DESIGN CHOICE, unsafe, log 35] -/
def State.reservation (s : State) (passes : Bool) (h : List Byte) : Nat :=
  match opRow s.build (leAt h 0 2) (leAt h 8 2) with
  | none => 16
  | some (_, rmax, i) =>
    16 + (if !passes then 0 else if s.broadcasts true h then 256 else rmax) + (if i && bitOf (byteAt h 2) 3 then 16 else 0)

/-! ### Acceptance (R227 to R230) -/

/-- What acceptance makes of the packet at the HEAD of a submission ring: the bytes it takes, its reservation, header, parameters,
whether a parameter byte is pennanted, its early status, whether the ring stops. -/
structure Intake where
  take : Nat
  resv : Nat
  hdr : List Byte
  params : List Byte
  parPen : Bool
  early : Option Nat
  stops : Bool
  deriving DecidableEq, Repr

/-- The packet at HEAD, given the bytes that lie there and the occupied span. -/
def State.intake (s : State) (span : Nat) (l : List PByte) : Option Intake :=
  let h := (l.take 16).map fun (b : PByte) => if b.pen then (0 : Byte) else b.v
  let pen := fun (i : Nat) => (l.map fun (b : PByte) => b.pen).getD i false
  let plen := leAt h 8 2
  if span < 16 || l.length < 16 then none
  else if pen 3 || pen 8 || pen 9 then some ⟨span, 16, h, [], false, some Status.fault, true⟩
  else if byteAt h 3 ≠ 1 || plen % 8 ≠ 0 || 1024 < plen || span < 16 + plen then
    some ⟨min span (16 + plen), 16, h, [], false, some Status.badParam, true⟩
  else if anyPen (l.take 16) then some ⟨16 + plen, 16, h, [], false, some Status.fault, false⟩
  else if l.length < 16 + plen then none
  else
    let p := (l.drop 16).take plen
    match s.headerStatus true h with
    | some st => some ⟨16 + plen, s.reservation false h, h, vals p, false, some st, false⟩
    | none => some ⟨16 + plen, s.reservation true h, h, vals p, anyPen p, none, false⟩

/-- FREE and RESV of completion ring k (R227). -/
def State.cqFree (s : State) (k : Nat) : Nat :=
  (s.fld (F.CMD_CQPTR_HEAD k) + 2 * s.cqSize k - s.fld (F.CMD_CQPTR_TAIL k) - 8) % s.cqSize k

def State.cqResv (s : State) (k : Nat) : Nat := ((s.cmds.list.filter fun c => c.src == .ring k).map (·.resv)).sum

/-- Does the engine take commands at all (R86, R96, R215, R228, R236)?
[DESIGN CHOICE, unsafe, log 35] -/
def State.accepting (s : State) : Bool :=
  s.firmware && !s.cc.booting && !s.blocked && decide (s.cmds.list.length < 64)
    && !(s.flag F.AO_MODE_BUSY && s.ao.modeWait.isNone && s.ao.sleepCmd.isNone)

/-- The packet that submission ring k holds, if it can be accepted (R228).
[DESIGN CHOICE, unsafe, log 35] -/
def State.ringReady (s : State) (k : Nat) (l : List PByte) : Option Intake :=
  let span := ringSpan (s.sqSize k) (s.fld (F.CMD_SQPTR_HEAD k)) (s.fld (F.CMD_SQPTR_TAIL k))
  match s.intake span l with
  | none => none
  | some x =>
    if 8 ≤ k || !s.flag (F.CMD_CFG_EN k) || s.flag (F.CMD_CFG_STOPPED k) || s.cqFree k < s.cqResv k + x.resv then none else some x

/-- The sources that hold a packet that could be accepted, with their priority (R229). -/
def State.readySources (s : State) (heads : List (Nat × List PByte)) : List (Nat × Nat) :=
  (if s.cmds.rx.isEmpty then [] else [(8, 3)])
    ++ (heads.filter fun h => (s.ringReady h.1 h.2).isSome).map fun h => (h.1, s.fld (F.CMD_CFG_PRIO h.1))

/-- The source taken: the highest priority, then round robin after the source served last (R229).
[DESIGN CHOICE, unsafe, log 35] -/
def chooseSource (last : Nat) (l : List (Nat × Nat)) : Option Nat :=
  let turn := fun (i : Nat) => (i + 17 - last) % 9
  (l.foldl (fun (best : Option (Nat × Nat)) x =>
    match best with
    | none => some x
    | some b => if b.2 < x.2 || (b.2 == x.2 && decide (turn x.1 < turn b.1)) then some x else best) none).map (·.1)

/-- Enter a command into the list of accepted commands. -/
def acceptCmd (idx : Nat) (c : Cmd) (s : State) : State :=
  { s with cmds := { s.cmds with nextId := c.id + 1, lastSrc := idx, list := s.cmds.list ++ [c] } }

/-- Accept the packet at HEAD of submission ring k. A packet that stops the ring has its reply first, then STOPPED is set (R230). -/
def acceptRing (k : Nat) (x : Intake) (s : State) : State :=
  let head := (s.fld (F.CMD_SQPTR_HEAD k) + x.take) % s.sqSize k
  let c : Cmd := { id := s.cmds.nextId, src := .ring k, hdr := x.hdr, params := x.params, parPen := x.parPen, resv := x.resv,
                   phase := .waiting, mgmt := none, early := x.early, frame := s.frame,
                   wide := x.early.isNone && s.broadcasts true x.hdr }
  let s1 := acceptCmd k c (s.setFld (F.CMD_SQPTR_HEAD k) head)
  if x.stops then ((finish c.id (x.early.getD Status.badParam) [] s1).setFlag (F.CMD_CFG_STOPPED k) true).raise 156 else s1

/-- Accept the oldest command of the ring intake: order 7 of R247. -/
def acceptMgmt (s : State) : State :=
  match s.cmds.rx with
  | [] => s
  | r :: rest =>
    let plen := leAt r.hdr 8 2
    let bad := byteAt r.hdr 3 ≠ 1 || plen % 8 ≠ 0 || 1024 < plen || r.params.length ≠ plen
    let early := if bad then some Status.badParam else s.headerStatus false r.hdr
    let c : Cmd := { id := s.cmds.nextId, src := .cab r.info.sender, hdr := r.hdr, params := r.params, parPen := false, resv := 0,
                     phase := .waiting, mgmt := some r.info, early := early, frame := s.frame }
    acceptCmd 8 c { s with cmds := { s.cmds with rx := rest } }

/-! ### Start (R236, R237, R245, R259, R260) -/

/-- Order 6: the mode and the role (R236, R268, R364, R365).
[DESIGN CHOICE, unsafe, log 35] -/
def State.permitted (s : State) (c : Cmd) (local_ : Bool) : Bool :=
  let g := c.opc / 4096
  (s.mode != Mode.rigging || g == 0 || g == 7 || c.opc == 0x1010 || c.opc == 0x1011)
    && !(local_ && c.opc == 0x0005 && !s.role 1 && !s.role 2)
    && !(local_ && (c.opc == 0x9001 || c.opc == 0x9010) && !s.role 4)

/-- A command starts.
[DEDUCED, unsafe, log 36] -/
def startCmd (c : Cmd) (s : State) : State :=
  match c.early with
  | some st => finish c.id st [] s
  | none =>
    if !s.permitted c (!s.remote c) then finish c.id Status.denied [] s
    else if c.parPen then finish c.id Status.fault (if c.opc = 0x7001 then ucodePlain else []) s
    else if s.remote c then gatewaySend c.id c.target c.hdr c.params c.enc (s.running c.id)
    else
      let s1 := s.setCmd { c with phase := .started }
      let i := match opRow s.build c.opc c.plen with | some (_, _, i) => i && c.interim | none => false
      let s2 := if i then sendReply c Status.accepted [] false s1 else s1
      if c.wide then gatewaySend c.id 0xFFFF c.hdr c.params c.enc s2 else s2

/-- May a waiting command start (R86, R96, R259)? -/
def State.mayStart (s : State) (c : Cmd) : Bool :=
  let before := s.cmds.list.filter fun d => decide (d.id < c.id)
  let own := before.filter fun d => d.src == c.src
  own.all (fun d => d.phase != .waiting) && (!c.order || own.isEmpty) && (!s.blocks c || before.isEmpty)

/-- COMMAND_START.
[DESIGN CHOICE, unsafe, log 35]
[DEDUCED, unsafe, log 36] -/
def commandStart (id : Nat) (s : State) : State :=
  match s.cmd? id with
  | none => s
  | some c => if c.phase = .waiting && s.firmware && s.mayStart c then startCmd c s else s

/-- What MPT0 delivers of the bytes that lie at the HEADs of the submission rings: a port that has no service fails every read, and what a
failed read delivers is pennanted (R221, R597).
[DESIGN CHOICE, unsafe, log 35] -/
def State.fetched0 (s : State) (heads : List (Nat × List PByte)) : List (Nat × List PByte) :=
  if s.portDead 0 then heads.map fun h => (h.1, h.2.map fun b => { b with pen := true }) else heads

/-- PACKET_ACCEPT: `heads` holds the bytes that lie at the HEAD of each submission ring, as MPT0 reads them. CANCEL starts at its own
acceptance, whatever its checks say (R260, R262).
[DESIGN CHOICE, unsafe, log 35] -/
def packetAccept (lying : List (Nat × List PByte)) (s : State) : State :=
  let heads := s.fetched0 lying
  if !s.accepting then s
  else
    match chooseSource s.cmds.lastSrc (s.readySources heads) with
    | none => s
    | some i =>
      let id := s.cmds.nextId
      let s1 := if i = 8 then acceptMgmt s
        else
          match heads.find? fun h => h.1 == i with
          | none => s
          | some h => match s.ringReady i h.2 with | none => s | some x => acceptRing i x s
      match s1.cmd? id with
      | some c => if c.opc = 0x0003 && c.phase == .waiting then startCmd c s1 else s1
      | none => s1

/-! ### NOP and CANCEL (R238, R262) -/

def nop (id : Nat) (s : State) : State := withStarted id 0x0000 s fun _ => finish id Status.ok [] s

/-- CANCEL: the oldest waiting command of the same source with the TAG.
[DEDUCED, unsafe, log 37] -/
def cancel (id : Nat) (s : State) : State :=
  withStarted id 0x0003 s fun c =>
    if !zeroAt c.params 2 6 then finish id Status.badParam [] s
    else
      match s.cmds.list.find? fun d => d.src == c.src && d.phase == .waiting && d.tag == leAt c.params 0 2 with
      | none => finish id Status.ok (leBytes 8 1) s
      | some d => finish id Status.ok (leBytes 8 0) (finish d.id Status.cancelled [] s)

/-! ### Units (R263 to R267) -/

/-- CLASS and INDEX of a unit command, if its ID is valid. -/
def Cmd.unit? (c : Cmd) : Option (Nat × Nat) :=
  let cls := byteAt c.params 1
  let idx := byteAt c.params 0
  if unitValid cls idx then some (cls, idx) else none

/-- Does a unit command's turn come: has every earlier one of its source on the same unit completed (R259)?
[DEDUCED, unsafe, log 37] -/
def State.unitTurn (s : State) (c : Cmd) : Bool :=
  !(s.cmds.list.any fun d => decide (d.id < c.id) && d.src == c.src && d.works && (d.opc == 0x0004 || d.opc == 0x0006 || d.opc == 0x0007)
    && d.params.take 2 == c.params.take 2)

/-- A unit command that has started acts when its turn comes. -/
def withUnitTurn (id opc : Nat) (s : State) (f : Cmd → State) : State :=
  withStarted id opc s fun c => if s.unitTurn c then f c else s

def unitQuery (id : Nat) (s : State) : State :=
  withUnitTurn id 0x0006 s fun c =>
    match c.unit? with
    | none => finish id Status.badParam [] s
    | some (cls, idx) =>
      if !zeroAt c.params 2 6 then finish id Status.badParam [] s
      else finish id Status.ok (leBytes 8 (s.reg (F.CMD_UST_OBS (ustIdx cls idx)).off).toNat) s

/-- A unit that a command may set or reset: an absent slice engine or memory port gives BADPARAM (R7); UNIT_QUERY reads it as ABSENT
(R263).
[DEDUCED, unsafe, log 37] -/
def Cmd.presentUnit? (c : Cmd) (b : Build) : Option (Nat × Nat) := c.unit?.filter fun u => unitPresent b u.1 u.2

/-- The classes that UNIT_SET takes (R263).
[DEDUCED, unsafe, log 37] -/
def settable (cls : Nat) : Bool := cls == Cls.se || cls == Cls.lane || cls == Cls.pu || cls == Cls.ring || cls == Cls.gclk

/-- A lane goes quiet and is not armed (R267, R409). -/
def quietLane (n : Nat) (s : State) : State :=
  let s0 := if (s.lane n).sym.isEmpty then s else s.drew
  s0.setLane n (s.hushed n (s.free 16))

/-- The lane of a module position goes quiet; where none carries the module the lane of the position itself ends its training.
[DEDUCED, unsafe, log 37] -/
def quietModule (m : Nat) (s : State) : State :=
  match s.carrier m with
  | some n => quietLane n s
  | none =>
    if s.laneUp m then s
    else
      let s1 := match s.ret (m / 8) with
        | some (j, _) => if j = m then s.setRet (m / 8) none else s
        | none => s
      let s2 := quietLane m s1
      if s2.laneSt m = LaneSt.failed then s2 else (s2.setFld (F.ZLL_STAT_STATE m) LaneSt.down).setFld (F.ZLL_STAT_MOD m) 0xFF

/-- A unit follows its declared state: from the hoist on (R267).
[DEDUCED, unsafe, log 37] -/
def unitEffect (cls idx : Nat) (s : State) : State :=
  let u := ustIdx cls idx
  let off := s.decl cls idx == Obs.off
  let s1 := { s with unitOff := if off then addOnce s.unitOff u else s.unitOff.filter (· != u) }
  match cls with
  | 3 => observeLane idx (if off then quietModule idx s1 else s1)
  | 4 => observePu idx (if off then puHold (2 ^ idx) s1 else s1)
  | 6 => observePort idx (if off then portDown idx s1 else s1)
  | 9 => observeGclk idx s1
  | _ => s1

/-- The unit command completes: OK, or DIVERGED when the states do not agree (R265).
[DEDUCED, unsafe, log 37] -/
def unitSetDone (id : Nat) (s : State) : State :=
  match s.cmd? id with
  | none => s
  | some c =>
    match c.unit? with
    | none => s
    | some (cls, idx) =>
      let s1 := unitEffect cls idx s
      finish id (if statesAgree (s1.decl cls idx) (s1.obs cls idx) then Status.ok else Status.diverged) [] s1

/-- UNIT_SET.
[DEDUCED, unsafe, log 37]
[DEDUCED, unsafe, log 70] -/
def unitSet (id : Nat) (s : State) : State :=
  withUnitTurn id 0x0007 s fun c =>
    let d := byteAt c.params 2
    match c.presentUnit? s.build with
    | none => finish id Status.badParam [] s
    | some (cls, idx) =>
      if !settable cls || (d != Obs.off && d != Obs.on) || !zeroAt c.params 3 5 then finish id Status.badParam [] s
      else if cls = Cls.ring && d = Obs.off && !s.portUp (1 - idx) then finish id Status.denied [] s
      else
        let s1 := judgeUnit cls idx 0 (s.setFld (F.CMD_UST_DECL (ustIdx cls idx)) d)
        let s2 := s1.running id
        if s2.hoists then { s2 with cmds := { s2.cmds with atHoist := s2.cmds.atHoist ++ [id] } } else unitSetDone id s2

/-- The state of a sequencer outside its registers after a unit reset. -/
def resetSeqUnit (q : Nat) (s : State) : State :=
  { (List.range 8).foldl (fun t f => t.setFld (F.SYN_ARRIVED f) (clrBit (t.fld (F.SYN_ARRIVED f)) q)) s with
    seqs := s.seqs.filter fun p => p.1 != q }

/-- The requests of a port that a reset covers are asked again (R60).
[DEDUCED, unsafe, log 12] -/
def resetPort (n : Nat) (s : State) : State :=
  s.setPort n { MptPort.idle with queue := (s.port n).out.map (·.req) ++ (s.port n).queue }

/-- A lane after its reset: it is quiet, a packet in hand ends with ABORT (R409), and a reply that it awaited is no longer awaited. -/
def resetLane (n : Nat) (s : State) : State :=
  let s1 := match s.ret (n / 8) with
    | some (j, _) => if j = n then s.setRet (n / 8) none else s
    | none => s
  (s1.setLane n { Lane.reset with sym := s1.hushSyms n (s1.free 16) }).drew

/-- The state of a unit outside its registers after UNIT_RESET, and its observed state evaluated again (R94, R101, R267). -/
def resetUnitState (cls idx : Nat) (s : State) : State :=
  match cls with
  | 1 => observe Cls.se idx Obs.off 0 (resetSeqUnit (1 + idx) (returnSlice idx (returnRows idx s)))
  | 2 => observe Cls.lp idx (if showMode s.mode then Obs.on else Obs.off) 0 (resetSeqUnit (17 + idx) s)
  | 3 => observeLane idx s
  | 4 => observePu idx ((puHold (2 ^ idx) s).setPu idx { Pu.reset with cfg := (s.pu idx).cfg })
  | 5 => observe Cls.tmr idx Obs.off 0 { s with tmrs := s.tmrs.filter fun p => p.1 != idx, tmrDue := clrBit s.tmrDue idx }
  | 6 => observePort idx ((portDown idx s).setRport idx RingPort.reset)
  | 7 => observe Cls.mpt idx Obs.off 0 (resetPort idx s)
  | 8 => observe Cls.ba idx Obs.off 0 (recRestart s.ba.other { s with ba := BaSt.reset })
  | 9 => observeGclk idx ({ s with lp := { s.lp with shortG := clrBit s.lp.shortG idx } }.setFld F.GCLK_CTL_EN
      (setBit (s.fld F.GCLK_CTL_EN) idx))
  | _ => s

/-- UNIT_RESET: a port goes down, and a lane goes quiet, before its registers return to their Reset values.
[DEDUCED, unsafe, log 37] -/
def unitReset (id : Nat) (s : State) : State :=
  withUnitTurn id 0x0004 s fun c =>
    match c.presentUnit? s.build with
    | none => finish id Status.badParam [] s
    | some (cls, idx) =>
      let o := s.obs cls idx
      if !zeroAt c.params 2 6 then finish id Status.badParam [] s
      else if ((s.mode == Mode.display || s.mode == Mode.halfMast) && (cls == Cls.lp || cls == Cls.mpt || cls == Cls.ba))
          || (cls == Cls.se && o != Obs.failed && o != Obs.retired && o != Obs.off) then finish id Status.denied [] s
      else
        let s0 := if cls = Cls.ring then portDown idx s else if cls = Cls.lane then resetLane idx s else s
        finish id Status.ok [] (resetUnitState cls idx (resetUnitRegs cls idx s0))

/-! ### Tenants (R239, R240, R512) -/

/-- A window number and SE_WCFG, SE_WREF of a tenant that is to be opened; none when its window does not overlap the member. -/
def State.ownRect (s : State) (x0 y0 w h : Nat) : Option (Nat × Nat × Nat × Nat) :=
  let ax := s.fld F.RING_AREA_X0C
  let ay := s.fld F.RING_AREA_Y0C
  let l := max ax (x0 / 32)
  let t := max ay (y0 / 32)
  let r := min (ax + s.fld F.RING_AREA_WC) ((x0 + w) / 32)
  let b := min (ay + s.fld F.RING_AREA_HC) ((y0 + h) / 32)
  if s.role 0 && decide (l < r) && decide (t < b) then some (l - ax, t - ay, r - l, b - t) else none

/-- Does the configuration of window k, as its register stands, cover a cabinet cell? -/
def State.cfgCovers (s : State) (k cx cy : Nat) : Bool :=
  let f := fun (r : Nat → FRef) => s.fld (r k)
  s.flag (F.SE_WCFG_EN k) && decide (f F.SE_WCFG_CX0 ≤ cx) && decide (cx ≤ f F.SE_WCFG_CX0 + f F.SE_WCFG_CW)
    && decide (f F.SE_WCFG_CY0 ≤ cy) && decide (cy ≤ f F.SE_WCFG_CY0 + f F.SE_WCFG_CH)

/-- Would a further window make more than 8 cover some cell of a rectangle (R317)? -/
def State.tooMany (s : State) (r : Nat × Nat × Nat × Nat) : Bool :=
  (List.range r.2.2.1).any fun i => (List.range r.2.2.2).any fun j =>
    decide (8 ≤ ((List.range 64).filter fun k => s.cfgCovers k (r.1 + i) (r.2.1 + j)).length)

/-- The lowest free window number.
[DEDUCED, unsafe, log 39] -/
def State.freeWindow (s : State) : Option Nat :=
  (List.range 64).find? fun k => !s.flag (F.SE_WCFG_EN k) && s.tenants.all fun t => t.2.win != k

/-- The buffers of the windows in use: port, first byte, bytes (R324). -/
def State.refAreas (s : State) : List (Nat × Nat × Nat) :=
  ((List.range 64).filter fun k => s.flag (F.SE_WCFG_EN k)).map fun k =>
    (s.fld (F.SE_WREF_PORT k), s.fld (F.SE_WREF_BASE k) * 4096,
      2 * ((s.fld (F.SE_WCFG_CW k) + 1) * (s.fld (F.SE_WCFG_CH k) + 1) * 4608))

/-- Can the two buffers of a window, `len` bytes in all, lie at a place: in one enabled coded window, clear of the others (R324)?
[DEDUCED, unsafe, log 39] -/
def State.placeOk (s : State) (len : Nat) (p : Nat × Nat) : Bool :=
  decide (p.1 < mptCount s.build) && s.inWindow p.1 (p.2 * 4096) len
    && s.refAreas.all fun a => a.1 != p.1 || !overlap (p.2 * 4096) len a.2.1 a.2.2

/-- Where firmware puts the buffers: any place that R324 allows. The free value proposes one; the first that fits stands in for a
proposal that does not.
[DESIGN CHOICE, safe, log 2]
[DEDUCED, unsafe, log 39] -/
def State.place (s : State) (len : Nat) : Option (Nat × Nat) :=
  let p := (s.free 37 / 2 ^ 36, s.free 37 % 2 ^ 36)
  let edges := (List.range 2).flatMap fun n =>
    ((List.range 8).map fun k => (n, s.fld (F.MPT_CWIN_BASE n k) * 256))
      ++ (s.refAreas.filter fun a => a.1 == n).map fun a => (n, (a.2.1 + a.2.2 + 4095) / 4096)
  (p :: edges).find? fun q => s.placeOk len q

/-- SUMRATE follows the open tenants (R512). -/
def sumRate (s : State) : State := s.setFld F.RING_ADM_SUMRATE ((s.tenants.map (·.2.rate)).sum)

/-- The values of TENANT_OPEN are within their ranges. -/
def tenantBad (p : List Byte) : Bool :=
  let edge := fun (i : Nat) => leAt p i 4 % 32 != 0
  edge 0 || edge 4 || edge 8 || edge 12 || leAt p 8 4 == 0 || leAt p 12 4 == 0 || decide (8 ≤ byteAt p 16) || decide (4 ≤ byteAt p 17)
    || !zeroAt p 18 2 || leAt p 20 4 == 0 || decide (20000000 < leAt p 20 4) || decide (leAt p 24 4 < 2048)
    || decide (16777216 < leAt p 24 4) || !zeroAt p 28 4

/-- Does a tenant's slot hold a key whose USE allows what SEC asks for?
[DEDUCED, unsafe, log 39] -/
def State.secKey (s : State) (t sec : Nat) : Bool :=
  sec == 0 || (s.keySlot t).entries.any fun e => (!bitOf sec 0 || bitOf e.use 0) && (!bitOf sec 1 || bitOf e.use 1)

/-- The tenant is closed: policer, window, senders (R240). -/
def closeTenant (t : Nat) (s : State) : State :=
  let s1 := { forgetBucket t s with tenants := s.tenants.filter fun p => p.1 != t }
  let s2 := { s1 with ring := { s1.ring with reas := s1.ring.reas.filter fun r => r.tenant != t } }
  let s3 := match (s.tenants.find? fun p => p.1 == t).map (·.2.win) with
    | some k => if k < 64 then s2.setReg (F.SE_WSTAT_REFOK k).off 0 else s2
    | none => s2
  plyTenantClosed t (sumRate s3)

/-- TENANT_CLOSE completes.
[DEDUCED, unsafe, log 39] -/
def tenantCloseDone (id : Nat) (s : State) : State :=
  match s.cmd? id with
  | none => s
  | some c => finish id Status.ok [] (closeTenant c.tenant s)

/-- Tenants that were opening are open.
[DEDUCED, unsafe, log 39] -/
def tenantsOpened (s : State) : State :=
  { s with tenants := s.tenants.map fun (p : Nat × Tenant) => if p.2.phase = .opening then (p.1, { p.2 with phase := .opened }) else p }

/-- TENANT_OPEN.
[DEDUCED, unsafe, log 39]
[DEDUCED, unsafe, log 70] -/
def tenantOpen (id : Nat) (s : State) : State :=
  withStarted id 0x1001 s fun c =>
    let p := c.params
    let t := c.tenant
    let rect := s.ownRect (leAt p 0 4) (leAt p 4 4) (leAt p 8 4) (leAt p 12 4)
    let open_ := fun (win : Nat) (u : State) =>
      let ten : Tenant := ⟨leAt p 0 4, leAt p 4 4, leAt p 8 4, leAt p 12 4, byteAt p 16, byteAt p 17, leAt p 20 4, leAt p 24 4, win, .opening⟩
      let u1 := sumRate { forgetBucket t u with tenants := SMap.insert t ten u.tenants }
      let u2 := if u1.hoists then u1 else openFrame none (tenantsOpened u1)
      finish id Status.ok (leBytes 8 win) u2
    if s.tenants.any fun e => e.1 == t then finish id Status.badTenant [] s
    else if tenantBad p then finish id Status.badParam [] s
    else if rect.isSome && (s.freeWindow.isNone || (rect.map s.tooMany).getD false) then finish id Status.badParam [] s
    else if !s.secKey t (byteAt p 17) || 20820000 < (s.tenants.map (·.2.rate)).sum + leAt p 20 4 then finish id Status.denied [] s
    else
      match rect, s.freeWindow with
      | some (cx, cy, cw, ch), some k =>
        let s1 := s.drew
        match s.place (2 * (cw * ch * 4608)) with
        | none => finish id ([Status.busy, Status.deferred, Status.fault].getD (s1.free 2 % 3) Status.fault) [] s1.drew
        | some (port, base) =>
          let cfg := setBits (setBits (setBits (setBits (setBits (setBits (setBits 0 63 1 1) 42 10 t) 36 3 (byteAt p 16)) 30 6 (ch - 1))
            24 6 (cw - 1)) 18 6 cy) 12 6 cx
          let s2 := (s1.setReg (F.SE_WCFG_EN k).off cfg).setReg (F.SE_WREF_BASE k).off (setBits (setBits 0 63 1 port) 12 36 base)
          open_ k s2
      | _, _ => open_ 0xFF s

/-- TENANT_CLOSE.
[DEDUCED, unsafe, log 39]
[DEDUCED, unsafe, log 70] -/
def tenantClose (id : Nat) (s : State) : State :=
  withStarted id 0x1002 s fun c =>
    match s.tenants.find? fun e => e.1 == c.tenant with
    | none => finish id (if zeroAt c.params 0 8 then Status.badTenant else Status.badParam) [] s
    | some (t, ten) =>
      if !zeroAt c.params 0 8 then finish id Status.badParam [] s
      else
        let s1 := if ten.win < 64 then s.setReg (F.SE_WCFG_EN ten.win).off 0 else s
        let s2 := { s1 with tenants := SMap.insert t { ten with phase := .closing } (SMap.erase s1.tenants t) }.running id
        if s2.hoists then { s2 with cmds := { s2.cmds with atHoist := s2.cmds.atHoist ++ [id] } }
        else openFrame none (tenantCloseDone id s2)

/-! ### Keys (R253 to R258) -/

/-- Forget what a slot's entry has received (R250, R495). -/
def forgetReplays (slot keyid : Nat) (s : State) : State :=
  { s with
    replays := s.replays.filter fun r => !(1024 + r.slot == slot && r.keyid == keyid)
    ring := { s.ring with vreps := s.ring.vreps.filter fun r => !(r.tenant == slot && r.keyid == keyid) } }

/-- A key is stored in an empty entry, or in place of the entry loaded earlier (R255).
[DEDUCED, unsafe, log 40] -/
def KeySlot.store (k : KeySlot) (e : KeyEntry) : KeySlot :=
  if k.a.isNone then { k with a := some e, bLater := false }
  else if k.b.isNone || !k.bLater then { k with b := some e, bLater := true }
  else { k with a := some e, bLater := false }

/-- The KEYID of the entry that a load replaces.
[DEDUCED, unsafe, log 40] -/
def KeySlot.replaced (k : KeySlot) : Option Nat :=
  match k.a, k.b with
  | some a, some b => some (if k.bLater then a.keyid else b.keyid)
  | _, _ => none

/-- Erase an entry, or both with 0xFFFF.
[DEDUCED, unsafe, log 40] -/
def KeySlot.erase (k : KeySlot) (keyid : Nat) : KeySlot :=
  let keep := fun (o : Option KeyEntry) => o.filter fun e => keyid != 0xFFFF && e.keyid != keyid
  let a := keep k.a
  let b := keep k.b
  ⟨a, b, k.bLater && a.isSome && b.isSome⟩

/-- The USE bits that a slot permits (R256).
[DEDUCED, unsafe, log 40] -/
def useMask (slot : Nat) : Nat := if slot < 1024 then 0x0003 else 0xF3FF

/-- KEY_LOAD.
[DEDUCED, unsafe, log 40] -/
def keyLoad (id : Nat) (s : State) : State :=
  withStarted id 0x1010 s fun c =>
    let p := c.params
    let slot := leAt p 0 2
    let keyid := leAt p 2 2
    let use := leAt p 4 2
    let act := byteAt p 6
    let wrap := byteAt p 7
    let ks := s.keySlot slot
    let done := fun (st : Nat) => finish id st [] s
    if 1040 ≤ slot || 2 ≤ act || (act == 0 && keyid == 0xFFFF) then done Status.badParam
    else if act = 1 then
      let gone := ks.entries.filter fun e => keyid == 0xFFFF || e.keyid == keyid
      if gone.isEmpty then done Status.stale
      else finish id Status.ok [] ((gone.foldl (fun t e => forgetReplays slot e.keyid t) s).setKeySlot slot (ks.erase keyid))
    else if !zeroAt p 10 2 || !zeroAt p 72 8 || (16 ≤ wrap && wrap != 0xFF) || (use &&& useMask slot) != use
        || (wrap == 0xFF && !zeroAt p 56 16) then done Status.badParam
    else
      let put := fun (key : BitVec 256) =>
        if (ks.byId keyid).isSome then done Status.stale
        else
          let s1 := match ks.replaced with | some k => forgetReplays slot k s | none => s
          finish id Status.ok [] ((forgetReplays slot keyid s1).setKeySlot slot (ks.store ⟨keyid, use, key, 0⟩))
      let keyOf := fun (l : List Byte) => BitVec.ofNat 256 (beNat l)
      if wrap = 0xFF then
        if !c.onRing || !s.flag F.CMD_KEYCTL_PLAINOK then done Status.denied else put (keyOf ((p.drop 24).take 32))
      else
        match (s.keySlot (1024 + wrap)).byId (leAt p 8 2) with
        | none => done (if slot = 1024 + wrap then Status.denied else Status.authFail)
        | some e =>
          if !bitOf e.use 15 || slot == 1024 + wrap then done Status.denied
          else
            match gcmOpen e.key ((p.drop 12).take 12) (p.take 12) ((p.drop 24).take 32) ((p.drop 56).take 16) with
            | none => done Status.authFail
            | some l => put (keyOf l)

/-- KEY_INFO. -/
def keyInfo (id : Nat) (s : State) : State :=
  withStarted id 0x1011 s fun c =>
    let slot := leAt c.params 0 2
    if 1040 ≤ slot || !zeroAt c.params 2 6 then finish id Status.badParam [] s
    else
      let k := s.keySlot slot
      let ent := fun (o : Option KeyEntry) => match o with | some e => leBytes 2 e.keyid ++ leBytes 2 e.use | none => leBytes 4 0
      finish id Status.ok
        (ent k.a ++ ent k.b ++ leBytes 8 (b2n k.a.isSome + 2 * b2n k.b.isSome + 4 * b2n (k.bLater && k.a.isSome && k.b.isSome))) s

/-! ### Customer opcodes and commands (R214, R215) -/

/-- CUSTOP_DEF.
[DEDUCED, unsafe, log 40] -/
def custopDef (id : Nat) (s : State) : State :=
  withStarted id 0x7002 s fun c =>
    let p := c.params
    let k := byteAt p 0
    let entry := leAt p 4 2
    if 64 ≤ k || 2 ≤ byteAt p 1 || 3 ≤ byteAt p 2 || !zeroAt p 3 1 || entry < 0x3800 || 0x3FFF < entry || !zeroAt p 6 2 || !zeroAt p 12 4 then
      finish id Status.badParam [] s
    else if !s.flag (F.SQ_STAT_CVALID 0) then finish id Status.denied [] s
    else if leAt p 8 4 ≠ s.fld (F.SQ_CRC_CUST 0) then finish id Status.stale [] s
    else
      let v := if byteAt p 1 = 1 then 0 else setBits (setBits (setBits 0 63 1 1) 48 2 (byteAt p 2)) 0 14 entry
      finish id Status.ok [] (s.setReg (F.CC_CX_EN k).off v)

/-- A command of group 0xC: firmware stages the packet in HB, at a place of its own choice behind the hook table, for the CMD hook.
[DESIGN CHOICE, safe, log 2]
[DESIGN CHOICE, safe, log 41] -/
def customerCommand (id : Nat) (s : State) : State :=
  match s.cmd? id with
  | none => s
  | some c =>
    if c.opc / 4096 ≠ 12 ∨ c.phase ≠ .started ∨ !s.live then s
    else
      let a := 64 + 8 * (s.free 15 % ((hbSize - 64 - 1040) / 8 + 1))
      let hooked := leAt (vals (s.codeBytes (hookAddr 2) 8)) 0 4 != 0
      let s1 := if hooked then writeBytes .hb a (plain (c.hdr ++ c.params)) s.drew else s.drew
      queueHook 2 (0x600000 + a) (some id) (s1.running id)

/-! ### The commands -/

/-- SUBMISSION_DOORBELL (R225): A write of CMDk_SQPTR.TAIL submits packets and makes condition 23 true. -/
def execSubmissionDoorbell (k tail : Nat) (s : State) : Answer :=
  .next (if decide (k < 8) && s.cclkOn then sqTailSet k (tail % 2 ^ 20) s else s)

/-- CQ_HEAD_WRITE (R225): A write of CMDk_CQPTR.HEAD consumes replies and frees completion credit. -/
def execCqHeadWrite (k head : Nat) (s : State) : Answer :=
  .next (if decide (k < 8) && s.cclkOn then cqHeadSet k (head % 2 ^ 20) s else s)

/-- CMD_CFG_EN_WRITE (R223): A write of CMDk_CFG.EN from 0 to 1 resets the pointers and clears STOPPED; from 1 to 0 stops acceptance. -/
def execCmdCfgEnWrite (k : Nat) (en : Bool) (s : State) : Answer :=
  .next (if decide (k < 8) && s.cclkOn then cmdCfgWrite .host k 0x80 (setBits (s.reg (F.CMD_CFG_EN k).off) 63 1 (b2n en)) s else s)

/-- PACKET_ACCEPT (R228): The engine accepts the packet at a submission ring's HEAD once credit and the command limit allow. -/
def execPacketAccept (heads : List (Nat × List PByte)) (s : State) : Answer := .next (whileClocked s (packetAccept heads s))
/-- COMMAND_START (R260): An accepted command starts once its order and resources allow and runs its checks of R233. -/
def execCommandStart (id : Nat) (s : State) : Answer := .next (whileClocked s (commandStart id s))
/-- NOP (R238): NOP replies OK. -/
def execNop (id : Nat) (s : State) : Answer := .next (whileClocked s (nop id s))
/-- CANCEL (R262): CANCEL cancels the oldest waiting command of its source with a matching TAG. -/
def execCancel (id : Nat) (s : State) : Answer := .next (whileClocked s (cancel id s))
/-- UNIT_QUERY (R267): UNIT_QUERY returns a unit's CMD_USTi value. -/
def execUnitQuery (id : Nat) (s : State) : Answer := .next (whileClocked s (unitQuery id s))
/-- UNIT_SET (R267): UNIT_SET sets a unit's declared state, effective from the next hoist. -/
def execUnitSet (id : Nat) (s : State) : Answer := .next (whileClocked s (unitSet id s))
/-- UNIT_RESET (R267): UNIT_RESET resets one named unit, keeping DECL and re-evaluating OBS. -/
def execUnitReset (id : Nat) (s : State) : Answer := .next (whileClocked s (settle (unitReset id s)))
/-- TENANT_OPEN (R239): TENANT_OPEN opens a tenant, installs its policer and allocates a window from the next hoist. -/
def execTenantOpen (id : Nat) (s : State) : Answer := .next (whileClocked s (tenantOpen id s))
/-- TENANT_CLOSE (R240): TENANT_CLOSE closes a tenant at the next hoist. -/
def execTenantClose (id : Nat) (s : State) : Answer := .next (whileClocked s (tenantClose id s))
/-- KEY_LOAD (R255): KEY_LOAD loads or erases a key entry in a slot. -/
def execKeyLoad (id : Nat) (s : State) : Answer := .next (whileClocked s (keyLoad id s))
/-- KEY_INFO (R258): KEY_INFO returns the KEYIDs and USE of a slot's entries. -/
def execKeyInfo (id : Nat) (s : State) : Answer := .next (whileClocked s (keyInfo id s))
/-- CUSTOP_DEF (R214): CUSTOP_DEF defines or removes a customer opcode in the decode table. -/
def execCustopDef (id : Nat) (s : State) : Answer := .next (whileClocked s (custopDef id s))
/-- CUSTOMER_COMMAND (R216): A packet with OPC 0xC000 to 0xCFFF calls the CMD hook, or returns BADOPC. -/
def execCustomerCommand (id : Nat) (s : State) : Answer := .next (whileClocked s (settle (customerCommand id s)))

end Sys2Proof.Machine
end

