-- ==== Sys2Proof/Machine/Tdu.lean ====
section
/-!
DEFINITION. The test and debug unit beyond loopbacks and self-test (R564, R568 to R587): Halt, resume, step, comparators, the core
registers in Halt, stimulus, echo, the TAP.
-/

namespace Sys2Proof.Machine

/-- Is the lock of R572 closed? -/
def State.tduLocked (s : State) : Bool := s.flag F.TDU_CFG_LOCK

/-! ### TDU_CTL (R573, R576, R577, R585) -/

/-- A resumed Show mode: decode in flight is abandoned, the panel stays dark until the first frame whose D(N) opens a PERIOD from
now, lanes that were UP pass through ALIGN (R577).
[DEDUCED, unsafe, log 65] -/
def resumeShow (s : State) : State :=
  let s1 := stopDecode s
  let s2 := { s1 with lp := { s1.lp with firstFrame := s1.frame + 3, latched := false }, ba := { s1.ba with first := true } }
  let s3 := if s2.flag F.AO_CLKST_PN_OK then lanesAlign s2 else s2
  observePus (2 ^ 64 - 1) (observeGclks s3)

/-- RESUME.
[DEDUCED, unsafe, log 13] -/
def tduResume (s : State) : State :=
  if s.mode ≠ Mode.halt then s
  else
    let s1 := ((s.setMode s.ao.heldMode).setFlag F.TDU_STAT_HALTED false)
    let s2 := { s1 with cc := { s1.cc with step := false, stepped := false } }
    modeDone (traceMode (traceHalt 2 (if showMode s2.mode then resumeShow s2 else s2)))

/-- STEP: the CSQ runs until the command core completes one instruction or trap entry. -/
def tduStep (s : State) : State :=
  if s.mode ≠ Mode.halt || s.tduLocked || !s.coreUp then s else { s with cc := { s.cc with step := true, stepped := false } }

/-- The instruction or the trap entry has completed: the engine is halted again with CAUSE 6 (R576). -/
def stepDone (s : State) : State :=
  if s.mode = Mode.halt && s.cc.stepped then
    traceHalt 3 ({ s with cc := { s.cc with stepped := false } }.setFld F.TDU_STAT_CAUSE 6)
  else s

/-- A write of HALT, from HPT or through DBGACC. -/
def tduHalt (jtag : Bool) (s : State) : State := if s.tduLocked then s else haltRequest (if jtag then 2 else 1) s

/-- A write of TDU_CTL: HALT governs, then RESUME, then STEP.
[DEDUCED, unsafe, log 65] -/
def tduCtlWrite (w : Writer) (jtag : Bool) (be : Nat) (data : W64) (s : State) : State :=
  let s1 := s.plainWrite w F.TDU_CTL_HALT.off be data
  if !bitOf be 7 then s1
  else if getBits data 63 1 = 1 then (if w = .host then tduHalt jtag s1 else s1)
  else if getBits data 62 1 = 1 then tduResume s1
  else if getBits data 61 1 = 1 then tduStep s1
  else s1

/-! ### Comparators (R578, R579) -/

/-- Does comparator k match an access: `acc` 0 fetch, 1 load, 2 store, 4 sequencer word; `lvl` the privilege level, or the
sequencer? -/
def State.comparatorMatches (s : State) (k acc addr lvl : Nat) : Bool :=
  let kind := s.fld (F.TDU_CMP_KIND k)
  let a := s.fld (F.TDU_CMP_ADDR k)
  decide (k < 8) && s.flag (F.TDU_CMP_EN k)
    && (if acc = 4 then kind == 4 && s.fld (F.TDU_CMP_SEQ k) == lvl && addr == a % 2 ^ 14
        else (kind == acc || (kind == 3 && (acc == 1 || acc == 2))) && decide (acc < 3)
          && addr / 2 ^ s.fld (F.TDU_CMP_MASK k) == a / 2 ^ s.fld (F.TDU_CMP_MASK k) && bitOf (s.fld (F.TDU_CMP_PLMASK k)) lvl)

/-- A match: HIT, the packet, the action. `trapped` says that the instruction itself took a synchronous trap.
[DEDUCED, unsafe, log 65] -/
def comparatorMatch (k acc addr lvl : Nat) (trapped : Bool) (s : State) : State :=
  if !s.cclkOn || !s.comparatorMatches k acc addr lvl then s
  else
    let s1 := traceEmit 7 (leBytes 1 k ++ leBytes 4 addr) (s.setFlag (F.TDU_CMP_HIT k) true)
    if s1.tduLocked then s1
    else
      match s1.fld (F.TDU_CMP_ACTION k) with
      | 1 => haltRequest 3 s1
      | 2 => if acc = 4 || trapped || s1.flag F.CC_STAT_MCACT || !s1.coreRuns then s1 else trapEnter 8 0 s1.cc.pc 0 s1
      | _ => s1

/-! ### The core's registers in Halt (R575) -/

/-- TDU_CCRr. -/
def State.ccrRead (s : State) (r : Nat) : Nat :=
  if !s.flag F.TDU_STAT_HALTED then 0
  else if r < 32 then (s.g r).toNat
  else if r = 32 then s.cc.pc.toNat
  else if r = 33 then s.cc.status.toNat
  else if r = 34 then s.cc.mql.toNat
  else if r = 35 then s.cc.mqh.toNat
  else (s.cc.slot (gSlot (!s.sb) (r - 20))).toNat

/-- The bits of STAT that a write changes: the reserved level 3 is discarded (R21, R184). -/
def statMerge (old v : W32) : W32 :=
  let pl := if v.toNat % 4 = 3 then old.toNat % 4 else v.toNat % 4
  BitVec.ofNat 32 (v.toNat % 4096 / 4 * 4 + pl)

/-- A write of TDU_CCRr. -/
def ccrWrite (r be : Nat) (data : W64) (s : State) : State :=
  if !s.flag F.TDU_STAT_HALTED || s.tduLocked then s
  else
    let old := BitVec.ofNat 64 (s.ccrRead r)
    let v : W32 := BitVec.ofNat 32 ((old &&& ~~~beMask be) ||| (data &&& beMask be)).toNat
    if r < 32 then s.setG r v
    else if r = 32 then s.setPc (BitVec.ofNat 32 (v.toNat / 2 * 2))
    else if r = 33 then { s with cc := { s.cc with stat := statMerge s.cc.stat v } }
    else if r = 34 then { s with cc := { s.cc with mql := v } }
    else if r = 35 then { s with cc := { s.cc with mqh := v } }
    else { s with cc := s.cc.setSlot (gSlot (!s.sb) (r - 20)) v }

/-! ### Stimulus and echo (R564, R583) -/

/-- A write of TDU_STIMk.
[DEDUCED, unsafe, log 66] -/
def tduStimWrite (k be : Nat) (data : W64) (s : State) : State :=
  if s.cclkOn && be % 16 == 15 then stimWrite k (data.toNat % 2 ^ 32) s else s

/-- TDU_ECHO stores the complement of each byte that is enabled. -/
def tduEchoWrite (be : Nat) (data : W64) (s : State) : State :=
  let m := beMask be
  s.setReg F.TDU_ECHO_ECHO.off ((s.reg F.TDU_ECHO_ECHO.off &&& ~~~m) ||| (~~~data &&& m))

/-! ### The TAP (R568 to R570, R572) -/

/-- The codes of R569. -/
abbrev Tap.extest : Nat := 0x00
abbrev Tap.sample : Nat := 0x01
abbrev Tap.clamp : Nat := 0x03
abbrev Tap.highz : Nat := 0x04
abbrev Tap.dbgacc : Nat := 0x10
abbrev Tap.dbgrst : Nat := 0x11
abbrev Tap.bypass : Nat := 0x3F

/-- The TAP's instruction register. -/
def State.tap (s : State) (ir : Nat) : State := { s with tdu := { s.tdu with ir := ir } }

/-- EXTEST, CLAMP or HIGHZ at Update-IR: Halt with CAUSE 5; while CCLK is stopped or the lock is closed it acts as BYPASS.
[DEDUCED, unsafe, log 66] -/
def tapScan (ir : Nat) (s : State) : State :=
  if s.tduLocked || s.asleep || !s.ccRuns then s.tap Tap.bypass else haltRequest 5 (s.tap ir)

/-- SAMPLE/PRELOAD: the boundary cells take what is shifted in. -/
def tapPreload (cells : BitVec 290) (s : State) : State :=
  { s.tap Tap.sample with tdu := { (s.tap Tap.sample).tdu with cells := cells } }

/-- DBGRST at Run-Test/Idle.
[DEDUCED, unsafe, log 66] -/
def tapReset (s : State) : State := if s.tduLocked then s.tap Tap.bypass else debugReset (s.tap Tap.dbgrst)

/-! ### The commands -/

/-- TDU_HALT (R573): A write of TDU_CTL.HALT enters Halt at the second CCLK edge. -/
def execTduHalt (jtag : Bool) (s : State) : Answer := .next (whilePowered s (tduHalt jtag s))
/-- TDU_RESUME (R577): A write of TDU_CTL.RESUME restores every clock enable and resumes the held mode. -/
def execTduResume (s : State) : Answer := .next (whileClocked s (settle (tduResume s)))
/-- TDU_STEP (R576): A write of TDU_CTL.STEP runs the CSQ for one instruction. -/
def execTduStep (s : State) : Answer := .next (whileClocked s (tduStep s))
/-- STEP_DONE (R576): A stepped instruction or trap entry completes and the engine halts with CAUSE 6. -/
def execStepDone (s : State) : Answer := .next (whileClocked s (stepDone s))
/-- COMPARATOR_MATCH (R578): A comparator match sets HIT, emits a trace packet and halts or enters monitor mode. -/
def execComparatorMatch (k acc addr lvl : Nat) (trapped : Bool) (s : State) : Answer := .next (whileClocked s (comparatorMatch k acc addr lvl trapped s))
/-- TDU_CCR_WRITE (R575): A write of TDU_CCRr in Halt sets a command core register. -/
def execTduCcrWrite (r : Nat) (v : W32) (s : State) : Answer := .next (whileClocked s (if r < 52 then ccrWrite r 0x0F (v.setWidth 64) s else s))
/-- TDU_STIM_WRITE (R583): A write of TDU_STIMk emits a stimulus trace packet. -/
def execTduStimWrite (k : Nat) (v : W32) (s : State) : Answer := .next (whileClocked s (if k < 32 then tduStimWrite k 0x0F (v.setWidth 64) s else s))
/-- TDU_ECHO_WRITE (R564): A write of TDU_ECHO stores the complement of each enabled byte. -/
def execTduEchoWrite (be : BitVec 8) (v : W64) (s : State) : Answer := .next (if s.cclkOn then tduEchoWrite be.toNat v s else s)
/-- TAP_RESET (R568): TRST_N or five TCK with TMS high resets the TAP to BYPASS. -/
def execTapReset (s : State) : Answer := .next (whilePowered s (s.tap Tap.bypass))
/-- EXTEST (R570): EXTEST enters Halt and gives the boundary cells control of the bumps. -/
def execExtest (s : State) : Answer := .next (whilePowered s (tapScan Tap.extest s))
/-- SAMPLE_PRELOAD (R569): SAMPLE/PRELOAD selects the boundary register. -/
def execSamplePreload (cells : BitVec 290) (s : State) : Answer := .next (whilePowered s (tapPreload cells s))
/-- CLAMP (R570): CLAMP enters Halt and drives the bumps from the boundary cells with bypass selected. -/
def execClamp (s : State) : Answer := .next (whilePowered s (tapScan Tap.clamp s))
/-- HIGHZ (R570): HIGHZ enters Halt and places the covered bumps in high impedance. -/
def execHighz (s : State) : Answer := .next (whilePowered s (tapScan Tap.highz s))
/-- DBGRST (R569): DBGRST issues the debug reset at Run-Test/Idle. -/
def execDbgrst (s : State) : Answer := .next (whilePowered s (tapReset s))
/-- BYPASS (R569): BYPASS selects the bypass register. -/
def execBypass (s : State) : Answer := .next (whilePowered s (s.tap Tap.bypass))

end Sys2Proof.Machine
end

