-- ==== Sys2Proof/Machine/RegOps.lean ====
section
/-!
DEFINITION. Reading and writing the register window below HB (R18 to R22, R63 to R66): which registers have effects, and which fields
show a level that is kept elsewhere.
-/

namespace Sys2Proof.Machine

/-! ### Writes -/

/-- A record whose OVF is cleared with VALID: HPT_ERR, MPTn_ERR, HB_COLL, SCRUB_ERR (R66, R115, R129, R131). -/
def recordWrite (w : Writer) (off be : Nat) (data : W64) (s : State) : State :=
  let s1 := s.plainWrite w off be data
  if getBits (s.reg off) 63 1 = 1 && getBits (s1.reg off) 63 1 = 0 then s1.setReg off (setBits (s1.reg off) 62 1 0) else s1

/-- A write of DIC_SRCs (R548, R549, R557).
[DEDUCED, unsafe, log 19] -/
def dicSrcWrite (w : Writer) (src be : Nat) (data : W64) (s : State) : State :=
  let off := (F.DIC_SRC_EN src).off
  let v := s.written w off be data
  let v1 := if 32 ≤ src then setBits v 62 1 0 else v
  let v2 := if s.flag (F.DIC_SRC_MC src) && s.flag (F.DIC_SRC_EN src) then setBits v1 63 1 1 else v1
  let s1 := s.setReg off v2
  if bitOf be 0 && data.getLsbD 4 then dicClear src s1 else s1

/-- A write of DIC_TGTCFGt (R550, R555). -/
def dicTgtWrite (w : Writer) (t be : Nat) (data : W64) (s : State) : State :=
  if bitOf be 7 && !data.getLsbD 63 && (t != 8 || w == .core 2) then dicDisable t s
  else s.plainWrite w (F.DIC_TGTCFG_EN t).off be data

/-- A write in the DIC block. -/
def dicRegWrite (w : Writer) (off be : Nat) (data : W64) (s : State) : State :=
  let en := data &&& beMask be
  if off = F.DIC_DOORBELL_SRC.off then
    (if bitOf be 0 then dicDoorbell w (getBits en 0 12) (getBits en 16 4) s else s)
  else if 0x020200 ≤ off ∧ off ≤ 0x020240 then
    (if bitOf be 0 then dicCompleteWrite w ((off - 0x020200) / 8) (getBits en 0 12) s else s)
  else if 0x020300 ≤ off ∧ off ≤ 0x020340 then dicTgtWrite w ((off - 0x020300) / 8) be data s
  else if 0x028000 ≤ off then dicSrcWrite w ((off - 0x028000) / 8) be data s
  else s.plainWrite w off be data

/-- A write in the block of the command rings (R222 to R225). -/
def cmdRegWrite (w : Writer) (off be : Nat) (data : W64) (s : State) : State :=
  if off < 0x030200 then
    let k := (off - 0x030000) / 0x40
    let v := s.written w off be data
    match (off - 0x030000) % 0x40 with
    | 0x00 => cmdCfgWrite w k be data s
    | 0x08 | 0x18 => cmdBaseWrite w k off be data s
    | 0x10 => if bitOf be 0 then sqTailSet k (getBits v 0 20) s else s
    | 0x20 => if bitOf be 0 then cqHeadSet k (getBits v 0 20) s else s
    | _ => s
  else s.plainWrite w off be data

/-- A write in the block of the memory ports and the scrubber. -/
def mptRegWrite (w : Writer) (off be : Nat) (data : W64) (s : State) : State :=
  if off < 0x042000 then
    let n := (off - 0x040000) / 0x1000
    let r := off % 0x1000
    if r = 0 then answerQueued n (mptCfgWrite w n be data s)
    else if r = 0x10 then recordWrite w off be data s
    else if 0x100 ≤ r ∧ r < 0x140 then cwinWrite w n ((r - 0x100) / 8) be data s
    else s.plainWrite w off be data
  else if off = F.HB_COLL_OVF.off || off = F.SCRUB_ERR_OVF.off then recordWrite w off be data s
  else if off = F.SCRUB_INJ_TARGET.off then scrubInjWrite w be data s
  else if 0x048100 ≤ off ∧ off < 0x048300 then scrubOwnRegWrite w ((off - 0x048100) / 8) be data s
  else s.plainWrite w off be data

/-- The sequencer whose register block an offset lies in (R176). -/
def seqOfOff (off : Nat) : Nat :=
  if off < 0x081000 then 0 else if off < 0x082000 then 1 + (off - 0x081000) / 0x100 else 17 + (off - 0x082000) / 0x100

/-- A write in the blocks of the sequencers and the command core. The W1C bits of CC_STAT are open to every writer (R186). -/
def seqRegWrite (w : Writer) (off be : Nat) (data : W64) (s : State) : State :=
  if off = F.CC_STAT_DBL.off then s.plainWrite (.core 2) off be data
  else if 0x083000 ≤ off ∧ off < 0x083040 then synWrite w ((off - 0x083000) / 8) be data s
  else if (off = 0x080008 ∨ 0x081000 ≤ off) ∧ off < 0x082200 ∧ off % 0x100 = 8 then sqCtlWrite w (seqOfOff off) be data s
  else s.plainWrite w off be data

/-- A write in the block of the slice engines, feeds and playout.
[DEDUCED, unsafe, log 19] -/
def seRegWrite (w : Writer) (off be : Nat) (data : W64) (s : State) : State :=
  if off < 0x110000 ∧ off % 0x1000 = 0 then (if s.build = .d then s else s.plainWrite w off be data)
  else if 0x110400 ≤ off ∧ off < 0x110600 ∧ s.build = .d then
    -- PORT = 1 names MPT1, which AVLIN-D lacks (R336)
    s.setReg off (setBits (s.written w off be data) 63 1 (getBits (s.reg off) 63 1))
  else if 0x120000 ≤ off ∧ off < 0x120400 then
    let f := (off - 0x120000) / 0x40
    match off % 0x40 with
    | 0x00 => feedCfgWrite w f be data s
    | 0x08 | 0x10 | 0x18 | 0x20 => feedSetupWrite w f off be data s
    | 0x30 => if bitOf be 0 then feedPost f (getBits data 0 3) s else s
    | _ => s.plainWrite w off be data
  else if off = F.PLY_CAT_EN.off then plyCatWrite w be data s
  else s.plainWrite w off be data

/-- A write in the block of the light path. -/
def lpRegWrite (w : Writer) (off be : Nat) (data : W64) (s : State) : State :=
  if off = F.LP_CFG_SEGLOG.off then lpCfgWrite w be data s
  else if off = F.LP_CALBASE_BASE.off then lpCalBaseWrite w be data s
  else if off = F.LP_PAT_SX.off then lpPatWrite w be data s
  else if off = F.LP_FLT_VALID.off then lpFltWrite w be data s
  else if off = F.GCLK_CTL_EN.off then gclkCtlWrite w be data s
  else if 0x201000 ≤ off ∧ off < 0x202000 ∧ off % 0x40 = 0 then geomWrite w ((off - 0x201000) / 0x40) be data s
  else s.plainWrite w off be data

/-- A write in the block of the pulse units and trips. -/
def puRegWrite (w : Writer) (off be : Nat) (data : W64) (s : State) : State :=
  if off < 0x281000 then
    let n := (off - 0x280000) / 0x40
    match off % 0x40 with
    | 0x00 => puCfgWrite w n be data s
    | 0x08 => puPerWrite w n be data s
    | 0x10 => puDutyWrite w n be data s
    | 0x18 => puForceWrite w n be data s
    | 0x20 => puStatWrite w n be data s
    | _ => s
  else if off = F.PU_SYNC_MASK.off then puSync (data &&& beMask be).toNat s
  else if 0x2A0000 ≤ off ∧ off < 0x2A0200 then tripSetWrite w off be data s
  else if off = F.TRIP_LATCH_LATCH.off then tripLatchWrite w be data s
  else if off = F.TRIP_SW_SET.off then (if bitOf be 0 && data.getLsbD 0 then tripSwSet s else s)
  else s.plainWrite w off be data

/-- A write in the block of the timers. -/
def tmrRegWrite (w : Writer) (off be : Nat) (data : W64) (s : State) : State :=
  let mask := getBits (data &&& beMask be) 0 32
  if off < 0x2C1000 then
    let n := (off - 0x2C0000) / 0x80
    let commit := fun (p : TmrPair) (width : Nat) =>
      if bitOf be 0 then tmrCommit p n (getBits (s.written w off be data) 0 width) s else s
    match off % 0x80 with
    | 0x00 => tmrCfgWrite w n be data s
    | 0x08 => tmrDivWrite w n be data s
    | 0x18 => commit .top 16
    | 0x28 => commit .cmp 16
    | 0x38 => commit .phase 17
    | _ => s.plainWrite w off be data
  else if off = F.TMR_SYNC_MASK.off then tmrSync mask s
  else if off = F.TMR_SWCAP_MASK.off then tmrSwcap mask s
  else s.plainWrite w off be data

/-- A write in the block of the budget arbiter: EMERG is cleared under R476. -/
def baRegWrite (w : Writer) (off be : Nat) (data : W64) (s : State) : State :=
  if off = F.BA_SNS_EN.off then snsWrite w be data s
  else if off = F.BA_STAT_EMERG.off then
    let s1 := (s.plainWrite w off be data).setFld F.BA_STAT_EMERG (s.fld F.BA_STAT_EMERG)
    if getBits (data &&& beMask be) F.BA_STAT_EMERG.lo 1 = 1 then emergClear s1 else s1
  else s.plainWrite w off be data

/-- A write in the block of the test and debug unit. -/
def tduRegWrite (w : Writer) (jtag : Bool) (off be : Nat) (data : W64) (s : State) : State :=
  if off = F.TDU_CTL_HALT.off then tduCtlWrite w jtag be data s
  else if off = F.TDU_ECHO_ECHO.off then tduEchoWrite be data s
  else if 0x500200 ≤ off ∧ off < 0x500300 then tduStimWrite ((off - 0x500200) / 8) be data s
  else if 0x500400 ≤ off ∧ off < 0x5005A0 then ccrWrite ((off - 0x500400) / 8) be data s
  else s.plainWrite w off be data

/-- A write of the slot at a window offset below HB with a pattern of byte enables. `jtag` marks an access of the debug port.
[DEDUCED, unsafe, log 18] -/
def regWrite (w : Writer) (jtag : Bool) (off be : Nat) (data : W64) (s : State) : State :=
  if be % 256 = 0 || absentReg s.build off then s
  else if off < 0x010000 then recordWrite w off be data s
  else if off = F.AO_CLKCFG_LOCK.off then clkcfgWrite w be data s
  else if off = F.AO_WDOG_LOCK.off then wdogWrite w be data s
  else if off < 0x020000 then s.plainWrite w off be data
  else if off < 0x030000 then dicRegWrite w off be data s
  else if off < 0x040000 then cmdRegWrite w off be data s
  else if off < 0x080000 then mptRegWrite w off be data s
  else if off < 0x100000 then seqRegWrite w off be data s
  else if off < 0x200000 then seRegWrite w off be data s
  else if off < 0x280000 then lpRegWrite w off be data s
  else if off < 0x2C0000 then puRegWrite w off be data s
  else if off < 0x300000 then tmrRegWrite w off be data s
  else if off < 0x400000 then baRegWrite w off be data s
  else if off < 0x500000 then s.plainWrite w off be data
  else tduRegWrite w jtag off be data s

/-! ### Reads -/

/-- A field of a word takes a value. -/
def withFld (v : W64) (f : FRef) (x : Nat) : W64 := setBits v f.lo f.w x

/-- The word that SEQ_UWD0 to SEQ_UWD2 show (R182). -/
def State.uwWord (s : State) : Nat :=
  let q := s.fld F.SEQ_UWSEL_SEQ
  let a := s.fld F.SEQ_UWSEL_ADDR
  let st := s.seqState q
  let still := s.mode == Mode.halt || st == SeqState.mchk || (q != 0 && (st == SeqState.stopped || st == SeqState.retired))
  if seqPresent s.build q && decide (a < storeWords (seqKind q)) && still then (s.ucWord q a).toNat else 0

/-- The word of a register without a side effect: what the register file holds, and the levels that are kept elsewhere.
[DEDUCED, unsafe, log 18]
[DEDUCED, unsafe, log 19] -/
def State.regView (s : State) (off : Nat) : W64 :=
  let v := s.reg off
  if absentReg s.build off then 0
  else if off < 0x020000 then
    (if off = F.ENG_BUMPST_PWRGOOD.off then
      withFld (withFld (withFld (withFld v F.ENG_BUMPST_TRIP_LVL s.trip.pins) F.ENG_BUMPST_WAKE_LVL s.ao.wakeLvl)
        F.ENG_BUMPST_SNS_ALERT (b2n s.ao.snsAlert)) F.ENG_BUMPST_PWRGOOD (b2n s.ao.pwrgood)
    else v)
  else if off < 0x030000 then
    (if 0x028000 ≤ off then withFld v (F.DIC_SRC_PEND 0) (b2n (s.pend ((off - 0x028000) / 8)))
    else if 0x020300 ≤ off ∧ off ≤ 0x020340 then
      let t := (off - 0x020300) / 8
      withFld (withFld v (F.DIC_TGTCFG_FFULL t) (b2n (slotMsg s.dic.fast t).isSome)) (F.DIC_TGTCFG_NFULL t) (b2n (slotMsg s.dic.normal t).isSome)
    else v)
  else if off < 0x040000 then
    (if off < 0x030200 ∧ off % 0x40 = 0 then withFld v (F.CMD_CFG_INFLIGHT 0) (s.inflight ((off - 0x030000) / 0x40)) else v)
  else if off < 0x080000 then
    (if off < 0x042000 ∧ off % 0x1000 = 8 then
      let n := (off - 0x040000) / 0x1000
      withFld (withFld v (F.MPT_STAT_OUTSTANDING n) (s.port n).out.length) (F.MPT_STAT_OVERDUE n) (s.overdue n)
    else v)
  else if off < 0x100000 then
    (if off = F.SEQ_UWD0_F_LO.off then BitVec.ofNat 64 s.uwWord
    else if off = F.SEQ_UWD1_F_MID.off then BitVec.ofNat 64 (s.uwWord / 2 ^ 64)
    else if off = F.SEQ_UWD2_F_HI.off then BitVec.ofNat 64 (s.uwWord / 2 ^ 128)
    else if off = F.CC_STAT_DBL.off then withFld v F.CC_STAT_STATV s.cc.statv.toNat
    else v)
  else if off < 0x200000 then
    (if off < 0x110000 ∧ off % 0x1000 = 8 then
      let n := (off - 0x100000) / 0x1000
      withFld (withFld v (F.SEN_STAT_RETIRED n) (b2n (s.seqState (n + 1) == SeqState.retired))) (F.SEN_STAT_BUSY n)
        (((List.range 12).filter fun k => (s.stage (n + 1) k).busy).foldl setBit 0)
    else v)
  else if off < 0x280000 then v
  else if off < 0x2C0000 then
    (if off < 0x281000 then
      let n := (off - 0x280000) / 0x40
      if off % 0x40 = 0x08 then withFld v (F.PU_PER_PERACT n) (min 0xFFFF (s.pu n).per)
      else if off % 0x40 = 0x20 then
        withFld (withFld (withFld v (F.PU_STAT_CNT n) (min 0xFFFF (s.pu n).cnt)) (F.PU_STAT_DIR n) (b2n (!(s.pu n).up)))
          (F.PU_STAT_OFF n) (b2n (s.puOff n))
      else v
    else v)
  else if off < 0x300000 then
    (if off < 0x2C1000 then
      let n := (off - 0x2C0000) / 0x80
      let t := s.tmr n
      if off % 0x80 = 0x40 then withFld v (F.TMR_CNTL_CNT_LO n) t.cnt
      else if off % 0x80 = 0x48 then withFld (withFld v (F.TMR_CNTH_CNT_HI n) (t.cnt / 2 ^ 32)) (F.TMR_CNTH_DIR n) (b2n (!t.up))
      else v
    else v)
  else if off < 0x400000 then (if off = F.BA_SOLV_ACTIVE.off then withFld v F.BA_SOLV_ACTIVE (b2n s.solves) else v)
  else if off < 0x500000 then
    (if 0x410000 ≤ off ∧ off < 0x412000 then withFld v (F.RING_POL_OPEN 0) (b2n (s.openTenant ((off - 0x410000) / 8)).isSome) else v)
  else if off = F.TDU_STAT_HIT.off then
    withFld v F.TDU_STAT_HIT (((List.range 8).filter fun k => s.flag (F.TDU_CMP_HIT k)).foldl setBit 0)
  else if off = F.TDU_TRST_FREE.off then withFld v F.TDU_TRST_FREE s.traceFree
  else if 0x500400 ≤ off ∧ off < 0x5005A0 then BitVec.ofNat 64 (s.ccrRead ((off - 0x500400) / 8))
  else if 0x508000 ≤ off ∧ off < 0x50C000 then
    BitVec.ofNat 64 (leNat ((List.range 8).map fun k => SMap.get (fun _ => (0 : Byte)) s.tdu.buf (off - 0x508000 + k)))
  else v

/-- A read of the slot at a window offset below HB: DIC_CLAIMt and TMRn_CAPL take what they show, TSU_TIME is the time now, SEn_STAT
counts the cells of a row in REC, CSQ_STAT shows a ROM address that is open while base instructions run (R177).
[DESIGN CHOICE, safe, log 2]
[DEDUCED, unsafe, log 18]
[DEDUCED, unsafe, log 27] -/
def regRead (w : Writer) (off be : Nat) (s : State) : State × W64 :=
  if be % 256 = 0 then (s, s.regView off)
  else if 0x020100 ≤ off ∧ off ≤ 0x020140 then dicClaimRead w ((off - 0x020100) / 8) s
  else if 0x2C0000 ≤ off ∧ off < 0x2C1000 ∧ off % 0x80 = 0x50 then
    (if be % 16 = 0 then (s, s.regView off) else tmrCaplRead ((off - 0x2C0000) / 0x80) s)
  else if off = F.TSU_TIME_TIME.off then
    let (t, s1) := timeRead s; (s1, BitVec.ofNat 64 t)
  else if 0x100000 ≤ off ∧ off < 0x110000 ∧ off % 0x1000 = 8 ∧ !absentReg s.build off then
    let n := (off - 0x100000) / 0x1000
    if (s.stage (n + 1) 7).busy then (s.drew, withFld (s.regView off) (F.SEN_STAT_CELL n) (s.free 5)) else (s, s.regView off)
  else if off = (F.SQ_STAT_UPC 0).off ∧ s.cc.cx.isNone ∧ s.seqState 0 = SeqState.running then
    (s.drew, withFld (s.regView off) (F.SQ_STAT_UPC 0) (s.free 13))
  else (s, s.regView off)

end Sys2Proof.Machine
end

