-- ==== Sys2Proof/Machine/CcInstr.lean ====
section
/-!
DEFINITION. What every instruction of the command core shares (R185 to R191, R199, R200, R576): the fetch, the encoded words that
traps report, the end of an instruction, traps.
-/

namespace Sys2Proof.Machine

/-! ### Encodings (R188, R189) -/

/-- A 16-bit instruction as TVAL holds it. -/
def enc16 (op lo10 : Nat) : W32 := BitVec.ofNat 32 (op * 1024 + lo10)
def encA16 (op rd rs : Nat) : W32 := enc16 op (rd * 32 + rs)

/-- A 32-bit instruction of format A32. -/
def encA32 (op rd ra rb fn : Nat) : W32 :=
  BitVec.ofNat 32 (3 * 2 ^ 30 + op * 2 ^ 24 + rd * 2 ^ 19 + ra * 2 ^ 14 + rb * 2 ^ 9 + fn)
def encK32 (op rd ra imm : Nat) : W32 := BitVec.ofNat 32 (3 * 2 ^ 30 + op * 2 ^ 24 + rd * 2 ^ 19 + ra * 2 ^ 14 + imm)
def encC32 (op cond off : Nat) : W32 := BitVec.ofNat 32 (3 * 2 ^ 30 + op * 2 ^ 24 + cond * 2 ^ 19 + off)
def encX32 (cx rd ra rb x3 : Nat) : W32 :=
  BitVec.ofNat 32 (3 * 2 ^ 30 + 0x3E * 2 ^ 24 + cx * 2 ^ 18 + rd * 2 ^ 13 + ra * 2 ^ 8 + rb * 2 ^ 3 + x3)

/-- Is a halfword that does not start with 0b11 an instruction (R190)?
[DEDUCED, unsafe, log 30] -/
def legal16 (h : Nat) : Bool :=
  let op := h / 1024
  let rd := h / 32 % 32
  let rs := h % 32
  if op = 0x0D ∨ op = 0x25 then rd == 0
  else if op = 0x20 then decide (rs ≤ 1)
  else if 0x26 ≤ op ∧ op ≤ 0x2A then rd == 0 && rs == 0
  else decide (1 ≤ op) && decide (op ≤ 0x25) && op != 0x0E && op != 0x0F && op != 0x17

/-- Is a 32-bit word that starts with 0b11 an instruction (R191 to R193)?
[DEDUCED, unsafe, log 30] -/
def legal32 (i : Nat) : Bool :=
  let op := i / 2 ^ 24 % 64
  let rd := i / 2 ^ 19 % 32
  let ra := i / 2 ^ 14 % 32
  let rb := i / 2 ^ 9 % 32
  let fn := i % 512
  if op = 0x00 then decide (fn < 16) && (fn != 13 || rb == 0)
  else if op = 0x0D ∨ op = 0x0E then rd % 2 == 0 && rd != 0
  else if op = 0x13 then decide (rd < 15)
  else if op = 0x14 then ra == 0 && rb == 0 && fn == 0
  else if op = 0x15 ∨ op = 0x17 then rd == 0 && rb == 0 && fn == 0
  else if op = 0x16 then rd == 0 && ra == 0 && rb == 0
  else decide (op ≤ 0x12) || op == 0x3E

/-! ### Address space (R185, R186, R220) -/

/-- Do the task windows grant a right (32 R, 33 W, 34 X) at an address?
[DEDUCED, unsafe, log 30] -/
def State.taskRight (s : State) (right a : Nat) : Bool :=
  (List.range 4).any fun k =>
    let v := s.reg (F.CC_TWIN_BASE k).off
    v.getLsbD right && decide (getBits v 12 20 ≤ a / 4096) && decide (a / 4096 ≤ getBits v 44 20)

/-- May the halfword at an address be executed?
[DESIGN CHOICE, unsafe, log 29] -/
def State.executable (s : State) (a : Nat) : Bool :=
  ((decide (0x600000 ≤ a) && decide (a < 0x640000)) || (decide (0x1000000 ≤ a) && decide (a < 0x1010000)))
    && (s.cc.pl != 0 || s.taskRight 34 a)

/-- The halfwords of an instruction of `len` bytes at PC.
[DESIGN CHOICE, unsafe, log 29] -/
def State.halfwords (s : State) (len : Nat) : List Nat :=
  (List.range (len / 2)).map fun k => (s.cc.pc + BitVec.ofNat 32 (2 * k)).toNat

/-- An instruction of `len` bytes at PC: what its fetch does (R197, R199, R200), then its operation. While the core waits, only the
instruction that waits goes on.
[DESIGN CHOICE, unsafe, log 29]
[DEDUCED, unsafe, log 30] -/
def ccStart (len : Nat) (wt : Option CcWait) (s : State) (op : State → State) : State :=
  if !s.coreRuns || s.cc.cx.isSome || (s.cc.wait.isSome && s.cc.wait != wt) then s
  else
    let s0 := { s with cc := { s.cc with wait := none, portA := none } }
    match (s0.halfwords len).find? fun a => !s0.executable a with
    | some a => ccFault 5 1 (BitVec.ofNat 32 a) s0
    | none =>
      let s1 := noteCode s0.cc.pc.toNat len s0
      match (s0.halfwords len).find? fun a => anyPen (s0.codeBytes a 2) with
      | some a => ccFault 2 1 (BitVec.ofNat 32 a) s1
      | none => op s1

/-- A privileged instruction (R186). -/
def ccPriv (word : W32) (op : State → State) (s : State) : State :=
  if s.cc.pl = 0 then ccFault 4 0 word s else op s

/-- An encoding that the tables do not hold (R188, R190, R191). -/
def ccIllegal (word : W32) (s : State) : State := ccFault 3 0 word s

def illegalInstruction (long : Bool) (w : W32) (s : State) : State :=
  if long then (if w.toNat / 2 ^ 30 = 3 ∧ !legal32 w.toNat then ccStart 4 none s (ccIllegal w) else s)
  else if w.toNat < 0xC000 ∧ !legal16 w.toNat then ccStart 2 none s (ccIllegal w) else s

/-- ILLEGAL_INSTRUCTION (R188): An undefined or reserved encoding takes the illegal-instruction trap. -/
def execIllegalInstruction (long : Bool) (w : W32) (s : State) : Answer := .next (illegalInstruction long w s)

end Sys2Proof.Machine
end

