-- ==== Sys2Proof/Machine/CcAlu.lean ====
section
/-!
DEFINITION. The arithmetic, logical, shift and compare instructions, the multiplier and divider, STAT (R190 to R196).
-/

namespace Sys2Proof.Machine

/-- rd takes the result of an operation on two registers, with its flags. -/
def aluRegs (len : Nat) (f : AluFlags → W32 → W32 → AluOut) (rd ra rb : BitVec 5) (s : State) : State :=
  ccStart len none s fun t =>
    let o := f t.cc.aluFlags (t.g ra.toNat) (t.g rb.toNat)
    ccNext len ({ t with cc := t.cc.setFlags o.f }.setG rd.toNat o.r)

/-- The two forms of R190 and R192. -/
def aluForm (f : AluFlags → W32 → W32 → AluOut) (x : AluForm) (s : State) : State :=
  match x with
  | .short rd rs => aluRegs 2 f rd rd rs s
  | .long rd ra rb => aluRegs 4 f rd ra rb s

/-- rd takes the result of an operation on a register and an immediate. -/
def aluImm (len : Nat) (f : AluFlags → W32 → W32 → AluOut) (rd ra : BitVec 5) (imm : W32) (s : State) : State :=
  ccStart len none s fun t =>
    let o := f t.cc.aluFlags (t.g ra.toNat) imm
    ccNext len ({ t with cc := t.cc.setFlags o.f }.setG rd.toNat o.r)

/-- The flags alone. -/
def aluFlagsOnly (o : State → AluFlags) (s : State) : State :=
  ccStart 2 none s fun t => ccNext 2 { t with cc := t.cc.setFlags (o t) }

/-- SLT and SLTU: 1 or 0, with the flags of ra - rb. -/
def aluSlt (unsigned : Bool) (a b : W32) : AluOut :=
  let o := aluSub a b false
  ⟨BitVec.ofNat 32 (b2n (if unsigned then o.f.c else o.f.n != o.f.v)), o.f⟩

def fAdd : AluFlags → W32 → W32 → AluOut := fun _ a b => aluAdd a b false
def fAdc : AluFlags → W32 → W32 → AluOut := fun f a b => aluAdd a b f.c
def fSub : AluFlags → W32 → W32 → AluOut := fun _ a b => aluSub a b false
def fSbc : AluFlags → W32 → W32 → AluOut := fun f a b => aluSub a b f.c
def fAnd : AluFlags → W32 → W32 → AluOut := fun _ a b => aluLogic (a &&& b)
def fOr : AluFlags → W32 → W32 → AluOut := fun _ a b => aluLogic (a ||| b)
def fXor : AluFlags → W32 → W32 → AluOut := fun _ a b => aluLogic (a ^^^ b)
def fShl : AluFlags → W32 → W32 → AluOut := fun _ a b => aluShl a (b.toNat % 32)
def fShr : AluFlags → W32 → W32 → AluOut := fun _ a b => aluShr a (b.toNat % 32)
def fSar : AluFlags → W32 → W32 → AluOut := fun _ a b => aluSar a (b.toNat % 32)
def fRol : AluFlags → W32 → W32 → AluOut := fun _ a b => aluRol a (b.toNat % 32)
def fMin : AluFlags → W32 → W32 → AluOut := fun _ a b => aluLogic (minS a b)
def fMax : AluFlags → W32 → W32 → AluOut := fun _ a b => aluLogic (maxS a b)
def fClz : AluFlags → W32 → W32 → AluOut := fun _ a _ => aluLogic (BitVec.ofNat 32 (clz a))
def fSlt : AluFlags → W32 → W32 → AluOut := fun _ a b => aluSlt false a b
def fSltu : AluFlags → W32 → W32 → AluOut := fun _ a b => aluSlt true a b

/-- rd takes a value; the flags stay. -/
def moveTo (len : Nat) (rd : BitVec 5) (v : State → W32) (s : State) : State :=
  ccStart len none s fun t => ccNext len (t.setG rd.toNat (v t))

/-- MOV (R190): MOV copies one register to another. -/
def execMov (rd rs : BitVec 5) (s : State) : Answer := .next (moveTo 2 rd (fun (t : State) => t.g rs.toNat) s)
/-- ADD (R192): ADD adds two registers and sets the flags. -/
def execAdd (f : AluForm) (s : State) : Answer := .next (aluForm fAdd f s)
/-- ADC (R192): ADC adds two registers with carry. -/
def execAdc (rd ra rb : BitVec 5) (s : State) : Answer := .next (aluRegs 4 fAdc rd ra rb s)
/-- SUB (R192): SUB subtracts two registers and sets the flags. -/
def execSub (f : AluForm) (s : State) : Answer := .next (aluForm fSub f s)
/-- SBC (R192): SBC subtracts with borrow. -/
def execSbc (rd ra rb : BitVec 5) (s : State) : Answer := .next (aluRegs 4 fSbc rd ra rb s)
/-- AND (R192): AND forms the bitwise AND. -/
def execAnd (f : AluForm) (s : State) : Answer := .next (aluForm fAnd f s)
/-- OR (R192): OR forms the bitwise OR. -/
def execOr (f : AluForm) (s : State) : Answer := .next (aluForm fOr f s)
/-- XOR (R192): XOR forms the bitwise exclusive OR. -/
def execXor (f : AluForm) (s : State) : Answer := .next (aluForm fXor f s)
/-- SHL (R192): SHL shifts left by a register amount. -/
def execShl (f : AluForm) (s : State) : Answer := .next (aluForm fShl f s)
/-- SHR (R192): SHR shifts right logically by a register amount. -/
def execShr (f : AluForm) (s : State) : Answer := .next (aluForm fShr f s)
/-- SAR (R192): SAR shifts right arithmetically by a register amount. -/
def execSar (f : AluForm) (s : State) : Answer := .next (aluForm fSar f s)
/-- ROL (R192): ROL rotates left by a register amount. -/
def execRol (rd ra rb : BitVec 5) (s : State) : Answer := .next (aluRegs 4 fRol rd ra rb s)
/-- MIN (R192): MIN returns the signed minimum. -/
def execMin (rd ra rb : BitVec 5) (s : State) : Answer := .next (aluRegs 4 fMin rd ra rb s)
/-- MAX (R192): MAX returns the signed maximum. -/
def execMax (rd ra rb : BitVec 5) (s : State) : Answer := .next (aluRegs 4 fMax rd ra rb s)

/-- CLZ: RB must be 0. -/
def execClz (rd ra rb : BitVec 5) (s : State) : Answer :=
  .next (if rb = 0 then aluRegs 4 fClz rd ra rb s
    else ccStart 4 none s (ccIllegal (encA32 0 rd.toNat ra.toNat rb.toNat 13)))

/-- SLT (R192): SLT sets 1 if ra is less than rb signed. -/
def execSlt (rd ra rb : BitVec 5) (s : State) : Answer := .next (aluRegs 4 fSlt rd ra rb s)
/-- SLTU (R192): SLTU sets 1 if ra is less than rb unsigned. -/
def execSltu (rd ra rb : BitVec 5) (s : State) : Answer := .next (aluRegs 4 fSltu rd ra rb s)
/-- CMP (R190): CMP sets the flags of a subtraction. -/
def execCmp (rd rs : BitVec 5) (s : State) : Answer :=
  .next (aluFlagsOnly (fun (t : State) => (aluSub (t.g rd.toNat) (t.g rs.toNat) false).f) s)
/-- MOVI (R190): MOVI loads a 5-bit immediate. -/
def execMovi (rd imm : BitVec 5) (s : State) : Answer := .next (moveTo 2 rd (fun (_ : State) => imm.signExtend 32) s)
/-- ADDI (R191): ADDI adds a signed immediate. -/
def execAddi (f : ImmForm) (s : State) : Answer :=
  .next (match f with
    | .short rd imm => aluImm 2 fAdd rd rd (imm.signExtend 32) s
    | .long rd ra imm => aluImm 4 fAdd rd ra (imm.signExtend 32) s)
/-- ANDI (R191): ANDI ANDs with a zero-extended immediate. -/
def execAndi (rd ra : BitVec 5) (imm : BitVec 14) (s : State) : Answer := .next (aluImm 4 fAnd rd ra (imm.setWidth 32) s)
/-- ORI (R191): ORI ORs with a zero-extended immediate. -/
def execOri (rd ra : BitVec 5) (imm : BitVec 14) (s : State) : Answer := .next (aluImm 4 fOr rd ra (imm.setWidth 32) s)
/-- XORI (R191): XORI XORs with a zero-extended immediate. -/
def execXori (rd ra : BitVec 5) (imm : BitVec 14) (s : State) : Answer := .next (aluImm 4 fXor rd ra (imm.setWidth 32) s)
/-- SHLI (R190): SHLI shifts left by an immediate. -/
def execShli (rd imm : BitVec 5) (s : State) : Answer := .next (aluImm 2 fShl rd rd (imm.setWidth 32) s)
/-- SHRI (R190): SHRI shifts right logically by an immediate. -/
def execShri (rd imm : BitVec 5) (s : State) : Answer := .next (aluImm 2 fShr rd rd (imm.setWidth 32) s)
/-- SARI (R190): SARI shifts right arithmetically by an immediate. -/
def execSari (rd imm : BitVec 5) (s : State) : Answer := .next (aluImm 2 fSar rd rd (imm.setWidth 32) s)
/-- CMPI (R190): CMPI sets the flags of rd minus an immediate. -/
def execCmpi (rd imm : BitVec 5) (s : State) : Answer :=
  .next (aluFlagsOnly (fun (t : State) => (aluSub (t.g rd.toNat) (imm.signExtend 32) false).f) s)

/-- TSTB: Z alone. -/
def execTstb (rd imm : BitVec 5) (s : State) : Answer :=
  .next (ccStart 2 none s fun (t : State) => ccNext 2 { t with cc := t.cc.setStatBit 8 (!(t.g rd.toNat).getLsbD imm.toNat) })

/-- LUI (R191): LUI loads an upper immediate. -/
def execLui (rd : BitVec 5) (imm : BitVec 19) (s : State) : Answer :=
  .next (moveTo 4 rd (fun (_ : State) => BitVec.ofNat 32 (imm.toNat * 8192)) s)

/-! ### Multiplier and divider (R194, R195) -/

/-- MFQ: RS from 2 to 31 is illegal. -/
def execMfq (rd rs : BitVec 5) (s : State) : Answer :=
  .next (if rs.toNat ≤ 1 then moveTo 2 rd (fun (t : State) => if rs = 0 then t.cc.mql else t.cc.mqh) s
    else ccStart 2 none s (ccIllegal (encA16 0x20 rd.toNat rs.toNat)))

def startMulOp (signed : Bool) (rd rs : BitVec 5) (s : State) : State :=
  ccStart 2 none s fun t => ccNext 2 { t with cc := t.cc.startMul (mulFlight (t.g rd.toNat) (t.g rs.toNat) signed) }
def startDivOp (signed : Bool) (rd rs : BitVec 5) (s : State) : State :=
  ccStart 2 none s fun t => ccNext 2 { t with cc := t.cc.startDiv (divFlight (t.g rd.toNat) (t.g rs.toNat) signed) }

/-- MUL (R194): MUL starts a signed multiply into MQH:MQL. -/
def execMul (rd rs : BitVec 5) (s : State) : Answer := .next (startMulOp true rd rs s)
/-- MULU (R194): MULU starts an unsigned multiply into MQH:MQL. -/
def execMulu (rd rs : BitVec 5) (s : State) : Answer := .next (startMulOp false rd rs s)
/-- DIV (R195): DIV starts a signed divide and clears DV. -/
def execDiv (rd rs : BitVec 5) (s : State) : Answer := .next (startDivOp true rd rs s)
/-- DIVU (R195): DIVU starts an unsigned divide and clears DV. -/
def execDivu (rd rs : BitVec 5) (s : State) : Answer := .next (startDivOp false rd rs s)

/-- Is a flight a divide? -/
def CcFlight.isDiv : CcFlight → Bool
  | .div _ _ _ => true
  | .mul _ _ => false

/-- The oldest multiply, or the divide, in flight lands; the multiplier and divider stand still in Halt but for a STEP. -/
def flightLands (dv : Bool) (s : State) : State :=
  if !s.cclkOn || (s.mode = Mode.halt && !s.cc.step) then s
  else
    match s.cc.flights.find? fun (f : CcFlight) => f.isDiv == dv with
    | none => s
    | some f => { s with cc := { s.cc.land f with flights := s.cc.flights.erase f } }

/-- MULTIPLY_LAND (R194): A product lands in MQL and MQH four cycles after its multiply began. -/
def execMultiplyLand (s : State) : Answer := .next (flightLands false s)
/-- DIVIDE_LAND (R195): A quotient and remainder land and DV is set 18 cycles after the divide began. -/
def execDivideLand (s : State) : Answer := .next (flightLands true s)

/-! ### STAT (R196) -/

/-- MFSTAT (R191): MFSTAT reads STAT. -/
def execMfstat (rd : BitVec 5) (s : State) : Answer := .next (moveTo 4 rd (fun (t : State) => t.cc.status) s)

/-- The bits that MTSTAT writes: the flags at every level, NIE and FIE at Kernel and Machine level. -/
def mtstatMask (pl : Nat) : W32 := if pl = 0 then 0xF00 else 0xF0C

/-- MTSTAT (R196): MTSTAT writes the permitted STAT fields. -/
def execMtstat (ra : BitVec 5) (s : State) : Answer :=
  .next (ccStart 4 none s fun (t : State) =>
    let m := mtstatMask t.cc.pl
    ccNext 4 { t with cc := { t.cc with stat := (t.cc.stat &&& ~~~m) ||| (t.g ra.toNat &&& m) } })

end Sys2Proof.Machine
end

