-- ==== Sys2Proof/Machine/CcMem.lean ====
section
/-!
DEFINITION. Loads and stores of the command core (R185 to R187, R191, R197).
-/

namespace Sys2Proof.Machine

/-- What an address of the command core reaches. -/
inductive CcPlace where
  /-- the slot of a register block at a window offset -/
  | reg (off : Nat)
  | mem (x : StoreSel) (a : Nat)
  | rom (a : Nat)
  /-- the reserved range of R64 -/
  | zero
  /-- not permitted, or nothing there -/
  | refused
  deriving DecidableEq, Repr

/-- Is the register at a window offset Machine-only for writes? The W1C bits of CC_STAT are open (R186). -/
def machineOnlyAt (off : Nat) : Bool :=
  off != F.CC_STAT_DBL.off && (match regAt off with | some (g, i) => g.machineOnly i | none => false)

/-- Where an access of the present level goes; the access is aligned, so it lies in one region and one granule. -/
def State.ccPlace (s : State) (wr : Bool) (a : Nat) : CcPlace :=
  if a < 0x600000 then
    (if s.cc.pl = 0 ∨ (wr ∧ s.cc.pl = 1 ∧ machineOnlyAt (a / 8 * 8)) then .refused else .reg (a / 8 * 8))
  else if s.cc.pl = 0 && !s.taskRight (if wr then 33 else 32) a then .refused
  else if a < 0x640000 then .mem .hb (a - 0x600000)
  else if a < 0x800000 then .zero
  else if a < 0x1000000 then
    (if a < 0x800000 + spmSize s.build ∧ s.fld (F.SCRUB_OWN_OWNER ((a - 0x800000) / 0x20000)) = 1 then .mem .spm (a - 0x800000) else .refused)
  else if a < 0x1010000 then (if wr then .refused else .rom (a - 0x1000000))
  else .refused

/-- The byte enables of an access of `n` bytes in a register slot. -/
def slotBe (a n : Nat) : Nat := if n = 8 then 0xFF else if a % 8 = 4 then 0xF0 else 0x0F

/-- The data-pennant trap of a load; a command whose hook runs completes with FAULT (R132, R197). -/
def loadPennant (a : W32) (s : State) : State :=
  let s1 := match s.cc.hook with
    | some r => match r.due.cmd with
      | some id =>
        let t := finish id Status.fault [] s
        { t with cc := { t.cc with hook := some { r with due := { r.due with cmd := none } } } }
      | none => s
    | none => s
  ccFault 2 0 a s1

/-- A load of `n` bytes: `use` takes the number that they spell.
[DEDUCED, unsafe, log 30] -/
def ccLoad (n : Nat) (a : W32) (use : Nat → State → State) (s : State) : State :=
  let x := a.toNat
  if x % n ≠ 0 then ccFault 6 1 a s
  else
    match s.ccPlace false x with
    | .refused => ccFault 6 2 a s
    | .reg off =>
      if n < 4 then ccFault 6 4 a s
      else
        let (t, v) := regRead (.core s.cc.pl) off (slotBe x n) s
        use (bitsOf v.toNat (8 * (x - off)) (8 * n)) t
    | .mem m o =>
      let b := readBytes m o n s
      let t := noteReads m o n s
      if anyPen b then loadPennant a t else use (leNat (vals b)) t
    | .rom o => use (leNat ((List.range n).map fun k => Config.ccRom (o + k))) s
    | .zero => use 0 s

/-- A store of `n` bytes by an instruction of 4 bytes, or 2.
[DEDUCED, unsafe, log 30] -/
def ccStore (len n : Nat) (a : W32) (v : Nat) (s : State) : State :=
  let x := a.toNat
  if x % n ≠ 0 then ccFault 6 1 a s
  else
    match s.ccPlace true x with
    | .refused => ccFault 6 2 a s
    | .reg off =>
      if n < 4 then ccFault 6 4 a s
      else settle (regWrite (.core s.cc.pl) false off (slotBe x n) (BitVec.ofNat 64 (v % 2 ^ (8 * n) * 2 ^ (8 * (x - off)))) (ccNext len s))
    | .mem m o =>
      let t := writeBytes m o (plain (leBytes n v)) s
      let p : Option (Nat × Nat) := match m with | .hb => some (o / 8 * 8, (2 ^ n - 1) * 2 ^ (o % 8)) | .spm => none
      ccNext len { t with cc := { t.cc with portA := p } }
    | .rom _ => ccFault 6 2 a s
    | .zero => ccNext len s

/-- The address of a K32 access. -/
def State.memAddr (s : State) (ra : BitVec 5) (imm : BitVec 14) : W32 := s.g ra.toNat + imm.signExtend 32

/-- A load into rd of `n` bytes, extended by `ext`. -/
def loadTo (n : Nat) (ext : Nat → W32) (rd ra : BitVec 5) (imm : BitVec 14) (s : State) : State :=
  ccStart 4 none s fun (t : State) =>
    ccLoad n (t.memAddr ra imm) (fun v (u : State) => settle (ccNext 4 (u.setG rd.toNat (ext v)))) t

/-- A sign-extended halfword or byte. -/
def sext (bits v : Nat) : W32 := BitVec.ofInt 32 (toSigned v bits)
def zext (v : Nat) : W32 := BitVec.ofNat 32 v

/-- LW (R197): LW loads a 32-bit word. -/
def execLw (f : MemForm) (s : State) : Answer :=
  .next (match f with
    | .short rd rs => ccStart 2 none s fun (t : State) =>
        ccLoad 4 (t.g rs.toNat) (fun v (u : State) => settle (ccNext 2 (u.setG rd.toNat (zext v)))) t
    | .long rd ra imm => loadTo 4 zext rd ra imm s)

/-- SW (R197): SW stores a 32-bit word. -/
def execSw (f : MemForm) (s : State) : Answer :=
  .next (match f with
    | .short rd rs => ccStart 2 none s fun (t : State) => ccStore 2 4 (t.g rs.toNat) (t.g rd.toNat).toNat t
    | .long rd ra imm => ccStart 4 none s fun (t : State) => ccStore 4 4 (t.memAddr ra imm) (t.g rd.toNat).toNat t)

/-- LH (R191): LH loads a sign-extended halfword. -/
def execLh (rd ra : BitVec 5) (imm : BitVec 14) (s : State) : Answer := .next (loadTo 2 (sext 16) rd ra imm s)
/-- LHU (R191): LHU loads a zero-extended halfword. -/
def execLhu (rd ra : BitVec 5) (imm : BitVec 14) (s : State) : Answer := .next (loadTo 2 zext rd ra imm s)
/-- LB (R191): LB loads a sign-extended byte. -/
def execLb (rd ra : BitVec 5) (imm : BitVec 14) (s : State) : Answer := .next (loadTo 1 (sext 8) rd ra imm s)
/-- LBU (R191): LBU loads a zero-extended byte. -/
def execLbu (rd ra : BitVec 5) (imm : BitVec 14) (s : State) : Answer := .next (loadTo 1 zext rd ra imm s)

/-- SH (R191): SH stores a halfword. -/
def execSh (rd ra : BitVec 5) (imm : BitVec 14) (s : State) : Answer :=
  .next (ccStart 4 none s fun (t : State) => ccStore 4 2 (t.memAddr ra imm) (t.g rd.toNat).toNat t)
/-- SB (R191): SB stores a byte. -/
def execSb (rd ra : BitVec 5) (imm : BitVec 14) (s : State) : Answer :=
  .next (ccStart 4 none s fun (t : State) => ccStore 4 1 (t.memAddr ra imm) (t.g rd.toNat).toNat t)

/-- Is RD even, from 2 to 30?
[DEDUCED, unsafe, log 30] -/
def pairOk (rd : BitVec 5) : Bool := rd.toNat % 2 == 0 && rd != 0

/-- LDD: rd takes bits 31:0 and rd + 1 bits 63:32. -/
def execLdd (rd ra : BitVec 5) (imm : BitVec 14) (s : State) : Answer :=
  .next (ccStart 4 none s fun (t : State) =>
    if !pairOk rd then ccIllegal (encK32 0x0D rd.toNat ra.toNat imm.toNat) t
    else ccLoad 8 (t.memAddr ra imm)
      (fun v (u : State) => settle (ccNext 4 ((u.setG rd.toNat (zext v)).setG (rd.toNat + 1) (zext (v / 2 ^ 32))))) t)

/-- STD (R191): STD stores a register pair as 64 bits. -/
def execStd (rd ra : BitVec 5) (imm : BitVec 14) (s : State) : Answer :=
  .next (ccStart 4 none s fun (t : State) =>
    if !pairOk rd then ccIllegal (encK32 0x0E rd.toNat ra.toNat imm.toNat) t
    else ccStore 4 8 (t.memAddr ra imm) ((t.g rd.toNat).toNat + 2 ^ 32 * (t.g (rd.toNat + 1)).toNat) t)

end Sys2Proof.Machine
end

