-- ==== Sys2Proof/Machine/CcFlow.lean ====
section
/-!
DEFINITION. Jumps and branches (R190, R191, R193), system calls, breakpoints, waits, HOLD windows, interrupts and machine checks (R198
to R209).
-/

namespace Sys2Proof.Machine

/-! ### Jumps and branches -/

/-- The condition codes of R193. -/
def ccCond (c : Nat) (f : AluFlags) (dv : Bool) : Bool :=
  match c with
  | 0 => true
  | 1 => f.z
  | 2 => !f.z
  | 3 => f.n != f.v
  | 4 => f.n == f.v
  | 5 => f.c
  | 6 => !f.c
  | 7 => f.n
  | 8 => !f.n
  | 9 => f.v
  | 10 => !f.v
  | 11 => !f.z && f.n == f.v
  | 12 => f.z || f.n != f.v
  | 13 => dv
  | 14 => !dv
  | _ => false

/-- Does a condition hold now? -/
def CcSt.holds (c : CcSt) (code : Nat) : Bool := ccCond code c.aluFlags (!c.dividing)

/-- A jump by an offset in halfwords from the instruction itself. -/
def jumpBy (off : W32) (s : State) : State := ccJump (s.cc.pc + off + off) s

/-- A branch of `len` bytes on a condition code. -/
def branch (len code : Nat) (off : W32) (s : State) : State :=
  ccStart len none s fun (t : State) => if t.cc.holds code then jumpBy off t else ccNext len t

/-- A jump through a register: an odd address is a fetch fault, and the address that firmware left in g31 ends the hook that runs
(R199, R216).
[DEDUCED, unsafe, log 30] -/
def jumpTo (a : W32) (link : State → State) (hookRet : Bool) (s : State) : State :=
  if a.getLsbD 0 then ccFault 5 2 a s
  else
    match s.cc.hook with
    | some r => if hookRet && a == r.ret then hookEnd ((s.g 4).toNat % 256) (ccDone s) else ccJump a (link s)
    | none => ccJump a (link s)

/-- JR (R190): JR jumps to a register address. -/
def execJr (rs : BitVec 5) (s : State) : Answer :=
  .next (ccStart 2 none s fun (t : State) => jumpTo (t.g rs.toNat) id (rs == 31) t)

/-- JALR (R191): JALR jumps to ra plus an offset and writes the link. -/
def execJalr (rd ra : BitVec 5) (imm : BitVec 14) (s : State) : Answer :=
  .next (ccStart 4 none s fun (t : State) => jumpTo (t.memAddr ra imm) (fun (u : State) => u.setG rd.toNat (u.cc.pc + 4)) false t)

/-- JMP (R191): JMP jumps PC-relative. -/
def execJmp (off : BitVec 24) (s : State) : Answer := .next (ccStart 4 none s (jumpBy (off.signExtend 32)))
/-- CALL (R191): CALL jumps PC-relative and writes the link to g31. -/
def execCall (off : BitVec 24) (s : State) : Answer :=
  .next (ccStart 4 none s fun (t : State) => jumpBy (off.signExtend 32) (t.setG 31 (t.cc.pc + 4)))
/-- BR (R190): BR branches unconditionally. -/
def execBr (off : BitVec 10) (s : State) : Answer := .next (branch 2 0 (off.signExtend 32) s)
/-- BEQ (R190): BEQ branches when Z = 1. -/
def execBeq (off : BitVec 10) (s : State) : Answer := .next (branch 2 1 (off.signExtend 32) s)
/-- BNE (R190): BNE branches when Z = 0. -/
def execBne (off : BitVec 10) (s : State) : Answer := .next (branch 2 2 (off.signExtend 32) s)
/-- BLT (R190): BLT branches on signed less-than. -/
def execBlt (off : BitVec 10) (s : State) : Answer := .next (branch 2 3 (off.signExtend 32) s)
/-- BGE (R190): BGE branches on signed greater-or-equal. -/
def execBge (off : BitVec 10) (s : State) : Answer := .next (branch 2 4 (off.signExtend 32) s)
/-- BLTU (R190): BLTU branches on unsigned less-than. -/
def execBltu (off : BitVec 10) (s : State) : Answer := .next (branch 2 5 (off.signExtend 32) s)
/-- BGEU (R190): BGEU branches on unsigned greater-or-equal. -/
def execBgeu (off : BitVec 10) (s : State) : Answer := .next (branch 2 6 (off.signExtend 32) s)
/-- BNDV (R190): BNDV branches while a divide is in flight. -/
def execBndv (off : BitVec 10) (s : State) : Answer := .next (branch 2 14 (off.signExtend 32) s)

/-- BC: COND from 15 to 31 is illegal. -/
def execBc (cond : BitVec 5) (off : BitVec 19) (s : State) : Answer :=
  .next (if cond.toNat < 15 then branch 4 cond.toNat (off.signExtend 32) s
    else ccStart 4 none s (ccIllegal (encC32 0x13 cond.toNat off.toNat)))

/-! ### System calls, breakpoints, returns (R199, R205, R209) -/

/-- SYS (R209): SYS n enters vector 32 + n with a full-form block. -/
def execSys (n : BitVec 5) (s : State) : Answer :=
  .next (ccStart 2 none s fun (t : State) =>
    ccTrap (32 + n.toNat) 0 (t.cc.pc + 2) (n.setWidth 32) { t with cc := t.cc.noteStat })
/-- BRK (R199): BRK takes the breakpoint trap. -/
def execBrk (s : State) : Answer := .next (ccStart 2 none s fun (t : State) =>
    ccTrap 8 0 (t.cc.pc + 2) 0 { t with cc := t.cc.noteStat })
/-- RTT (R205): RTT returns through the task-state block and restores state. -/
def execRtt (s : State) : Answer :=
  .next (ccStart 2 none s (ccPriv (encA16 0x26 0 0) fun (t : State) => ccMark (returnFromTrap t)))

/-! ### Waits (R190, R207) -/

/-- Is a normal or fast interrupt pending? -/
def State.intPending (s : State) : Bool := s.coreMsg true || s.coreMsg false

/-- Does the command core take a fast interrupt, or a normal one?
[DEDUCED, unsafe, log 31] -/
def State.fastDue (s : State) : Bool := s.coreMsg true && s.cc.bit 3 && !s.cc.bit 4 && !s.cc.bit 5
def State.normalDue (s : State) : Bool := s.coreMsg false && s.cc.bit 2 && !s.cc.bit 5

/-- Is a machine check due at the boundary (R200, R549)? -/
def State.mcDue (s : State) : Bool := (dicMachineCheck s).dic.mcSlot.isSome

/-- Can an interrupt be taken at the present boundary: not during a STEP, nor before an instruction has completed since RTT, nor ahead
of a machine check (R200, R206, R207)?
[DEDUCED, unsafe, log 31] -/
def State.takesInt (s : State) : Bool :=
  s.coreRuns && s.cc.cx.isNone && !s.cc.afterRtt && !s.cc.step && !s.mcDue && (s.fastDue || s.normalDue)

/-- An interrupt at an instruction boundary, a fast one first (R200).
[DEDUCED, unsafe, log 31] -/
def interruptTaken (s : State) : State :=
  if !s.takesInt then s else if s.fastDue then trapEnter 17 0 s.cc.pc 0 s else trapEnter 16 0 s.cc.pc 0 s

/-- The instruction waits: its PC stays its own.
[DEDUCED, unsafe, log 30] -/
def ccWaits (w : CcWait) (s : State) : State := { s with cc := { s.cc with wait := some w } }

/-- WFI's operation: an interrupt that can be taken abandons it at its own address, a pending one that cannot ends it, a machine check
that is due comes first (R200, R207). -/
def wfiAct (s : State) : State :=
  if s.takesInt then interruptTaken s else if s.intPending && !s.mcDue then ccNext 2 s else ccWaits .wfi s

/-- WFI (R190): WFI waits until an interrupt is pending. -/
def execWfi (s : State) : Answer := .next (ccStart 2 (some .wfi) s (ccPriv (encA16 0x29 0 0) wfiAct))

/-- FENCE: stores are done when they are made, so that line moves alone are waited for. -/
def execFence (s : State) : Answer :=
  .next (ccStart 2 (some .fence) s fun (t : State) => if t.cc.lmovs.isEmpty then ccNext 2 t else ccWaits .fence t)

/-! ### HOLD windows (R208) -/

/-- HOLD n, n = FN9 + 1: a window opens, or the one that is open goes on. An interrupt that is pending and enabled is taken before it.
[DEDUCED, unsafe, log 64] -/
def execHold (fn : BitVec 9) (s : State) : Answer :=
  .next (if s.takesInt then interruptTaken s
    else ccStart 4 none s (ccPriv (encA32 0x16 0 0 0 fn.toNat) fun (t : State) => ccNext 4 { t with cc := t.cc.setStatBit 5 true }))

/-- RELS (R190): RELS ends the HOLD window. -/
def execRels (s : State) : Answer :=
  .next (ccStart 2 none s (ccPriv (encA16 0x27 0 0) fun (t : State) => ccNext 2 { t with cc := t.cc.setStatBit 5 false }))

/-- The window expires; it stands still in Halt (R574).
[DEDUCED, unsafe, log 64] -/
def execHoldExpiry (s : State) : Answer :=
  .next (if s.cclkOn && s.mode != Mode.halt then { s with cc := s.cc.setStatBit 5 false } else s)

/-! ### Line moves (R198) -/

/-- LMOV: the descriptor is read as a load reads it; a fifth move outstanding stalls.
[DEDUCED, unsafe, log 30] -/
def execLmov (ra : BitVec 5) (s : State) : Answer :=
  .next (ccStart 4 (some .lmov) s (ccPriv (encA32 0x17 0 ra.toNat 0 0) fun (t : State) =>
    let a := t.g ra.toNat
    if a.toNat % 8 ≠ 0 then ccFault 6 1 a t
    else if a.toNat < 0x600000 ∨ 0x640000 < a.toNat + 16 then ccFault 6 2 a t
    else if 4 ≤ t.cc.lmovs.length then ccWaits .lmov t
    else if anyPen (readBytes .hb (a.toNat - 0x600000) 16 t) then loadPennant a (noteReads .hb (a.toNat - 0x600000) 16 t)
    else ccNext 4 (lmovStart (a.toNat - 0x600000) t)))

/-! ### Interrupts and machine checks (R200, R207, R549) -/

/-- INTERRUPT_TAKEN (R207): A pending enabled normal or fast interrupt is taken at an instruction boundary. -/
def execInterruptTaken (s : State) : Answer := .next (interruptTaken s)

/-- The machine-check slot's source is taken; a customer instruction in progress is abandoned (R213).
[DEDUCED, unsafe, log 22]
[DEDUCED, unsafe, log 31] -/
def machineCheckTrap (s : State) : State :=
  let s1 := dicMachineCheck s
  match s1.dic.mcSlot with
  | none => s1
  | some k =>
    if !s1.coreRuns then s1
    else
      let pc := (s1.cc.cx.map (·.pc)).getD s1.cc.pc
      ccMark (coreMachineCheck 2 pc (BitVec.ofNat 32 k) { s1 with dic := { s1.dic with mcSlot := none } })

/-- MACHINE_CHECK_TRAP (R549): A machine-check-class source in the machine-check slot makes the command core take vector 1 whatever its masks. -/
def execMachineCheckTrap (s : State) : Answer := .next (machineCheckTrap s)

end Sys2Proof.Machine
end

