-- ==== Sys2Proof/Machine/CcCustom.lean ====
section
/-!
DEFINITION. Customer opcodes (R210 to R213), the service entries of the ROM, and the words of every sequencer.
-/

namespace Sys2Proof.Machine

/-- CUSTOM: the CSQ loads W0 to W3 and goes to the opcode's entry (R211).
[DEDUCED, unsafe, log 32] -/
def customStart (cx rd ra rb x3 : Nat) (s : State) : State :=
  let word := encX32 cx rd ra rb x3
  if !s.flag (F.SQ_STAT_CVALID 0) || !s.flag (F.CC_CX_EN cx) then ccIllegal word s
  else if s.cc.pl < s.fld (F.CC_CX_MINPL cx) then ccFault 4 0 word s
  else
    let put := fun (l : List (Nat × W32)) (p : Nat × W32) => SMap.put (fun _ => (0 : W32)) l p.1 p.2
    let q := s.seq 0
    let w := [(0, s.g ra), (1, s.g rb), (2, BitVec.ofNat 32 x3), (3, s.cc.pc)].foldl put q.w
    let s1 := (s.setSeq 0 { q with w := w }).setFld (F.SQ_STAT_UPC 0) (s.fld (F.CC_CX_ENTRY cx))
    { s1 with cc := { s1.cc with cx := some ⟨cx, rd, s.cc.pc, s.cc.pc + 4, none, word, none, 0⟩ } }

/-- CUSTOM (R211): CUSTOM dispatches a customer opcode to its microcode entry. -/
def execCustom (cx : BitVec 6) (rd ra rb : BitVec 5) (xx : BitVec 3) (s : State) : Answer :=
  .next (ccStart 4 none s (customStart cx.toNat rd.toNat ra.toNat rb.toNat xx.toNat))

/-- Register Wk of the CSQ. -/
def State.csqW (s : State) (k : Nat) : W32 := SMap.get (fun _ => (0 : W32)) (s.seq 0).w k
def State.setCsqW (s : State) (k : Nat) (v : W32) : State :=
  s.setSeq 0 { s.seq 0 with w := SMap.put (fun _ => (0 : W32)) (s.seq 0).w k v }

/-- A CALL of a service entry goes back.
[DEDUCED, unsafe, log 32] -/
def serviceReturn (s : State) : State :=
  let q := s.seq 0
  (s.setSeq 0 { q with stack := q.stack.drop 1 }).setFld (F.SQ_STAT_UPC 0) (q.stack.headD 0)

/-- May the level raise a source through service entry 0x1F10 (R212)?
[DEDUCED, unsafe, log 32] -/
def serviceDoorbellOk (pl src : Nat) : Bool :=
  decide (src < 4096) && (pl == 2 || (pl == 1 && decide (32 ≤ src)) || decide (2048 ≤ src))

/-- The trap of a customer instruction: the saved PC is its own address.
[DEDUCED, unsafe, log 32] -/
def customFault (x : CxRun) (vec sub : Nat) (tval : W32) (s : State) : State := ccTrap vec sub x.pc tval s

/-- A word has reached a service entry, by JMP or by CALL (R212).
[DEDUCED, unsafe, log 32] -/
def serviceEntry (x : CxRun) (call : Bool) (a : Nat) (s : State) : State :=
  let w4 := (s.csqW 4).toNat
  let pl := s.cc.pl
  match a, call with
  | 0x1F00, false => customEnd x s
  | 0x1F01, false => customEnd x (s.setG x.rd (s.csqW 0))
  | 0x1F04, false => ccTrap 9 1 x.next (s.csqW 3) s
  | 0x1F08, true =>
    if w4 % 8 ≠ 0 then customFault x 6 1 (s.csqW 4) s
    else if pl = 0 || decide (0x600000 ≤ w4) then customFault x 6 2 (s.csqW 4) s
    else
      let (t, v) := regRead (.core pl) w4 0xFF s
      serviceReturn ((t.setCsqW 5 (v.setWidth 32)).setCsqW 6 (BitVec.ofNat 32 (v.toNat / 2 ^ 32)))
  | 0x1F09, true =>
    if w4 % 8 ≠ 0 then customFault x 6 1 (s.csqW 4) s
    else if pl = 0 || decide (0x600000 ≤ w4) || (pl == 1 && machineOnlyAt w4) then customFault x 6 2 (s.csqW 4) s
    else settle (regWrite (.core pl) false w4 0xFF (BitVec.ofNat 64 ((s.csqW 5).toNat + 2 ^ 32 * (s.csqW 6).toNat)) (serviceReturn s))
  | 0x1F10, true =>
    if serviceDoorbellOk pl (w4 % 4096) then serviceReturn (dicDoorbell (.core (if pl = 0 then 1 else pl)) (w4 % 4096) 0 s)
    else customFault x 4 0 x.word s
  | _, _ => customFault x 3 0 x.word s

/-- The RBUS strobes of the word before act: which register they read or write, and the data, are open (R153, R194).
[DESIGN CHOICE, safe, log 73] -/
def rbusAct (x : CxRun) (s : State) : State :=
  let w : Writer := .core s.cc.pl
  let off := fun (t : State) => t.free 20 * 8 % 0x600000
  let s1 := if bitOf x.rbus 0 then
      let t := (regRead w (off s) 0xFF s.drew).1
      (t.setSeq 0 { t.seq 0 with mdr := BitVec.ofNat 32 (t.free 32) }).drew
    else s
  if bitOf x.rbus 1 then settle (regWrite w false (off s1) 0xFF (BitVec.ofNat 64 (s1.drew.free 64)) s1.drew.drew) else s1

/-- A CSQ word is read for issue. Where its parity is wrong it is read once more; what the second read returns is open. One that passes
is counted in RETRY (R175, R179).
[DESIGN CHOICE, safe, log 2]
[DEDUCED, unsafe, log 27] -/
def csqRead (s : State) : MicroWord × State :=
  let m := s.nextWord 0
  if parityErrors m = 0 then (m, s)
  else
    let m2 := decodeMicro (BitVec.ofNat 184 (s.free 184))
    (m2, if parityErrors m2 = 0 then s.drew.setFld (F.SQ_MCINFO_RETRY 0) (min 255 (s.drew.fld (F.SQ_MCINFO_RETRY 0) + 1)) else s.drew)

/-- A word for a customer instruction is read and issued.
[DEDUCED, unsafe, log 27] -/
def customIssue (s : State) : State :=
  let r := csqRead s
  if parityErrors r.1 = 0 then issueWord 0 r.1 r.2 else seqCheck 0 1 (parityErrors r.1) r.2

/-- One word of the CSQ: a customer instruction is in progress. At a service entry the ROM's routine acts as R212 says, unless an
enabled patch puts a word in its place (R169). Words of the ROM that run base instructions are not seen one by one.
[DEDUCED, unsafe, log 27]
[DEDUCED, unsafe, log 32] -/
def customerWord (s : State) : State :=
  match s.cc.cx with
  | none => s
  | some x =>
    if !s.coreRuns || (s.seq 0).barrier.isSome then s
    else if x.rbus ≠ 0 then rbusAct x { s with cc := { s.cc with cx := some { x with rbus := 0 } } }
    else
      let t : State := { s with cc := { s.cc with cx := some { x with entry := none } } }
      match x.entry with
      | none => customIssue s
      | some call => if s.issueAddr 0 (s.upc 0) = s.upc 0 then serviceEntry x call (s.upc 0) t else customIssue t

/-- MICROWORD_EXECUTE (R160): A sequencer executes one microword with all its fields, or stalls it. -/
def execMicrowordExecute (sq : Nat) (s : State) : Answer := .next (whileClocked s (if sq = 0 then customerWord s else lightWord sq s))

/-- The customer instruction has run CXLIM cycles (R213); the limit stands still in Halt but for a STEP.
[DEDUCED, unsafe, log 32] -/
def customTimeout (s : State) : State :=
  match s.cc.cx with
  | none => s
  | some x => if !s.coreRuns then s else customFault x 9 2 (BitVec.ofNat 32 x.cx) (s.setFlag F.CC_STAT_CXTMO true)

/-- CUSTOM_TIMEOUT (R213): A customer instruction running CXLIM CCLK is abandoned and takes vector 9 with SUB 2. -/
def execCustomTimeout (s : State) : Answer := .next (whileClocked s (customTimeout s))

/-! ### A register write on its own (R18) -/

/-- A write of a register slot, by HPT, by an instruction at a level, or by a sequencer. -/
def execRegisterWrite (w : Writer) (off : Nat) (be : BitVec 8) (data : W64) (s : State) : Answer :=
  .next (if s.cclkOn && decide (off < 0x600000) && off % 8 == 0 then settle (regWrite w false off be.toNat data s) else s)

end Sys2Proof.Machine
end

