-- ==== Sys2Proof/Machine/Hpt.lean ====
section
/-!
DEFINITION. The host port: requests, responses, the debug port's accesses (R46 to R54, R66, R571, R572).
-/

namespace Sys2Proof.Machine

/-- Are the byte enables permitted at an offset (R49)? -/
def beAllowed (off be : Nat) : Bool := decide (0x600000 ≤ off) || be == 0 || be == 0x0F || be == 0xF0 || be == 0xFF

/-- A request is acted on (R6, R47 to R51). -/
def hptAct (jtag clash : Bool) (r : HptReq) (s : State) : State × HptAnswer :=
  if hptAbsent s.build r.off then (hptError 1 r s, (0, true))
  else if !beAllowed r.off r.be then (hptError 3 r s, (0, true))
  else if r.be = 0 then (if r.wr then (s, (0, false)) else let (t, v) := laneData 0 0 s; (t, (v, false)))
  else if hptMemory r.off then hptMemAccess clash r s
  else if 0x640000 ≤ r.off then (if r.wr then (s, (0, false)) else let (t, v) := laneData r.be 0 s; (t, (v, false)))
  else if r.wr then (regWrite .host jtag r.off r.be r.wdata s, (0, false))
  else
    let (t, v) := regRead .host r.off r.be s
    let (u, w) := laneData r.be v t
    (u, (w, false))

/-- Must a request that arrives now wait: for the fill or a release, or behind a request that waits, whose effect it must see (R47)?
[DEDUCED, unsafe, log 20] -/
def State.hptBehind (s : State) (r : HptReq) : Bool :=
  s.hptWaits r || s.hpt.slots.any fun x => match x with | .waiting _ => true | .ready _ _ _ => false

/-- A request transfers: HPT_RDY is low while the port sleeps and while 16 requests are outstanding (R48, R54). -/
def hptRequest (r : HptReq) (clash : Bool) (s : State) : State :=
  if !s.cclkOn || !s.hpt.awake || decide (16 ≤ s.hpt.slots.length) then s
  else if s.hptBehind r then { s with hpt := { s.hpt with slots := s.hpt.slots ++ [.waiting r] } }
  else
    let (t, v, e) := hptAct false clash r s
    let u := if t.cclkOn then { t with hpt := { t.hpt with slots := t.hpt.slots ++ [.ready r.tid v e] } } else t
    { u with cc := { u.cc with portA := none } }

/-- HPT_REQUEST. `clash`: the write meets a store of the command core in the same CCLK. -/
def execHptRequest (wr : Bool) (addr : BitVec 21) (be : BitVec 8) (wdata : W64) (tid : BitVec 8) (clash : Bool) (s : State) : Answer :=
  .next (whileClocked s (settle (hptRequest ⟨wr, addr.toNat * 8, be.toNat, wdata, tid⟩ clash s)))

/-! ### DBGACC -/

/-- An access of the debug port is acted on; a write of HB may meet one of the command core in one CCLK.
[DESIGN CHOICE, unsafe, log 21] -/
def dbgAct (r : HptReq) (s : State) : State × HptAnswer :=
  let hb := r.wr && decide (0x600000 ≤ r.off) && decide (r.off < 0x640000) && s.cc.portA.isSome
  if hb then hptAct true (s.portBMeets ((r.off - 0x600000) / 8 * 8) 8) r s.drew else hptAct true false r s

/-- An access that waited for a place among the 16 is acted on.
[DEDUCED, unsafe, log 66] -/
def dbgRetry (s : State) : State :=
  match s.tdu.acc.wait with
  | none => s
  | some r =>
    if 16 ≤ s.hpt.slots.length || s.hptBehind r then s
    else
      let (t, v, e) := dbgAct r s
      { t with tdu := { t.tdu with acc := ⟨true, e, v, none⟩ } }

/-- The requests that wait are acted on in their order, up to the first that must wait still. -/
def drainSlots : List HptSlot → State → List HptSlot × State
  | [], s => ([], s)
  | .ready t v e :: l, s => let p := drainSlots l s; (.ready t v e :: p.1, p.2)
  | .waiting r :: l, s =>
    if s.hptWaits r then (.waiting r :: l, s)
    else
      let (t, v, e) := hptAct false false r s
      let p := drainSlots l t
      (.ready r.tid v e :: p.1, p.2)

/-- A fill or a release has ended: the requests that waited for it are acted on, and so is a waiting access of the debug port.
[DEDUCED, unsafe, log 20] -/
def hptDrain (s : State) : State :=
  let p := drainSlots s.hpt.slots s
  dbgRetry { p.2 with hpt := { p.2.hpt with slots := p.1 } }

/-- The response at the head of the queue transfers. -/
def hptResponse (s : State) : State :=
  match s.hpt.slots with
  | .ready _ _ _ :: rest => if s.cclkOn && s.hpt.awake then dbgRetry { s with hpt := { s.hpt with slots := rest } } else s
  | _ => s

/-- FILL_COMPLETE (R116): The start-up fill of SPM, HB and the writable control stores ends; SCRUB_OWNb, SCRUB_ERR, SCRUB_CCNT and HB_COLL are reset. -/
def execFillComplete (s : State) : Answer := .next (whilePowered s (settle (hptDrain (fillComplete s))))
/-- SPM_BANK_RELEASE_DONE (R111): The zero fill of a released SPM bank ends, OWNER reads 0x00 and source 330 is raised. -/
def execSpmBankReleaseDone (b : Nat) (s : State) : Answer := .next (whileClocked s (settle (hptDrain (bankReleaseDone b s))))
/-- SELFTEST_DONE (R567): The requested self-test items finish and SELFTEST completes OK or FAULT with its 256-byte reply. -/
def execSelftestDone (out : List (Nat × Nat)) (s : State) : Answer := .next (whileLive s (settle (hptDrain (selfTestDone (out.map fun p => ⟨p.1, p.2⟩) s))))
/-- HPT_RESPONSE (R46): A response transfers when HPT_RSP and HPT_RACK are both high. -/
def execHptResponse (s : State) : Answer := .next (whileClocked s (settle (hptResponse s)))

/-- The word shifted in at Update-DR as a request with HPT_TID 0xFF. -/
def dbgReq (acc : BitVec 89) : HptReq :=
  let x := acc.toNat
  ⟨bitsOf x 0 2 == 2, bitsOf x 4 21 * 8, if bitOf x 2 then 0x0F else 0xFF, BitVec.ofNat 64 (bitsOf x 25 64), 0xFF⟩

/-- DBGACC at Update-DR.
[DEDUCED, unsafe, log 66] -/
def dbgAccess (acc : BitVec 89) (s : State) : State :=
  let s0 := s.tap Tap.dbgacc
  let done := fun (e : Bool) (v : W64) (t : State) => { t with tdu := { t.tdu with acc := ⟨true, e, v, none⟩ } }
  let op := bitsOf acc.toNat 0 2
  if s0.tdu.acc.wait.isSome then { s0 with tdu := { s0.tdu with acc := { s0.tdu.acc with err := true } } }
  else if op = 0 ∨ op = 3 then s0
  else if s0.tduLocked || !s0.cclkOn || !s0.hpt.awake then done true 0 s0
  else if 16 ≤ s0.hpt.slots.length || s0.hptBehind (dbgReq acc) then
    { s0 with tdu := { s0.tdu with acc := { s0.tdu.acc with done := false, err := false, wait := some (dbgReq acc) } } }
  else
    let (t, v, e) := dbgAct (dbgReq acc) s0
    done e v t

/-- DBGACC (R571): DBGACC at Update-DR issues a register access as an HPT request. -/
def execDbgacc (acc : BitVec 89) (s : State) : Answer := .next (whilePowered s (settle (dbgAccess acc s)))

end Sys2Proof.Machine
end

