-- ==== Sys2Proof/Machine/RingCfg.lean ====
section
/-!
DEFINITION. RING_CFG and GCL_LOAD (R509, R523 to R526, R529).
-/

namespace Sys2Proof.Machine

/-! ### SUB 0: identity, ports, area (R523) -/

/-- The values of SUB 0 that R523 and R526 call out of range. -/
def ringIdBad (b : List Byte) : Bool :=
  let roles := byteAt b 1
  let cab := leAt b 2 2
  let ens := leAt b 4 2
  let stb := leAt b 6 2
  let wc := byteAt b 16
  let hc := byteAt b 17
  b.length != 32 || decide (32 ≤ roles) || decide (1024 ≤ cab) || decide (1024 ≤ ens) || (decide (1024 ≤ stb) && stb != 0xFFFF)
    || ens == stb || (bitOf roles 1 && ens != cab) || (bitOf roles 2 && stb != cab)
    || decide (4 ≤ byteAt b 8) || decide (4 ≤ byteAt b 9) || decide (16 ≤ byteAt b 10) || byteAt b 11 != 0
    || decide (32768 ≤ leAt b 12 2) || decide (32768 ≤ leAt b 14 2)
    || decide (32 < wc) || decide (32 < hc) || ((wc == 0) != (hc == 0))
    || decide (leAt b 18 2 < 2) || decide (1024 < leAt b 18 2) || !zeroAt b 24 8

/-- Does the acting standby ensign hear the ensign (R529)? A frame from it has passed R247 within the 312.5 ms of R527.
[DEDUCED, unsafe, log 42] -/
def State.hearsEnsign (s : State) : Bool :=
  s.cmds.heard.any fun h => h.1 == s.fld F.RING_ID_ENSIGN && decide (s.tsu.now < h.2 + 312500000)

def State.ringIdDenied (s : State) (b : List Byte) : Bool :=
  let roles := byteAt b 1
  let changes := leAt b 2 2 != s.fld F.RING_ID_CABID || roles != s.fld F.RING_ID_ROLES || leAt b 4 2 != s.fld F.RING_ID_ENSIGN
    || leAt b 6 2 != s.fld F.RING_ID_STANDBY
  let stops := fun n => s.flag (F.RING_PORT_CFG_EN n) && !bitOf (byteAt b 8) n && !s.portUp (1 - n)
  (changes && s.mode != Mode.standby) || stops 0 || stops 1 || (s.build == .d && decide (8 ≤ roles))
    || (s.flag F.TSU_STAT_ACTING && bitOf roles 2 && !s.hearsEnsign)

/-- A port's enable, FEC and delay asymmetry take the command's values. -/
def ringPortSet (n : Nat) (b : List Byte) (s : State) : State :=
  let en := bitOf (byteAt b 8) n
  let s1 := ((s.setFlag (F.RING_PORT_CFG_EN n) en).setFlag (F.RING_PORT_CFG_FEC n) (bitOf (byteAt b 9) n)).setFld
    (F.RING_PORT_CFG_DASYM n) (leAt b (20 + 2 * n) 2)
  observePort n (if en then s1 else portDown n s1)

/-- The effect of SUB 0. -/
def ringIdSet (b : List Byte) (s : State) : State :=
  let roles := byteAt b 1
  let old := s.fld F.RING_ID_ROLES
  let s1 := ((((s.setFld F.RING_ID_STANDBY (leAt b 6 2)).setFld F.RING_ID_ENSIGN (leAt b 4 2)).setFld F.RING_ID_CABID
    (leAt b 2 2)).setFld F.RING_ID_ROLES roles).setFld F.RING_ID_MSLOT (byteAt b 10)
  let s2 := ((((s1.setFld F.RING_AREA_NENG (leAt b 18 2)).setFld F.RING_AREA_HC (byteAt b 17)).setFld F.RING_AREA_WC
    (byteAt b 16)).setFld F.RING_AREA_Y0C (leAt b 14 2)).setFld F.RING_AREA_X0C (leAt b 12 2)
  let s3 := ringPortSet 1 b (ringPortSet 0 b s2)
  let took := (bitOf roles 1 && !bitOf old 1) || (bitOf roles 2 && !bitOf old 2)
  let s4 := if took then recTakeAll s3 else s3
  if bitOf roles 1 then (if bitOf old 1 || s4.tsu.acting then s4 else becomeGm false s4)
  else if s4.isGm then
    if s4.flag F.TSU_STAT_ACTING && bitOf roles 2 then handBack s4
    else if bitOf old 1 || !bitOf roles 2 then stopGm s4
    else s4
  else s4

/-! ### SUB 1: the wall map (R524) -/

/-- Entry j of the command. -/
def mapEntryAt (b : List Byte) (j : Nat) : MapEntry :=
  ⟨leAt b (8 + 8 * j) 2, leAt b (10 + 8 * j) 2, byteAt b (12 + 8 * j), byteAt b (13 + 8 * j), byteAt b (14 + 8 * j)⟩

def MapEntry.none : MapEntry := ⟨0, 0, 0, 0, 0⟩

/-- The 8 bytes of a map entry. -/
def MapEntry.bytes (e : MapEntry) : List Byte :=
  leBytes 2 e.x0 ++ leBytes 2 e.y0 ++ leBytes 1 e.wc ++ leBytes 1 e.hc ++ leBytes 1 e.en ++ [0]

/-- Do two enabled entries overlap? -/
def MapEntry.overlaps (a b : MapEntry) : Bool :=
  a.en == 1 && b.en == 1 && decide (a.x0 < b.x0 + b.wc) && decide (b.x0 < a.x0 + a.wc)
    && decide (a.y0 < b.y0 + b.hc) && decide (b.y0 < a.y0 + a.hc)

/-- Does an entry of a map overlap another? -/
def mapOverlap : List (Nat × MapEntry) → Bool
  | [] => false
  | e :: t => t.any (fun f => e.2.overlaps f.2) || mapOverlap t

/-- The wall map after the command. -/
def mapAfter (b : List Byte) (m : List (Nat × MapEntry)) : List (Nat × MapEntry) :=
  SMap.splice (fun _ => MapEntry.none) m (leAt b 2 2) ((List.range (leAt b 4 2)).map (mapEntryAt b))

/-- Does a part of the wall map break a rule of RING_CFG?
[DEDUCED, unsafe, log 53] -/
def mapBad (b : List Byte) (m : List (Nat × MapEntry)) : Bool :=
  let first := leAt b 2 2
  let count := leAt b 4 2
  b.length < 8 || count == 0 || decide (127 < count) || decide (1024 < first + count) || b.length != 8 + 8 * count
    || byteAt b 1 != 0 || !zeroAt b 6 2
    || ((List.range count).any fun j =>
      let e := mapEntryAt b j
      decide (32768 ≤ e.x0) || decide (32768 ≤ e.y0) || decide (2 ≤ e.en) || byteAt b (15 + 8 * j) != 0
        || decide (32 < e.wc) || decide (32 < e.hc) || (e.en == 1 && (e.wc == 0 || e.hc == 0)))
    || mapOverlap (mapAfter b m)

/-- The CRC-32 over the whole map, entries absent taken as zero (R526). -/
def mapCrc (m : List (Nat × MapEntry)) : Nat :=
  (crc32 ((List.range 1024).flatMap fun c => (SMap.get (fun _ => MapEntry.none) m c).bytes)).toNat

/-! ### SUB 2: the schedule (R525) -/

def State.schedBad (s : State) (b : List Byte) : Bool :=
  let period := leAt b 8 6
  let suml := leAt b 20 4
  b.length != 24 || !zeroAt b 1 7 || !zeroAt b 14 2 || decide (period < 273066666667) || decide (2730666666666 < period)
    || decide (10000000 < suml)
    || decide (leAt b 16 4 * 65536 < s.tRing (s.fld F.RING_AREA_NENG) suml * 65536 + 2 * period)

/-- Does a configuration change wait for the next hoist: the engine shows frames, and there are hoists (R28)?
[DEDUCED, unsafe, log 53] -/
def State.cfgWaits (s : State) : Bool := showMode s.mode && s.hoists

/-- The effect of SUB 0 or 1. -/
def ringCfgEffect (b : List Byte) (s : State) : State :=
  if byteAt b 0 = 0 then ringIdSet b s else { s with ring := { s.ring with map := mapAfter b s.ring.map } }

/-- The effect at once, or at the first hoist from now on.
[DEDUCED, unsafe, log 53] -/
def ringCfgApply (b : List Byte) (s : State) : State :=
  if s.cfgWaits then { s with ring := { s.ring with cfgDue := s.ring.cfgDue ++ [b] } } else ringCfgEffect b s

/-- The hoist at which the changes take effect.
[DEDUCED, unsafe, log 53] -/
def ringCfgAtHoist (s : State) : State :=
  s.ring.cfgDue.foldl (fun t b => ringCfgEffect b t) { s with ring := { s.ring with cfgDue := [] } }

/-- The wall map with the parts that wait.
[DEDUCED, unsafe, log 53] -/
def State.mapDue (s : State) : List (Nat × MapEntry) :=
  (s.ring.cfgDue.filter fun b => byteAt b 0 == 1).foldl (fun m b => mapAfter b m) s.ring.map

/-- RING_CFG. -/
def ringCfg (id now : Nat) (s : State) : State :=
  withStarted id 0x4001 (s.atTime now) fun c =>
    let s0 := s.atTime now
    let b := c.params
    let refuse := fun (st : Nat) => finish id st [] s0
    match byteAt b 0 with
    | 0 =>
      if ringIdBad b then refuse Status.badParam
      else if s0.ringIdDenied b then refuse Status.denied
      else finish id Status.ok (leBytes 8 (leAt b 2 2)) (ringCfgApply b s0)
    | 1 =>
      if mapBad b s0.mapDue then refuse Status.badParam
      else finish id Status.ok (leBytes 8 (mapCrc (mapAfter b s0.mapDue))) (ringCfgApply b s0)
    | 2 =>
      if s0.schedBad b then refuse Status.badParam
      else if !s0.role 1 then refuse Status.denied
      else
        let r := changeSched (leAt b 8 6) (leAt b 16 4) (leAt b 20 4) s0
        finish id Status.ok (leBytes 4 r.2 ++ leBytes 4 0) (scheduleFrameSend r.1)
    | _ => refuse Status.badParam

/-! ### GCL_LOAD (R509) -/

/-- The entries of the command: duration and gates. -/
def gclEntries (b : List Byte) : List (Nat × Nat) :=
  (List.range (byteAt b 1)).map fun j => (leAt b (8 + 8 * j) 4, byteAt b (12 + 8 * j))

/-- The lengths of the runs of consecutive entries that open a class, `cur` being the run in hand. -/
def openRuns (cls : Nat) : List (Nat × Nat) → Option Nat → List Nat
  | [], cur => cur.toList
  | (d, g) :: t, cur =>
    if bitOf g cls then openRuns cls t (some (cur.getD 0 + d)) else cur.toList ++ openRuns cls t none

/-- Does an interval in which a class is open last less than 172 ticks? The list repeats cycle by cycle, so the list is read from
after an entry that closes the class.
[DEDUCED, unsafe, log 46] -/
def shortOpen (l : List (Nat × Nat)) (cls : Nat) : Bool :=
  let a := l.takeWhile fun e => bitOf e.2 cls
  let rest := l.drop a.length
  if rest.isEmpty then false else (openRuns cls (rest ++ a) none).any fun n => decide (n < 172)

/-- The entries with the last one's duration: to the end of the cycle, or unbounded while there is no schedule.
[DEDUCED, unsafe, log 46] -/
def gclFull (l : List (Nat × Nat)) (period : Nat) : List (Nat × Nat) :=
  let sum := (l.map (·.1)).sum
  let last := if period = 0 then 2 ^ 40 else period / 65536 / 8 - sum
  l.dropLast ++ (l.getLast?.map fun e => (last, e.2)).toList

def gclBad (b : List Byte) (period : Nat) : Bool :=
  let l := gclEntries b
  let sum := (l.map (·.1)).sum
  let ports := byteAt b 0
  ports == 0 || decide (4 ≤ ports) || l.isEmpty || decide (64 < l.length) || b.length != 8 + 8 * l.length || !zeroAt b 2 6
    || (List.range l.length).any (fun j => !zeroAt b (13 + 8 * j) 3)
    || l.any (fun e => decide (32 ≤ e.2) || !bitOf e.2 0 || !bitOf e.2 2)
    || ((l.getLast?.map (·.1)).getD 1) != 0 || l.dropLast.any (fun e => e.1 == 0)
    || (period != 0 && decide (period ≤ sum * 8 * 65536))
    || [1, 3, 4].any (shortOpen (gclFull l period))

/-- GCL_LOAD: the list waits for the next cycle start; while no hoist runs it takes effect at once (R598).
[DEDUCED, unsafe, log 46] -/
def gclLoad (id : Nat) (s : State) : State :=
  withStarted id 0x4002 s fun c =>
    let b := c.params
    if gclBad b (s.fld F.TSU_SCHED1_PERIOD) then finish id Status.badParam [] s
    else
      let l := gclEntries b
      let s1 := [0, 1].foldl (fun t n =>
        if bitOf (byteAt b 0) n then t.setRport n { t.rport n with gclNext := some l } else t) s
      if s1.hoists then finish id Status.ok (leBytes 4 (s1.frame + 1) ++ leBytes 4 0) s1
      else finish id Status.ok (leBytes 4 0xFFFFFFFF ++ leBytes 4 0) (gclTakeEffect s1)

/-- RING_CFG (R523): RING_CFG commissions the ring identity, ports and area, loads the wall map, or sets the schedule. -/
def execRingCfg (id now : Nat) (s : State) : Answer := .next (whileClocked s (ringCfg id now s))
/-- GCL_LOAD (R509): GCL_LOAD loads a gate control list for one or both ports. -/
def execGclLoad (id : Nat) (s : State) : Answer := .next (whileClocked s (gclLoad id s))

end Sys2Proof.Machine
end

