-- ==== Sys2Proof/Machine/Hoist.lean ====
section
/-!
DEFINITION. The hoist (R32, R81, R83, R240, R265, R332, R404, R405, R449, R451, R476, R479, R509, R520).
-/

namespace Sys2Proof.Machine

/-- Can the next hoist be that of frame n: every frame in its turn, the first one from the first frame of the schedule on?
[DEDUCED, unsafe, log 47] -/
def State.hoistOk (s : State) (n : Nat) : Bool :=
  s.cclkOn && s.hoists && (if s.tsu.ran then n == s.frame + 1 else decide (s.frame ≤ n) && decide (s.tsu.n0 ≤ n))

/-- Half-Mast is entered, or left (R479). -/
def halfMastChange (m : Nat) (s : State) : State := modeDone ((enterMode m s).raise 83)

/-- The change between Display and Half-Mast at a hoist (R478, R479).
[DEDUCED, unsafe, log 56] -/
def halfMastAtHoist (s : State) : State :=
  let due := s.ba.emergDue
  let s1 := { s with ba := { s.ba with emergDue := false } }
  if s.mode = Mode.display && (due || decide (s.fld F.BA_SLEW_HMENT ≤ s.ba.limRun)) then halfMastChange Mode.halfMast s1
  else if s.mode = Mode.halfMast && decide (s.fld F.BA_SLEW_HMEXIT ≤ s.ba.freeRun) && !s.flag F.BA_STAT_EMERG then
    halfMastChange Mode.display s1
  else s1

/-- The commands that complete at a hoist: UNIT_SET and TENANT_CLOSE (R240, R265). -/
def commandsAtHoist (s : State) : State :=
  let ids := s.cmds.atHoist
  ids.foldl (fun t id => match t.cmd? id with
    | some c => if c.opc = 0x0007 then unitSetDone id t else tenantCloseDone id t
    | none => t) { s with cmds := { s.cmds with atHoist := [] } }

/-- Does the engine decode the frame that opens now: a member in Display or Half-Mast, or about to enter Display (R83, R332)?
[DEDUCED, unsafe, log 52] -/
def State.decodes (s : State) : Bool :=
  s.role 0 && (s.mode == Mode.display || s.mode == Mode.halfMast
    || (match s.ao.modeWait with | some w => w.target == Mode.display | none => false))

/-- What a hoist does in units that Halt leaves running: time, schedule, gates, policing periods, timers.
[DEDUCED, unsafe, log 65] -/
def hoistTimeSide (n : Nat) (s : State) : State :=
  let s1 := gclTakeEffect (tsuHoist n s)
  let s2 := s1.setRport 0 { s1.rport 0 with entry := 0 }
  let s3 := s2.setRport 1 { s2.rport 1 with entry := 0 }
  tmrEvent 0x09 true false { s3 with ring := { s3.ring with polDrop := false, authDrop := false } }

/-- What a hoist does in the units that Halt stops (R574). -/
def hoistWork (n : Nat) (s : State) : State :=
  let s1 := ringCfgAtHoist (seqEvent 49 (seqEvent 48 s))
  let s2 := halfMastAtHoist (modeAtHoist n (lightPathHoist (budgetHoist n s1)))
  let s3 := commandsAtHoist (tenantsOpened s2)
  let s4 := (List.range 64).foldl (fun t k => puCfgEffect k true t) s3
  openFrame (if s4.decodes then some (n + 1) else none) s4

/-- H(n).
[DEDUCED, unsafe, log 65] -/
def hoist (n : Nat) (s : State) : State :=
  if !s.hoistOk n then s
  else
    let s1 := hoistTimeSide n s
    settle (if s1.live then hoistWork n s1 else s1)

/-- HOIST (R520): The TSU raises the hoist event at H(N), driving latches, marks, windows and frame counting. -/
def execHoist (n : Nat) (s : State) : Answer := .next (hoist n s)

/-- The hoist at which an accepted MODE_SET to Display takes effect (R83). -/
def execDisplayEntry (n : Nat) (s : State) : Answer :=
  .next (match s.modeDue n with
    | some w => if w.target = Mode.display then hoist n s else s
    | none => s)

/-- The hoist at which a MODE_SET leaves Display or Half-Mast (R81). -/
def execLeaveDisplayAtHoist (n : Nat) (s : State) : Answer :=
  .next (match s.modeDue n with
    | some w => if w.target ≠ Mode.display then hoist n s else s
    | none => s)

end Sys2Proof.Machine
end

