-- ==== Sys2Proof/Machine/Dispatch.lean ====
section
/-!
DEFINITION. exec: one arm per command, each one direct call of the command's meaning.
-/

namespace Sys2Proof.Machine

def exec (i : Instr) (s : State) : Host.Outcome State Fault Refusal :=
  match i with
  | .powerOnReset => Sys2Proof.Machine.execPowerOnReset s
  | .powerOnResetRelease => Sys2Proof.Machine.execPowerOnResetRelease s
  | .pwrgoodRise => Sys2Proof.Machine.execPwrgoodRise s
  | .pwrgoodFall => Sys2Proof.Machine.execPwrgoodFall s
  | .suppliesRemoved => Sys2Proof.Machine.execSuppliesRemoved s
  | .fillComplete => Sys2Proof.Machine.execFillComplete s
  | .coreRelease => Sys2Proof.Machine.execCoreRelease s
  | .engineReset => Sys2Proof.Machine.execEngineReset s
  | .engineResetRelease => Sys2Proof.Machine.execEngineResetRelease s
  | .watchdogWarning => Sys2Proof.Machine.execWatchdogWarning s
  | .watchdogReset => Sys2Proof.Machine.execWatchdogReset s
  | .watchdogKick v => Sys2Proof.Machine.execWatchdogKick v s
  | .softReset id => Sys2Proof.Machine.execSoftReset id s
  | .softResetEffect => Sys2Proof.Machine.execSoftResetEffect s
  | .unitReset id => Sys2Proof.Machine.execUnitReset id s
  | .synthLockLost d => Sys2Proof.Machine.execSynthLockLost d s
  | .cclkMulWrite w v => Sys2Proof.Machine.execCclkMulWrite w v s
  | .pnMulWrite w v => Sys2Proof.Machine.execPnMulWrite w v s
  | .releaseTestWindow d count locked => Sys2Proof.Machine.execReleaseTestWindow d count locked s
  | .pnclkRelockTimeout => Sys2Proof.Machine.execPnclkRelockTimeout s
  | .refclkLost => Sys2Proof.Machine.execRefclkLost s
  | .modeSet id => Sys2Proof.Machine.execModeSet id s
  | .displayEntry n => Sys2Proof.Machine.execDisplayEntry n s
  | .leaveDisplayAtHoist n => Sys2Proof.Machine.execLeaveDisplayAtHoist n s
  | .sleepEntry => Sys2Proof.Machine.execSleepEntry s
  | .hptSlpAck => Sys2Proof.Machine.execHptSlpAck s
  | .hptSleepTimeout => Sys2Proof.Machine.execHptSleepTimeout s
  | .wakePinEdge k rising => Sys2Proof.Machine.execWakePinEdge k rising s
  | .hptWakeEdge => Sys2Proof.Machine.execHptWakeEdge s
  | .wakeFrameMatch frame => Sys2Proof.Machine.execWakeFrameMatch frame s
  | .watcherHit src => Sys2Proof.Machine.execWatcherHit src s
  | .wakeSequence => Sys2Proof.Machine.execWakeSequence s
  | .hptRequest wr addr be wdata tid clash => Sys2Proof.Machine.execHptRequest wr addr be wdata tid clash s
  | .hptResponse => Sys2Proof.Machine.execHptResponse s
  | .registerWrite w off be data => Sys2Proof.Machine.execRegisterWrite w off be data s
  | .mptRequestIssue n slot idle => Sys2Proof.Machine.execMptRequestIssue n slot idle s
  | .mptReadResponse n aid rerr raw => Sys2Proof.Machine.execMptReadResponse n aid rerr raw s
  | .mptWriteResponse n aid berr => Sys2Proof.Machine.execMptWriteResponse n aid berr s
  | .mptRequestOverdue n aid => Sys2Proof.Machine.execMptRequestOverdue n aid s
  | .mptEnWrite w n en => Sys2Proof.Machine.execMptEnWrite w n en s
  | .mptCwinWrite w n k v => Sys2Proof.Machine.execMptCwinWrite w n k v s
  | .correctionWriteBack st addr => Sys2Proof.Machine.execCorrectionWriteBack st addr s
  | .scrubOwnWrite b v => Sys2Proof.Machine.execScrubOwnWrite b v s
  | .spmBankReleaseDone b => Sys2Proof.Machine.execSpmBankReleaseDone b s
  | .scrubInjArm w v => Sys2Proof.Machine.execScrubInjArm w v s
  | .scrub id => Sys2Proof.Machine.execScrub id s
  | .scrubDone space => Sys2Proof.Machine.execScrubDone space s
  | .microwordExecute sq => Sys2Proof.Machine.execMicrowordExecute sq s
  | .synBarrierComplete f => Sys2Proof.Machine.execSynBarrierComplete f s
  | .hangLimit sq => Sys2Proof.Machine.execHangLimit sq s
  | .retire sq => Sys2Proof.Machine.execRetire sq s
  | .seqStop sq => Sys2Proof.Machine.execSeqStop sq s
  | .seqStart sq => Sys2Proof.Machine.execSeqStart sq s
  | .synfWrite w f be v => Sys2Proof.Machine.execSynfWrite w f be v s
  | .ucodeLoad id => Sys2Proof.Machine.execUcodeLoad id s
  | .custopDef id => Sys2Proof.Machine.execCustopDef id s
  | .mov rd rs => Sys2Proof.Machine.execMov rd rs s
  | .add f => Sys2Proof.Machine.execAdd f s
  | .adc rd ra rb => Sys2Proof.Machine.execAdc rd ra rb s
  | .sub f => Sys2Proof.Machine.execSub f s
  | .sbc rd ra rb => Sys2Proof.Machine.execSbc rd ra rb s
  | .and f => Sys2Proof.Machine.execAnd f s
  | .or f => Sys2Proof.Machine.execOr f s
  | .xor f => Sys2Proof.Machine.execXor f s
  | .shl f => Sys2Proof.Machine.execShl f s
  | .shr f => Sys2Proof.Machine.execShr f s
  | .sar f => Sys2Proof.Machine.execSar f s
  | .rol rd ra rb => Sys2Proof.Machine.execRol rd ra rb s
  | .min rd ra rb => Sys2Proof.Machine.execMin rd ra rb s
  | .max rd ra rb => Sys2Proof.Machine.execMax rd ra rb s
  | .clz rd ra rb => Sys2Proof.Machine.execClz rd ra rb s
  | .slt rd ra rb => Sys2Proof.Machine.execSlt rd ra rb s
  | .sltu rd ra rb => Sys2Proof.Machine.execSltu rd ra rb s
  | .cmp rd rs => Sys2Proof.Machine.execCmp rd rs s
  | .movi rd imm => Sys2Proof.Machine.execMovi rd imm s
  | .addi f => Sys2Proof.Machine.execAddi f s
  | .andi rd ra imm => Sys2Proof.Machine.execAndi rd ra imm s
  | .ori rd ra imm => Sys2Proof.Machine.execOri rd ra imm s
  | .xori rd ra imm => Sys2Proof.Machine.execXori rd ra imm s
  | .shli rd imm => Sys2Proof.Machine.execShli rd imm s
  | .shri rd imm => Sys2Proof.Machine.execShri rd imm s
  | .sari rd imm => Sys2Proof.Machine.execSari rd imm s
  | .cmpi rd imm => Sys2Proof.Machine.execCmpi rd imm s
  | .tstb rd imm => Sys2Proof.Machine.execTstb rd imm s
  | .lw f => Sys2Proof.Machine.execLw f s
  | .sw f => Sys2Proof.Machine.execSw f s
  | .lh rd ra imm => Sys2Proof.Machine.execLh rd ra imm s
  | .lhu rd ra imm => Sys2Proof.Machine.execLhu rd ra imm s
  | .lb rd ra imm => Sys2Proof.Machine.execLb rd ra imm s
  | .lbu rd ra imm => Sys2Proof.Machine.execLbu rd ra imm s
  | .sh rd ra imm => Sys2Proof.Machine.execSh rd ra imm s
  | .sb rd ra imm => Sys2Proof.Machine.execSb rd ra imm s
  | .ldd rd ra imm => Sys2Proof.Machine.execLdd rd ra imm s
  | .std rd ra imm => Sys2Proof.Machine.execStd rd ra imm s
  | .jr rs => Sys2Proof.Machine.execJr rs s
  | .jalr rd ra imm => Sys2Proof.Machine.execJalr rd ra imm s
  | .lui rd imm => Sys2Proof.Machine.execLui rd imm s
  | .jmp off => Sys2Proof.Machine.execJmp off s
  | .call off => Sys2Proof.Machine.execCall off s
  | .br off => Sys2Proof.Machine.execBr off s
  | .beq off => Sys2Proof.Machine.execBeq off s
  | .bne off => Sys2Proof.Machine.execBne off s
  | .blt off => Sys2Proof.Machine.execBlt off s
  | .bge off => Sys2Proof.Machine.execBge off s
  | .bltu off => Sys2Proof.Machine.execBltu off s
  | .bgeu off => Sys2Proof.Machine.execBgeu off s
  | .bndv off => Sys2Proof.Machine.execBndv off s
  | .bc cond off => Sys2Proof.Machine.execBc cond off s
  | .mfq rd rs => Sys2Proof.Machine.execMfq rd rs s
  | .mul rd rs => Sys2Proof.Machine.execMul rd rs s
  | .mulu rd rs => Sys2Proof.Machine.execMulu rd rs s
  | .multiplyLand => Sys2Proof.Machine.execMultiplyLand s
  | .div rd rs => Sys2Proof.Machine.execDiv rd rs s
  | .divu rd rs => Sys2Proof.Machine.execDivu rd rs s
  | .divideLand => Sys2Proof.Machine.execDivideLand s
  | .mfstat rd => Sys2Proof.Machine.execMfstat rd s
  | .mtstat ra => Sys2Proof.Machine.execMtstat ra s
  | .sys n => Sys2Proof.Machine.execSys n s
  | .rtt => Sys2Proof.Machine.execRtt s
  | .brk => Sys2Proof.Machine.execBrk s
  | .wfi => Sys2Proof.Machine.execWfi s
  | .fence => Sys2Proof.Machine.execFence s
  | .hold fn => Sys2Proof.Machine.execHold fn s
  | .rels => Sys2Proof.Machine.execRels s
  | .holdExpiry => Sys2Proof.Machine.execHoldExpiry s
  | .lmov ra => Sys2Proof.Machine.execLmov ra s
  | .lmovComplete id => Sys2Proof.Machine.execLmovComplete id s
  | .custom cx rd ra rb xx => Sys2Proof.Machine.execCustom cx rd ra rb xx s
  | .customTimeout => Sys2Proof.Machine.execCustomTimeout s
  | .illegalInstruction long w => Sys2Proof.Machine.execIllegalInstruction long w s
  | .interruptTaken => Sys2Proof.Machine.execInterruptTaken s
  | .machineCheckTrap => Sys2Proof.Machine.execMachineCheckTrap s
  | .hookTimeout => Sys2Proof.Machine.execHookTimeout s
  | .submissionDoorbell k tail => Sys2Proof.Machine.execSubmissionDoorbell k tail s
  | .cqHeadWrite k head => Sys2Proof.Machine.execCqHeadWrite k head s
  | .cmdCfgEnWrite k en => Sys2Proof.Machine.execCmdCfgEnWrite k en s
  | .packetAccept heads => Sys2Proof.Machine.execPacketAccept heads s
  | .commandStart id => Sys2Proof.Machine.execCommandStart id s
  | .nop id => Sys2Proof.Machine.execNop id s
  | .cancel id => Sys2Proof.Machine.execCancel id s
  | .wallStatus id now => Sys2Proof.Machine.execWallStatus id now s
  | .unitQuery id => Sys2Proof.Machine.execUnitQuery id s
  | .unitSet id => Sys2Proof.Machine.execUnitSet id s
  | .unitStateReport => Sys2Proof.Machine.execUnitStateReport s
  | .tenantOpen id => Sys2Proof.Machine.execTenantOpen id s
  | .tenantClose id => Sys2Proof.Machine.execTenantClose id s
  | .keyLoad id => Sys2Proof.Machine.execKeyLoad id s
  | .keyInfo id => Sys2Proof.Machine.execKeyInfo id s
  | .gatewayReplyTimeout xid => Sys2Proof.Machine.execGatewayReplyTimeout xid s
  | .aggregateReply xid => Sys2Proof.Machine.execAggregateReply xid s
  | .customerCommand id => Sys2Proof.Machine.execCustomerCommand id s
  | .calLoad id => Sys2Proof.Machine.execCalLoad id s
  | .budgetCfg id => Sys2Proof.Machine.execBudgetCfg id s
  | .ceilSet id => Sys2Proof.Machine.execCeilSet id s
  | .ringCfg id now => Sys2Proof.Machine.execRingCfg id now s
  | .gclLoad id => Sys2Proof.Machine.execGclLoad id s
  | .gclTakeEffect => Sys2Proof.Machine.execGclTakeEffect s
  | .loopback id => Sys2Proof.Machine.execLoopback id s
  | .approve id now => Sys2Proof.Machine.execApprove id now s
  | .grant id => Sys2Proof.Machine.execGrant id s
  | .grantEnd n => Sys2Proof.Machine.execGrantEnd n s
  | .selftest id => Sys2Proof.Machine.execSelftest id s
  | .puCfg id => Sys2Proof.Machine.execPuCfg id s
  | .clipAdd id => Sys2Proof.Machine.execClipAdd id s
  | .play id now => Sys2Proof.Machine.execPlay id now s
  | .playEffect c n => Sys2Proof.Machine.execPlayEffect c n s
  | .plyCatEnable w v => Sys2Proof.Machine.execPlyCatEnable w v s
  | .playoutFrame c n now => Sys2Proof.Machine.execPlayoutFrame c n now s
  | .feedArm w f v now => Sys2Proof.Machine.execFeedArm w f v now s
  | .feedStop w f => Sys2Proof.Machine.execFeedStop w f s
  | .feedPost f buf => Sys2Proof.Machine.execFeedPost f buf s
  | .feedBind f n now => Sys2Proof.Machine.execFeedBind f n now s
  | .sliceEncodeDispatch n now => Sys2Proof.Machine.execSliceEncodeDispatch n now s
  | .sliceQueued n choices => Sys2Proof.Machine.execSliceQueued n choices s
  | .sendDeadline src n => Sys2Proof.Machine.execSendDeadline src n s
  | .unitSend src now => Sys2Proof.Machine.execUnitSend src now s
  | .sliceRowDispatch n => Sys2Proof.Machine.execSliceRowDispatch n s
  | .rowPublish n => Sys2Proof.Machine.execRowPublish n s
  | .bandClose b => Sys2Proof.Machine.execBandClose b s
  | .lightPathBandStart b => Sys2Proof.Machine.execLightPathBandStart b s
  | .hoist n => Sys2Proof.Machine.execHoist n s
  | .subperiodStart k => Sys2Proof.Machine.execSubperiodStart k s
  | .bandLoadSend n => Sys2Proof.Machine.execBandLoadSend n s
  | .setCurrentSend n => Sys2Proof.Machine.execSetCurrentSend n s
  | .latchSend => Sys2Proof.Machine.execLatchSend s
  | .rawCommandInsert n => Sys2Proof.Machine.execRawCommandInsert n s
  | .readStatusRound n first count => Sys2Proof.Machine.execReadStatusRound n first count s
  | .laneReply k syms inv codeErr => Sys2Proof.Machine.execLaneReply k syms inv codeErr s
  | .laneReplyTimeout k => Sys2Proof.Machine.execLaneReplyTimeout k s
  | .laneTrainStart n => Sys2Proof.Machine.execLaneTrainStart n s
  | .laneStateTimer n => Sys2Proof.Machine.execLaneStateTimer n s
  | .laneReprobe n => Sys2Proof.Machine.execLaneReprobe n s
  | .lanePadShort n => Sys2Proof.Machine.execLanePadShort n s
  | .gclkPadShort g => Sys2Proof.Machine.execGclkPadShort g s
  | .returnLaneShort k present => Sys2Proof.Machine.execReturnLaneShort k present s
  | .lpModGeomWrite w m v => Sys2Proof.Machine.execLpModGeomWrite w m v s
  | .puPeriodBoundary n => Sys2Proof.Machine.execPuPeriodBoundary n s
  | .puImmediatePer w n per => Sys2Proof.Machine.execPuImmediatePer w n per s
  | .puForceWrite w n fh fl => Sys2Proof.Machine.execPuForceWrite w n fh fl s
  | .puSync mask => Sys2Proof.Machine.execPuSync mask s
  | .rowModeStart m => Sys2Proof.Machine.execRowModeStart m s
  | .padReadbackMismatch n high present => Sys2Proof.Machine.execPadReadbackMismatch n high present s
  | .tripAssert k => Sys2Proof.Machine.execTripAssert k s
  | .blankWindowEnd k => Sys2Proof.Machine.execBlankWindowEnd k s
  | .tripDeassert k => Sys2Proof.Machine.execTripDeassert k s
  | .tripLatchClear w mask => Sys2Proof.Machine.execTripLatchClear w mask s
  | .tripSwSet => Sys2Proof.Machine.execTripSwSet s
  | .timerStep n edges => Sys2Proof.Machine.execTimerStep n edges s
  | .timerCapture n => Sys2Proof.Machine.execTimerCapture n s
  | .timerCaplRead n => Sys2Proof.Machine.execTimerCaplRead n s
  | .timerPairCommit n p hi => Sys2Proof.Machine.execTimerPairCommit n p hi s
  | .timerSourceWrite w n v => Sys2Proof.Machine.execTimerSourceWrite w n v s
  | .timerSourceLost n => Sys2Proof.Machine.execTimerSourceLost n s
  | .timerSourceReturn n => Sys2Proof.Machine.execTimerSourceReturn n s
  | .tmrSync mask => Sys2Proof.Machine.execTmrSync mask s
  | .tmrSwcap mask => Sys2Proof.Machine.execTmrSwcap mask s
  | .budgetReportSend now => Sys2Proof.Machine.execBudgetReportSend now s
  | .ledgerSolve now => Sys2Proof.Machine.execLedgerSolve now s
  | .leaseBlockSend now => Sys2Proof.Machine.execLeaseBlockSend now s
  | .leaseDeadline now => Sys2Proof.Machine.execLeaseDeadline now s
  | .senseRead word alert => Sys2Proof.Machine.execSenseRead word alert s
  | .senseLost k => Sys2Proof.Machine.execSenseLost k s
  | .emergClear => Sys2Proof.Machine.execEmergClear s
  | .linkUp n now => Sys2Proof.Machine.execLinkUp n now s
  | .linkDown n => Sys2Proof.Machine.execLinkDown n s
  | .portHoldExpiry n => Sys2Proof.Machine.execPortHoldExpiry n s
  | .preemptVerifySend n => Sys2Proof.Machine.execPreemptVerifySend n s
  | .preemptRespond n => Sys2Proof.Machine.execPreemptRespond n s
  | .preemptVerifyTimeout n => Sys2Proof.Machine.execPreemptVerifyTimeout n s
  | .frameReceive p now f => Sys2Proof.Machine.execFrameReceive p now f s
  | .egressStart n now => Sys2Proof.Machine.execEgressStart n now s
  | .supervisionSend => Sys2Proof.Machine.execSupervisionSend s
  | .nodeForget cab => Sys2Proof.Machine.execNodeForget cab s
  | .dupWindowClear who src => Sys2Proof.Machine.execDupWindowClear who src s
  | .replayRecordExpiry sender tenant keyid => Sys2Proof.Machine.execReplayRecordExpiry sender tenant keyid s
  | .reassemblyForget sender tenant => Sys2Proof.Machine.execReassemblyForget sender tenant s
  | .gateEntryChange n => Sys2Proof.Machine.execGateEntryChange n s
  | .syncSend => Sys2Proof.Machine.execSyncSend s
  | .pdelayExchange n partner mld => Sys2Proof.Machine.execPdelayExchange n partner mld s
  | .syncTimeout => Sys2Proof.Machine.execSyncTimeout s
  | .domainChoice missed => Sys2Proof.Machine.execDomainChoice missed s
  | .scheduleFrameSend => Sys2Proof.Machine.execScheduleFrameSend s
  | .scheduleGovern => Sys2Proof.Machine.execScheduleGovern s
  | .latencyRaise now => Sys2Proof.Machine.execLatencyRaise now s
  | .ensignLost => Sys2Proof.Machine.execEnsignLost s
  | .doorbellWrite w src add => Sys2Proof.Machine.execDoorbellWrite w src add s
  | .dicSelect => Sys2Proof.Machine.execDicSelect s
  | .dicLand t fast => Sys2Proof.Machine.execDicLand t fast s
  | .holdoffExpiry g => Sys2Proof.Machine.execHoldoffExpiry g s
  | .dicClaim w t => Sys2Proof.Machine.execDicClaim w t s
  | .dicComplete w t src => Sys2Proof.Machine.execDicComplete w t src s
  | .dicTargetDisable t => Sys2Proof.Machine.execDicTargetDisable t s
  | .dicSourceMask src en => Sys2Proof.Machine.execDicSourceMask src en s
  | .dicSourceClear src => Sys2Proof.Machine.execDicSourceClear src s
  | .tduHalt jtag => Sys2Proof.Machine.execTduHalt jtag s
  | .tduResume => Sys2Proof.Machine.execTduResume s
  | .tduStep => Sys2Proof.Machine.execTduStep s
  | .stepDone => Sys2Proof.Machine.execStepDone s
  | .comparatorMatch k acc addr lvl trapped => Sys2Proof.Machine.execComparatorMatch k acc addr lvl trapped s
  | .tduCcrWrite r v => Sys2Proof.Machine.execTduCcrWrite r v s
  | .tduStimWrite k v => Sys2Proof.Machine.execTduStimWrite k v s
  | .tduEchoWrite be v => Sys2Proof.Machine.execTduEchoWrite be v s
  | .tapReset => Sys2Proof.Machine.execTapReset s
  | .extest => Sys2Proof.Machine.execExtest s
  | .samplePreload cells => Sys2Proof.Machine.execSamplePreload cells s
  | .clamp => Sys2Proof.Machine.execClamp s
  | .highz => Sys2Proof.Machine.execHighz s
  | .dbgacc acc => Sys2Proof.Machine.execDbgacc acc s
  | .dbgrst => Sys2Proof.Machine.execDbgrst s
  | .bypass => Sys2Proof.Machine.execBypass s
  | .seqMemReadLand sq => Sys2Proof.Machine.execSeqMemReadLand sq s
  | .stageOperationDone sq k => Sys2Proof.Machine.execStageOperationDone sq k s
  | .puCarrierEdge n => Sys2Proof.Machine.execPuCarrierEdge n s
  | .refclkReturn => Sys2Proof.Machine.execRefclkReturn s
  | .loopbackDone kind unit sent errors first lost dups elapsed => Sys2Proof.Machine.execLoopbackDone kind unit sent errors first lost dups elapsed s
  | .selftestDone out => Sys2Proof.Machine.execSelftestDone out s
  | .ucodeLoadDone id => Sys2Proof.Machine.execUcodeLoadDone id s

end Sys2Proof.Machine
end

