-- ==== Sys2Proof/Machine/Step.lean ====
section
/-!
DEFINITION. One step: the command at the front of the queue; on an empty queue the trace FIFO drains, and otherwise the block idles.
-/

namespace Sys2Proof.Machine

/-- Take the command at the front of the queue and run it with the queue's rest (notes/assumptions/3.md).
[DESIGN CHOICE, unsafe, log 3]
[DESIGN CHOICE, safe, log 4] -/
def step (s : State) : Host.Outcome State Fault Refusal :=
  match s.pending with
  | [] => .next (traceDrain s)
  | c :: rest => exec c { s with pending := rest }

/-- Put a command at the front of the queue.
[DESIGN CHOICE, safe, log 4] -/
def State.withCommand (s : State) (c : Instr) : State := { s with pending := c :: s.pending }

/-- Put the command that a word spells at the front of the queue; nothing where it spells none.
[DESIGN CHOICE, safe, log 4] -/
def State.withFetchWord (s : State) (nbits w : Nat) : State :=
  match Sys2Proof.decodeTableWord nbits w with
  | some c => s.withCommand c
  | none => s

end Sys2Proof.Machine
end

