-- ==== Sys2Proof/Safety.lean ====
section
/-!
DEFINITION. What counts as a sound state: the sparse maps are canonical, the pulse outputs obey a hold, the engine that ENG_DIS
disables stays in power-on reset.
-/

namespace Sys2Proof.Machine

/-- The register file is canonical: offsets rise, and no entry equals its register's reset value. -/
def State.rfWf (s : State) : Bool := SMap.wf (regReset s.build) s.rf

/-- HB and SPM are canonical. -/
def State.storesWf (s : State) : Bool := s.hb.wf && s.spm.wf

/-- ENG_DIS holds the whole engine, the AO island included, in power-on reset (R61): without supplies nothing is kept; with them no
register differs from its reset value, HB and SPM hold nothing. -/
def State.disabled (s : State) : Bool :=
  s.ao.engDis && (!s.ao.supplies || (s.ao.porHeld && s.rf.isEmpty && s.hb == .zero && s.spm == .zero))

/-! ### What a command leaves alone -/

/-- The registers in which the engine reports events beside a command's own effect: AO_WAKEST, the AO watcher, the counts of the
doorbell sources, the unit states, the timers, the trace statistics. -/
def reportOff (off : Nat) : Bool :=
  off == 0x010020 || (decide (0x020800 ≤ off) && decide (off < 0x020A00)) || (decide (0x028000 ≤ off) && decide (off < 0x030000))
    || (decide (0x038000 ≤ off) && decide (off < 0x03A000)) || (decide (0x2C0000 ≤ off) && decide (off < 0x2C1000)) || off == 0x500018

/-- `t` differs from `s` at most by reports: registers of `reportOff`, a wake that starts, a unit-state report that becomes due,
timers that stop or capture, trace packets. Memory, the core, the commands, the modes, every other register stay. -/
structure Reports (s t : State) : Prop where
  rest : t = { s with
    rf := t.rf, ao := { s.ao with waking := t.ao.waking, wakeHeld := t.ao.wakeHeld }, cmds := { s.cmds with reportDue := t.cmds.reportDue }
    tmrs := t.tmrs, tmrDue := t.tmrDue, freeCtr := t.freeCtr, tsu := { s.tsu with now := t.tsu.now }
    tdu := { s.tdu with fifo := t.tdu.fifo, owed := t.tdu.owed, sinceSync := t.tdu.sinceSync } }
  regs : ∀ off, reportOff off = false → t.reg off = s.reg off

/-- A command has run: it answers a next state of which `P` holds. -/
def Runs (c : Instr) (s : State) (P : State → Prop) : Prop := ∃ t, exec c s = .next t ∧ P t

/-- A command has run and changed nothing. -/
abbrev Inert (c : Instr) (s : State) : Prop := exec c s = .next s

/-- `t` differs from `s` in registers of `offs`, and beside them at most by reports. -/
structure Touches (offs : List Nat) (s t : State) : Prop where
  rest : t = { s with
    rf := t.rf, ao := { s.ao with waking := t.ao.waking, wakeHeld := t.ao.wakeHeld }, cmds := { s.cmds with reportDue := t.cmds.reportDue }
    tmrs := t.tmrs, tmrDue := t.tmrDue, freeCtr := t.freeCtr, tsu := { s.tsu with now := t.tsu.now }
    tdu := { s.tdu with fifo := t.tdu.fifo, owed := t.tdu.owed, sinceSync := t.tdu.sinceSync } }
  regs : ∀ off, off ∉ offs → reportOff off = false → t.reg off = s.reg off

/-- Field `f` of `t` reads `v`; every other register, and every other field of this one, is as in `s`; nothing else has changed. -/
structure FieldTakes (s : State) (f : FRef) (v : Nat) (t : State) : Prop where
  rest : t = { s with rf := t.rf }
  value : t.fld f = v
  field : ∀ g : FRef, g.off = f.off → g.lo + g.w ≤ 64 → (g.lo + g.w ≤ f.lo ∨ f.lo + f.w ≤ g.lo) → t.fld g = s.fld g
  regs : ∀ off, off ≠ f.off → t.reg off = s.reg off

/-- The commands that need CCLK: register accesses, packets and commands, instructions, microwords, the DIC, the ring, the light path,
the codec, the budget, the memory ports. -/
def needsCclk : Instr → Bool
  | .powerOnReset | .powerOnResetRelease | .pwrgoodRise | .pwrgoodFall | .suppliesRemoved | .fillComplete | .coreRelease
  | .engineReset | .engineResetRelease | .watchdogWarning | .watchdogReset | .synthLockLost _ | .releaseTestWindow _ _ _
  | .pnclkRelockTimeout | .refclkLost | .refclkReturn | .sleepEntry | .hptSlpAck | .hptSleepTimeout | .wakePinEdge _ _
  | .hptWakeEdge | .wakeFrameMatch _ | .watcherHit _ | .wakeSequence | .puPeriodBoundary _ | .puCarrierEdge _ | .rowModeStart _
  | .padReadbackMismatch _ _ _ | .lanePadShort _ | .gclkPadShort _ | .tripAssert _ | .blankWindowEnd _ | .tripDeassert _ | .timerStep _ _ | .timerCapture _
  | .timerSourceLost _ | .timerSourceReturn _ | .tduHalt _ | .tapReset | .extest | .samplePreload _ | .clamp | .highz | .dbgacc _
  | .dbgrst | .bypass => false
  | _ => true

/-- Registers whose fields have no behaviour of their own: a write acts under the access codes alone (R18). -/
def plainOff (off : Nat) : Bool :=
  off == 0x010018 || off == 0x010020 || off == 0x020008 || off == 0x020010 || (decide (0x020400 ≤ off) && decide (off < 0x028000))
    || (decide (0x030200 ≤ off) && decide (off < 0x040000)) || (decide (0x084008 ≤ off) && decide (off < 0x100000))
    || (decide (0x400000 ≤ off) && decide (off < 0x500000))

/-- No hook is due and no Halt waits: what follows a transition follows at once (R216, R573). -/
def State.calm (s : State) : Prop := s.cc.hooks = [] ∧ s.tdu.haltReq = none

/-! ### The memory ports -/

/-- Units whose lines are kept for them until they take them up: microcode images, references, calibration records, feed sources. -/
def MptUse.kept (u : MptUse) : Bool :=
  match u with
  | .ucode _ | .ref _ _ | .cal _ | .feed _ _ | .feedRef _ => true
  | _ => false

/-- The lines of a read of port n reach a unit that keeps them, in place of those that it had for the same address. -/
def State.keepsLines (s : State) (n : Nat) (r : MptReq) (ls : List Line) : State :=
  { s with lines := (s.lines.filter fun x => !(x.use == r.use && x.port == n && x.addr == 256 * r.quad)) ++ [⟨r.use, n, 256 * r.quad, ls⟩] }

/-- The 80 raw bytes of line i of a quad. -/
def rawOf (raw : List Byte) (i : Nat) : List Byte := (raw.drop (80 * i)).take 80

/-- Four lines of zeros with pennants: what a read without data delivers. -/
def noLines : List Line := List.replicate 4 ⟨List.replicate 64 0, true⟩

/-- No outstanding requests of a port touch a common line, and their identifiers differ (R57). -/
def outApart (l : List MptOut) : Prop := l.Pairwise fun a b => a.req.clash b.req = false ∧ a.aid ≠ b.aid

/-- Nothing follows the end of a memory access: no hook is due, no Halt and no sleep waits for it. -/
def State.portCalm (s : State) : Prop := s.calm ∧ s.ao.sleep ≠ .replying

/-! ### The microsequencers -/

/-- A microword that acts through its ALU and NXT fields alone: no memory access, strobe, doorbell, trace, raw command or counter load. -/
def MicroWord.plainWord (m : MicroWord) : Bool :=
  m.memOp == 0 && m.stg == 0 && m.evt == 0 && !bitOf m.trc 3 && !bitOf m.cus 8 && bitsOf m.lctl 6 2 == 0 && !m.tests

/-- The ALU field of a word does nothing. -/
def MicroWord.idleWord (m : MicroWord) : Bool := m.plainWord && m.alu == 0 && m.nxt == 0

/-- The address after the present one. -/
def State.upcNext (s : State) (q : Nat) : Nat := (s.upc q + 1) % storeWords (seqKind q)

/-- The work of PSQ q's engine given back: its rows, and the slice that it encodes (R171, R331). -/
def State.workReturned (s : State) (q : Nat) : State :=
  if q ≤ 16 then returnSlice (q - 1) (returnRows (q - 1) s) else s

/-- A machine check on PSQ or LSQ q with a cause, and nothing else but what reports it; an engine's work is given back (R170, R171). -/
structure SeqChecked (q why : Nat) (s t : State) : Prop where
  state : t.seqState q = SeqState.mchk
  cause : t.fld (F.SQ_STAT_MCAUSE q) = why
  upc : t.upc q = s.upc q ∧ t.fld (F.SQ_MCINFO_MCUPC q) = s.upc q
  groups : why ≠ 1 → t.fld (F.SQ_MCINFO_PGRP q) = 0
  seq : t.seq q = { s.seq q with
    barrier := none, mem := [], stages := if q ≤ 16 then [] else (s.seq q).stages
    p := if q ≤ 16 ∧ s.encs.any (fun e => e.1 == q - 1) then (t.seq q).p else (s.seq q).p }
  others : ∀ r, r ≠ q → t.seq r = s.seq r
  rows : q ≤ 16 → t.rows (q - 1) = [] ∧ ∀ e ∈ t.encs, e.1 ≠ q - 1
  rest : t = { s.workReturned q with rf := t.rf, seqs := t.seqs, cmds := { s.cmds with reportDue := t.cmds.reportDue } }

/-! ### Commands and their replies -/

/-- Command `c` is accepted, and its reply, not written yet, will be this engine's own (R228, R245). -/
structure State.InHand (s : State) (c : Cmd) : Prop where
  found : s.cmd? c.id = some c
  own : s.broadcast? c.id = none
  unsent : s.answered c = false

/-- No command, transaction or reply in the queue of ring k carries the number that the next command takes. -/
structure State.NextIdFree (s : State) (k : Nat) : Prop where
  list : ∀ d ∈ s.cmds.list ++ s.cmds.after, d.id ≠ s.cmds.nextId
  gw : ∀ g ∈ s.cmds.gw, g.cmd ≠ s.cmds.nextId
  queue : ∀ r ∈ (s.cqw k).queue, r.cmd ≠ s.cmds.nextId

/-- Command `c` is in hand with opcode `opc`, started, and is this engine's own work (R237, R245, R260). -/
structure State.Due (s : State) (c : Cmd) (opc : Nat) : Prop extends s.InHand c where
  opcode : c.opc = opc
  started : c.phase = .started
  live : s.live = true

/-- A command whose final reply is being written. -/
def Cmd.ending (c : Cmd) : Cmd := { c with phase := .replying }

/-- The final reply of `c` waits to be sent: in its completion ring's queue, or among the management frames (R226, R232, R244). -/
def State.holdsReply (t : State) (c : Cmd) (st : Nat) (params : List Byte) : Prop :=
  match c.src with
  | .ring k => ∃ r ∈ (t.cqw k).queue, r.cmd = c.id ∧ r.final = true ∧ r.quiet = c.quiet
      ∧ r.bytes = replyHeader t c.hdr st params.length ++ params
  | .cab sender => ∃ m ∈ t.cmds.tx, m.kind = 2 ∧ m.target = sender ∧ m.hdr = replyHeader t c.hdr st params.length ∧ m.params = params

/-- The final reply of `c`, with status `st` and parameters `params`, has been queued in `u`, and `t` shows that alone: the queue of the
ring it came from, with the requests that write it, or the management frame; the command is being replied to, or, from a cabinet, done. -/
structure Replied (c : Cmd) (st : Nat) (params : List Byte) (u t : State) : Prop where
  reply : t.holdsReply c st params
  rest : t = { u with
    cmds := { u.cmds with list := t.cmds.list, cq := t.cmds.cq, tx := t.cmds.tx }, mpt0 := { u.mpt0 with queue := t.mpt0.queue } }
  others : ∀ id, id ≠ c.id → t.cmd? id = u.cmd? id
  mine : t.cmd? c.id = (match c.src with | .ring _ => some c.ending | .cab _ => none)
  rings : ∀ k, c.src ≠ .ring k → t.cqw k = u.cqw k

/-- A command has run: its effect leads to `u`, and its reply is queued. -/
abbrev Answers (i : Instr) (s : State) (c : Cmd) (st : Nat) (params : List Byte) (u : State) : Prop :=
  Runs i s (Replied c st params u)

/-! ### The command core -/

/-- The command core can carry out an instruction of `len` bytes at PC: it runs, waits for nothing, no customer instruction is in
progress, and every halfword may be executed and carries no pennant (R185, R186, R197). -/
def State.ccReady (s : State) (len : Nat) : Prop :=
  s.coreRuns = true ∧ s.cc.cx = none ∧ s.cc.wait = none
    ∧ ∀ a ∈ s.halfwords len, s.executable a = true ∧ anyPen (s.codeBytes a 2) = false

/-- The same for an instruction that waits: it may have begun already (R190, R198, R207). -/
def State.ccReadyAgain (s : State) (len : Nat) (w : CcWait) : Prop :=
  s.coreRuns = true ∧ s.cc.cx = none ∧ (s.cc.wait = none ∨ s.cc.wait = some w)
    ∧ ∀ a ∈ s.halfwords len, s.executable a = true ∧ anyPen (s.codeBytes a 2) = false

/-- The state in which such an instruction acts: fetched, with the notes that reads of HB leave (R109, R131). -/
def State.fetched (s : State) (len : Nat) : State :=
  noteCode s.cc.pc.toNat len { s with cc := { s.cc with wait := none, portA := none } }

/-- An instruction has run from `s` to `t` and, beside what `u` shows already (its fetch, a store, notes of a load), touched the
core's own state alone: registers, STAT, PC, the multiplier and divider. A wait is over, the boundary after RTT is past, a STEP has
done its work, CC_STAT.STATV shows STAT as it stands. -/
structure CcRanOn (s u t : State) : Prop where
  rest : t = { u with cc := t.cc }
  core : t.cc = { s.cc with
    g := t.cc.g, stat := t.cc.stat, pc := t.cc.pc, mql := t.cc.mql, mqh := t.cc.mqh, flights := t.cc.flights
    wait := none, portA := t.cc.portA, afterRtt := false, step := false, stepped := s.cc.stepped || s.cc.step
    statv := t.cc.status.setWidth 12 }

/-- An instruction of `len` bytes has run and touched the core's own state alone. -/
abbrev CcRan (s : State) (len : Nat) (t : State) : Prop := CcRanOn s (s.fetched len) t ∧ t.cc.portA = none

/-- Register rd takes `v`, g0 excepted; every other register of both banks stays. -/
structure RegTakes (s t : State) (rd : Nat) (v : W32) : Prop where
  bank : ∀ k, k < 32 → t.g k = if k = rd ∧ rd ≠ 0 then v else s.g k
  other : ∀ k, k < 32 → 16 ≤ k → t.cc.slot (gSlot (!s.sb) k) = s.cc.slot (gSlot (!s.sb) k)

/-- The flags become `f`; every other bit of STAT stays. -/
structure FlagsTake (s t : State) (f : AluFlags) : Prop where
  flags : t.cc.aluFlags = f
  others : ∀ k, k < 32 → ¬ (8 ≤ k ∧ k < 12) → t.cc.bit k = s.cc.bit k

/-- The results of the multiplier and divider stay, and so does what is in flight. -/
def MulDivStay (s t : State) : Prop := t.cc.mql = s.cc.mql ∧ t.cc.mqh = s.cc.mqh ∧ t.cc.flights = s.cc.flights

/-- An arithmetic or logical instruction has run: rd takes `v`, Z and N are those of `v`, C and V as given, PC is past it. -/
structure AluRan (s : State) (len : Nat) (rd : BitVec 5) (v : W32) (c o : Bool) (t : State) : Prop where
  ran : CcRan s len t
  pc : t.cc.pc = s.cc.pc + BitVec.ofNat 32 len
  reg : RegTakes s t rd.toNat v
  flags : FlagsTake s t ⟨v == 0, v.msb, c, o⟩
  muldiv : MulDivStay s t

/-- An instruction has run that leaves the flags: rd takes `v`, PC is past it. -/
structure MoveRan (s : State) (len : Nat) (rd : BitVec 5) (v : W32) (t : State) : Prop where
  ran : CcRan s len t
  pc : t.cc.pc = s.cc.pc + BitVec.ofNat 32 len
  reg : RegTakes s t rd.toNat v
  stat : t.cc.stat = s.cc.stat
  muldiv : MulDivStay s t

/-- An instruction has run that writes the flags alone. -/
structure FlagsRan (s : State) (len : Nat) (f : AluFlags) (t : State) : Prop where
  ran : CcRan s len t
  pc : t.cc.pc = s.cc.pc + BitVec.ofNat 32 len
  regs : t.cc.g = s.cc.g
  flags : FlagsTake s t f
  muldiv : MulDivStay s t

/-- The stack can take the block of a trap through vector `vec`: nothing is in flight, there is room, and the vector's entry, outside the
block, gives handler `h` and level `level` (R199, R202, R203). -/
structure State.StackTakes (s : State) (vec h level : Nat) : Prop where
  flights : s.cc.flights = []
  inj : s.flag F.SCRUB_INJ_ARM = false
  inHb : 0x6000A0 ≤ s.fld F.CC_TSBP_TSBP ∧ s.fld F.CC_TSBP_TSBP ≤ 0x640000
  room : s.fld F.CC_TSBLIM_LIM + 0xA0 ≤ s.fld F.CC_TSBP_TSBP
  apart : s.fld F.CC_VBASE_VBASE + 8 * vec + 8 ≤ s.fld F.CC_TSBP_TSBP - 0xA0 ∨ s.fld F.CC_TSBP_TSBP ≤ s.fld F.CC_VBASE_VBASE + 8 * vec
  entry : s.vector vec = some (h, level)

/-- A trap has been taken from `s`: the block at `base` holds PC, STAT, CAUSE, TVAL, MQL, MQH and, in the full form, g1 to g31; no byte
outside it, no register of the core and no flag changes; normal interrupts and the HOLD window are off (R202 to R204). -/
structure TrapTaken (s : State) (base cause : Nat) (pc tval : W32) (short : Bool) (t : State) : Prop where
  head : [0, 4, 8, 12, 16, 20].map (fun k => leNat (vals (t.codeBytes (base + k) 4)))
    = [pc.toNat, s.cc.status.toNat, cause, tval.toNat, s.cc.mql.toNat, s.cc.mqh.toNat]
  tail : short = false → leNat (vals (t.codeBytes (base + 0x18) 4)) = 0
    ∧ ∀ k, k < 31 → leNat (vals (t.codeBytes (base + 0x1C + 4 * k) 4)) = (s.g (k + 1)).toNat
  outside : ∀ a, (a + 0x600000 < base ∨ base + (if short then 0x18 else 0x98) ≤ a + 0x600000) → t.hb.read a = s.hb.read a
  core : t.spm = s.spm ∧ t.cc.g = s.cc.g ∧ t.cc.mql = s.cc.mql ∧ t.cc.mqh = s.cc.mqh ∧ t.cc.aluFlags = s.cc.aluFlags
  stat : t.cc.bit 2 = false ∧ t.cc.bit 5 = false

/-- Such a trap through vector `vec` of the stack: TSBP falls by 0xA0, the handler runs at the higher of its level and the present one, a
fast interrupt in the shadow bank (R203, R204). -/
structure TrapRan (s : State) (vec sub : Nat) (pc tval : W32) (h level : Nat) (t : State) : Prop where
  block : TrapTaken s (s.fld F.CC_TSBP_TSBP - 0xA0) (s.cc.pl * 4096 + sub * 256 + (if vec = 17 then 64 else 0) + vec) pc tval (vec == 17) t
  stack : t.fld F.CC_TSBP_TSBP = s.fld F.CC_TSBP_TSBP - 0xA0
  handler : t.cc.pc = BitVec.ofNat 32 h ∧ t.cc.pl = max level s.cc.pl
  fast : t.cc.bit 3 = (if vec = 17 then false else s.cc.bit 3) ∧ t.cc.bit 4 = (if vec = 17 then true else s.cc.bit 4)

/-- A jump has run: PC takes `a`, registers and STAT stay. -/
structure JumpRan (s : State) (len : Nat) (a : W32) (t : State) : Prop where
  ran : CcRan s len t
  pc : t.cc.pc = a
  regs : t.cc.g = s.cc.g
  stat : t.cc.stat = s.cc.stat
  muldiv : MulDivStay s t

/-- A load has run from `s` over `u`, which shows the notes that its reads leave: rd takes `v`. -/
structure LoadRan (s u : State) (len rd : Nat) (v : W32) (t : State) : Prop where
  ran : CcRanOn s u t
  pc : t.cc.pc = s.cc.pc + BitVec.ofNat 32 len
  reg : RegTakes s t rd v
  stat : t.cc.stat = s.cc.stat
  muldiv : MulDivStay s t

/-- A store has run from `s` over `u`, which shows what is stored: the core's registers and STAT stay. -/
structure StoreRan (s u : State) (len : Nat) (t : State) : Prop where
  ran : CcRanOn s u t
  pc : t.cc.pc = s.cc.pc + BitVec.ofNat 32 len
  regs : t.cc.g = s.cc.g
  stat : t.cc.stat = s.cc.stat
  muldiv : MulDivStay s t

end Sys2Proof.Machine
end

