-- ==== Sys2Proof/Certificates/Slice0/Obligations.lean ====
section
/-!
DEFINITION. The statements for the provers. Each docstring names the rules of spec/ that it rests on.
-/

open Sys2Proof Sys2Proof.Machine

/-! ### The machine: the queue, reset, the engine that ENG_DIS disables, the clock (R22, R61, R68, R94) -/

/-- A step takes the command at the front of the queue and is exec of it on the state with the queue's rest.
Model's choices in it: log entry 4. -/
def Obligations.StepRunsTheFrontCommand : Prop :=
  ∀ (s : State) (c : Instr) (rest : List Instr),
    (s.pending = c :: rest → step s = exec c { s with pending := rest })
    ∧ step (s.withCommand c) = exec c s

/-- On an empty queue a step answers a next state that differs at most in the trace FIFO, the trace buffer and the registers
TDU_TRST and TDU_STAT (the model's choice, log entry 3). -/
def Obligations.AnEmptyQueueOnlyDrainsTrace : Prop :=
  ∀ s : State, s.pending = [] →
    ∃ t, step s = .next t ∧ t = { s with rf := t.rf, tdu := { s.tdu with fifo := t.tdu.fifo, buf := t.tdu.buf } }
      ∧ (∀ off, off ≠ F.TDU_TRST_WPTR.off → off ≠ F.TDU_STAT_TRERR.off → t.reg off = s.reg off)
      ∧ (s.tdu.fifo = [] → t = s)

/-- What reset leaves: every register at the value of its Reset column, the mode Rigging with BUSY = 1, AO_RSTCAUSE with POR alone, the
command core at 0x0100_0000 with STAT 0x42, HPT asleep, no key, no command, nothing in the stores.
Model's choices in it: log entry 8. -/
def Obligations.ResetLeaves : Prop :=
  (∀ off, State.reset.reg off = regReset State.reset.build off)
    ∧ State.reset.mode = Mode.rigging ∧ State.reset.flag F.AO_MODE_BUSY = true
    ∧ State.reset.flag F.AO_RSTCAUSE_POR = true ∧ State.reset.flag F.AO_RSTCAUSE_ENG = false
    ∧ State.reset.cc.pc = 0x01000000 ∧ State.reset.cc.stat = 0x42 ∧ State.reset.hpt.awake = false
    ∧ State.reset.keys = [] ∧ State.reset.cmds.list = [] ∧ State.reset.hb = .zero ∧ State.reset.spm = .zero
    ∧ State.reset.pending = [] ∧ State.reset.rfWf = true ∧ State.reset.storesWf = true

/-- Nothing releases an engine that ENG_DIS disables: no command, no pin, no register access, no event (R61). -/
def Obligations.NothingReleasesADisabledEngine : Prop :=
  ∀ (s t : State), s.disabled = true → step s = .next t → t.disabled = true

/-- While CCLK stands still, or a reset holds the core, these commands do nothing (R60, R61, R68).
Model's choices in it: log entry 69. -/
def Obligations.NothingHappensWithoutCclk : Prop :=
  ∀ (c : Instr) (s : State), needsCclk c = true → s.cclkOn = false → Inert c s

/-! ### Power, resets, the watchdog, clocks (R60, R69 to R79, R94 to R99, R116, R588) -/

/-- A power-on reset leaves every register at its Reset value and nothing in the stores; once it is released and PWRGOOD is high the
islands start on the safe clock with the fill due; the fill's end zeroes stores and records; the core's release clears BUSY and starts
at the reset vector; without supplies the mode is Off (R79, R81, R94, R99, R116).
With ENG_DIS high a power-on reset leads to that state, from any state (R61, R94).
Model's choices in it: log entries 8, 9, 11. -/
def Obligations.PowerOnStartUpAndDisable : Prop :=
  (∀ s : State,
    let starts := fun (i : Instr) (a : Ao) => Runs i s fun t =>
      Touches [F.AO_CLKST_CC_OK.off] { s with
          ao := { a with filling := true, coreHeld := true, cclk := .unlocked, pnclk := .unlocked, refAbsent := false } } t
        ∧ t.flag F.AO_CLKST_CC_OK = false ∧ t.flag F.AO_CLKST_PN_OK = false
        ∧ t.flag F.AO_CLKST_CC_SAFE = true ∧ t.flag F.AO_CLKST_PN_SAFE = true
    (Runs .powerOnReset s fun t => (∀ off, t.reg off = regReset s.build off) ∧ t.hb = .zero ∧ t.spm = .zero ∧ t.cstore = []
        ∧ t.keys = [] ∧ t.cc = .reset ∧ t.ao.porHeld = true ∧ t.ao.supplies = true ∧ t.pending = s.pending)
    ∧ (s.ao.porHeld = true → s.ao.supplies = true → s.ao.engDis = false →
        (s.ao.pwrgood = false → exec .powerOnResetRelease s = .next { s with ao := { s.ao with porHeld := false } })
        ∧ (s.ao.pwrgood = true → starts .powerOnResetRelease { s.ao with porHeld := false }))
    ∧ (s.ao.pwrgood = false → s.ao.supplies = true → s.ao.porHeld = false → s.ao.engDis = false →
        starts .pwrgoodRise { s.ao with pwrgood := true })
    ∧ (s.ao.filling = true → s.ao.coreHeld = true → s.inReset = false → s.ccOk = true → s.hpt.slots = [] → s.tdu.acc.wait = none →
        s.tdu.haltReq = none →
        Runs .fillComplete s fun t => t.ao.filling = false ∧ t.hb = .zero ∧ t.spm = .zero ∧ t.cstore = []
          ∧ t.reg F.SCRUB_ERR_VALID.off = 0 ∧ t.reg F.HB_COLL_VALID.off = 0 ∧ t.fld F.SCRUB_CCNT_SPM = 0 ∧ t.fld F.SCRUB_CCNT_HB = 0
          ∧ (∀ b, b < spmBanks s.build → t.fld (F.SCRUB_OWN_OWNER b) = 0)
          ∧ t.cc = { s.cc with hooks := s.cc.hooks ++ [⟨3, s.mode, none⟩] } ∧ t.mode = s.mode)
    ∧ (s.ao.coreHeld = true → s.ao.filling = false → s.inReset = false → s.asleep = false → s.mode ≠ Mode.off → s.hb = .zero →
        s.tdu.haltReq = none → (∀ h ∈ s.cc.hooks, h.k = 3) →
        Runs .coreRelease s fun t => t.ao.coreHeld = false ∧ t.flag F.AO_MODE_BUSY = false ∧ t.cc.pc = 0x01000000 ∧ t.cc.stat = 0x42
          ∧ t.cc.g = [] ∧ (s.ccOk = true → s.ao.sleep = .none → t.hpt.awake = true))
    ∧ (Runs .suppliesRemoved s fun t => t.mode = Mode.off ∧ t.ao.supplies = false ∧ t.hb = .zero ∧ t.spm = .zero ∧ t.keys = []
        ∧ ∀ off, off ≠ F.AO_MODE_MODE.off → t.reg off = regReset s.build off))
  ∧ (∀ s : State, s.ao.engDis = true → Runs .powerOnReset s fun t => t.disabled = true)

/-- The fall of PWRGOOD, the engine reset and the watchdog reset: every register keeps the fields that its row of R101 keeps and takes
its Reset value elsewhere (reports apart), AO_RSTCAUSE gains the reset's own bit, every pulse output is low, the mode is Rigging, the core
starts anew, commands and keys are gone; HB and SPM are lost with PWRGOOD alone (R60, R79, R94, R95, R97, R99 to R101).
The release of the engine reset, the watchdog's first expiry and its kick, SOFT_RESET and its effect (R60, R94, R96, R97).
Model's choices in it: log entries 10, 12. -/
def Obligations.ResetsAndWatchdog : Prop :=
  (∀ s : State, s.rfWf = true → s.ao.supplies = true → s.ao.porHeld = false → s.ao.engDis = false →
    let resets := fun (i : Instr) (k : ResetKind) (cause : FRef) (P : State → Prop) => Runs i s fun t =>
      (∀ off, off ≠ cause.off → reportOff off = false → t.reg off = keptReg s.build (fun f => k.keeps f.surv) off (s.reg off))
      ∧ t.flag cause = true ∧ (∀ n, n < 6 → n ≠ cause.lo → (t.reg cause.off).getLsbD n = (s.reg cause.off).getLsbD n)
      ∧ t.mode = Mode.rigging ∧ t.cc = { CcSt.reset with nextLmov := s.cc.nextLmov } ∧ t.cmds.list = [] ∧ t.keys = [] ∧ t.ao.coreHeld = true
      ∧ (∀ n, (t.pu n).padH = false ∧ (t.pu n).padL = false) ∧ P t
    (s.ao.pwrgood = true →
      resets .pwrgoodFall .start F.AO_RSTCAUSE_PWRLOSS fun t => t.ao.pwrgood = false ∧ t.hb = .zero ∧ t.spm = .zero ∧ t.cstore = [])
    ∧ (s.ao.engHeld = false → s.mode ≠ Mode.off → s.asleep = false →
      resets .engineReset .engine F.AO_RSTCAUSE_ENG fun t => t.ao.engHeld = true ∧ t.hb = s.hb ∧ t.spm = s.spm ∧ t.cstore = s.cstore)
    ∧ (s.wdogRuns = true → s.ao.wdogExpired = true →
      resets .watchdogReset .wdog F.AO_RSTCAUSE_WDOG fun t => t.ao.wdogExpired = false ∧ t.hb = s.hb ∧ t.spm = s.spm ∧ t.cstore = s.cstore))
  ∧ (∀ s : State,
    (s.ao.engHeld = true → Runs .engineResetRelease s fun t =>
        t = { s with ao := { s.ao with engHeld := false }, hpt := { s.hpt with awake := t.hpt.awake } })
    ∧ (s.wdogRuns = true → s.ao.wdogExpired = false →
        Runs .watchdogWarning s (FieldTakes { s with ao := { s.ao with wdogExpired := true } } F.AO_WDOG_WARNED 1))
    ∧ (s.cclkOn = true →
        Runs (.watchdogKick 0x5A3C) s (FieldTakes { s with ao := { s.ao with wdogExpired := false } } F.AO_WDOG_WARNED 0)
        ∧ ∀ v, v ≠ 0x5A3C → Inert (.watchdogKick v) s)
    ∧ (∀ c, s.Due c 0x0002 → c.params = leBytes 8 0x5AFE0002 → (∀ d ∈ s.cmds.list, d.id = c.id) →
        Answers (.softReset c.id) s c Status.ok [] { s with ao := { s.ao with softPending := some c.id } })
    ∧ (∀ id, s.ao.softPending = some id → s.cmd? id = none → s.cclkOn = true →
        Runs .softResetEffect s fun t => t.mode = Mode.standby ∧ t.flag F.AO_RSTCAUSE_SOFT = true ∧ t.cmds.list = []
          ∧ t.cc = { CcSt.reset with nextLmov := s.cc.nextLmov } ∧ t.seqs = [] ∧ t.ao.coreHeld = true
          ∧ t.hb = s.hb ∧ t.spm = s.spm ∧ t.keys = s.keys ∧ t.tenants = s.tenants))

/-- The release test: of the relocking clock's windows four in a row must pass 500 C ≥ 499 T + 500 and 500 C ≤ 501 T − 500 with lock
reported; the fourth releases the clock, one that fails starts the count again; after release a window outside 0.996 T to 1.004 T, or
without lock, and a loss of lock, put the domain back on the safe clock (R71 to R73, R76). -/
def Obligations.TheReleaseTest : Prop :=
  ∀ (s : State) (d : ClkDom) (n : Nat) (locked : Bool), s.clocked = true → s.ao.refAbsent = false →
    let T := match d with | .cclk => 1024 * s.fld F.AO_CLKCFG_CCLK_MUL | .pnclk => 16 * s.fld F.AO_CLKCFG_PN_MUL
    let ok := match d with | .cclk => F.AO_CLKST_CC_OK | .pnclk => F.AO_CLKST_PN_OK
    let safe := match d with | .cclk => F.AO_CLKST_CC_SAFE | .pnclk => F.AO_CLKST_PN_SAFE
    let passes := locked = true ∧ 499 * T + 500 ≤ 500 * n ∧ 500 * n + 500 ≤ 501 * T
    let holds := locked = true ∧ 996 * T ≤ 1000 * n ∧ 1000 * n ≤ 1004 * T
    let falls := fun (t : State) => t.flag ok = false ∧ t.flag safe = true ∧ (t.clk d).relocking = true ∧ (t.clk d).passes = 0
    ((s.clk d).relocking = true →
      (passes → (s.clk d).passes < 3 → Runs (.releaseTestWindow d n locked) s fun t =>
        t.clk d = { s.clk d with passes := (s.clk d).passes + 1 } ∧ t.flag ok = s.flag ok ∧ t.flag safe = s.flag safe)
      ∧ (passes → 3 ≤ (s.clk d).passes → Runs (.releaseTestWindow d n locked) s fun t =>
        t.flag ok = true ∧ t.flag safe = false ∧ (t.clk d).relocking = false)
      ∧ (¬ passes → Runs (.releaseTestWindow d n locked) s fun t =>
        t.clk d = { s.clk d with passes := 0 } ∧ t.flag ok = s.flag ok ∧ t.flag safe = s.flag safe))
    ∧ ((s.clk d).relocking = false →
      (holds → Runs (.releaseTestWindow d n locked) s fun t => t.clk d = s.clk d ∧ t.flag ok = s.flag ok ∧ t.flag safe = s.flag safe)
      ∧ (¬ holds → Runs (.releaseTestWindow d n locked) s falls))
    ∧ Runs (.synthLockLost d) s falls

/-- A write of CCLK_MUL in Rigging or Standby, of PN_MUL outside the Show modes, with an encoding that the field takes and another value
than it has, takes effect and starts the relock; in the other modes the register stays as it is (R70, R71).
PNCLK not released within 2 ms sets PN_FAIL, a missing REFCLK sets REF_LOST; in a Show mode either leads to Dark with its cause, every
pulse output low; in another mode the mode stays; REFCLK's return ends its absence and leaves REF_LOST (R75, R77, R84, R588).
Model's choices in it: log entry 16. -/
def Obligations.ClockMultipliersAndFaults : Prop :=
  (∀ (s : State) (w : Writer) (v : Nat), s.cclkOn = true → s.ao.refAbsent = false →
    let settable := s.mode = Mode.rigging ∨ s.mode = Mode.standby
    let stays := fun (t : State) => (∀ off, t.reg off = s.reg off) ∧ t.ao = s.ao
    (settable → s.flag F.AO_CLKCFG_LOCK = false → 8 ≤ v → v ≤ 0x20 → v ≠ s.fld F.AO_CLKCFG_CCLK_MUL →
      Runs (.cclkMulWrite w v) s fun t => t.fld F.AO_CLKCFG_CCLK_MUL = v ∧ t.fld F.AO_CLKCFG_PN_MUL = s.fld F.AO_CLKCFG_PN_MUL
        ∧ t.flag F.AO_CLKST_CC_OK = false ∧ t.flag F.AO_CLKST_CC_SAFE = true
        ∧ t = { s with rf := t.rf, ao := { s.ao with cclk := ⟨true, 0, false, true⟩ } })
    ∧ (¬ settable → Runs (.cclkMulWrite w v) s stays)
    ∧ (showMode s.mode = false → 0x100 ≤ v → v ≤ 0x400 → v ≠ s.fld F.AO_CLKCFG_PN_MUL →
      Runs (.pnMulWrite w v) s fun t => t.fld F.AO_CLKCFG_PN_MUL = v ∧ t.fld F.AO_CLKCFG_CCLK_MUL = s.fld F.AO_CLKCFG_CCLK_MUL
        ∧ t.flag F.AO_CLKST_PN_OK = false ∧ t.flag F.AO_CLKST_PN_SAFE = true ∧ t.ao.pnclk = ⟨true, 0, false, true⟩
        ∧ t.hb = s.hb ∧ t.spm = s.spm ∧ t.cc = s.cc ∧ ∀ n, n < 64 → (t.pu n).padH = false ∧ (t.pu n).padL = false)
    ∧ (showMode s.mode = true → Runs (.pnMulWrite w v) s stays))
  ∧ (∀ s : State, s.clocked = true → s.calm →
    let dark := fun (cause : Nat) (t : State) =>
      (showMode s.mode = true → t.mode = Mode.dark ∧ t.fld F.AO_MODE_LAST = s.mode ∧ t.fld F.AO_MODE_DCAUSE = cause
        ∧ ∀ n, n < 64 → (t.pu n).padH = false ∧ (t.pu n).padL = false)
      ∧ (showMode s.mode = false → t.mode = s.mode)
    (s.ao.pnclk.relocking = true → s.ao.pnclk.late = false →
      Runs .pnclkRelockTimeout s fun t => t.flag F.AO_CLKST_PN_FAIL = true ∧ t.ao.pnclk = { s.ao.pnclk with late := true } ∧ dark Cause.pnfail t)
    ∧ (s.ao.refAbsent = false →
      Runs .refclkLost s fun t => t.flag F.AO_CLKST_REF_LOST = true ∧ t.ao.refAbsent = true ∧ t.flag F.TSU_STAT_SYNC = false ∧ dark Cause.reflost t)
    ∧ (s.ao.refAbsent = true →
      Runs .refclkReturn s fun t => Touches [F.AO_CLKST_REF_LOST.off] { s with ao := { s.ao with refAbsent := false } } t
        ∧ t.flag F.AO_CLKST_REF_LOST = s.flag F.AO_CLKST_REF_LOST
        ∧ t.flag F.AO_CLKST_PN_SAFE = s.ao.pnclk.relocking ∧ t.flag F.AO_CLKST_CC_SAFE = s.ao.cclk.relocking))

/-! ### Modes, sleep and wake (R53, R54, R80 to R90, R238, R530, R551, R552) -/

/-- MODE_SET's checks in their order, and what an accepted one does: at once, at its hoist, or as the start of sleep (R81 to R83, R86,
R238). The reply carries the mode.
Model's choices in it: log entry 14. -/
def Obligations.ModeSet : Prop :=
  ∀ (s : State) (c : Cmd) (m : Nat), s.Due c 0x0001 → s.calm →
    let answers := fun (st : Nat) (ps : List Byte) => Answers (.modeSet c.id) s c st ps s
    let busy := s.flag F.AO_MODE_BUSY
    let allowed := m ≠ Mode.halfMast ∧ (modeTargets s.mode).contains m = true
    let waits := fun (n : Nat) => Runs (.modeSet c.id) s fun t => t.ao = { s.ao with modeWait := some ⟨c.id, m, n⟩ }
        ∧ t.flag F.AO_MODE_BUSY = true ∧ t.mode = s.mode ∧ t.cmd? c.id = some { c with phase := .running } ∧ t.hb = s.hb ∧ t.spm = s.spm
    ((c.params.length ≠ 8 ∨ zeroAt c.params 1 7 = false ∨ 0xB < byteAt c.params 0) → answers Status.badParam [])
    ∧ (m ≤ 0xB → c.params = leBytes 8 m →
      (busy = true → answers Status.busy [])
      ∧ (busy = false → ¬ allowed → answers Status.badParam [])
      ∧ (busy = false → s.mode = Mode.halfMast → m = Mode.display → answers Status.ok (modeReply Mode.halfMast))
      ∧ (busy = false → allowed → ¬ (s.mode = Mode.halfMast ∧ m = Mode.display) →
        (s.modeDenied m = true → answers Status.denied [])
        ∧ (s.modeDenied m = false →
          (m = Mode.furled ∨ m = Mode.watch → Runs (.modeSet c.id) s fun t => t.ao = { s.ao with sleepCmd := some c.id, sleepTo := m }
            ∧ t.flag F.AO_MODE_BUSY = true ∧ t.mode = s.mode ∧ t.cmd? c.id = some { c with phase := .running })
          ∧ (m = Mode.display → waits (max (c.frame + 3) (s.frame + 2)))
          ∧ ((m = Mode.standby ∨ m = Mode.relay ∨ m = Mode.calibrate) → (s.mode = Mode.display ∨ s.mode = Mode.halfMast) →
              s.hoists = true → waits (s.frame + 1))
          ∧ ((m = Mode.standby ∨ m = Mode.relay ∨ m = Mode.calibrate ∨ m = Mode.test) → s.mode ≠ Mode.display →
              s.mode ≠ Mode.halfMast → s.mode ≠ Mode.test → Runs (.modeSet c.id) s fun t => t.mode = m ∧ t.fld F.AO_MODE_LAST = s.mode
              ∧ t.flag F.AO_MODE_BUSY = false ∧ t.ao.modeWait = none ∧ t.holdsReply c Status.ok (modeReply m))
          ∧ (m = Mode.dark → (∀ d ∈ s.cmds.list, d.opc = 1 → d = c) → Runs (.modeSet c.id) s fun t => t.mode = Mode.dark
              ∧ t.fld F.AO_MODE_DCAUSE = 0 ∧ t.holdsReply c Status.ok (modeReply Mode.dark)
              ∧ ∀ n, n < 64 → (t.pu n).padH = false ∧ (t.pu n).padL = false))))

/-- At the hoist at which a waiting MODE_SET is due the engine enters Display (or, the budget arbiter deciding so at once, Half-Mast), or
leaves Display and Half-Mast for the mode asked for (R81, R83).
Model's choices in it: log entry 14. -/
def Obligations.TransitionsAtTheHoist : Prop :=
  ∀ (s : State) (w : ModeWait) (n : Nat), s.modeDue n = some w → s.hoistOk n = true → s.live = true → s.calm →
    (w.target = Mode.display → Runs (.displayEntry n) s fun t =>
      (t.mode = Mode.display ∨ t.mode = Mode.halfMast) ∧ t.ao.modeWait = none ∧ t.frame = n)
    ∧ (w.target = Mode.standby ∨ w.target = Mode.relay ∨ w.target = Mode.calibrate → Runs (.leaveDisplayAtHoist n) s fun t =>
      t.mode = w.target ∧ t.ao.modeWait = none ∧ t.frame = n)

/-- Entry to Furled and Watch: the settings saved in HB and, with no SAVE hook, the handshake raised; the acknowledge puts the port to sleep
and answers OK, and with no command to answer the engine sleeps at once; the handshake's failure answers FAULT and discards the saved
settings (R53, R84 to R86).
Wake events: an edge of a WAKE pin at its polarity is latched whether enabled or not; an enabled pin, HPT_WAKE, a matching frame in
Watch, a watched source start the wake and are recorded; the wake leads to Standby with CCLK released and HPT awake (R54, R87 to R89,
R530, R551, R552).
Model's choices in it: log entries 13, 15. -/
def Obligations.SleepAndWake : Prop :=
  (∀ (s : State), s.calm →
    (∀ id, s.ao.sleepCmd = some id → s.ao.sleep = .none → s.ao.saved = none → s.firmware = true → s.mode = Mode.standby →
      (∀ d ∈ s.cmds.list, d.id = id) → s.cc.hook = none → s.cc.cx = none → s.hb = .zero → s.flag F.SCRUB_INJ_ARM = false →
      Runs .sleepEntry s fun t => t = { s with
          ao := { s.ao with saved := some s.rf, sleep := .handshake, savedAt := t.ao.savedAt, savedHb := t.ao.savedHb }
          hpt := { s.hpt with slpReq := true }, hb := t.hb, fixups := t.fixups, freeCtr := t.freeCtr }
        ∧ t.hbIntact = true ∧ t.ao.savedHb.length = min (8 * (s.rf.filter fun p => savedReg p.1).length) (hbSize - 64)
        ∧ ∀ a, a < t.ao.savedAt ∨ t.ao.savedAt + t.ao.savedHb.length ≤ a → t.hb.read a = s.hb.read a)
    ∧ (s.ao.sleep = .handshake → s.hpt.slots = [] → s.firmware = true →
      (∀ c k, s.ao.sleepCmd = some c.id → c.src = .ring k → s.InHand c →
        Answers .hptSlpAck s c Status.ok (modeReply s.mode)
          { s with hpt := { s.hpt with awake := false, slpReq := false }, ao := { s.ao with sleep := .replying } })
      ∧ (s.ao.sleepCmd = none → s.mode = Mode.standby → s.replyToSend = false →
          s.ao.sleepTo = Mode.furled ∨ s.ao.sleepTo = Mode.watch → Runs .hptSlpAck s fun t =>
        t.mode = s.ao.sleepTo ∧ t.hpt = .reset ∧ t.ao.sleep = .none ∧ t.ao.saved = s.ao.saved ∧ t.flag F.AO_CLKST_CC_OK = false
          ∧ t.flag F.AO_CLKST_PN_OK = false ∧ t.hb = s.hb ∧ t.spm = s.spm ∧ t.keys = s.keys))
    ∧ (∀ c, s.ao.sleep = .handshake → s.aoOn = true → s.ao.sleepCmd = some c.id → s.InHand c →
      Answers .hptSleepTimeout s c Status.fault (modeReply s.mode) (({ s with
        hpt := { s.hpt with slpReq := false }
        ao := { s.ao with sleep := .none, sleepCmd := none, saved := none, wakeHeld := false } }).setFlag F.AO_MODE_BUSY false)))
  ∧ (∀ (s : State),
    (∀ k rising, k < 8 → s.ao.supplies = true → s.ao.engDis = false → s.ao.porHeld = false →
      rising ≠ bitOf (s.fld F.AO_WAKEEN_PIN_POL) k → Runs (.wakePinEdge k rising) s fun t =>
        bitOf (t.fld F.DIC_EDGE_EDGE) k = true ∧ (∀ j, j < 8 → j ≠ k → bitOf (t.fld F.DIC_EDGE_EDGE) j = bitOf (s.fld F.DIC_EDGE_EDGE) j)
        ∧ bitOf t.ao.wakeLvl k = rising ∧ t.mode = s.mode
        ∧ (s.asleep = true → bitOf (s.fld F.AO_WAKEEN_PIN_EN) k = true → bitOf (t.fld F.AO_WAKEST_PIN) k = true ∧ t.ao.waking = true))
    ∧ (s.aoOn = true → s.asleep = true →
      (s.flag F.AO_WAKEEN_HPT = true → Runs .hptWakeEdge s fun t =>
        Reports s t ∧ t.flag F.AO_WAKEST_HPT = true ∧ t.ao.waking = true)
      ∧ (∀ b, s.mode = Mode.watch → s.flag F.AO_WAKEEN_RING = true → wakeMatches s b = true → Runs (.wakeFrameMatch b) s fun t =>
        t.ao.heldFrame = some (s.ao.heldFrame.getD b) ∧ t.flag F.AO_WAKEST_RING = true ∧ t.ao.waking = true ∧ t.mode = s.mode)
      ∧ (∀ src w, watchable src = true → w < 64 → s.flag (F.DIC_WATCH_EN w) = true → s.fld (F.DIC_WATCH_SRC w) = src →
        Runs (.watcherHit src) s fun t => Reports s t ∧ t.flag (F.DIC_WATCH_HIT w) = true
          ∧ ((∀ v, v < 64 → s.flag (F.DIC_WATCH_HIT v) = false) → t.fld F.AO_WAKEST_WSRC = src)
          ∧ (s.flag F.AO_WAKEEN_WATCHER = true → t.flag F.AO_WAKEST_WATCHER = true ∧ t.ao.waking = true)))
    ∧ (s.asleep = true → s.ao.waking = true → s.inReset = false → s.ao.sleep = .none → s.calm → Runs .wakeSequence s fun t =>
        t.mode = Mode.standby ∧ t.fld F.AO_MODE_LAST = s.mode ∧ t.flag F.AO_CLKST_CC_OK = true ∧ t.flag F.AO_CLKST_CC_SAFE = false
          ∧ t.hpt.awake = true ∧ t.ao.waking = false ∧ t.ao.coreHeld = false))

/-! ### The register window, the host port, doorbells and interrupts (R6, R18, R21, R46 to R52, R66, R114, R115, R539 to R550) -/

/-- A write of a register whose fields have no behaviour of their own: RO and WO fields stay; a field whose bytes are not enabled stays;
RW, and RWL while its lock is open, take the written value unless its encoding is reserved for the field; a closed lock discards; W1C
clears each bit written as 1; a writer that may not write the register changes nothing (R18, R19, R21, R50, R186).
Model's choices in it: log entries 18, 19. -/
def Obligations.RegisterWrites : Prop :=
  ∀ (s : State) (w : Writer) (off : Nat) (be : BitVec 8) (data : W64) (g : RegGrp) (i : Nat),
    s.cclkOn = true → s.calm → plainOff off = true → off % 8 = 0 → regAt off = some (g, i) → absentReg s.build off = false → be ≠ 0 →
    let en := beMask be.toNat
    let merged := (s.reg off &&& ~~~en) ||| (data &&& en)
    Runs (.registerWrite w off be data) s fun t => t = { s with rf := t.rf } ∧ (∀ o, o ≠ off → t.reg o = s.reg o)
      ∧ (mayWrite w g i = false → t.reg off = s.reg off)
      ∧ (mayWrite w g i = true → ∀ f ∈ g.flds,
        let old := getBits (s.reg off) f.lo f.w
        let new := getBits (t.reg off) f.lo f.w
        let v := getBits merged f.lo f.w &&& f.mask
        (f.acc = .ro ∨ f.acc = .wo → new = old)
        ∧ (getBits en f.lo f.w = 0 → new = old)
        ∧ (getBits en f.lo f.w ≠ 0 → f.acc = .rw ∨ (f.acc = .rwl ∧ s.flag (lockOf off) = false) →
            new = if f.enc i v = true then v else old)
        ∧ (f.acc = .rwl → s.flag (lockOf off) = true → new = old)
        ∧ (f.acc = .w1c → ∀ k, f.lo ≤ k → k < f.lo + f.w →
            (t.reg off).getLsbD k = ((s.reg off).getLsbD k && !(data.getLsbD k && en.getLsbD k))))

/-- HPT takes a request while it is awake and fewer than 16 are outstanding, answers it once and in order: with a bus error, no effect and
zero data for absent SPM, for byte enables that a register block does not permit, for a pennant on an enabled byte; HPT_ERR keeps the
first; no enabled byte, no effect; a request behind one that waits, or for memory that is being filled, waits; a write of HB or SPM
stores the enabled bytes; a response leaves in order (R6, R47 to R51, R66).
Model's choices in it: log entries 20, 21. -/
def Obligations.HostPort : Prop :=
  ∀ (s : State) (wr : Bool) (a : BitVec 21) (be : BitVec 8) (d : W64) (tid : BitVec 8), s.cclkOn = true → s.calm →
    let off := a.toNat * 8
    let row := Instr.hptRequest wr a be d tid false
    let r : HptReq := ⟨wr, off, be.toNat, d, tid⟩
    let full := s.hpt.slots.length = 16
    let x := if off < 0x800000 then StoreSel.hb else .spm
    let o := if off < 0x800000 then off - 0x600000 else off - 0x800000
    let answered := fun (u : State) (v : W64) (e : Bool) =>
      { u with hpt := { u.hpt with slots := s.hpt.slots ++ [.ready tid v e] }, cc := { u.cc with portA := none } }
    let fails := fun (cause : Nat) => Runs row s fun t => ∃ u, t = answered u 0 true ∧ u.rf = t.rf ∧ u = { s with rf := u.rf }
      ∧ (∀ r, r ≠ F.HPT_ERR_VALID.off → t.reg r = s.reg r) ∧ t.flag F.HPT_ERR_VALID = true
      ∧ (s.flag F.HPT_ERR_VALID = false → t.fld F.HPT_ERR_CAUSE = cause ∧ t.fld F.HPT_ERR_TID = tid.toNat ∧ t.fld F.HPT_ERR_OFFSET = off)
      ∧ (s.flag F.HPT_ERR_VALID = true → t.flag F.HPT_ERR_OVF = true ∧ t.fld F.HPT_ERR_CAUSE = s.fld F.HPT_ERR_CAUSE)
    (full ∨ s.hpt.awake = false → Inert row s)
    ∧ (s.hpt.awake = true → s.hpt.slots.length < 16 →
      (s.hptBehind r = true → exec row s = .next { s with hpt := { s.hpt with slots := s.hpt.slots ++ [.waiting r] } })
      ∧ (s.hptBehind r = false → 0x800000 + spmSize s.build ≤ off → fails 1)
      ∧ (s.hptBehind r = false → off < 0x600000 → be ≠ 0 → be ≠ 0x0F → be ≠ 0xF0 → be ≠ 0xFF → fails 3)
      ∧ (s.hptBehind r = false → off < 0x800000 + spmSize s.build → be = 0 → Runs row s fun t =>
        (wr = true → t = answered s 0 false) ∧ (wr = false → ∃ v, t = answered s.drew v false))
      ∧ (hptMemory off = true → off < 0x800000 + spmSize s.build → be ≠ 0 → s.hptBehind r = false →
        (wr = true → s.flag F.SCRUB_INJ_ARM = false → Runs row s fun t =>
          (∀ k, k < 8 → (t.store x).read (o + k) =
            if be.getLsbD k = true then ⟨BitVec.ofNat 8 (d.toNat / 2 ^ (8 * k)), false⟩ else (s.store x).read (o + k))
          ∧ (∀ b, (b < o ∨ o + 8 ≤ b) → (t.store x).read b = (s.store x).read b) ∧ (∀ y, y ≠ x → t.store y = s.store y)
          ∧ t.rf = s.rf ∧ t.hpt = { s.hpt with slots := s.hpt.slots ++ [.ready tid 0 false] } ∧ t.cc = { s.cc with portA := none })
        ∧ (wr = false → anyPen (readBytes x o 8 s) = false → be = 0xFF → Runs row s fun t =>
          t = answered (noteRead x o 255 s) (BitVec.ofNat 64 (leNat (vals (readBytes x o 8 s)))) false)
        ∧ (wr = false → (∃ k, k < 8 ∧ be.getLsbD k = true ∧ ((s.store x).read (o + k)).pen = true) →
          Runs row s fun t => t.hpt = { s.hpt with slots := s.hpt.slots ++ [.ready tid 0 true] } ∧ t.flag F.HPT_ERR_VALID = true
            ∧ (s.flag F.HPT_ERR_VALID = false → t.fld F.HPT_ERR_CAUSE = 2 ∧ t.fld F.HPT_ERR_OFFSET = off) ∧ t.hb = s.hb ∧ t.spm = s.spm))
      ∧ (∀ h v e rest, s.hpt.slots = .ready h v e :: rest → s.tdu.acc.wait = none →
        exec .hptResponse s = .next { s with hpt := { s.hpt with slots := rest } })
      ∧ (∀ r rest, s.hpt.slots = .waiting r :: rest → Inert .hptResponse s))

/-- Doorbell writes: outside the writer's range they only count in DBREJ; a level source takes SWA; a counting source adds ADD events, 0
counting as 1, and saturates at 15. Clearing a count and masking a source (R539 to R541, R548, R549, R557).
Model's choices in it: log entry 22. -/
def Obligations.Doorbells : Prop :=
  ∀ (s : State) (w : Writer) (src add : Nat), s.cclkOn = true → src < 4096 → add < 16 →
    let allowed := reservedSource src = false ∧ (match w with
      | .host => 1024 ≤ src | .core pl => pl = 2 ∨ (pl = 1 ∧ 32 ≤ src) | .seq _ => 32 ≤ src)
    (¬ allowed → Runs (.doorbellWrite w src add) s (FieldTakes s F.DIC_STAT_DBREJ (min 65535 (s.fld F.DIC_STAT_DBREJ + 1))))
    ∧ (allowed → src < 32 → Runs (.doorbellWrite w src add) s (FieldTakes s (F.DIC_SRC_SWA src) 1))
    ∧ (allowed → 32 ≤ src → Runs (.doorbellWrite w src add) s
        (FieldTakes s (F.DIC_SRC_COUNT src) (min 15 (s.fld (F.DIC_SRC_COUNT src) + if add = 0 then 1 else add))))
    ∧ (32 ≤ src → Runs (.dicSourceClear src) s (FieldTakes s (F.DIC_SRC_COUNT src) 0))
    ∧ (src < 32 → Inert (.dicSourceClear src) s)
    ∧ (∀ en, (en = true ∨ s.flag (F.DIC_SRC_MC src) = false) → Runs (.dicSourceMask src en) s (FieldTakes s (F.DIC_SRC_EN src) (b2n en)))
    ∧ (s.flag (F.DIC_SRC_MC src) = true → Inert (.dicSourceMask src false) s)

/-- Selection: the lowest eligible source, its COUNT snapshotted and cleared, INFL set, the first able target after RRPTR recorded and its
slot reserved, a hold-off begun for a counting source; with no eligible source nothing happens (R543 to R546). -/
def Obligations.SelectionAndRoundRobin : Prop :=
  ∀ (s : State), s.cclkOn = true → s.rfWf = true →
    ((∀ k f, k < 4096 → s.eligible f k = false) → Inert .dicSelect s)
    ∧ ∀ (src : Nat) (fast : Bool) (t : Nat), src < 4096 → s.eligible fast src = true → (∀ k, k < src → s.eligible fast k = false) →
      (∀ k, k < 4096 → s.eligible (!fast) k = false) →
      let g := s.srcGroup src
      let at_ := fun (j : Nat) => (s.fld (F.DIC_GRP_RRPTR g) + 1 + j) % 9
      (∃ j, j < 9 ∧ t = at_ j ∧ s.targetOk g t = true ∧ ∀ i, i < j → s.targetOk g (at_ i) = false) →
      Runs .dicSelect s fun u => u.fld (F.DIC_SRC_COUNT src) = 0 ∧ u.flag (F.DIC_SRC_INFL src) = true ∧ u.fld (F.DIC_SRC_TGT src) = t
        ∧ u.fld (F.DIC_GRP_RRPTR g) = t
        ∧ u.dic.flights = s.dic.flights ++ [⟨t, fast, ⟨src, if src < 32 then 1 else s.fld (F.DIC_SRC_COUNT src)⟩, false⟩]
        ∧ u.dic.held = (if 32 ≤ src ∧ s.fld (F.DIC_GRP_HOLDOFF g) ≠ 0 then s.dic.held ++ [g] else s.dic.held)
        ∧ u.dic.normal = s.dic.normal ∧ u.dic.fast = s.dic.fast ∧ u = { s with rf := u.rf, dic := u.dic }
        ∧ ∀ off, off ≠ (F.DIC_SRC_COUNT src).off → off ≠ (F.DIC_GRP_RRPTR g).off → u.reg off = s.reg off

/-- Landing fills the reserved slot, or returns the message of a disabled target with its count; a claim takes the fast message before the
normal one, and HPT takes nothing from target 8; completion clears INFL and SWA and empties the slot, and of a source not in flight at
the target it only counts; a disabled target gives its messages back; a hold-off ends (R544, R546, R547, R550).
Model's choices in it: log entry 22. -/
def Obligations.SlotsOfTheTargets : Prop :=
  ∀ (s : State) (w : Writer) (t src : Nat), s.cclkOn = true → t < 9 → src < 4096 →
    (∀ fast m, s.dic.flights.find? (fun f => f.target == t && f.fast == fast) = some ⟨t, fast, m, false⟩ →
      slotMsg (s.dicSlots fast) t = none → Runs (.dicLand t fast) s fun u =>
        slotMsg (u.dicSlots fast) t = some m ∧ (∀ k, k ≠ t → slotMsg (u.dicSlots fast) k = slotMsg (s.dicSlots fast) k)
        ∧ u.dic.flights = s.dic.flights.erase ⟨t, fast, m, false⟩ ∧ u.rf = s.rf)
    ∧ (∀ fast n, 32 ≤ src → s.dic.flights.find? (fun f => f.target == t && f.fast == fast) = some ⟨t, fast, ⟨src, n⟩, true⟩ →
      Runs (.dicLand t fast) s fun u => u.flag (F.DIC_SRC_INFL src) = false
        ∧ u.fld (F.DIC_SRC_COUNT src) = min 15 (s.fld (F.DIC_SRC_COUNT src) + n) ∧ u.dic.normal = s.dic.normal ∧ u.dic.fast = s.dic.fast)
    ∧ (∀ m, ¬ (w = .host ∧ t = 8) → slotMsg s.dic.fast t = some m → Runs (.dicClaim w t) s fun u =>
        slotMsg u.dic.fast t = none ∧ u = { s with dic := { s.dic with fast := u.dic.fast } })
    ∧ (∀ m, ¬ (w = .host ∧ t = 8) → slotMsg s.dic.fast t = none → slotMsg s.dic.normal t = some m → Runs (.dicClaim w t) s fun u =>
        slotMsg u.dic.normal t = none ∧ u = { s with dic := { s.dic with normal := u.dic.normal } })
    ∧ Inert (.dicClaim .host 8) s
    ∧ (t ≠ 8 ∨ w = .core 2 →
      (s.flag (F.DIC_SRC_INFL src) = true → s.fld (F.DIC_SRC_TGT src) = t → Runs (.dicComplete w t src) s fun u =>
        u.flag (F.DIC_SRC_INFL src) = false ∧ u.flag (F.DIC_SRC_SWA src) = false
        ∧ u.fld (F.DIC_SRC_COUNT src) = s.fld (F.DIC_SRC_COUNT src)
        ∧ (∀ m, m.src = src → slotMsg u.dic.fast t ≠ some m ∧ slotMsg u.dic.normal t ≠ some m)
        ∧ ∀ off, off ≠ (F.DIC_SRC_INFL src).off → u.reg off = s.reg off)
      ∧ (s.flag (F.DIC_SRC_INFL src) = false ∨ s.fld (F.DIC_SRC_TGT src) ≠ t →
        Runs (.dicComplete w t src) s (FieldTakes s F.DIC_STAT_BADCOMP (min 65535 (s.fld F.DIC_STAT_BADCOMP + 1)))))
    ∧ (Runs (.dicTargetDisable t) s fun u => u.flag (F.DIC_TGTCFG_EN t) = false ∧ slotMsg u.dic.fast t = none
        ∧ slotMsg u.dic.normal t = none ∧ (∀ f ∈ u.dic.flights, f.target = t → f.recalled = true)
        ∧ ∀ m, 32 ≤ m.src → m.src < 4096 → slotMsg s.dic.fast t = none → slotMsg s.dic.normal t = some m →
            u.flag (F.DIC_SRC_INFL m.src) = false ∧ u.fld (F.DIC_SRC_COUNT m.src) = min 15 (s.fld (F.DIC_SRC_COUNT m.src) + m.count))
    ∧ ∀ g, exec (.holdoffExpiry g) s = .next { s with dic := { s.dic with held := s.dic.held.filter (· != g) } }

/-! ### Memory ports, the scrubber, SPM and HB (R55 to R60, R105 to R111, R118 to R138, R597) -/

/-- A port in service issues one request per slot at most: nothing while MPTn_IDLE is awaited or 64 are outstanding; an oldest request
that touches no line of an outstanding one transfers under an identifier that no outstanding one has; what is outstanding stays apart. A
port out of service answers the requests queued for it at once, pennanted, and notes CAUSE 7 (R57, R58, R60, R597).
A request without a response for TMO is overdue: its reader gets pennanted lines, CAUSE 4 is noted, 322 + n raised, its identifier stays
taken; the 32nd overdue request at once fails the port and leads the engine from a Show mode to Dark. An enabled port numbers its slots from
zero; EN = 0 and the windows stay while requests are outstanding, and the hook that asked for the change of a window remembers (R119, R125, R126, R128, R597).
Model's choices in it: log entries 2, 23. -/
def Obligations.MemoryPortIssueAndSetup : Prop :=
  (∀ (s : State) (n slot : Nat) (idle : Bool), n < 2 → s.cclkOn = true → s.mode ≠ Mode.halt →
    let p := s.port n
    let row := Instr.mptRequestIssue n slot idle
    let keys := if p.slot < slot then [] else p.keys
    (s.portDead n = false →
      (p.waitIdle = true → idle = false → Inert row s)
      ∧ (p.waitIdle = false ∨ idle = true →
        (64 ≤ p.out.length ∨ p.queue = [] → exec row s = .next (s.setPort n { p with waitIdle := false, slot := max p.slot slot, keys := keys }))
        ∧ (∀ r rest, p.queue = r :: rest → p.out.length < 64 → (∀ o ∈ p.out, r.clash o.req = false) → s.flag (F.MPT_CFG_SHAPE n) = false →
          Runs row s fun t => ∃ aid, aid < 64 ∧ (∀ o ∈ p.out, o.aid ≠ aid)
            ∧ t = { s.drew.setPort n ⟨rest, p.out ++ [⟨aid, r, if r.write then s.sentRaw n r else [], false⟩], false, max p.slot slot, keys⟩ with rf := t.rf }
            ∧ (∀ off, off ≠ F.SCRUB_INJ_ARM.off → t.reg off = s.reg off)
            ∧ (r.write = true → bitsSet r.mask 4 ≠ [] → s.coded n r.quad = true → s.injects n = true → t.flag F.SCRUB_INJ_ARM = false)))
      ∧ (outApart p.out → p.out.length ≤ 64 → Runs row s fun t => outApart (t.port n).out ∧ (t.port n).out.length ≤ 64
          ∧ t.port (1 - n) = s.port (1 - n)))
    ∧ (s.portDead n = true →
      (p.queue = [] → Inert row s)
      ∧ (s.portCalm → (∀ r ∈ p.queue, r.write = false ∧ r.use.kept = true) → Runs row s fun t => (t.port n).queue = [] ∧ t.mode = s.mode)
      ∧ ∀ r, p.queue = [r] → r.write = false → r.use.kept = true → s.portCalm → s.flag (F.MPT_ERR_VALID n) = false →
        Runs row s fun t => t = { (s.setPort n { p with queue := [] }).keepsLines n r noLines with rf := t.rf, freeCtr := s.freeCtr + 1 }
          ∧ (∀ off, off ≠ (F.MPT_ERR_VALID n).off → t.reg off = s.reg off) ∧ t.flag (F.MPT_ERR_VALID n) = true
          ∧ t.fld (F.MPT_ERR_CAUSE n) = 7))
  ∧ (∀ (s : State) (n : Nat), n < 2 → s.cclkOn = true →
    (∀ aid o, (s.port n).out.find? (fun (o : MptOut) => o.aid == aid && !o.overdue) = some o → s.mode ≠ Mode.halt → s.portCalm →
      o.req.write = false → o.req.use.kept = true → (∀ r ∈ (s.port n).queue, r.write = false ∧ r.use.kept = true) →
      ((s.port n).out.length < 32 → (s.portDead n = false ∨ (s.port n).queue = []) → Runs (.mptRequestOverdue n aid) s fun t =>
        t = { (s.setPort n { s.port n with out := (s.port n).out.map fun x => if x = o then { x with overdue := true } else x }).keepsLines n o.req noLines
                with rf := t.rf }
        ∧ t.flag (F.MPT_ERR_VALID n) = true ∧ (s.flag (F.MPT_ERR_VALID n) = false → t.fld (F.MPT_ERR_CAUSE n) = 4)
        ∧ t.fld (F.DIC_SRC_COUNT (322 + n)) = min 15 (s.fld (F.DIC_SRC_COUNT (322 + n)) + 1))
      ∧ (31 ≤ s.overdue n → s.flag (F.MPT_STAT_FAILED n) = false → Runs (.mptRequestOverdue n aid) s fun t =>
        t.flag (F.MPT_STAT_FAILED n) = true ∧ (t.port n).queue = [] ∧ (showMode s.mode = true → t.mode = Mode.dark ∧ t.fld F.AO_MODE_DCAUSE = Cause.mptfail)))
    ∧ (∀ (w : Writer) (en : Bool), (n = 1 → s.build = .x) →
        ((s.port n).queue = [] ∨ s.mode = Mode.halt ∨ (en = true ∧ s.flag (F.MPT_STAT_FAILED n) = false)) → Runs (.mptEnWrite w n en) s fun t =>
        t.flag (F.MPT_CFG_EN n) = (en || (s.flag (F.MPT_CFG_EN n) && !(s.port n).out.isEmpty))
        ∧ t.flag (F.MPT_CFG_SHAPE n) = s.flag (F.MPT_CFG_SHAPE n) ∧ t.fld (F.MPT_CFG_TMO n) = s.fld (F.MPT_CFG_TMO n)
        ∧ t.port n = { s.port n with slot := (t.port n).slot, keys := (t.port n).keys }
        ∧ (en = true → s.flag (F.MPT_CFG_EN n) = false → (t.port n).slot = 0 ∧ (t.port n).keys = [])
        ∧ t.port (1 - n) = s.port (1 - n) ∧ t.hb = s.hb ∧ t.spm = s.spm ∧ t.mode = s.mode)
    ∧ (∀ (w : Writer), (n = 1 → s.build = .x) → (s.port n).out = [] → s.mode ≠ Mode.halt → s.portCalm →
        (∀ r ∈ (s.port n).queue, r.write = false ∧ r.use.kept = true) → Runs (.mptEnWrite w n false) s fun t => (t.port n).queue = [])
    ∧ (∀ (w : Writer) (k : Nat) (v : W64), k < 8 → (n = 1 → s.build = .x) →
      let off := (F.MPT_CWIN_EN n k).off
      ((s.port n).out ≠ [] → Runs (.mptCwinWrite w n k v) s fun t => t = { s with cc := { s.cc with hook := t.cc.hook } }
          ∧ t.cc.hook = (match w, s.cc.hook with
            | .core _, some r => some { r with busy := r.busy || s.written w off 0xFF v != s.reg off }
            | _, h => h))
      ∧ ((s.port n).out = [] → Runs (.mptCwinWrite w n k v) s fun t => t = { s with rf := t.rf }
          ∧ t.fld (F.MPT_CWIN_EN n k) = getBits v 63 1 ∧ t.fld (F.MPT_CWIN_LIMIT n k) = getBits v 32 28
          ∧ t.fld (F.MPT_CWIN_BASE n k) = getBits v 0 28 ∧ ∀ o, o ≠ off → t.reg o = s.reg o)))

/-- A response ends its request: the lines reach the unit that asked, decoded under the format of their address; RERR pennants them, notes
CAUSE 2 and raises 320 + n; BERR notes CAUSE 3 and raises 324 + n; a late response is discarded with CAUSE 5; one that answers nothing has
no effect (R59, R118, R122, R127, R128).
Model's choices in it: log entry 23. -/
def Obligations.MemoryPortResponses : Prop :=
  ∀ (s : State) (n aid : Nat) (bad : Bool) (raw : List Byte) (o : MptOut) (wr : Bool), n < 2 → s.cclkOn = true → s.portCalm →
    let found := (s.port n).out.find? fun o => o.aid == aid && o.req.write == wr
    let row := if wr = true then Instr.mptWriteResponse n aid bad else .mptReadResponse n aid bad raw
    let d := s.setPort n { s.port n with out := (s.port n).out.erase o }
    let err := F.MPT_ERR_VALID n
    let notes := fun (cause : Nat) (t : State) => t.flag err = true
      ∧ (s.flag err = false → t.fld (F.MPT_ERR_CAUSE n) = cause ∧ t.fld (F.MPT_ERR_AID n) = aid % 64)
      ∧ (s.flag err = true → t.flag (F.MPT_ERR_OVF n) = true ∧ t.fld (F.MPT_ERR_CAUSE n) = s.fld (F.MPT_ERR_CAUSE n))
    let raised := fun (src : Nat) (t : State) => t.fld (F.DIC_SRC_COUNT src) = min 15 (s.fld (F.DIC_SRC_COUNT src) + 1)
    (found = none → Inert row s)
    ∧ (found = some o → o.overdue = true → Runs row s fun t => t = { d with rf := t.rf } ∧ notes 5 t ∧ ∀ off, off ≠ err.off → t.reg off = s.reg off)
    ∧ (found = some o → o.overdue = false →
      (wr = false → o.req.use.kept = true →
        (bad = false → Runs row s fun t =>
          t = { d.keepsLines n o.req ((List.range 4).map fun i => (readLine (s.coded n o.req.quad) (rawOf raw i)).line) with rf := t.rf })
        ∧ (bad = false → (s.coded n o.req.quad = false ∨ ∀ i, i < 4 → ∀ j, j < 16 → syndrome (rawOf raw i) j = 0) → Runs row s fun t =>
          t = { d.keepsLines n o.req ((List.range 4).map fun i => ⟨(rawOf raw i).take 64, false⟩) with rf := t.rf } ∧ ∀ off, t.reg off = s.reg off)
        ∧ (bad = true → Runs row s fun t => t = { d.keepsLines n o.req noLines with rf := t.rf } ∧ notes 2 t ∧ raised (320 + n) t))
      ∧ (wr = true → (∃ sp, o.req.use = .scrubWrite sp) →
        (bad = false → exec row s = .next d)
        ∧ (bad = true → Runs row s fun t => t = { d with rf := t.rf } ∧ notes 3 t ∧ raised (324 + n) t
            ∧ ∀ off, off ≠ err.off → off ≠ (F.DIC_SRC_COUNT (324 + n)).off → t.reg off = s.reg off)))

/-- Every coded line reads as it was written: in valid form its 64 bytes without a pennant and without a correction, in pennant form the
same bytes with the pennant (R118, R120, R122). -/
def Obligations.CodedLinesReadAsWritten : Prop :=
  ∀ (data : List Byte) (pen : Bool), data.length = 64 →
    (rsEncode data pen).length = 80
    ∧ readLine true (rsEncode data pen) = ⟨⟨data, pen⟩, if pen then .pennant [] else .valid []⟩

/-- One inverted bit of the 13 of a byte is corrected, two give a pennant; the corrected form is written back while no write has
cancelled it; a byte written anew, or in pennant form, reads so (R105 to R109). -/
def Obligations.BytesOfTheStores : Prop :=
  ∀ (s : State) (x : StoreSel) (a : Nat),
    let m := s.store x
    (∀ j k, j < 13 → k < 13 → m.chkAt a = 0 →
      (m.invert a (2 ^ k)).read a = ⟨m.dataAt a, false⟩ ∧ (j ≠ k → ((m.invert a (2 ^ j + 2 ^ k)).read a).pen = true)
      ∧ ∀ b, b ≠ a → (m.invert a (2 ^ j + 2 ^ k)).read b = m.read b)
    ∧ (∀ (b : PByte), (m.write a b).read a = b ∧ ∀ c, c ≠ a → (m.write a b).read c = m.read c)
    ∧ (s.cclkOn = true →
      (s.fixups.contains ⟨x, a⟩ = false → Inert (.correctionWriteBack x a) s)
      ∧ (s.fixups.contains ⟨x, a⟩ = true → Runs (.correctionWriteBack x a) s fun t =>
          t.fixups.contains ⟨x, a⟩ = false ∧ (∀ b, (t.store x).read b = m.read b) ∧ (∀ y, y ≠ x → t.store y = s.store y)
          ∧ ((eccRead (m.dataAt a) (m.chkAt a)).1 = .corrected → (t.store x).chkAt a = 0)
          ∧ t = { s with hb := t.hb, spm := t.spm, fixups := t.fixups }))

/-- Ownership of SPM banks: Machine level gives a bank an owner or releases it; a release ends with the bank zero, free, and source 330
raised; a bank in release takes no owner; an armed injection (R111, R134, R138).
SCRUB: wrong parameters, a busy space, a stop of nothing; an accepted scrub is in progress, in DRAM with its first read asked for. A
scrub of SPM or HB that finds no word with an error ends OK with SCANNED = LENGTH, its summary in the registers too, and no byte changed
(R135 to R137).
Model's choices in it: log entries 19, 24. -/
def Obligations.BanksInjectionAndScrubbing : Prop :=
  (∀ (s : State) (b : Nat), s.cclkOn = true → b < spmBanks s.build →
    let own := F.SCRUB_OWN_OWNER b
    (∀ v, v < 256 → ownerCodeOk v = true → s.fld own ≠ 0xFF → (v ≠ 0 ∨ s.fld own ≠ 0) →
      Runs (.scrubOwnWrite b v) s (FieldTakes s own (if v = 0 then 0xFF else v)))
    ∧ (∀ v, v < 256 → (s.fld own = 0xFF ∨ ownerCodeOk v = false ∨ (v = 0 ∧ s.fld own = 0)) → Inert (.scrubOwnWrite b v) s)
    ∧ (s.calm → s.fld own = 0xFF → s.tdu.selftest = none → s.hpt.slots = [] → s.tdu.acc.wait = none → Runs (.spmBankReleaseDone b) s fun t =>
        t.fld own = 0 ∧ t.fld (F.DIC_SRC_COUNT 330) = min 15 (s.fld (F.DIC_SRC_COUNT 330) + 1)
        ∧ (∀ a, b * 0x20000 ≤ a → a < (b + 1) * 0x20000 → t.spm.read a = ⟨0, false⟩)
        ∧ (∀ a, a < b * 0x20000 ∨ (b + 1) * 0x20000 ≤ a → t.spm.read a = s.spm.read a)
        ∧ t = { s with rf := t.rf, spm := t.spm, fixups := t.fixups }
        ∧ ∀ off, off ≠ own.off → off ≠ (F.DIC_SRC_COUNT 330).off → t.reg off = s.reg off)
    ∧ (∀ (w : Writer) (v : W64), Runs (.scrubInjArm w v) s fun t => t = { s with rf := t.rf }
        ∧ t.fld F.SCRUB_INJ_ARM = getBits v 63 1 ∧ t.fld F.SCRUB_INJ_BITS = getBits v 32 13
        ∧ t.fld F.SCRUB_INJ_TARGET = (if s.build = .d ∧ 2 ≤ getBits v 0 2 then s.fld F.SCRUB_INJ_TARGET else getBits v 0 2)
        ∧ t.fld F.SCRUB_INJ_DEV = (if getBits v 56 4 ≤ 9 then getBits v 56 4 else s.fld F.SCRUB_INJ_DEV)
        ∧ t.fld F.SCRUB_INJ_NSYM = (if 1 ≤ getBits v 52 4 ∧ getBits v 52 4 ≤ 8 then getBits v 52 4 else s.fld F.SCRUB_INJ_NSYM)
        ∧ ∀ off, off ≠ F.SCRUB_INJ_ARM.off → t.reg off = s.reg off))
  ∧ (∀ (s : State) (c : Cmd) (sp : Nat),
    let b := c.params
    let run : ScrubRun := ⟨c.id, byteAt b 1, leAt b 8 8, leAt b 16 8, leAt b 8 8, none, 0, 0, none, none, []⟩
    (s.Due c 0x5001 → byteAt b 0 = sp →
      (scrubBad s b = true → Answers (.scrub c.id) s c Status.badParam [] s)
      ∧ (scrubBad s b = false → leAt b 16 8 = 0 → s.scrub? sp = none → Answers (.scrub c.id) s c Status.ok [] s)
      ∧ (scrubBad s b = false → leAt b 16 8 ≠ 0 → (s.scrub? sp).isSome = true → Answers (.scrub c.id) s c Status.busy [] s)
      ∧ (scrubBad s b = false → leAt b 16 8 ≠ 0 → s.scrub? sp = none → Runs (.scrub c.id) s fun t =>
        t.scrub? sp = some run ∧ (∀ j, j ≠ sp → t.scrub? j = s.scrub? j) ∧ t.cmd? c.id = some { c with phase := .running }
        ∧ (2 ≤ sp → t = { s with scrubs := t.scrubs, cmds := t.cmds })
        ∧ (sp < 2 → (t.port sp).queue = (s.port sp).queue ++ [⟨false, leAt b 8 8 / 256, 0xF, [], .scrub sp, 0⟩]
            ∧ t = { s with scrubs := t.scrubs, cmds := t.cmds, mpt0 := t.mpt0, mpt1 := t.mpt1 })))
    ∧ (∀ r x, s.live = true → s.InHand c → s.scrub? sp = some r → r.cmd = c.id → r.stopping = none → sp = (match x with | .spm => 2 | .hb => 3) →
      (∀ p ∈ (s.store x).chk, ¬ (r.pos ≤ p.1 ∧ p.1 < r.start + r.len)) →
      let l := ScrubRun.summary { r with pos := r.start + r.len } sp
      leAt l 8 8 = r.len % 2 ^ 64
      ∧ ∃ u, Answers (.scrubDone sp) s c Status.ok l u ∧ u.scrub? sp = none ∧ u = { s with rf := u.rf, scrubs := u.scrubs }
          ∧ (∀ w, w < 36 → u.reg (F.SCRUB_SUM_SUM sp w).off = BitVec.ofNat 64 (leAt l (8 * w) 8)))
    ∧ (s.scrub? sp = none → Inert (.scrubDone sp) s))

/-! ### The microsequencers (R139 to R182, R589) -/

/-- One microword of a PSQ or LSQ that may issue: its ALU result goes to the W register that DST names and to the flags, NXT gives the
next address; a word with bad parity, a reserved use or a bad branch is not executed and stops the sequencer in MCHK; a word that waits for a
count stalls while the count is not above the number of lower-numbered waiters, and else takes one from it (R141 to R149, R156, R157, R160,
R170, R171).
Model's choices in it: log entries 4, 25, 26. -/
def Obligations.MicrowordsExecute : Prop :=
  ∀ (s : State) (q : Nat), 1 ≤ q → q ≤ 18 → s.issues q = true →
    let m := s.nextWord q
    let row := Instr.microwordExecute q
    let x := s.seq q
    let reserved := reservedUse (seqKind q) m || branchBad (seqKind q) m || (s.build == .d && strobesAbsentSlot (seqKind q) m)
    let moves := fun (u : Nat) (y : Seq) => Runs row s fun t => t = { s with rf := t.rf, seqs := t.seqs } ∧ t.seqState q = SeqState.running
      ∧ t.upc q = u ∧ t.seq q = y ∧ (∀ r, r ≠ q → t.seq r = s.seq r) ∧ ∀ off, off ≠ (F.SQ_STAT_UPC q).off → t.reg off = s.reg off
    (parityErrors m ≠ 0 → Runs row s fun t => SeqChecked q 1 s t ∧ t.fld (F.SQ_MCINFO_PGRP q) = parityErrors m)
    ∧ (parityErrors m = 0 → reserved = true → Runs row s (SeqChecked q 4 s))
    ∧ (parityErrors m = 0 → reserved = false → m.plainWord = true → m.synOp = 0 →
      (1 ≤ m.alu → m.alu ≠ 0xF → 0x10 ≤ m.dst → m.dst < 0x20 → m.nxt = 0 →
        let out := microAlu m.alu (s.operand q m.srca m.imm) (s.operand q m.srcb m.imm) (s.seqFlags q)
        moves (s.upcNext q) { x with
          w := SMap.put (fun _ => (0 : W32)) x.w (m.dst - 0x10) out.r, z := out.f.z, n := out.f.n, c := out.f.c, v := out.f.v })
      ∧ (m.alu = 0 →
        (m.nxt = 0 → moves (s.upcNext q) x)
        ∧ (m.nxt = 1 → moves m.bra x)
        ∧ (m.nxt = 3 → x.stack.length < 8 → moves m.bra { x with stack := s.upcNext q :: x.stack })
        ∧ (m.nxt = 3 → 8 ≤ x.stack.length → Runs row s (SeqChecked q 2 s))
        ∧ (∀ a l, m.nxt = 5 → x.stack = a :: l → a < 2 ^ 14 → moves a { x with stack := l })
        ∧ (m.nxt = 5 → x.stack = [] → Runs row s (SeqChecked q 3 s))
        ∧ (m.nxt = 0xB → Runs row s fun t => t.seqState q = SeqState.stopped ∧ t.upc q = s.upcNext q
            ∧ t.fld (F.DIC_SRC_COUNT (32 + q)) = min 15 (s.fld (F.DIC_SRC_COUNT (32 + q)) + 1))))
    ∧ (parityErrors m = 0 → reserved = false → m.plainWord = true → m.alu = 0 → m.nxt = 0 → m.synOp = 2 →
      s.waitsBefore m.synF q < s.fld (F.SYN_COUNT m.synF) → Runs row s fun t =>
        t = { s with rf := t.rf } ∧ t.fld (F.SYN_COUNT m.synF) = s.fld (F.SYN_COUNT m.synF) - 1
        ∧ t.seqState q = SeqState.running ∧ t.upc q = s.upcNext q)
    ∧ (parityErrors m = 0 → reserved = false → m.synOp = 2 → s.fld (F.SYN_COUNT m.synF) ≤ s.waitsBefore m.synF q → m.nxt ≠ 0xA → Runs row s fun t =>
        t = { s with rf := t.rf } ∧ t.seqState q = SeqState.stalled ∧ t.upc q = s.upc q
        ∧ ∀ off, off ≠ (F.SQ_STAT_UPC q).off → t.reg off = s.reg off)

/-- START, STOP, RETIRE, the hang limit; a barrier that every member has reached lets each go on; a write of SYNf; a MEM read lands; a stage
ends its operation (R145, R151, R156, R157, R170, R173, R174, R178, R180).
UCODE_LOAD: a check that fails answers its status; a verify starts; an image in DRAM is asked for whole; one in HB with a good header
begins the load. Its end: with a good CRC and good records the stores of every target hold the records, the fill word elsewhere in the region,
the region is valid and its CRC recorded; a bad record is named and the region filled (R161, R162, R164 to R168).
Model's choices in it: log entries 25, 28. -/
def Obligations.SequencersAndTheirImages : Prop :=
  (∀ (s : State) (q : Nat), s.cclkOn = true →
    (1 ≤ q → seqPresent s.build q = true →
      (s.seqState q = SeqState.stopped → s.flag (F.SQ_STAT_VALID q) = true → Runs (.seqStart q) s fun t =>
        t = { s with rf := t.rf } ∧ t.seqState q = SeqState.running ∧ t.upc q = s.fld (F.SQ_CTL_ENTRY q)
        ∧ ∀ off, off ≠ (F.SQ_STAT_UPC q).off → t.reg off = s.reg off)
      ∧ (s.seqState q ≠ SeqState.stopped ∨ s.flag (F.SQ_STAT_VALID q) = false → Inert (.seqStart q) s)
      ∧ (s.seqState q = SeqState.running ∨ s.seqState q = SeqState.stalled → Runs (.seqStop q) s fun t =>
        t = { s with rf := t.rf, seqs := t.seqs } ∧ t.seqState q = SeqState.stopped ∧ t.upc q = s.upc q
        ∧ t.seq q = { s.seq q with barrier := none } ∧ (∀ r, r ≠ q → t.seq r = s.seq r)
        ∧ (∀ f, f < 8 → (s.seq q).barrier = some f → bitOf (t.fld (F.SYN_ARRIVED f)) q = false))
      ∧ (s.mode ≠ Mode.halt → s.seqState q = SeqState.stalled → s.fld (F.SQ_CTL_HANGLIM q) ≠ 0 → bitOf (s.nextWord q).lctl 0 = false →
        Runs (.hangLimit q) s (SeqChecked q 6 s))
      ∧ (q ≤ 16 → s.calm → s.seqState q ≠ SeqState.retired → (∀ r, (s.seq r).barrier = none) →
        (∃ k, k < seCount s.build ∧ k + 1 ≠ q ∧ s.seqState (k + 1) ≠ SeqState.retired) →
        Runs (.retire q) s fun t => t.seqState q = SeqState.retired ∧ (∀ f, f < 8 → bitOf (t.fld (F.SYN_MASK f)) q = false)
          ∧ (∀ b, b < spmBanks s.build → s.fld (F.SCRUB_OWN_OWNER b) = 0x10 + (q - 1) → t.fld (F.SCRUB_OWN_OWNER b) = 0xFF)
          ∧ t.obs Cls.se (q - 1) = Obs.retired ∧ t.rows (q - 1) = [] ∧ t.mode = s.mode)
      ∧ (s.seqState q = SeqState.retired → Inert (.retire q) s)
      ∧ (∀ r l, s.mode ≠ Mode.halt → (s.seq q).mem = r :: l → Runs (.seqMemReadLand q) s fun t =>
        t = { s with seqs := t.seqs } ∧ (∀ p, p ≠ q → t.seq p = s.seq p)
        ∧ t.seq q = { s.seq q with mem := l, mdr := r.data, memPen := r.pen, memRdy := true })
      ∧ (∀ k, s.mode ≠ Mode.halt → (s.stage q k).busy = true →
        ((17 ≤ q ∧ k < 5 ∧ k ≠ 3) ∨ (q ≤ 16 ∧ s.flag (F.SEN_CTL_ENC (q - 1)) = true)) → Runs (.stageOperationDone q k) s fun t =>
          t = { s with seqs := t.seqs } ∧ t.stage q k = { s.stage q k with busy := false, done := true }
          ∧ (∀ j, j ≠ k → t.stage q j = s.stage q j) ∧ ∀ p, p ≠ q → t.seq p = s.seq p))
    ∧ (∀ f, f < 8 → s.mode ≠ Mode.halt → barrierReady f s = true →
      let waits := fun (p : Nat) => p < 19 ∧ bitOf (s.fld (F.SYN_ARRIVED f)) p = true ∧ (s.seq p).barrier = some f
      (∀ p, waits p → (s.nextWord p).idleWord = true) → Runs (.synBarrierComplete f) s fun t => t.fld (F.SYN_ARRIVED f) = 0
        ∧ t.fld (F.SYN_MASK f) = s.fld (F.SYN_MASK f)
        ∧ (∀ p, waits p → (t.seq p).barrier = none ∧ t.upc p = s.upcNext p ∧ t.seqState p = SeqState.running)
        ∧ (∀ p, p < 19 → ¬ waits p → t.seq p = s.seq p ∧ t.upc p = s.upc p ∧ t.seqState p = s.seqState p))
    ∧ (∀ f w v, f < 8 → (∀ p, (s.seq p).barrier ≠ some f) → Runs (.synfWrite w f 0xFF v) s fun t => t = { s with rf := t.rf }
        ∧ t.fld (F.SYN_MASK f) = getBits v 32 19 ∧ t.fld (F.SYN_COUNT f) = getBits v 0 8
        ∧ t.fld (F.SYN_ARRIVED f) = s.fld (F.SYN_ARRIVED f) ∧ ∀ off, off ≠ (F.SYN_MASK f).off → t.reg off = s.reg off))
  ∧ (∀ (s : State) (c : Cmd),
    let u := ucodeParams c.params
    let id := c.id
    let img := readBytes .hb u.addr u.imageLen s
    let recs := (vals img).drop 48
    let ok := validRef
    (s.Due c 0x7001 →
      (∀ st, ucodeEarly s c u = some st → Answers (.ucodeLoad id) s c st ucodePlain s)
      ∧ (ucodeEarly s c u = none →
        (u.mode = 1 → Runs (.ucodeLoad id) s fun t => t = { s with cmds := t.cmds } ∧ t.cmd? id = some { c with phase := .running })
        ∧ (u.mode = 0 → u.src = 0 → Runs (.ucodeLoad id) s fun t => t = { s with cmds := t.cmds, mpt0 := t.mpt0 }
            ∧ t.mpt0.queue = s.mpt0.queue ++ rangeReads (.ucode id) u.addr u.imageLen ∧ t.cmd? id = some { c with phase := .running })
        ∧ (u.mode = 0 → u.src = 1 → s.seqState 0 ≠ SeqState.loading → anyPen (img.take 48) = false → ucodeHeaderBad s.build u (vals (img.take 48)) = none →
            Runs (.ucodeLoad id) s fun t => t.cmd? id = some { c with phase := .running } ∧ (∀ q ∈ u.targets, t.flag (ok q u.customer) = false
              ∧ (q ≠ 0 → t.seqState q = SeqState.loading)) ∧ t.cstore = s.cstore ∧ t.hb = s.hb)))
    ∧ (s.live = true → s.InHand c → c.opc = 0x7001 → c.phase = .running → u.mode = 0 → u.src = 1 → u.kslot = 0xFF →
        ucodeBadParam s c.params u = false → anyPen (img.drop 48) = false →
      let dB := byteAt (vals img) 7 % 2 == 1
      let bad := firstBadRecord (seqKind (u.targets.headD 0)) u.customer dB recs u.count
      let inRegion := fun (q a : Nat) => (region q u.customer).1 ≤ a ∧ a < (region q u.customer).2
      ((crc32 recs).toNat = u.crc → bad = none → ∃ v, Answers (.ucodeLoadDone id) s c Status.ok ucodePlain v
        ∧ ∀ q ∈ u.targets, v.flag (ok q u.customer) = true ∧ v.fld (if u.customer then F.SQ_CRC_CUST q else F.SQ_CRC_CRC q) = u.crc
          ∧ (q ≠ 0 → v.seqState q = SeqState.stopped) ∧ (∀ i, i < u.count → v.ucWord q (u.base + i) = recordWord recs i)
          ∧ ∀ a, inRegion q a → a < u.base ∨ u.base + u.count ≤ a → v.ucWord q a = fillWord)
      ∧ ((crc32 recs).toNat ≠ u.crc → ∃ v, Answers (.ucodeLoadDone id) s c Status.badParam (ucodeReply 0xFFFF 6) v
        ∧ ∀ q ∈ u.targets, ∀ a, inRegion q a → v.ucWord q a = fillWord)
      ∧ (∀ i r, (crc32 recs).toNat = u.crc → bad = some (i, r) → ∃ v, Answers (.ucodeLoadDone id) s c Status.badParam (ucodeReply i r) v
        ∧ ∀ q ∈ u.targets, (∀ a, inRegion q a → v.ucWord q a = fillWord) ∧ (q ≠ 0 → v.seqState q = SeqState.stopped))))

/-! ### The command core: arithmetic and moves (R190 to R192, R149) -/

/-- ADD, ADC, SUB, SBC and ADDI: the sum or difference of 32 bits; C is the carry out, or the borrow; V says that the signed result
does not fit (R190 to R192 with R149). Nothing else changes.
AND, OR, XOR, ANDI, ORI, XORI, MIN, MAX and CLZ: the result in rd, Z and N of the result, C and V cleared; immediates are
zero-extended; CLZ needs RB = 0 (R190 to R192 with R149).
Model's choices in it: log entry 29. -/
def Obligations.ArithmeticAndLogic : Prop :=
  (∀ (s : State) (rd ra rb : BitVec 5) (imm : BitVec 14) (imm5 : BitVec 5),
    let a := s.g ra.toNat
    let b := s.g rb.toNat
    let d := s.g rd.toNat
    let x := imm.signExtend 32
    let y := imm5.signExtend 32
    let k : W32 := BitVec.ofNat 32 (b2n (s.cc.bit 10))
    (s.ccReady 4 →
      (∃ t, exec (.add (.long rd ra rb)) s = .next t
        ∧ AluRan s 4 rd (a + b) (decide (2 ^ 32 ≤ a.toNat + b.toNat)) (decide ((a + b).toInt ≠ a.toInt + b.toInt)) t)
      ∧ (∃ t, exec (.adc rd ra rb) s = .next t
        ∧ AluRan s 4 rd (a + b + k) (decide (2 ^ 32 ≤ a.toNat + b.toNat + k.toNat))
            (decide ((a + b + k).toInt ≠ a.toInt + b.toInt + k.toNat)) t)
      ∧ (∃ t, exec (.sub (.long rd ra rb)) s = .next t
        ∧ AluRan s 4 rd (a - b) (decide (a.toNat < b.toNat)) (decide ((a - b).toInt ≠ a.toInt - b.toInt)) t)
      ∧ (∃ t, exec (.sbc rd ra rb) s = .next t
        ∧ AluRan s 4 rd (a - b - k) (decide (a.toNat < b.toNat + k.toNat)) (decide ((a - b - k).toInt ≠ a.toInt - b.toInt - k.toNat)) t)
      ∧ (∃ t, exec (.addi (.long rd ra imm)) s = .next t
        ∧ AluRan s 4 rd (a + x) (decide (2 ^ 32 ≤ a.toNat + x.toNat)) (decide ((a + x).toInt ≠ a.toInt + x.toInt)) t))
    ∧ (s.ccReady 2 →
      (∃ t, exec (.add (.short rd rb)) s = .next t
        ∧ AluRan s 2 rd (d + b) (decide (2 ^ 32 ≤ d.toNat + b.toNat)) (decide ((d + b).toInt ≠ d.toInt + b.toInt)) t)
      ∧ (∃ t, exec (.sub (.short rd rb)) s = .next t
        ∧ AluRan s 2 rd (d - b) (decide (d.toNat < b.toNat)) (decide ((d - b).toInt ≠ d.toInt - b.toInt)) t)
      ∧ (∃ t, exec (.addi (.short rd imm5)) s = .next t
        ∧ AluRan s 2 rd (d + y) (decide (2 ^ 32 ≤ d.toNat + y.toNat)) (decide ((d + y).toInt ≠ d.toInt + y.toInt)) t)))
  ∧ (∀ (s : State) (rd ra rb : BitVec 5) (imm : BitVec 14),
    let a := s.g ra.toNat
    let b := s.g rb.toNat
    let d := s.g rd.toNat
    let x := imm.setWidth 32
    (s.ccReady 4 →
      (∃ t, exec (.and (.long rd ra rb)) s = .next t ∧ AluRan s 4 rd (a &&& b) false false t)
      ∧ (∃ t, exec (.or (.long rd ra rb)) s = .next t ∧ AluRan s 4 rd (a ||| b) false false t)
      ∧ (∃ t, exec (.xor (.long rd ra rb)) s = .next t ∧ AluRan s 4 rd (a ^^^ b) false false t)
      ∧ (∃ t, exec (.andi rd ra imm) s = .next t ∧ AluRan s 4 rd (a &&& x) false false t)
      ∧ (∃ t, exec (.ori rd ra imm) s = .next t ∧ AluRan s 4 rd (a ||| x) false false t)
      ∧ (∃ t, exec (.xori rd ra imm) s = .next t ∧ AluRan s 4 rd (a ^^^ x) false false t)
      ∧ (∃ t v, exec (.min rd ra rb) s = .next t ∧ AluRan s 4 rd v false false t ∧ v.toInt = min a.toInt b.toInt)
      ∧ (∃ t v, exec (.max rd ra rb) s = .next t ∧ AluRan s 4 rd v false false t ∧ v.toInt = max a.toInt b.toInt)
      ∧ (∃ t v, exec (.clz rd ra 0) s = .next t ∧ AluRan s 4 rd v false false t
          ∧ v.toNat ≤ 32 ∧ (∀ i, i < v.toNat → a.getLsbD (31 - i) = false) ∧ (v.toNat < 32 → a.getLsbD (31 - v.toNat) = true)))
    ∧ (s.ccReady 2 →
      (∃ t, exec (.and (.short rd rb)) s = .next t ∧ AluRan s 2 rd (d &&& b) false false t)
      ∧ (∃ t, exec (.or (.short rd rb)) s = .next t ∧ AluRan s 2 rd (d ||| b) false false t)
      ∧ (∃ t, exec (.xor (.short rd rb)) s = .next t ∧ AluRan s 2 rd (d ^^^ b) false false t)))

/-- SHL, SHR, SAR, ROL, SHLI, SHRI and SARI by a distance of five bits: the shifted value as a number; C is the last bit shifted
out, 0 for a distance of 0; V is cleared (R190 to R192 with R149).
Model's choices in it: log entry 29. -/
def Obligations.Shifts : Prop :=
  ∀ (s : State) (rd ra rb : BitVec 5) (imm : BitVec 5),
    let left := fun (v : W32) (n : Nat) (w : W32) (c : Bool) =>
      w.toNat = v.toNat * 2 ^ n % 2 ^ 32 ∧ c = (decide (0 < n) && v.getLsbD (32 - n))
    let right := fun (v : W32) (n : Nat) (w : W32) (c : Bool) =>
      w.toNat = v.toNat / 2 ^ n ∧ c = (decide (0 < n) && v.getLsbD (n - 1))
    let arith := fun (v : W32) (n : Nat) (w : W32) (c : Bool) =>
      w.toInt = v.toInt / ((2 ^ n : Nat) : Int) ∧ c = (decide (0 < n) && v.getLsbD (n - 1))
    let around := fun (v : W32) (n : Nat) (w : W32) (c : Bool) =>
      (∀ i, i < 32 → w.getLsbD ((i + n) % 32) = v.getLsbD i) ∧ c = (decide (0 < n) && v.getLsbD (32 - n))
    let ran := fun (i : Instr) (len : Nat) (f : W32 → Nat → W32 → Bool → Prop) (v : W32) (n : Nat) =>
      ∃ t w c, exec i s = .next t ∧ AluRan s len rd w c false t ∧ f v n w c
    let a := s.g ra.toNat
    let n := (s.g rb.toNat).toNat % 32
    let d := s.g rd.toNat
    (s.ccReady 4 →
      ran (.shl (.long rd ra rb)) 4 left a n ∧ ran (.shr (.long rd ra rb)) 4 right a n ∧ ran (.sar (.long rd ra rb)) 4 arith a n
      ∧ ran (.rol rd ra rb) 4 around a n)
    ∧ (s.ccReady 2 →
      ran (.shl (.short rd rb)) 2 left d n ∧ ran (.shr (.short rd rb)) 2 right d n ∧ ran (.sar (.short rd rb)) 2 arith d n
      ∧ ran (.shli rd imm) 2 left d imm.toNat ∧ ran (.shri rd imm) 2 right d imm.toNat ∧ ran (.sari rd imm) 2 arith d imm.toNat)

/-- SLT, SLTU, CMP and CMPI compare: 1 or 0 in rd, flags of the difference (R190, R192). TSTB sets Z to the complement of the named
bit and leaves N, C and V (R190).
MOV, MOVI, LUI, MFQ and MFSTAT put a value into rd and leave the flags; MTSTAT writes Z, N, C and V, and above Task level NIE and
FIE, and nothing else of STAT (R190, R191, R196).
Model's choices in it: log entries 29, 30. -/
def Obligations.ComparisonsMovesAndStatus : Prop :=
  (∀ (s : State) (rd ra rb : BitVec 5) (imm : BitVec 5),
    let a := s.g ra.toNat
    let b := s.g rb.toNat
    let d := s.g rd.toNat
    let x := imm.signExtend 32
    let diff := fun (p q : W32) =>
      (⟨p - q == 0, (p - q).msb, decide (p.toNat < q.toNat), decide ((p - q).toInt ≠ p.toInt - q.toInt)⟩ : AluFlags)
    (s.ccReady 4 →
      (∃ t, exec (.slt rd ra rb) s = .next t ∧ CcRan s 4 t ∧ t.cc.pc = s.cc.pc + 4 ∧ MulDivStay s t
        ∧ RegTakes s t rd.toNat (if a.toInt < b.toInt then 1 else 0) ∧ FlagsTake s t (diff a b))
      ∧ (∃ t, exec (.sltu rd ra rb) s = .next t ∧ CcRan s 4 t ∧ t.cc.pc = s.cc.pc + 4 ∧ MulDivStay s t
        ∧ RegTakes s t rd.toNat (if a.toNat < b.toNat then 1 else 0) ∧ FlagsTake s t (diff a b)))
    ∧ (s.ccReady 2 →
      (∃ t, exec (.cmp rd rb) s = .next t ∧ FlagsRan s 2 (diff d b) t)
      ∧ (∃ t, exec (.cmpi rd imm) s = .next t ∧ FlagsRan s 2 (diff d x) t)
      ∧ (∃ t, exec (.tstb rd imm) s = .next t
        ∧ FlagsRan s 2 { s.cc.aluFlags with z := !d.getLsbD imm.toNat } t)))
  ∧ (∀ (s : State) (rd rs ra : BitVec 5) (imm : BitVec 5) (up : BitVec 19),
    (s.ccReady 2 →
      (∃ t, exec (.mov rd rs) s = .next t ∧ MoveRan s 2 rd (s.g rs.toNat) t)
      ∧ (∃ t, exec (.movi rd imm) s = .next t ∧ MoveRan s 2 rd (imm.signExtend 32) t)
      ∧ (∃ t, exec (.mfq rd 0) s = .next t ∧ MoveRan s 2 rd s.cc.mql t)
      ∧ (∃ t, exec (.mfq rd 1) s = .next t ∧ MoveRan s 2 rd s.cc.mqh t))
    ∧ (s.ccReady 4 →
      (∃ t, exec (.lui rd up) s = .next t ∧ MoveRan s 4 rd (BitVec.ofNat 32 (up.toNat * 8192)) t)
      ∧ (∃ t v, exec (.mfstat rd) s = .next t ∧ MoveRan s 4 rd v t
        ∧ ∀ k, k < 32 → v.getLsbD k = if k = 6 then !s.cc.dividing else s.cc.bit k)
      ∧ (∃ t, exec (.mtstat ra) s = .next t ∧ CcRan s 4 t ∧ t.cc.pc = s.cc.pc + 4 ∧ t.cc.g = s.cc.g ∧ MulDivStay s t
        ∧ ∀ k, k < 32 → t.cc.bit k =
            if (8 ≤ k ∧ k < 12) ∨ (s.cc.pl ≠ 0 ∧ (k = 2 ∨ k = 3)) then (s.g ra.toNat).getLsbD k else s.cc.bit k)))

/-! ### The command core: multiplier, jumps, memory, waits (R190 to R198, R205 to R212) -/

/-- MUL, MULU, DIV and DIVU put their results in flight and change no register: they land in MQH:MQL with MULTIPLY_LAND and DIVIDE_LAND.
A divisor of zero gives all ones and the dividend; signed division truncates toward zero and 0x8000_0000 by -1 gives 0x8000_0000 and 0; a
divide abandons the one in flight (R190, R194, R195).
Model's choices in it: log entries 29, 30. -/
def Obligations.MultiplyAndDivide : Prop :=
  (∀ (s : State) (rd rs : BitVec 5), s.ccReady 2 →
    let a := s.g rd.toNat
    let b := s.g rs.toNat
    let muls := s.cc.flights.filter fun (f : CcFlight) => !f.isDiv
    let starts := fun (i : Instr) (fl : List CcFlight) =>
      ∃ t, exec i s = .next t ∧ CcRan s 2 t ∧ t.cc.pc = s.cc.pc + 2 ∧ t.cc.g = s.cc.g ∧ t.cc.stat = s.cc.stat
        ∧ t.cc.mql = s.cc.mql ∧ t.cc.mqh = s.cc.mqh ∧ t.cc.flights = fl
    (∃ lo hi, starts (.mul rd rs) (s.cc.flights ++ [.mul lo hi])
      ∧ hi.toInt * 2 ^ 32 + (lo.toNat : Int) = a.toInt * b.toInt)
    ∧ (∃ lo hi, starts (.mulu rd rs) (s.cc.flights ++ [.mul lo hi]) ∧ hi.toNat * 2 ^ 32 + lo.toNat = a.toNat * b.toNat)
    ∧ (b = 0 → starts (.div rd rs) (muls ++ [.div 0xFFFFFFFF a true]) ∧ starts (.divu rd rs) (muls ++ [.div 0xFFFFFFFF a true]))
    ∧ (b ≠ 0 → ∃ q r, starts (.div rd rs) (muls ++ [.div q r false])
      ∧ ((a = 0x80000000 ∧ b = 0xFFFFFFFF ∧ q = 0x80000000 ∧ r = 0)
        ∨ (¬ (a = 0x80000000 ∧ b = 0xFFFFFFFF) ∧ q.toInt = Int.tdiv a.toInt b.toInt ∧ r.toInt = Int.tmod a.toInt b.toInt)))
    ∧ (b ≠ 0 → ∃ q r, starts (.divu rd rs) (muls ++ [.div q r false]) ∧ q.toNat = a.toNat / b.toNat ∧ r.toNat = a.toNat % b.toNat))
  ∧ (∀ (s : State) (lo hi : W32) (rest : List CcFlight), s.cclkOn = true → s.mode ≠ Mode.halt → s.cc.flights = .mul lo hi :: rest →
      exec .multiplyLand s = .next { s with cc := { s.cc with mql := lo, mqh := hi, flights := rest } })
  ∧ (∀ (s : State) (q r : W32) (dz : Bool), s.cclkOn = true → s.mode ≠ Mode.halt → s.cc.flights = [.div q r dz] →
      ∃ t, exec .divideLand s = .next t ∧ t = { s with cc := { s.cc with mql := q, mqh := r, flights := [], stat := t.cc.stat } }
        ∧ ∀ k, k < 32 → t.cc.bit k = if k = 7 then dz else s.cc.bit k)

/-- JMP, CALL, JR, JALR and the branches: where PC goes, and the link; a branch that is not taken goes on behind itself. Offsets count
halfwords from the instruction itself (R189 to R191, R193).
WFI, FENCE, HOLD, RELS and the end of a HOLD window: an interrupt that can be taken is taken before WFI or HOLD; else WFI ends when one
is pending and no machine check is due, and waits otherwise; FENCE ends when no line move is outstanding; HOLD opens a window and RELS or its
expiry closes it (R190, R191, R200, R207, R208).
Model's choices in it: log entries 29, 30, 31. -/
def Obligations.JumpsBranchesAndWaits : Prop :=
  (∀ (s : State) (rd ra rs : BitVec 5) (imm : BitVec 14) (off10 : BitVec 10) (off19 : BitVec 19) (off24 : BitVec 24) (cond : BitVec 5),
    let by10 := s.cc.pc + off10.signExtend 32 + off10.signExtend 32
    let by19 := s.cc.pc + off19.signExtend 32 + off19.signExtend 32
    let by24 := s.cc.pc + off24.signExtend 32 + off24.signExtend 32
    let target := s.g ra.toNat + imm.signExtend 32
    let z := s.cc.bit 8
    let n := s.cc.bit 9
    let c := s.cc.bit 10
    let v := s.cc.bit 11
    let branches := fun (i : Instr) (len : Nat) (holds : Bool) (a : W32) =>
      ∃ t, exec i s = .next t ∧ JumpRan s len (if holds then a else s.cc.pc + BitVec.ofNat 32 len) t
    (s.ccReady 2 →
      branches (.br off10) 2 true by10 ∧ branches (.beq off10) 2 z by10 ∧ branches (.bne off10) 2 (!z) by10
      ∧ branches (.blt off10) 2 (n != v) by10 ∧ branches (.bge off10) 2 (n == v) by10 ∧ branches (.bltu off10) 2 c by10
      ∧ branches (.bgeu off10) 2 (!c) by10 ∧ branches (.bndv off10) 2 s.cc.dividing by10
      ∧ ((s.g rs.toNat).getLsbD 0 = false → s.cc.hook = none → branches (.jr rs) 2 true (s.g rs.toNat)))
    ∧ (s.ccReady 4 →
      branches (.jmp off24) 4 true by24
      ∧ (∃ t, exec (.call off24) s = .next t ∧ LoadRan s (s.fetched 4) 0 31 (s.cc.pc + 4) { t with cc := { t.cc with pc := s.cc.pc } }
          ∧ t.cc.pc = by24)
      ∧ (target.getLsbD 0 = false → ∃ t, exec (.jalr rd ra imm) s = .next t
          ∧ LoadRan s (s.fetched 4) 0 rd.toNat (s.cc.pc + 4) { t with cc := { t.cc with pc := s.cc.pc } } ∧ t.cc.pc = target)
      ∧ (∀ k : Nat, k < 15 → cond.toNat = k → branches (.bc cond off19) 4
          ([true, z, !z, n != v, n == v, c, !c, n, !n, v, !v, !z && n == v, z || n != v, !s.cc.dividing, s.cc.dividing].getD k false) by19)))
  ∧ (∀ (s : State) (fn : BitVec 9),
    let waits := fun (i : Instr) (w : CcWait) =>
      exec i s = .next { s.fetched 2 with cc := { s.cc with wait := some w, portA := none } }
    let ends := fun (i : Instr) (len : Nat) (bit5 : Bool → Bool) =>
      ∃ t, exec i s = .next t ∧ CcRan s len t ∧ t.cc.pc = s.cc.pc + BitVec.ofNat 32 len ∧ t.cc.g = s.cc.g ∧ MulDivStay s t
        ∧ ∀ k, k < 32 → t.cc.bit k = if k = 5 then bit5 (s.cc.bit 5) else s.cc.bit k
    (s.ccReadyAgain 2 .wfi → s.cc.pl ≠ 0 →
      let f := s.fetched 2
      (f.takesInt = true → exec .wfi s = .next (interruptTaken f))
      ∧ (f.takesInt = false → f.mcDue = false → s.intPending = true → ends .wfi 2 id)
      ∧ (f.takesInt = false → f.mcDue = true ∨ s.intPending = false → waits .wfi .wfi))
    ∧ (s.ccReadyAgain 2 .fence → (s.cc.lmovs = [] → ends .fence 2 id) ∧ (s.cc.lmovs ≠ [] → waits .fence .fence))
    ∧ (s.takesInt = true → exec (.hold fn) s = .next (interruptTaken s))
    ∧ (s.ccReady 4 → s.cc.pl ≠ 0 → s.takesInt = false → ends (.hold fn) 4 (fun _ => true))
    ∧ (s.ccReady 2 → s.cc.pl ≠ 0 → ends .rels 2 (fun _ => false))
    ∧ (s.cclkOn = true → s.mode ≠ Mode.halt →
      ∃ t, exec .holdExpiry s = .next t ∧ t = { s with cc := { s.cc with stat := t.cc.stat } }
        ∧ ∀ k, k < 32 → t.cc.bit k = if k = 5 then false else s.cc.bit k))

/-- Loads from HB, SPM and ROM, aligned and permitted, without pennant: rd takes the bytes, sign- or zero-extended, and memory keeps
every byte; the reserved range reads zero. LDD fills an even register and the one behind it (R185, R190, R191, R197).
Model's choices in it: log entry 29. -/
def Obligations.LoadsFromMemory : Prop :=
  ∀ (s : State) (rd ra rs : BitVec 5) (imm : BitVec 14),
    let a := s.g ra.toNat + imm.signExtend 32
    let loads := fun (i : Instr) (len n : Nat) (at_ : W32) (ext : Nat → W32) =>
      s.ccReady len → s.calm → at_.toNat % n = 0 →
        (∀ m o, s.ccPlace false at_.toNat = .mem m o → anyPen (readBytes m o n s) = false →
          ∃ t, exec i s = .next t ∧ LoadRan s (noteReads m o n (s.fetched len)) len rd.toNat (ext (leNat (vals (readBytes m o n s)))) t)
        ∧ (∀ o, s.ccPlace false at_.toNat = .rom o →
          ∃ t, exec i s = .next t
            ∧ LoadRan s (s.fetched len) len rd.toNat (ext (leNat ((List.range n).map fun k => Config.ccRom (o + k)))) t)
        ∧ (s.ccPlace false at_.toNat = .zero → ∃ t, exec i s = .next t ∧ LoadRan s (s.fetched len) len rd.toNat (ext 0) t)
    loads (.lw (.short rd rs)) 2 4 (s.g rs.toNat) (BitVec.ofNat 32)
    ∧ loads (.lw (.long rd ra imm)) 4 4 a (BitVec.ofNat 32)
    ∧ loads (.lhu rd ra imm) 4 2 a (BitVec.ofNat 32)
    ∧ loads (.lbu rd ra imm) 4 1 a (BitVec.ofNat 32)
    ∧ loads (.lh rd ra imm) 4 2 a (fun v => (BitVec.ofNat 16 v).signExtend 32)
    ∧ loads (.lb rd ra imm) 4 1 a (fun v => (BitVec.ofNat 8 v).signExtend 32)
    ∧ (s.ccReady 4 → s.calm → a.toNat % 8 = 0 → rd.toNat % 2 = 0 → rd.toNat ≠ 0 →
        ∀ m o, s.ccPlace false a.toNat = .mem m o → anyPen (readBytes m o 8 s) = false →
          let v := leNat (vals (readBytes m o 8 s))
          ∃ t, exec (.ldd rd ra imm) s = .next t ∧ CcRanOn s (noteReads m o 8 (s.fetched 4)) t ∧ t.cc.pc = s.cc.pc + 4
            ∧ t.g rd.toNat = BitVec.ofNat 32 v ∧ t.g (rd.toNat + 1) = BitVec.ofNat 32 (v / 2 ^ 32)
            ∧ (∀ k, k < 32 → k ≠ rd.toNat → k ≠ rd.toNat + 1 → t.g k = s.g k) ∧ t.cc.stat = s.cc.stat ∧ MulDivStay s t)

/-- Stores to HB and SPM, aligned and permitted: the low bytes of rd, little-endian, go to the computed address and to no other byte;
the reserved range discards them. STD stores rd and the register behind it (R185, R190, R191, R197).
Bytes written to HB or SPM read back as written, with their pennants, and every other byte of both stores reads as before, while
no injection is armed (R105 to R108, R132, R134).
Model's choices in it: log entry 29. -/
def Obligations.StoresAndWhatTheyStore : Prop :=
  (∀ (s : State) (rd ra rs : BitVec 5) (imm : BitVec 14),
    let a := s.g ra.toNat + imm.signExtend 32
    let v := (s.g rd.toNat).toNat
    let stores := fun (i : Instr) (len n : Nat) (at_ : W32) (x : Nat) =>
      s.ccReady len → at_.toNat % n = 0 →
        (∀ m o, s.ccPlace true at_.toNat = .mem m o →
          ∃ t, exec i s = .next t ∧ StoreRan s (writeBytes m o (plain (leBytes n x)) (s.fetched len)) len t)
        ∧ (s.ccPlace true at_.toNat = .zero → ∃ t, exec i s = .next t ∧ StoreRan s (s.fetched len) len t)
    stores (.sw (.short rd rs)) 2 4 (s.g rs.toNat) v
    ∧ stores (.sw (.long rd ra imm)) 4 4 a v
    ∧ stores (.sh rd ra imm) 4 2 a v
    ∧ stores (.sb rd ra imm) 4 1 a v
    ∧ (rd.toNat % 2 = 0 → rd.toNat ≠ 0 → stores (.std rd ra imm) 4 8 a (v + 2 ^ 32 * (s.g (rd.toNat + 1)).toNat)))
  ∧ (∀ (s : State) (m x : StoreSel) (a b : Nat) (l : List PByte), s.flag F.SCRUB_INJ_ARM = false →
    ((writeBytes m a l s).store x).read b =
      if x = m ∧ a ≤ b ∧ b < a + l.length then l.getD (b - a) ⟨0, false⟩ else (s.store x).read b)

/-- Loads and stores of a register block by LW, SW, LDD and STD: the load gives what the read of the register gives, the store writes
it, with the enables of its half, above Task level (R50, R185, R186, R197).
Model's choices in it: log entries 29, 30. -/
def Obligations.RegisterLoadsAndStores : Prop :=
  ∀ (s : State) (rd ra : BitVec 5) (imm : BitVec 14) (off : Nat),
    let a := (s.g ra.toNat + imm.signExtend 32).toNat
    let v := (s.g rd.toNat).toNat
    let f := s.fetched 4
    s.ccReady 4 → s.cc.pl ≠ 0 → a < 0x600000 → off = a / 8 * 8 →
      (a % 4 = 0 →
        (∃ t, exec (.lw (.long rd ra imm)) s = .next t
          ∧ let r := regRead (.core s.cc.pl) off (if a % 8 = 4 then 0xF0 else 0x0F) f
            t = settle (ccNext 4 (r.1.setG rd.toNat (BitVec.ofNat 32 (r.2.toNat / 2 ^ (8 * (a - off)) % 2 ^ 32)))))
        ∧ (¬ (s.cc.pl = 1 ∧ machineOnlyAt off = true) →
          exec (.sw (.long rd ra imm)) s = .next (settle (regWrite (.core s.cc.pl) false off (if a % 8 = 4 then 0xF0 else 0x0F)
            (BitVec.ofNat 64 (v * 2 ^ (8 * (a - off)))) (ccNext 4 f)))))
      ∧ (a % 8 = 0 → rd.toNat % 2 = 0 → rd.toNat ≠ 0 →
        (∃ t, exec (.ldd rd ra imm) s = .next t
          ∧ let r := regRead (.core s.cc.pl) off 0xFF f
            t = settle (ccNext 4 ((r.1.setG rd.toNat (r.2.setWidth 32)).setG (rd.toNat + 1) (BitVec.ofNat 32 (r.2.toNat / 2 ^ 32)))))
        ∧ (¬ (s.cc.pl = 1 ∧ machineOnlyAt off = true) →
          exec (.std rd ra imm) s = .next (settle (regWrite (.core s.cc.pl) false off 0xFF
            (BitVec.ofNat 64 (v + 2 ^ 32 * (s.g (rd.toNat + 1)).toNat)) (ccNext 4 f)))))

/-! ### The command core: traps, returns, waits, customer instructions (R186, R190, R191, R195 to R216) -/

/-- What takes a synchronous trap through which vector, with which saved PC and TVAL: SYS and BRK of their own accord; an encoding that
the tables do not hold; a privileged instruction at Task level; a misaligned, forbidden or too narrow access; an odd jump target
(R186, R190 to R193, R197, R199, R209).
Model's choices in it: log entries 30, 31. -/
def Obligations.SynchronousTraps : Prop :=
  ∀ (s : State) (rd ra rs : BitVec 5) (imm : BitVec 14) (n : BitVec 5) (fn : BitVec 9) (w : W32),
    let traps := fun (i : Instr) (len vec sub : Nat) (pc tval : W32) =>
      exec i s = .next (ccMark (trapEnter vec sub pc tval (s.fetched len)))
    let ends := fun (i : Instr) (vec : Nat) (tval : W32) => let f := s.fetched 2
      exec i s = .next (ccMark (trapEnter vec 0 (s.cc.pc + 2) tval { f with cc := f.cc.noteStat }))
    let a := s.g ra.toNat + imm.signExtend 32
    let pc := s.cc.pc
    (s.ccReady 2 →
      ends (.sys n) (32 + n.toNat) (n.setWidth 32) ∧ ends .brk 8 0
      ∧ (w.toNat < 0xC000 → legal16 w.toNat = false → traps (.illegalInstruction false w) 2 3 0 pc w)
      ∧ (2 ≤ rs.toNat → traps (.mfq rd rs) 2 3 0 pc (BitVec.ofNat 32 (0x20 * 1024 + rd.toNat * 32 + rs.toNat)))
      ∧ ((s.g rs.toNat).getLsbD 0 = true → traps (.jr rs) 2 5 2 pc (s.g rs.toNat))
      ∧ (s.cc.pl = 0 → traps .rtt 2 4 0 pc 0x9800 ∧ traps .rels 2 4 0 pc 0x9C00 ∧ traps .wfi 2 4 0 pc 0xA400))
    ∧ (s.ccReady 4 →
      (w.toNat / 2 ^ 30 = 3 → legal32 w.toNat = false → traps (.illegalInstruction true w) 4 3 0 pc w)
      ∧ (rs ≠ 0 → traps (.clz rd ra rs) 4 3 0 pc
          (BitVec.ofNat 32 (0xC0000000 + rd.toNat * 2 ^ 19 + ra.toNat * 2 ^ 14 + rs.toNat * 2 ^ 9 + 13)))
      ∧ (s.cc.pl = 0 →
          (s.takesInt = false → traps (.hold fn) 4 4 0 pc (BitVec.ofNat 32 (0xD6000000 + fn.toNat)))
          ∧ traps (.lmov ra) 4 4 0 pc (BitVec.ofNat 32 (0xD7000000 + ra.toNat * 2 ^ 14)))
      ∧ (a.getLsbD 0 = true → traps (.jalr rd ra imm) 4 5 2 pc a)
      ∧ (a.toNat % 4 ≠ 0 → traps (.lw (.long rd ra imm)) 4 6 1 pc a ∧ traps (.sw (.long rd ra imm)) 4 6 1 pc a)
      ∧ (a.toNat % 2 ≠ 0 → traps (.lh rd ra imm) 4 6 1 pc a ∧ traps (.lhu rd ra imm) 4 6 1 pc a ∧ traps (.sh rd ra imm) 4 6 1 pc a)
      ∧ (rd.toNat % 2 ≠ 0 ∨ rd = 0 →
          traps (.ldd rd ra imm) 4 3 0 pc (BitVec.ofNat 32 (0xCD000000 + rd.toNat * 2 ^ 19 + ra.toNat * 2 ^ 14 + imm.toNat))
          ∧ traps (.std rd ra imm) 4 3 0 pc (BitVec.ofNat 32 (0xCE000000 + rd.toNat * 2 ^ 19 + ra.toNat * 2 ^ 14 + imm.toNat)))
      ∧ (s.cc.pl = 0 → a.toNat % 4 = 0 → a.toNat < 0x600000 →
          traps (.lw (.long rd ra imm)) 4 6 2 pc a ∧ traps (.sw (.long rd ra imm)) 4 6 2 pc a)
      ∧ (s.cc.pl = 1 → a.toNat % 4 = 0 → a.toNat < 0x600000 → machineOnlyAt (a.toNat / 8 * 8) = true →
          traps (.sw (.long rd ra imm)) 4 6 2 pc a)
      ∧ (s.cc.pl ≠ 0 → a.toNat < 0x600000 →
          traps (.lb rd ra imm) 4 6 4 pc a ∧ traps (.lbu rd ra imm) 4 6 4 pc a
          ∧ (¬ (s.cc.pl = 1 ∧ machineOnlyAt (a.toNat / 8 * 8) = true) → traps (.sb rd ra imm) 4 6 4 pc a)))

/-- Entry to a trap other than the machine check, nothing in flight, the stack with room, its vector entry in order: the block holds PC,
STAT, CAUSE, TVAL, MQL, MQH and in the full form g1 to g31; TSBP falls by 0xA0; STAT and PC change as R204 says; no register of the core
and no byte outside the block changes (R199 to R204).
Model's choices in it: log entry 31. -/
def Obligations.TrapEntry : Prop :=
  ∀ (s : State) (vec sub : Nat) (pc tval : W32) (h level : Nat), s.coreRuns = true → 2 ≤ vec → vec < 64 → sub < 16 → s.StackTakes vec h level →
    TrapRan s vec sub pc tval h level (trapEnter vec sub pc tval s)

/-- INTERRUPT_TAKEN: a fast interrupt while FIE = 1, SB = 0 and HOLD = 0, else a normal one while NIE = 1 and HOLD = 0, enters its
vector from the next instruction's address, unless a machine check is due; a machine-check source enters the machine check with its number
at Machine level, its block at CC_MCTSB, and a second machine check stops the core and writes nothing (R199, R200, R202 to R204, R207).
Model's choices in it: log entry 31. -/
def Obligations.InterruptsAndMachineChecks : Prop :=
  ∀ (s : State) (k h level : Nat), s.coreRuns = true →
    (s.cc.cx = none → s.cc.afterRtt = false → s.cc.step = false →
      let due := s.mcDue = false ∧ s.cc.bit 5 = false
      let fast := s.coreMsg true = true ∧ s.cc.bit 3 = true ∧ s.cc.bit 4 = false
      let normal := s.coreMsg false = true ∧ s.cc.bit 2 = true
      (due → fast → exec .interruptTaken s = .next (trapEnter 17 0 s.cc.pc 0 s)
        ∧ (s.StackTakes 17 h level → Runs .interruptTaken s (TrapRan s 17 0 s.cc.pc 0 h level)))
      ∧ (due → ¬ fast → normal → exec .interruptTaken s = .next (trapEnter 16 0 s.cc.pc 0 s)
        ∧ (s.StackTakes 16 h level → Runs .interruptTaken s (TrapRan s 16 0 s.cc.pc 0 h level)))
      ∧ (¬ due ∨ (¬ fast ∧ ¬ normal) → Inert .interruptTaken s))
    ∧ (s.dic.mcSlot = some k → s.cc.cx = none →
      let base := s.fld F.CC_MCTSB_MCTSB
      let entry := s.fld F.CC_VBASE_VBASE + 8
      (s.flag F.CC_STAT_MCACT = false →
        exec .machineCheckTrap s = .next (ccMark (coreMachineCheck 2 s.cc.pc (BitVec.ofNat 32 k) { s with dic := { s.dic with mcSlot := none } }))
        ∧ (k < 32 → s.cc.flights = [] → s.flag F.SCRUB_INJ_ARM = false → 0x600000 ≤ base → base + 0xA0 ≤ 0x640000 →
          entry + 8 ≤ base ∨ base + 0xA0 ≤ entry → s.vector 1 = some (h, level) → Runs .machineCheckTrap s fun t =>
            TrapTaken s base (s.cc.pl * 4096 + 2 * 256 + 1) s.cc.pc (BitVec.ofNat 32 k) false t
            ∧ t.cc.pc = BitVec.ofNat 32 h ∧ t.cc.pl = 2 ∧ t.cc.bit 3 = false ∧ t.cc.bit 4 = s.cc.bit 4
            ∧ t.flag F.CC_STAT_MCACT = true ∧ t.fld F.CC_TSBP_TSBP = s.fld F.CC_TSBP_TSBP ∧ t.dic.mcSlot = none))
      ∧ (s.flag F.CC_STAT_MCACT = true → Runs .machineCheckTrap s fun t => t.flag F.CC_STAT_DBL = true
        ∧ t.seqState 0 = SeqState.mchk ∧ t.hb = s.hb ∧ t.spm = s.spm ∧ t.cc.g = s.cc.g ∧ t.cc.pc = s.cc.pc))

/-- RTT at Kernel or Machine level, no machine check active, the stack not empty, the block without pennant: PC, STAT, MQL and MQH as the
block has them, PL the lower of the saved level and the present one, HOLD clear, in the full form g1 to g31 of the bank that the saved
STAT names; TSBP rises by 0xA0; memory stays (R205, R206).
Model's choices in it: log entry 31. -/
def Obligations.ReturnFromTrap : Prop :=
  ∀ (s : State),
    let a := s.fld F.CC_TSBP_TSBP
    let word := fun k => leNat (vals (s.codeBytes (a + k) 4))
    let full := !bitOf (word 8) 6
    s.ccReady 2 → s.cc.pl ≠ 0 → s.flag F.CC_STAT_MCACT = false → a + 0xA0 ≤ s.fld F.CC_TSBLIM_TOP →
    anyPen (s.codeBytes a (if full then 0x98 else 0x18)) = false →
      ∃ t, exec .rtt s = .next t
        ∧ t.cc.pc = BitVec.ofNat 32 (word 0 / 2 * 2) ∧ t.cc.mql = BitVec.ofNat 32 (word 0x10) ∧ t.cc.mqh = BitVec.ofNat 32 (word 0x14)
        ∧ t.cc.pl = min (word 4 % 4) s.cc.pl ∧ t.cc.bit 5 = false
        ∧ (∀ k, 2 ≤ k → k < 12 → k ≠ 5 → t.cc.bit k = bitOf (word 4) k)
        ∧ (full = true → ∀ k, 0 < k → k < 32 → t.g k = BitVec.ofNat 32 (word (0x18 + 4 * k)))
        ∧ (full = false → t.cc.g = s.cc.g)
        ∧ t.fld F.CC_TSBP_TSBP = (a + 0xA0) % 2 ^ 32 ∧ t.hb = s.hb ∧ t.spm = s.spm ∧ t.cc.afterRtt = true

/-- A system call and the return from its handler give the caller back its registers, its level and its flags, behind the SYS, and the
stack as it was, whatever HB held in the block before (R202 to R206, R209).
Model's choices in it: log entries 29, 31. -/
def Obligations.SystemCallRoundTrip : Prop :=
  ∀ (s u t : State) (n : BitVec 5),
    let tsbp := s.fld F.CC_TSBP_TSBP
    s.ccReady 2 → s.cc.flights = [] → s.flag F.SCRUB_INJ_ARM = false → s.cc.pc.getLsbD 0 = false →
    0x6000A0 ≤ tsbp → tsbp ≤ 0x640000 → tsbp ≤ s.fld F.CC_TSBLIM_TOP → s.fld F.CC_TSBLIM_LIM + 0xA0 ≤ tsbp → tsbp % 8 = 0 →
    exec (.sys n) s = .next u → u.flag F.CC_STAT_MCACT = false → u.ccReady 2 → exec .rtt u = .next t →
      t.cc.pc = s.cc.pc + 2 ∧ (∀ k, k < 32 → t.g k = s.g k) ∧ t.cc.pl = s.cc.pl ∧ t.cc.aluFlags = s.cc.aluFlags
      ∧ (∀ k, k = 2 ∨ k = 3 ∨ k = 4 → t.cc.bit k = s.cc.bit k) ∧ t.cc.mql = s.cc.mql ∧ t.cc.mqh = s.cc.mqh
      ∧ t.fld F.CC_TSBP_TSBP = tsbp ∧ t.spm = s.spm

/-- LMOV and its completion: a descriptor that breaks a rule completes at once with STATUS 0x03 and moves nothing; a move from DRAM that
keeps every rule becomes outstanding; a fifth move stalls; a move whose every request is answered writes STATUS 0x01, 0x02 or 0x04 and is
no longer outstanding (R198).
Model's choices in it: log entry 33. -/
def Obligations.LineMoves : Prop :=
  (∀ (s : State) (ra : BitVec 5),
    let a := (s.g ra.toNat).toNat
    let o := a - 0x600000
    let b := readBytes .hb o 16 s
    let d := lmovDesc (vals b)
    s.ccReady 4 → s.cc.pl ≠ 0 → a % 8 = 0 → 0x600000 ≤ a → a + 16 ≤ 0x640000 →
      (4 ≤ s.cc.lmovs.length →
        exec (.lmov ra) s = .next { s.fetched 4 with cc := { s.cc with wait := some .lmov, portA := none } })
      ∧ (s.cc.lmovs.length < 4 → anyPen b = false → s.flag F.SCRUB_INJ_ARM = false →
        (d.place s = none → ∃ t, exec (.lmov ra) s = .next t ∧ t.cc.pc = s.cc.pc + 4 ∧ t.cc.lmovs = s.cc.lmovs
          ∧ t.hb.read (o + 15) = ⟨3, false⟩ ∧ (∀ x, x ≠ o + 15 → t.hb.read x = s.hb.read x) ∧ t.spm = s.spm
          ∧ t.mpt0 = s.mpt0 ∧ t.cc.g = s.cc.g)
        ∧ (∀ x l, d.place s = some (x, l) → d.dir = 0 → ∃ t m, exec (.lmov ra) s = .next t ∧ t.cc.pc = s.cc.pc + 4
          ∧ t.cc.lmovs = s.cc.lmovs ++ [m] ∧ m.desc = o ∧ m.out = false ∧ m.daddr = d.daddr ∧ m.st = x ∧ m.laddr = l ∧ m.count = d.count
          ∧ m.left = (d.daddr + 64 * d.count - 1) / 256 - d.daddr / 256 + 1
          ∧ t.mpt0.queue.length = s.mpt0.queue.length + m.left ∧ t.hb = s.hb ∧ t.spm = s.spm ∧ t.cc.g = s.cc.g)))
  ∧ (∀ (s : State) (m : Lmov), s.cclkOn = true → s.lmov? m.id = some m → m.left = 0 → s.flag F.SCRUB_INJ_ARM = false →
      ∃ t, exec (.lmovComplete m.id) s = .next t
        ∧ t.hb.read (m.desc + 15) = ⟨if m.failed then 4 else if m.pen then 2 else 1, false⟩
        ∧ (∀ x, x ≠ m.desc + 15 → t.hb.read x = s.hb.read x) ∧ t.spm = s.spm ∧ t.rf = s.rf
        ∧ t.cc.lmovs = (s.cc.lmovs.filter fun l => l.id != m.id))

/-- CUSTOM goes to its microcode with W0 to W3 loaded where the opcode is defined, the image valid and the level high enough, and traps
otherwise; a command of group 0xC is staged in HB and the CMD hook called with g4 = 2 and its address in g5; a customer instruction past its limit takes vector 9 with SUB 2 from its own address; a hook past its limit is abandoned and
the core goes on where it was called (R211, R213, R215, R216).
Model's choices in it: log entries 2, 13, 32, 41. -/
def Obligations.CustomerCode : Prop :=
  (∀ (s : State) (cx : BitVec 6) (rd ra rb : BitVec 5) (xx : BitVec 3), s.ccReady 4 →
    let word : W32 := BitVec.ofNat 32 (0xFE000000 + cx.toNat * 2 ^ 18 + rd.toNat * 2 ^ 13 + ra.toNat * 2 ^ 8 + rb.toNat * 8 + xx.toNat)
    let valid := s.flag (F.SQ_STAT_CVALID 0) && s.flag (F.CC_CX_EN cx.toNat)
    (valid = false → exec (.custom cx rd ra rb xx) s = .next (ccMark (trapEnter 3 0 s.cc.pc word (s.fetched 4))))
    ∧ (valid = true → s.cc.pl < s.fld (F.CC_CX_MINPL cx.toNat) →
      exec (.custom cx rd ra rb xx) s = .next (ccMark (trapEnter 4 0 s.cc.pc word (s.fetched 4))))
    ∧ (valid = true → s.fld (F.CC_CX_MINPL cx.toNat) ≤ s.cc.pl → ∃ t, exec (.custom cx rd ra rb xx) s = .next t
      ∧ t.fld (F.SQ_STAT_UPC 0) = s.fld (F.CC_CX_ENTRY cx.toNat)
      ∧ t.csqW 0 = s.g ra.toNat ∧ t.csqW 1 = s.g rb.toNat ∧ t.csqW 2 = xx.setWidth 32 ∧ t.csqW 3 = s.cc.pc
      ∧ (∃ x, t.cc.cx = some x ∧ x.cx = cx.toNat ∧ x.rd = rd.toNat ∧ x.pc = s.cc.pc ∧ x.next = s.cc.pc + 4
        ∧ x.target = none ∧ x.entry = none ∧ x.rbus = 0)
      ∧ t.cc.g = s.cc.g ∧ t.cc.pc = s.cc.pc ∧ t.cc.stat = s.cc.stat ∧ t.hb = s.hb ∧ t.spm = s.spm))
  ∧ (∀ (s : State) (c : Cmd) (opc : Nat),
    let e := vals (s.codeBytes (hookAddr 2) 8)
    let n := c.hdr.length + c.params.length
    opc / 4096 = 12 → s.Due c opc → s.calm → s.firmware = true → s.cc.hook = none → s.cc.cx = none → s.flag F.SCRUB_INJ_ARM = false →
    anyPen (s.codeBytes (hookAddr 2) 8) = false → leAt e 0 4 ≠ 0 → 0 < n → n ≤ 1040 → Runs (.customerCommand c.id) s fun t => ∃ a r,
      t.cmd? c.id = some { c with phase := .running } ∧ a % 8 = 0 ∧ 64 ≤ a ∧ a + n ≤ hbSize ∧ readBytes .hb a n t = plain (c.hdr ++ c.params)
      ∧ (∀ x, x < a ∨ a + n ≤ x → t.hb.read x = s.hb.read x) ∧ t.spm = s.spm
      ∧ t.cc.hook = some r ∧ r.due = ⟨2, 0x600000 + a, some c.id⟩ ∧ r.pc = s.cc.pc ∧ r.pl = s.cc.pl ∧ r.busy = false
      ∧ t.g 4 = 2 ∧ t.g 5 = BitVec.ofNat 32 (0x600000 + a) ∧ t.g 31 = r.ret ∧ t.cc.pc = BitVec.ofNat 32 (leAt e 0 4 / 2 * 2)
      ∧ (byteAt e 4 < 2 → t.cc.pl = byteAt e 4))
  ∧ (∀ (s : State) (x : CxRun), s.coreRuns = true → s.cc.cx = some x →
      exec .customTimeout s = .next (ccMark (trapEnter 9 2 x.pc (BitVec.ofNat 32 x.cx) (s.setFlag F.CC_STAT_CXTMO true))))
  ∧ (∀ (s : State) (r : HookRun), s.cclkOn = true → s.mode ≠ Mode.halt → s.cc.hook = some r → s.calm → r.due.k = 3 → r.pl < 4 →
      ∃ t, exec .hookTimeout s = .next t ∧ t.flag F.CC_STAT_HOOKTMO = true ∧ t.cc.hook = none ∧ t.cc.pc = r.pc ∧ t.cc.pl = r.pl
        ∧ t.cc.g = s.cc.g ∧ t.hb = s.hb ∧ t.spm = s.spm
        ∧ (∀ off, off ≠ F.CC_STAT_HOOKTMO.off → t.reg off = s.reg off))

/-! ### Commands: rings, acceptance, start, units, tenants, keys (R214, R223 to R268) -/

/-- The registers of a ring pair: TAIL of a submission ring only adds packets, HEAD of a completion ring only consumes replies, enabling
sets the pointers to zero, a ring with commands in flight stays disabled. A reply whose writes have ended advances TAIL and ends its command;
CQSRC is raised; a line whose write fails for the first time is written once more (R223 to R227).
Model's choices in it: log entry 36. -/
def Obligations.RingPairs : Prop :=
  ∀ (s : State) (k n : Nat), s.cclkOn = true → k < 8 → n < 2 ^ 20 →
    let sq := s.sqSize k
    let head := s.fld (F.CMD_SQPTR_HEAD k)
    let cq := s.cqSize k
    let tail := s.fld (F.CMD_CQPTR_TAIL k)
    let adds := n % 8 = 0 ∧ n < sq ∧ ringSpan sq head (s.fld (F.CMD_SQPTR_TAIL k)) ≤ ringSpan sq head n
    let takes := n % 8 = 0 ∧ n < cq ∧ ringSpan cq n tail ≤ ringSpan cq (s.fld (F.CMD_CQPTR_HEAD k)) tail
    let was := s.flag (F.CMD_CFG_EN k)
    (adds → Runs (.submissionDoorbell k n) s (FieldTakes s (F.CMD_SQPTR_TAIL k) n))
    ∧ (¬ adds → Inert (.submissionDoorbell k n) s)
    ∧ (takes → Runs (.cqHeadWrite k n) s (FieldTakes s (F.CMD_CQPTR_HEAD k) n))
    ∧ (¬ takes → Inert (.cqHeadWrite k n) s)
    ∧ (∀ en, Runs (.cmdCfgEnWrite k en) s fun t =>
        t = { s with rf := t.rf, cmds := { s.cmds with cq := t.cmds.cq } }
        ∧ t.flag (F.CMD_CFG_EN k) = (en && (was || s.inflight k == 0))
        ∧ t.fld (F.CMD_CFG_PRIO k) = s.fld (F.CMD_CFG_PRIO k) ∧ t.fld (F.CMD_CFG_SQLOG k) = s.fld (F.CMD_CFG_SQLOG k)
        ∧ (was = false → en = true → s.inflight k = 0 → t.reg (F.CMD_SQPTR_TAIL k).off = 0 ∧ t.reg (F.CMD_CQPTR_TAIL k).off = 0
            ∧ t.flag (F.CMD_CFG_STOPPED k) = false ∧ t.cqw k = .idle)
        ∧ (was = true ∨ en = false ∨ s.inflight k ≠ 0 → t.reg (F.CMD_SQPTR_TAIL k).off = s.reg (F.CMD_SQPTR_TAIL k).off
            ∧ t.reg (F.CMD_CQPTR_TAIL k).off = s.reg (F.CMD_CQPTR_TAIL k).off ∧ t.cmds = s.cmds)
        ∧ ∀ off, off ≠ (F.CMD_CFG_EN k).off → off ≠ (F.CMD_SQPTR_TAIL k).off → off ≠ (F.CMD_CQPTR_TAIL k).off → t.reg off = s.reg off)
    ∧ (∀ aid o c r, (s.mpt0.out.find? fun (o : MptOut) => o.aid == aid && o.req.write) = some o → o.overdue = false → o.req.use = .cqWrite k →
        s.portCalm → (s.cqw k).left = 1 → (s.cqw k).filling = false → (s.cqw k).lost = false → (s.cqw k).queue = [r] → r.final = true →
        r.cmd = c.id → s.cmd? c.id = some c → (∀ d ∈ s.cmds.list, d.id = c.id → d.phase = .replying) → (∀ d ∈ s.cmds.after, d.id ≠ c.id) →
        s.fld (F.CMD_CFG_CQLOG k) ≤ 8 →
        Runs (.mptWriteResponse 0 aid false) s fun t => t.fld (F.CMD_CQPTR_TAIL k) = (tail + r.bytes.length) % cq ∧ t.cmd? c.id = none
          ∧ (t.cqw k).queue = [] ∧ (∀ j, j ≠ k → t.cqw j = s.cqw j)
          ∧ (r.quiet = false → 2048 ≤ s.fld (F.CMD_CFG_CQSRC k) → t.fld (F.DIC_SRC_COUNT (s.fld (F.CMD_CFG_CQSRC k)))
              = min 15 (s.fld (F.DIC_SRC_COUNT (s.fld (F.CMD_CFG_CQSRC k))) + 1))
          ∧ (r.quiet = true → ∀ off, off ≠ (F.CMD_CQPTR_TAIL k).off → t.reg off = s.reg off))
    ∧ (∀ aid (o : MptOut), (s.mpt0.out.find? fun (o : MptOut) => o.aid == aid && o.req.write) = some o → o.overdue = false →
        o.req.use = .cqWrite k → s.portCalm → (s.cqw k).lost = false → o.req.quad ∉ (s.cqw k).retried →
        Runs (.mptWriteResponse 0 aid true) s fun t => t.cqw k = { s.cqw k with retried := o.req.quad :: (s.cqw k).retried }
          ∧ t.mpt0.queue = s.mpt0.queue ++ [o.req] ∧ t.fld (F.CMD_CQPTR_TAIL k) = tail ∧ t.cmds.list = s.cmds.list)

/-- Acceptance: the source served has the highest priority; a packet is accepted under the next number with its reservation and early
status, HEAD passes it, a broken header is answered, stops the ring and raises 156; what a memory port out of service delivers is pennanted; a management command leaves the intake; with nothing acceptable, or
while commands are not taken, nothing happens (R86, R96, R227 to R230, R233, R249).
The gateway: no reply within RTMO answers FAULT with the addressed cabinet as SOURCE; the aggregate reply of a broadcast carries the maps
of the cabinets that succeeded and failed; a unit-state report that is due goes to the ensign (R242, R246, R248, R265).
Model's choices in it: log entries 35, 42. -/
def Obligations.AcceptanceGatewayAndReports : Prop :=
  ((∀ (last i : Nat) (l : List (Nat × Nat)), chooseSource last l = some i → ∃ p, (i, p) ∈ l ∧ ∀ x ∈ l, x.2 ≤ p)
  ∧ ∀ (s : State), s.cclkOn = true →
    (∀ heads, s.accepting = false → Inert (.packetAccept heads) s)
    ∧ (∀ heads, s.readySources (s.fetched0 heads) = [] → Inert (.packetAccept heads) s)
    ∧ (∀ k l, s.fetched0 [(k, l)] = [(k, if s.portDead 0 then l.map (fun b => { b with pen := true }) else l)])
    ∧ (s.accepting = true → (∀ k, s.NextIdFree k) →
      (∀ k l l' x, s.cmds.rx = [] → s.fetched0 [(k, l)] = [(k, l')] → s.ringReady k l' = some x →
        let c : Cmd := ⟨s.cmds.nextId, .ring k, x.hdr, x.params, x.parPen, x.resv, .waiting, none, x.early, s.frame,
          x.early.isNone && s.broadcasts true x.hdr⟩
        (x.stops = true → Runs (.packetAccept [(k, l)]) s fun t => t.holdsReply c (x.early.getD Status.badParam) []
          ∧ t.cmd? c.id = some c.ending ∧ t.cmds.nextId = s.cmds.nextId + 1 ∧ t.flag (F.CMD_CFG_STOPPED k) = true
          ∧ (s.fld (F.CMD_CFG_SQLOG k) ≤ 8 → t.fld (F.CMD_SQPTR_HEAD k) = (s.fld (F.CMD_SQPTR_HEAD k) + x.take) % s.sqSize k)
          ∧ t.fld (F.DIC_SRC_COUNT 156) = min 15 (s.fld (F.DIC_SRC_COUNT 156) + 1))
        ∧ (x.stops = false → leAt x.hdr 0 2 ≠ 0x0003 → Runs (.packetAccept [(k, l)]) s fun t => t = { s with rf := t.rf, cmds := { s.cmds with nextId := s.cmds.nextId + 1, lastSrc := k, list := s.cmds.list ++ [c] } }
        ∧ (s.fld (F.CMD_CFG_SQLOG k) ≤ 8 → t.fld (F.CMD_SQPTR_HEAD k) = (s.fld (F.CMD_SQPTR_HEAD k) + x.take) % s.sqSize k)
        ∧ t.fld (F.CMD_SQPTR_TAIL k) = s.fld (F.CMD_SQPTR_TAIL k)
        ∧ ∀ off, off ≠ (F.CMD_SQPTR_HEAD k).off → t.reg off = s.reg off))
      ∧ (∀ r rest, s.cmds.rx = r :: rest → leAt r.hdr 0 2 ≠ 0x0003 → Runs (.packetAccept []) s fun t => ∃ c,
        t = { s with cmds := { s.cmds with nextId := s.cmds.nextId + 1, lastSrc := 8, list := s.cmds.list ++ [c], rx := rest } }
        ∧ c.id = s.cmds.nextId ∧ c.src = .cab r.info.sender ∧ c.hdr = r.hdr ∧ c.params = r.params ∧ c.phase = .waiting)))
  ∧ (∀ (s : State) (xid : Nat), s.firmware = true →
    let one := s.cmds.gw.find? fun g => g.xid == xid && g.target != 0xFFFF
    let all := s.cmds.gw.find? fun g => g.xid == xid && g.target == 0xFFFF
    (one = none → Inert (.gatewayReplyTimeout xid) s)
    ∧ (all = none → Inert (.aggregateReply xid) s)
    ∧ (∀ g c k, one = some g → s.cmd? g.cmd = some c → c.id = g.cmd → c.target = g.target → c.src = .ring k → Runs (.gatewayReplyTimeout xid) s fun t =>
        let h := replyHeader s c.hdr Status.fault 0
        t.cmds.gw = s.cmds.gw.erase g ∧ t.cmd? c.id = some c.ending ∧ (∀ j, j ≠ c.id → t.cmd? j = s.cmd? j)
        ∧ (t.cqw k).queue = (s.cqw k).queue ++ [⟨c.id, h.take 10 ++ leBytes 2 g.target ++ h.drop 12, true, c.quiet⟩]
        ∧ t = { s with cmds := { s.cmds with list := t.cmds.list, cq := t.cmds.cq, gw := t.cmds.gw }, mpt0 := { s.mpt0 with queue := t.mpt0.queue } })
    ∧ (∀ g c k, all = some g → s.cmd? g.cmd = some c → c.id = g.cmd → c.src = .ring k → Runs (.aggregateReply xid) s fun t =>
        t.holdsReply c (if g.fail = [] then Status.ok else Status.fault) (cabMap g.ok ++ cabMap g.fail)
        ∧ t.cmds.gw = s.cmds.gw.erase g ∧ (∀ j, t.cmd? j = s.cmd? j)
        ∧ t = { s with cmds := { s.cmds with cq := t.cmds.cq, gw := t.cmds.gw }, mpt0 := { s.mpt0 with queue := t.mpt0.queue } })
    ∧ (s.cmds.reportDue = false → Inert .unitStateReport s)
    ∧ (∀ me, s.cabId = some me → s.cmds.reportDue = true → s.anyPortUp = true → s.fld F.RING_ID_ENSIGN < 1024 →
      Runs .unitStateReport s fun t => t.cmds.reportDue = false
        ∧ (s.fld F.RING_ID_ENSIGN = me → t = { s with cmds := { s.cmds with reportDue := false, reports := t.cmds.reports } }
            ∧ t.cmds.reports.find? (fun r => r.1 == me) = some (me, s.unitReport) ∧ (t.divCab me = true ↔ s.diverged ≠ [])
            ∧ ∀ d, d ≠ me → t.cmds.reports.find? (fun r => r.1 == d) = s.cmds.reports.find? (fun r => r.1 == d))))

/-- COMMAND_START: a command that may start ends with the status of acceptance, DENIED by mode or role, FAULT for a pennanted parameter;
one for another cabinet goes out through the gateway; any other is due. NOP, CANCEL, WALL_STATUS, UNIT_QUERY, CUSTOP_DEF, and a command of group
0xC without a CMD hook (R214, R215, R236 to R238, R245, R259, R260, R262, R267, R268).
Model's choices in it: log entries 35, 36, 37, 41, 42. -/
def Obligations.CommandsStartAndSimpleOnesEnd : Prop :=
  ∀ (s : State) (c : Cmd),
    let id := c.id
    let b := c.params
    (s.firmware = true → s.InHand c →
      (c.phase ≠ .waiting ∨ s.mayStart c = false → Inert (.commandStart id) s)
      ∧ (c.phase = .waiting → s.mayStart c = true →
        (∀ st, c.early = some st → Answers (.commandStart id) s c st [] s)
        ∧ (c.early = none → s.permitted c (!s.remote c) = false → Answers (.commandStart id) s c Status.denied [] s)
        ∧ (c.early = none → s.permitted c (!s.remote c) = true → c.parPen = true → Answers (.commandStart id) s c Status.fault
            (if c.opc = 0x7001 then ucodePlain else []) s)
        ∧ (c.early = none → s.permitted c (!s.remote c) = true → c.parPen = false →
          (s.remote c = true → Runs (.commandStart id) s fun t =>
            t = { s with cmds := { s.cmds with
              list := t.cmds.list, after := t.cmds.after, nextXid := (s.cmds.nextXid + 1) % 65536, gw := t.cmds.gw, tx := t.cmds.tx } }
            ∧ t.cmds.gw = s.cmds.gw ++ [⟨s.cmds.nextXid, id, c.target, [], []⟩]
            ∧ t.cmds.tx = s.cmds.tx ++ [⟨1, s.fld F.CMD_GWCFG_MSLOT, s.gwKey, s.cmds.nextXid, c.target, c.hdr, b, c.enc⟩]
            ∧ t.cmd? id = some { c with phase := .running })
          ∧ (s.remote c = false → c.interim = false → c.wide = true → Runs (.commandStart id) s fun t =>
            t = { s with cmds := { s.cmds with
              list := t.cmds.list, after := t.cmds.after, nextXid := (s.cmds.nextXid + 1) % 65536, gw := t.cmds.gw, tx := t.cmds.tx } }
            ∧ t.cmds.gw = s.cmds.gw ++ [⟨s.cmds.nextXid, id, 0xFFFF, [], []⟩] ∧ t.cmd? id = some { c with phase := .started }
            ∧ t.cmds.tx = s.cmds.tx ++ [⟨1, s.fld F.CMD_GWCFG_MSLOT, s.gwKey, s.cmds.nextXid, 0xFFFF, c.hdr, b, c.enc⟩])
          ∧ (s.remote c = false → c.interim = false → c.wide = false → Runs (.commandStart id) s fun t =>
            t = { s with cmds := { s.cmds with list := t.cmds.list, after := t.cmds.after } } ∧ t.cmd? id = some { c with phase := .started }
            ∧ ∀ j, j ≠ id → t.cmd? j = s.cmd? j))))
    ∧ (s.Due c 0x0000 → Answers (.nop id) s c Status.ok [] s)
    ∧ (s.Due c 0x0003 → zeroAt b 2 6 = true →
      let other := fun (d : Cmd) => d.src == c.src && d.phase == .waiting && d.tag == leAt b 0 2
      (s.cmds.list.find? other = none → Answers (.cancel id) s c Status.ok (leBytes 8 1) s)
      ∧ (∀ d, s.cmds.list.find? other = some d → s.InHand d → ∃ u, Replied d Status.cancelled [] s u
          ∧ Answers (.cancel id) s c Status.ok (leBytes 8 0) u))
    ∧ (s.Due c 0x0003 → zeroAt b 2 6 = false → Answers (.cancel id) s c Status.badParam [] s)
    ∧ (∀ now, s.Due c 0x0005 → Answers (.wallStatus id now) s c Status.ok
        (cabMap ((List.range 1024).filter (s.atTime now).divCab) ++ cabMap ((List.range 1024).filter (s.atTime now).heardCab)) (s.atTime now))
    ∧ (s.Due c 0x0006 → s.unitTurn c = false → Inert (.unitQuery id) s)
    ∧ (s.Due c 0x0006 → s.unitTurn c = true →
      (unitValid (byteAt b 1) (byteAt b 0) = true → zeroAt b 2 6 = true → Answers (.unitQuery id) s c Status.ok
        (leBytes 8 (s.reg (F.CMD_UST_OBS (64 * byteAt b 1 + byteAt b 0)).off).toNat) s)
      ∧ (unitValid (byteAt b 1) (byteAt b 0) = false ∨ zeroAt b 2 6 = false → Answers (.unitQuery id) s c Status.badParam [] s))
    ∧ (s.Due c 0x7002 → byteAt b 0 < 64 → byteAt b 1 < 2 → byteAt b 2 < 3 → zeroAt b 3 1 = true → 0x3800 ≤ leAt b 4 2 → leAt b 4 2 ≤ 0x3FFF →
        zeroAt b 6 2 = true → zeroAt b 12 4 = true →
      let x := byteAt b 0
      (s.flag (F.SQ_STAT_CVALID 0) = false → Answers (.custopDef id) s c Status.denied [] s)
      ∧ (s.flag (F.SQ_STAT_CVALID 0) = true → leAt b 8 4 ≠ s.fld (F.SQ_CRC_CUST 0) → Answers (.custopDef id) s c Status.stale [] s)
      ∧ (s.flag (F.SQ_STAT_CVALID 0) = true → leAt b 8 4 = s.fld (F.SQ_CRC_CUST 0) → ∃ u, Answers (.custopDef id) s c Status.ok [] u
        ∧ u = { s with rf := u.rf } ∧ (∀ off, off ≠ (F.CC_CX_EN x).off → u.reg off = s.reg off)
        ∧ u.flag (F.CC_CX_EN x) = (byteAt b 1 == 0)
        ∧ (byteAt b 1 = 0 → u.fld (F.CC_CX_ENTRY x) = leAt b 4 2 ∧ u.fld (F.CC_CX_MINPL x) = byteAt b 2)))
    ∧ (∀ opc, opc / 4096 = 12 → s.Due c opc → s.calm → s.firmware = true → s.cc.hook = none → s.cc.cx = none → s.hb = .zero →
        Answers (.customerCommand id) s c Status.badOpc [] (s.drew.running id))

/-- UNIT_SET declares and waits for its hoist, UNIT_RESET is refused in use and otherwise resets; TENANT_OPEN and TENANT_CLOSE: their checks in
order, the window, SUMRATE, the wait for the hoist (R239, R240, R263 to R267, R324, R512).
Model's choices in it: log entries 37, 39, 70. -/
def Obligations.UnitsAndTenants : Prop :=
  ∀ (s : State) (c : Cmd),
    let id := c.id
    let b := c.params
    let cls := byteAt b 1
    let idx := byteAt b 0
    let d := byteAt b 2
    let t := c.tenant
    let waits := fun (u : State) => u.cmd? id = some { c with phase := .running } ∧ u.cmds.atHoist = s.cmds.atHoist ++ [id]
    let rect := s.ownRect (leAt b 0 4) (leAt b 4 4) (leAt b 8 4) (leAt b 12 4)
    let there := unitValid cls idx && unitPresent s.build cls idx
    let sum := (s.tenants.map (·.2.rate)).sum + leAt b 20 4
    (s.Due c 0x0007 → s.unitTurn c = false → Inert (.unitSet id) s)
    ∧ (s.Due c 0x0007 → s.unitTurn c = true →
      (there = false ∨ settable cls = false ∨ (d ≠ Obs.off ∧ d ≠ Obs.on) ∨ zeroAt b 3 5 = false →
        Answers (.unitSet id) s c Status.badParam [] s)
      ∧ (there = true → settable cls = true → d = Obs.off ∨ d = Obs.on → zeroAt b 3 5 = true →
        (cls = Cls.ring → d = Obs.off → s.portUp (1 - idx) = false → Answers (.unitSet id) s c Status.denied [] s)
        ∧ (cls ≠ Cls.ring ∨ d = Obs.on ∨ s.portUp (1 - idx) = true → s.hoists = true → Runs (.unitSet id) s fun u => waits u
            ∧ u.decl cls idx = d ∧ u.obs cls idx = s.obs cls idx ∧ u.unitOff = s.unitOff
            ∧ u.flag (F.CMD_UST_DIV (ustIdx cls idx)) = !statesAgree d (s.obs cls idx))))
    ∧ (s.Due c 0x0004 → s.calm → s.unitTurn c = true →
      (there = false ∨ zeroAt b 2 6 = false → Answers (.unitReset id) s c Status.badParam [] s)
      ∧ (there = true → zeroAt b 2 6 = true →
        (s.mode = Mode.display ∨ s.mode = Mode.halfMast → cls = Cls.lp ∨ cls = Cls.mpt ∨ cls = Cls.ba → Answers (.unitReset id) s c Status.denied [] s)
        ∧ (cls = Cls.se → s.obs cls idx ≠ Obs.failed → s.obs cls idx ≠ Obs.retired → s.obs cls idx ≠ Obs.off → Answers (.unitReset id) s c Status.denied [] s)
        ∧ (cls = Cls.tmr → ∃ u, Answers (.unitReset id) s c Status.ok [] u ∧ u.tmr idx = .reset ∧ (∀ n, n ≠ idx → u.tmr n = s.tmr n)
            ∧ (∀ off, unitOwns cls idx off = true → (regAt off).isSome = true → u.reg off = regReset s.build off)
            ∧ (∀ off, unitOwns cls idx off = false → off < 0x28000 ∨ 0x40000 ≤ off → u.reg off = s.reg off)
            ∧ u.decl cls idx = s.decl cls idx)))
    ∧ (s.Due c 0x1001 →
      ((∃ e ∈ s.tenants, e.1 = t) → Answers (.tenantOpen id) s c Status.badTenant [] s)
      ∧ ((∀ e ∈ s.tenants, e.1 ≠ t) →
        (tenantBad b = true → Answers (.tenantOpen id) s c Status.badParam [] s)
        ∧ (tenantBad b = false → rect = none →
          (s.secKey t (byteAt b 17) = false ∨ 20820000 < sum → Answers (.tenantOpen id) s c Status.denied [] s)
          ∧ (s.secKey t (byteAt b 17) = true → sum ≤ 20820000 → s.hoists = true → ∃ u, Answers (.tenantOpen id) s c Status.ok (leBytes 8 0xFF) u
            ∧ u.tenants.find? (fun e => e.1 == t) = some (t, ⟨leAt b 0 4, leAt b 4 4, leAt b 8 4, leAt b 12 4, byteAt b 16, byteAt b 17, leAt b 20 4, leAt b 24 4, 0xFF, .opening⟩)
            ∧ (∀ e, e ∈ s.tenants → e ∈ u.tenants) ∧ u.fld F.RING_ADM_SUMRATE = sum
            ∧ ∀ off, off ≠ F.RING_ADM_SUMRATE.off → u.reg off = s.reg off))
        ∧ (∀ x y w h k port base, tenantBad b = false → rect = some (x, y, w, h) → s.freeWindow = some k → s.tooMany (x, y, w, h) = false →
            s.secKey t (byteAt b 17) = true → sum ≤ 20820000 → s.hoists = true → s.place (2 * (w * h * 4608)) = some (port, base) → base < 2 ^ 36 →
            port < 2 → ∃ u, Answers (.tenantOpen id) s c Status.ok (leBytes 8 k) u ∧ u.flag (F.SE_WCFG_EN k) = true
              ∧ u.fld (F.SE_WCFG_TENANT k) = t % 1024 ∧ u.fld (F.SE_WREF_PORT k) = port ∧ u.fld (F.SE_WREF_BASE k) = base
              ∧ u.fld F.RING_ADM_SUMRATE = sum)))
    ∧ (s.Due c 0x1002 →
      (s.tenants.find? (fun e => e.1 == t) = none → zeroAt b 0 8 = true → Answers (.tenantClose id) s c Status.badTenant [] s)
      ∧ (zeroAt b 0 8 = false → Answers (.tenantClose id) s c Status.badParam [] s)
      ∧ (∀ ten, s.tenants.find? (fun e => e.1 == t) = some (t, ten) → zeroAt b 0 8 = true → s.hoists = true → Runs (.tenantClose id) s fun u =>
        waits u ∧ u.tenants.find? (fun e => e.1 == t) = some (t, { ten with phase := .closing }) ∧ (ten.win < 64 → u.flag (F.SE_WCFG_EN ten.win) = false)
        ∧ ∀ off, off ≠ (F.SE_WCFG_EN ten.win).off → u.reg off = s.reg off))

/-- KEY_LOAD: erasing, a key in plaintext, a wrapped key; the slot gains the key under its KEYID with USE and counter 0, every other slot
stays. KEY_INFO shows KEYIDs and USE, never a key (R253 to R258).
Model's choices in it: log entry 40. -/
def Obligations.Keys : Prop :=
  ∀ (s : State) (c : Cmd),
    let id := c.id
    let b := c.params
    let slot := leAt b 0 2
    let keyid := leAt b 2 2
    let use := leAt b 4 2
    let wrap := byteAt b 7
    let ks := s.keySlot slot
    let ent := fun (o : Option KeyEntry) => match o with | some e => leBytes 2 e.keyid ++ leBytes 2 e.use | none => leBytes 4 0
    let load := byteAt b 6 = 0 ∧ keyid ≠ 0xFFFF ∧ slot < 1040 ∧ zeroAt b 10 2 = true ∧ zeroAt b 72 8 = true ∧ (use &&& useMask slot) = use
    let stores := fun (key : List Byte) => ∃ u, Answers (.keyLoad id) s c Status.ok [] u
      ∧ u.keySlot slot = ks.store ⟨keyid, use, BitVec.ofNat 256 (beNat key), 0⟩ ∧ (∀ j, j ≠ slot → u.keySlot j = s.keySlot j)
      ∧ u = { s with keys := u.keys, replays := u.replays, ring := { s.ring with vreps := u.ring.vreps } }
    (s.Due c 0x1011 →
      (1040 ≤ slot ∨ zeroAt b 2 6 = false → Answers (.keyInfo id) s c Status.badParam [] s)
      ∧ (slot < 1040 → zeroAt b 2 6 = true → Answers (.keyInfo id) s c Status.ok
        (ent ks.a ++ ent ks.b ++ leBytes 8 (b2n ks.a.isSome + 2 * b2n ks.b.isSome + 4 * b2n (ks.bLater && ks.a.isSome && ks.b.isSome))) s))
    ∧ (s.Due c 0x1010 →
      (1040 ≤ slot ∨ 2 ≤ byteAt b 6 → Answers (.keyLoad id) s c Status.badParam [] s)
      ∧ (slot < 1040 → byteAt b 6 = 1 →
        ((∀ e ∈ ks.entries, keyid ≠ 0xFFFF ∧ e.keyid ≠ keyid) → Answers (.keyLoad id) s c Status.stale [] s)
        ∧ ((∃ e ∈ ks.entries, keyid = 0xFFFF ∨ e.keyid = keyid) → ∃ u, Answers (.keyLoad id) s c Status.ok [] u
          ∧ u.keySlot slot = ks.erase keyid ∧ (∀ e ∈ (u.keySlot slot).entries, e.keyid ≠ keyid ∧ keyid ≠ 0xFFFF)
          ∧ ∀ j, j ≠ slot → u.keySlot j = s.keySlot j))
      ∧ (load → wrap = 0xFF → zeroAt b 56 16 = true →
        (c.onRing = false ∨ s.flag F.CMD_KEYCTL_PLAINOK = false → Answers (.keyLoad id) s c Status.denied [] s)
        ∧ (c.onRing = true → s.flag F.CMD_KEYCTL_PLAINOK = true →
          ((ks.byId keyid).isSome = true → Answers (.keyLoad id) s c Status.stale [] s)
          ∧ (ks.byId keyid = none → stores ((b.drop 24).take 32))))
      ∧ (∀ e, load → wrap < 16 → slot ≠ 1024 + wrap → (s.keySlot (1024 + wrap)).byId (leAt b 8 2) = some e →
        let opened := gcmOpen e.key ((b.drop 12).take 12) (b.take 12) ((b.drop 24).take 32) ((b.drop 56).take 16)
        (bitOf e.use 15 = false → Answers (.keyLoad id) s c Status.denied [] s)
        ∧ (bitOf e.use 15 = true → opened = none → Answers (.keyLoad id) s c Status.authFail [] s)
        ∧ (∀ l, bitOf e.use 15 = true → opened = some l → ks.byId keyid = none → stores l)))

/-! ### The current budget and calibration (R383 to R385, R459 to R485) -/

/-- At its cut a solver never grants a group more than its capacity: whatever was requested and whatever floors stand, the weighted leases of
the cabinets of every group sum to at most CAP, as long as the safe leases do; every cabinet of the ledger has a lease. The cut follows the
report of its frame (R32, R467, R469).
Model's choices in it: log entry 56. -/
def Obligations.LedgerNeverOvercommits : Prop :=
  ∀ (s : State) (now : Nat), s.live = true → s.hoists = true → s.solves = true → (s.ba.own.map (·.1)) ≠ some (s.frame + 1) →
    s.ba.reported = some (s.frame + 1) → s.ba.pend = [] → s.groupsFit = true →
    Runs (.ledgerSolve now) s fun t => t.ba.reports = [] ∧ ∃ l, t.ba.own = some (s.frame + 1, l)
      ∧ (∀ c ∈ s.ledger, ∃ v, (c, v) ∈ l)
      ∧ ∀ g, g < 64 → ((s.ledger.filter fun c => s.fld (F.BA_CAB_GROUP c) == g).map fun c => s.fld (F.BA_CAB_W c) * figure l c).sum
          ≤ s.fld (F.BA_GRP_CAP10 g) * 65536

/-- The instants of a frame: the report with its demand, the four lease blocks, after the report the deadline with LEASE, GEFF within CEIL, HARD and, under
EMERG, SAFE, the scales within their slew. SENSE: a valid word, a bad one, a lost channel, two low reads of the alert; EMERG clears while no cause
holds. BUDGET_CFG, CEIL_SET, CAL_LOAD (R383, R385, R461 to R464, R470 to R474, R477, R478, R480, R481).
Model's choices in it: log entries 6, 56. -/
def Obligations.BudgetEvents : Prop :=
  ∀ (s : State) (now : Nat),
    let latched := fun (b : Nat) (t : State) => ∀ q, q < 19 → seqPresent s.build q = true → bitOf (t.seq q).latch b = true
    let nxt := s.frame + 1
    let lease := s.ba.lease.getD s.fallback
    let g0 := min lease (min s.ceilIn (s.fld F.BA_LIM_HARD))
    let geff := if s.flag F.BA_STAT_EMERG = true then min g0 (s.fld F.BA_LIM_SAFE) else g0
    (s.hoists = false → Inert (.budgetReportSend now) s ∧ Inert (.ledgerSolve now) s ∧ Inert (.leaseBlockSend now) s ∧ Inert (.leaseDeadline now) s)
    ∧ (s.live = true → s.hoists = true →
      (s.ba.reported ≠ some nxt → s.mode ≠ Mode.rigging → Runs (.budgetReportSend now) s fun t => latched 3 t ∧ t.ba.reported = some nxt
        ∧ (s.role 0 = true → s.memberShows = true →
            t.fld F.BA_STAT_DEMAND = s.demOf (s.mods.map fun m => (m, s.mledNow m)))
        ∧ (s.role 0 = true → s.memberShows = false → t.fld F.BA_STAT_DEMAND = 0))
      ∧ Runs (.leaseBlockSend now) s (latched 4)
      ∧ (∀ l e c, s.ba.own = some (nxt, l) → s.baEntry = some e → s.cabId = some c → s.solves = true → s.portUp 0 = true →
        Runs (.leaseBlockSend now) s fun t => (t.rport 0).queue.length = (s.rport 0).queue.length + 4)
      ∧ (s.ba.reported ≠ some nxt → Inert (.leaseDeadline now) s ∧ Inert (.ledgerSolve now) s)
      ∧ (s.ba.reported = some nxt → s.ba.fixed ≠ some nxt → s.role 0 = false → Runs (.leaseDeadline now) s fun t => latched 2 t ∧ t.ba = { s.ba with fixed := some nxt }
        ∧ t.fld F.BA_STAT_GEFF = s.fld F.BA_STAT_GEFF)
      ∧ (s.ba.reported = some nxt → s.ba.fixed ≠ some nxt → s.role 0 = true → lease < 2 ^ 16 → Runs (.leaseDeadline now) s fun t => latched 2 t
        ∧ t.fld F.BA_STAT_LEASE = lease ∧ t.fld F.BA_STAT_GEFF = geff ∧ t.ba.fixed = some nxt ∧ t.ba.last = some lease
        ∧ (s.ba.lease = none → t.fld F.BA_CNT_LMISS = min (2 ^ F.BA_CNT_LMISS.w - 1) (s.fld F.BA_CNT_LMISS + 1))
        ∧ (s.memberShows = false → t.fld F.LP_CUT_CUT = 1023 ∧ t.flag F.BA_STAT_LIMITED = false)
        ∧ (s.memberShows = true → ∀ m ∈ s.mods, s.kOf m ≤ 32768 →
            t.fld (F.LP_MOD_SCL_K m) ≤ min 32768 (s.kOf m + s.fld F.BA_SLEW_USLEW))))
    ∧ (∀ word alert, s.live = true →
      let k := bitsOf word 20 4
      let smp := bitsOf word 4 16
      (s.flag F.BA_SNS_EN = false → Runs (.senseRead word alert) s fun t => t = { s with ao := { s.ao with snsAlert := alert } })
      ∧ (s.flag F.BA_SNS_EN = true → s.ao.refAbsent = false →
        (k < 8 → bitsOf word 0 4 = 5 → bitOf (s.fld F.BA_SNS_CHEN) k = true → Runs (.senseRead word alert) s fun t =>
          t.ao.snsAlert = alert ∧ t.fld (F.BA_SNSCH_LAST k) = smp ∧ bitOf (t.fld F.BA_SNSERR_LOST) k = false ∧ (t.chan k).count = (s.chan k).count + 1)
        ∧ (8 ≤ k ∨ bitsOf word 0 4 ≠ 5 ∨ bitOf (s.fld F.BA_SNS_CHEN) k = false → Runs (.senseRead word alert) s fun t =>
          t.fld F.BA_SNSERR_CHKERR = min (2 ^ F.BA_SNSERR_CHKERR.w - 1) (s.fld F.BA_SNSERR_CHKERR + 1) ∧ t.ba.bad = s.ba.bad + 1)
        ∧ (alert = true → 1 ≤ s.ba.alert → s.flag F.BA_STAT_EMERG = false → Runs (.senseRead word alert) s fun t =>
          t.flag F.BA_STAT_EMERG = true ∧ t.ba.emergDue = true)))
    ∧ (∀ k, k < 8 → s.live = true → s.flag F.BA_SNS_EN = true → bitOf (s.fld F.BA_SNS_CHEN) k = true → Runs (.senseLost k) s fun t =>
        t.flag F.BA_STAT_OPENLOOP = true ∧ t.fld F.BA_TRIM_TRIM = 0x9000 ∧ bitOf (t.fld F.BA_SNSERR_LOST) k = true
        ∧ t.obs Cls.ba 0 = Obs.failed)
    ∧ (s.cclkOn = true → 2 ≤ s.ba.alert ∨ 4 ≤ s.ba.overRun → Inert .emergClear s)
    ∧ (s.cclkOn = true → s.ba.alert < 2 → s.ba.overRun < 4 → Runs .emergClear s (FieldTakes s F.BA_STAT_EMERG 0))
    ∧ (∀ c, s.Due c 0x3001 →
      let b := c.params
      let sub := byteAt b 0
      (budgetBad s b = true → Answers (.budgetCfg c.id) s c Status.badParam [] s)
      ∧ (budgetBad s b = false → (sub ≤ 2 ∧ showMode s.mode = true) ∨ (sub ≤ 1 ∧ s.flag F.BA_LOCK_LOCK = true) →
          Answers (.budgetCfg c.id) s c Status.denied [] s)
      ∧ (budgetBad s b = false → sub ≤ 2 → showMode s.mode = false → s.flag F.BA_LOCK_LOCK = false → s.hoists = true →
          Answers (.budgetCfg c.id) s c Status.ok (leBytes 1 sub ++ [0, 0, 0] ++ leBytes 4 0)
            { s with ba := { s.ba with pend := s.ba.pend ++ [b], configured := s.ba.configured || sub == 0 } }))
    ∧ (∀ c, s.Due c 0x3002 →
      let b := c.params
      let v := leAt b 0 2
      let u := s.setFld F.BA_LIM_CEIL v
      let frame := if s.hoists = false then 0xFFFFFFFF else if s.ba.fixed = some nxt then (nxt + 1) % 2 ^ 32 else nxt % 2 ^ 32
      let reply := fun (x : Nat) => leBytes 2 x ++ leBytes 4 frame ++ [0, 0]
      (b.length ≠ 8 ∨ v < 0x40 ∨ zeroAt b 2 6 = false → Answers (.ceilSet c.id) s c Status.badParam [] s)
      ∧ (b.length = 8 → 0x40 ≤ v → zeroAt b 2 6 = true →
        (v < s.sc + 0x40 → Answers (.ceilSet c.id) s c Status.clipped (reply (s.sc + 0x40)) u)
        ∧ (s.sc + 0x40 ≤ v → s.ba.last ≠ none → s.fld F.BA_STAT_GEFF < v → Answers (.ceilSet c.id) s c Status.clipped (reply (s.fld F.BA_STAT_GEFF)) u)
        ∧ (s.sc + 0x40 ≤ v → s.ba.last = none ∨ v ≤ s.fld F.BA_STAT_GEFF → Answers (.ceilSet c.id) s c Status.ok (reply v) u)))
    ∧ (∀ c, s.Due c 0x2001 →
      let b := c.params
      let m := calMod c
      (64 ≤ m ∨ s.modEn m = false ∨ calAddr c % 64 ≠ 0 → Answers (.calLoad c.id) s c Status.badParam [] s)
      ∧ (m < 64 → s.modEn m = true → calAddr c % 64 = 0 → zeroAt b 1 7 = true → zeroAt b 14 2 = true → zeroAt b 20 4 = true →
        Runs (.calLoad c.id) s fun t => t.cmd? c.id = some { c with phase := .running } ∧ t.lp = { s.lp with cals := s.lp.cals ++ [⟨c.id, m, [], 0, false⟩] }
          ∧ t.mpt0.queue = s.mpt0.queue ++ rangeReads (.cmdRead c.id) (calAddr c) (s.geom m).calLen ∧ t.rf = s.rf))

/-! ### The ring and wall time (R486 to R531, R536) -/

/-- Ports: block lock brings a port up, sends what of a hold has not expired and starts verification; a failure takes it down, holds its
queue, clears its duplicate windows; a hold ends, wake frames stay; verification succeeds or fails; records that nothing touched for their time go (R487,
R488, R495, R498, R500, R503, R530).
Model's choices in it: log entries 6, 45. -/
def Obligations.RingPortsAndRecords : Prop :=
  ∀ (s : State) (n now : Nat), s.cclkOn = true → n < 2 →
    let p := s.rport n
    let o := 1 - n
    let s0 := s.atTime now
    let raised := fun (k : Nat) (t : State) => t.fld (F.DIC_SRC_COUNT k) = min 15 (s.fld (F.DIC_SRC_COUNT k) + 1)
    let may := s.flag (F.RING_PORT_CFG_EN n) = true ∧ ustIdx Cls.ring n ∉ s.unitOff
      ∧ (∀ l ∈ s.tdu.loops, l.kind = 0 → l.unit = n → 4 ≤ l.depth)
    let keep := p.queue.filter fun f => f.wake || (p.holding && !s0.expiredQ f)
    let wakes := if s.portEnabled n = true then p.queue.filter RFrame.wake else []
    let dropped := fun (k : Nat) (t : State) => t.fld (F.RING_PORT_CNT0_HOLDDROP n) = min 65535 (s.fld (F.RING_PORT_CNT0_HOLDDROP n) + k)
    (s.portUp n = true ∨ ¬ may → Inert (.linkUp n now) s)
    ∧ (s.portUp n = false → may → Runs (.linkUp n now) s fun t => t.portUp n = true ∧ t.portUp o = s.portUp o ∧ t.rport o = s.rport o
        ∧ (t.rport n).queue = keep ∧ (t.rport n).holding = false ∧ (t.rport n).verify = .running ∧ (t.rport n).verifies = 1
        ∧ dropped (p.queue.length - keep.length) t ∧ raised (96 + n) t ∧ t.obs Cls.ring n = Obs.on)
    ∧ (s.portUp n = false → Inert (.linkDown n) s)
    ∧ (s.portUp n = true → Runs (.linkDown n) s fun t => t.portUp n = false ∧ t.portUp o = s.portUp o ∧ t.rport o = s.rport o
        ∧ t.fld (F.RING_PORT_STAT_PARTNER n) = 0xFFFF ∧ t.flag (F.RING_PORT_STAT_PREEMPT n) = false
        ∧ t.fld (F.RING_PORT_CNT1_LINKDOWNS n) = min 65535 (s.fld (F.RING_PORT_CNT1_LINKDOWNS n) + 1)
        ∧ (t.rport n).queue = p.queue ∧ (t.rport n).holding = true ∧ (t.rport n).verify = .none
        ∧ (∀ d, d ∈ t.ring.dups ↔ d ∈ s.ring.dups ∧ d.who ≠ n) ∧ raised (96 + n) t
        ∧ t.obs Cls.ring n = if s.flag (F.RING_PORT_CFG_EN n) = true ∧ ustIdx Cls.ring n ∉ s.unitOff then Obs.failed else Obs.off)
    ∧ (p.holding = false → Inert (.portHoldExpiry n) s)
    ∧ (p.holding = true → Runs (.portHoldExpiry n) s fun t => t.rport n = { p with queue := wakes, holding := false } ∧ t.rport o = s.rport o
        ∧ dropped (p.queue.length - wakes.length) t ∧ (p.queue.length ≠ wakes.length → raised 105 t) ∧ (p.queue.length = wakes.length → t.rf = s.rf))
    ∧ (p.verify ≠ .running → Inert (.preemptVerifySend n) s ∧ Inert (.preemptRespond n) s ∧ Inert (.preemptVerifyTimeout n) s)
    ∧ (p.verify = .running → exec (.preemptVerifySend n) s = .next (s.setRport n { p with verifies := p.verifies + 1 }))
    ∧ (p.verify = .running → s.portUp n = true →
        Runs (.preemptRespond n) s (FieldTakes (s.setRport n { p with verify := .verified }) (F.RING_PORT_STAT_PREEMPT n) 1)
        ∧ Runs (.preemptVerifyTimeout n) s fun t => Touches [(F.DIC_SRC_COUNT (96 + n)).off] (s.setRport n { p with verify := .failed }) t
          ∧ raised (96 + n) t)
    ∧ (∀ who src, Runs (.dupWindowClear who src) s fun t => t = { s with ring := { s.ring with dups := t.ring.dups } }
        ∧ t.dupWin who src = none ∧ ∀ w x, ¬ (w = who ∧ x = src) → t.dupWin w x = s.dupWin w x)
    ∧ (∀ cab, (cab ∉ s.ring.nodes → Inert (.nodeForget cab) s)
        ∧ (cab ∈ s.ring.nodes → Runs (.nodeForget cab) s fun t => (∀ c, c ∈ t.ring.nodes ↔ c ∈ s.ring.nodes ∧ c ≠ cab) ∧ raised 103 t))
    ∧ (∀ sender tenant keyid, Runs (.replayRecordExpiry sender tenant keyid) s fun t => t = { s with ring := { s.ring with vreps := t.ring.vreps } }
        ∧ ∀ r, r ∈ t.ring.vreps ↔ r ∈ s.ring.vreps ∧ ¬ (r.sender = sender ∧ r.tenant = tenant ∧ r.keyid = keyid))
    ∧ (∀ sender tenant, Runs (.reassemblyForget sender tenant) s fun t => t = { s with ring := { s.ring with reas := t.ring.reas } }
        ∧ ∀ r, r ∈ t.ring.reas ↔ r ∈ s.ring.reas ∧ ¬ (r.sender = sender ∧ r.tenant = tenant))

/-- A frame received: without a valid tag, of no class or too long it counts in NOTAG; its own comes back and ends; expired it counts in
EXPIRED; for others it is forwarded once, and each later copy counts in DUPDISC; a management frame without a valid key changes AUTH and
source 157 alone, one that passes R247 enters the intake. Supervision frames teach the node table and leave on both ports. An egress starts the
first frame of the order whose gate is open, one of a port that is down a wake frame. GCL_LOAD and the gate lists (R490, R491, R498 to R504,
R507 to R509, R530, R247).
Model's choices in it: log entries 6, 44, 45, 46, 70. -/
def Obligations.FramesAndGates : Prop :=
  ∀ (s : State) (p now : Nat), s.cclkOn = true → p < 2 →
    let q := 1 - p
    let s0 := s.atTime now
    let raised := fun (k : Nat) (t : State) => t.fld (F.DIC_SRC_COUNT k) = min 15 (s.fld (F.DIC_SRC_COUNT k) + 1)
    let counts := fun (f : FRef) => FieldTakes s0 f (min (2 ^ f.w - 1) (s.fld f + 1))
    (∀ f, s.portUp p = false → Inert (.frameReceive p now f) s)
    ∧ (∀ b ok pen, s.portUp p = true → parseHsr b = none → beAt b 12 2 ≠ 0x88F7 →
        Runs (.frameReceive p now (.eth b ok pen)) s (counts (F.RING_PORT_CNT1_NOTAG p)))
    ∧ (∀ b ok pen h, s.portUp p = true → parseHsr b = some h →
      let row := Instr.frameReceive p now (.eth b ok pen)
      (h.cls = none → Runs row s (counts (F.RING_PORT_CNT1_NOTAG p)))
      ∧ (∀ rank size, h.cls = some (rank, size) →
        (size < b.length + 4 → Runs row s (counts (F.RING_PORT_CNT1_NOTAG p)))
        ∧ (b.length + 4 ≤ size →
          (∀ c, s.cabId = some c → h.sa = unicast c → exec row s = .next s0)
          ∧ ((∀ c, s.cabId = some c → h.sa ≠ unicast c) →
            (s0.expired h = true → Runs row s (counts (F.RING_PORT_CNT0_EXPIRED p)))
            ∧ (s0.expired h = false → rank ≠ 3 → rank ≠ 5 → s.addressed h.da = false → s.portUp q = true →
              (s.seen q h.sa h.seq = false → Runs row s fun t => (t.rport q).queue = (s.rport q).queue ++ [⟨rank, true, b, !ok || pen⟩]
                ∧ t.rport p = s.rport p ∧ t.seen q h.sa h.seq = true
                ∧ (∀ f : FRef, f = F.RING_PORT_CNT0_FCSERR p → t.fld f = min 65535 (s.fld f + if ok = true ∧ pen = false then 0 else 1)))
              ∧ (s.seen q h.sa h.seq = true → ok = true → pen = false → Runs row s (counts (F.RING_PORT_CNT0_DUPDISC p)))))))
      ∧ (∀ c size, s.cabId = some c → h.da = unicast c → h.sa ≠ unicast c → h.etype = 0x88B6 → h.kind = 1 → h.cls = some (4, size) → b.length + 4 ≤ size →
          s.seen 2 h.sa h.seq = false → ok = true → pen = false →
          let m := byteAt h.payload 1
          let keyid := beAt h.payload 2 2
          let sender := beAt h.payload 4 2
          let ctr := beAt h.payload 8 8
          let last := h.payload.length - 16
          let mid := (h.payload.take last).drop 32
          let enc := bitOf (byteAt h.payload 18) 2
          ((s.keySlot (1024 + m)).byId keyid = none → Runs row s fun t => t.cmds = s.cmds ∧ t.keys = s.keys
            ∧ t.fld F.CMD_MGSTAT_AUTH = min (2 ^ F.CMD_MGSTAT_AUTH.w - 1) (s.fld F.CMD_MGSTAT_AUTH + 1) ∧ raised 157 t)
          ∧ (∀ e txt, (s.keySlot (1024 + m)).byId keyid = some e → m < 16 → bitOf e.use 13 = true → 48 ≤ h.payload.length →
            (if enc = true then gcmOpen e.key (frameNonce sender keyid ctr) (h.payload.take 32) mid (h.payload.drop last)
              else (gcmOpen e.key (frameNonce sender keyid ctr) (h.payload.take 32 ++ mid) [] (h.payload.drop last)).map fun _ => mid) = some txt →
            (∀ r ∈ s.replays, ¬ (r.slot = m ∧ r.keyid = keyid ∧ r.sender = sender)) → 0 < ctr →
            let body := (h.payload.take 32).drop 16 ++ txt
            let hdr := hdrNet (body.take 16)
            leAt hdr 10 2 = c → mgmtAllowed e.use (leAt hdr 0 2) (body.drop 16) = true → s.blocked = false → s.mgmtHeld < 16 →
            Runs row s fun t => t.cmds.rx = s.cmds.rx ++ [⟨⟨m, keyid, sender, beAt h.payload 6 2⟩, hdr, body.drop 16⟩] ∧ t.rf = s.rf)))
    ∧ (s.cabId = none → Inert .supervisionSend s)
    ∧ (∀ c, s.cabId = some c → Runs .supervisionSend s fun t =>
        let seq := (s.ring.seqNo + 1) % 65536
        t.ring.seqNo = seq ∧ t.rf = s.rf ∧ ∀ n, n < 2 → (t.rport n).queue = (s.rport n).queue ++ (if s.portUp n = true then
          [⟨4, false, (HsrFrame.mk daSupervision (unicast c) n seq 0x88FB (beBytes 2 1 ++ beBytes 2 seq ++ [23, 6] ++ beBytes 6 (unicast c) ++ [0, 0])).bytes,
            false⟩] else []))
    ∧ (s.portUp p = false → (∀ f ∈ (s.rport p).queue, f.wake = false) → Inert (.egressStart p now) s)
    ∧ (∀ f, s.portUp p = false → s.portEnabled p = true → (s.rport p).queue.find? RFrame.wake = some f → s0.gateAllows p f.cls = true →
        exec (.egressStart p now) s = .next (s0.setRport p { s.rport p with queue := (s.rport p).queue.erase f, tx := some f }))
    ∧ (s.portUp p = true → s.cmds.tx = [] → s.dec.refresh = [] →
        let live := (s.rport p).queue.filter fun f => !s0.expiredQ f
        let ok := fun (f : RFrame) => s0.gateAllows p f.cls = true ∧ (f.transit = true ∨ ∀ g ∈ live, g.cls = f.cls → g.transit = false)
        Runs (.egressStart p now) s fun t => t.rport q = s.rport q
          ∧ t.fld (F.RING_PORT_CNT0_EXPIRED p) = min 65535 (s.fld (F.RING_PORT_CNT0_EXPIRED p) + ((s.rport p).queue.length - live.length))
          ∧ ((∀ f ∈ live, ¬ ok f) → (t.rport p).queue = live ∧ (t.rport p).tx = (s.rport p).tx)
          ∧ ((∃ f ∈ live, ok f) → ∃ f ∈ live, ok f ∧ (∀ g ∈ live, ok g → f.order ≤ g.order) ∧ (t.rport p).tx = some f ∧ (t.rport p).queue = live.erase f))
    ∧ ((s.rport p).gcl.length ≤ (s.rport p).entry + 1 → Inert (.gateEntryChange p) s)
    ∧ ((s.rport p).entry + 1 < (s.rport p).gcl.length →
        exec (.gateEntryChange p) s = .next (s.setRport p { s.rport p with entry := (s.rport p).entry + 1 }))
    ∧ (s.ring.p0.gclNext = none → s.ring.p1.gclNext = none → Inert .gclTakeEffect s)
    ∧ (∀ g, (s.rport p).gclNext = some g → Runs .gclTakeEffect s fun t => t.rport p = { s.rport p with gcl := g, entry := 0, gclNext := none }
        ∧ raised 104 t ∧ (t.rport q).gclNext = none ∧ ((s.rport q).gclNext = none → t.rport q = s.rport q))
    ∧ (∀ c, s.Due c 0x4002 →
      let b := c.params
      let bad := gclBad b (s.fld F.TSU_SCHED1_PERIOD)
      (byteAt b 0 = 0 ∨ 4 ≤ byteAt b 0 ∨ gclEntries b = [] ∨ (∃ e ∈ gclEntries b, bitOf e.2 0 = false ∨ bitOf e.2 2 = false) → bad = true)
      ∧ (bad = true → Answers (.gclLoad c.id) s c Status.badParam [] s)
      ∧ (bad = false → s.hoists = true → ∃ u, Answers (.gclLoad c.id) s c Status.ok (leBytes 4 (s.frame + 1) ++ leBytes 4 0) u ∧ u.rf = s.rf
        ∧ ∀ n, n < 2 → u.rport n = if bitOf (byteAt b 0) n = true then { s.rport n with gclNext := some (gclEntries b) } else s.rport n)
      ∧ (bad = false → s.hoists = false → s.ring.p0.gclNext = none → s.ring.p1.gclNext = none →
        ∃ u, Answers (.gclLoad c.id) s c Status.ok (leBytes 4 0xFFFFFFFF ++ leBytes 4 0) u ∧ raised 104 u
        ∧ ∀ n, n < 2 → u.rport n = if bitOf (byteAt b 0) n = true then { s.rport n with gcl := gclEntries b, entry := 0 } else s.rport n))

/-- Time: Sync in both domains from the grandmaster, link delays, the choice and the loss of a domain, schedule frames, a schedule that begins to
govern, LATENCY raised with H(N0) kept, takeover by the standby ensign, the three forms of RING_CFG, the first two at the next hoist while the panel shows video, and the hoist itself (R28, R513 to R520,
R523 to R528).
Model's choices in it: log entries 6, 44, 47, 48, 53, 70. -/
def Obligations.WallTime : Prop :=
  ∀ (s : State) (now : Nat), s.cclkOn = true →
    let s0 := s.atTime now
    let raised := fun (k : Nat) (t : State) => t.fld (F.DIC_SRC_COUNT k) = min 15 (s.fld (F.DIC_SRC_COUNT k) + 1)
    let old := s0.lastSched
    let need := s0.tRing (max (s.fld F.RING_AREA_NENG) s.ring.nodes.length) old.suml + (2 * old.period + 65535) / 65536
    (s.gmSends = false → Inert .syncSend s ∧ Inert .scheduleFrameSend s)
    ∧ (∀ c, s.gmSends = true → s.cabId = some c →
      (Runs .syncSend s fun t =>
        let seq := (s.tsu.syncSeq + 1) % 65536
        t.tsu = { s.tsu with syncSeq := seq } ∧ t.rf = s.rf ∧ ∀ n, n < 2 → (t.rport n).queue = (s.rport n).queue ++ (if s.portUp n = true ∧ s.timeCapable n = true then
          [⟨1, false, syncBytes c 0 n seq, false⟩, ⟨1, false, syncBytes c 1 n seq, false⟩] else []))
      ∧ (∀ e, s.hoists = true → s.txEntry (s.fld F.RING_ID_MSLOT) [13] = some e → Runs .scheduleFrameSend s fun t => ∃ ctr,
        let seq := (s.ring.seqNo + 1) % 65536
        let pay := sealMgmt 0x20 (s.fld F.RING_ID_MSLOT) e c 0 ctr (schedBody c s.lastSched (s.flag F.TSU_STAT_ACTING)) false
        t.rf = s.rf ∧ t.tsu = s.tsu ∧ ∀ n, n < 2 → (t.rport n).queue = (s.rport n).queue ++ (if s.portUp n = true then
          [⟨1, false, (HsrFrame.mk daEvery (unicast c) n seq 0x88B6 pay).bytes, false⟩] else [])))
    ∧ (∀ n partner mld, n < 2 →
      (s.portUp n = false → Inert (.pdelayExchange n partner mld) s)
      ∧ (s.portUp n = true → partner < 2 ^ 16 → mld < 2 ^ 32 → Runs (.pdelayExchange n partner mld) s fun t =>
        t = { s with rf := t.rf } ∧ t.fld (F.RING_PORT_STAT_PARTNER n) = partner ∧ t.fld (F.RING_PORT_STAT_MLD n) = mld ∧ t.portUp n = true
        ∧ ∀ off, off ≠ (F.RING_PORT_STAT_LINK n).off → t.reg off = s.reg off))
    ∧ (s.isGm = true → Inert .syncTimeout s ∧ ∀ x, Inert (.domainChoice x) s)
    ∧ (s.isGm = false →
      let valid := s.flag F.TSU_STAT_DVALID
      let doms := s.tsu.doms
      let took := fun (d : Nat) (t : State) => t.flag F.TSU_STAT_DVALID = true ∧ t.fld F.TSU_STAT_DOM = d ∧ raised 100 t
      (doms = [] → s.flag F.TSU_STAT_SYNC = false → Inert .syncTimeout s)
      ∧ (doms ≠ [] ∨ s.flag F.TSU_STAT_SYNC = true → Runs .syncTimeout s fun t => t.flag F.TSU_STAT_DVALID = false
        ∧ t.flag F.TSU_STAT_HOLDOVER = true ∧ t.flag F.TSU_STAT_SYNC = false ∧ t.tsu = { s.tsu with doms := [], good := 0 }
        ∧ (s.flag F.TSU_STAT_SYNC = true → raised 100 t))
      ∧ (valid = true → Inert (.domainChoice false) s) ∧ (valid = false → Inert (.domainChoice true) s)
      ∧ (∀ a b, doms = [(0, a), (1, b)] →
        (valid = false → Runs (.domainChoice false) s (took (if b < a then 1 else 0)))
        ∧ (valid = true → Runs (.domainChoice true) s (took (1 - s.fld F.TSU_STAT_DOM))))
      ∧ (∀ d a, d < 2 → doms = [(d, a)] →
        (valid = false → Runs (.domainChoice false) s (took d)) ∧ (valid = true → s.fld F.TSU_STAT_DOM = d → Inert (.domainChoice true) s)))
    ∧ (s.tsu.next = [] →
      (s.tsu.fresh = false ∨ s.frame + 1 < s.tsu.n0 → Inert .scheduleGovern s)
      ∧ (s.tsu.fresh = true → s.tsu.n0 ≤ s.frame + 1 → Runs .scheduleGovern s fun t =>
        Touches [(F.DIC_SRC_COUNT 102).off] { s with tsu := { s.tsu with fresh := false } } t ∧ raised 102 t))
    ∧ (∀ c rest, s.tsu.next = c :: rest →
      (s.frame + 1 < c.n0 → Inert .scheduleGovern s)
      ∧ (c.n0 ≤ s.frame + 1 → Runs .scheduleGovern s fun t => t.fld F.TSU_SCHED0_EPOCH = c.epoch % 2 ^ 64
        ∧ t.fld F.TSU_SCHED1_PERIOD = c.period % 2 ^ 48 ∧ t.fld F.TSU_SCHED1_SSEQ = c.sseq % 2 ^ 16
        ∧ t.fld F.TSU_SCHED2_LATENCY = c.latency % 2 ^ 32 ∧ t.fld F.TSU_SCHED2_N0 = c.n0 % 2 ^ 32 ∧ t.tsu.next = rest ∧ t.tsu.n0 = c.n0
        ∧ raised 102 t))
    ∧ (s.role 1 = false ∨ s.hoists = false → Inert (.latencyRaise now) s)
    ∧ (s.role 1 = true → s.hoists = true →
      (need ≤ old.latency → exec (.latencyRaise now) s = .next s0)
      ∧ (old.latency < need → Runs (.latencyRaise now) s fun t => ∃ c, t.tsu.next = s.tsu.next ++ [c] ∧ c.latency = need ∧ c.period = old.period
        ∧ c.suml = old.suml ∧ c.sseq = (old.sseq + 1) % 65536 ∧ c.hoistAt c.n0 = old.hoistAt c.n0
        ∧ (0 < old.period → old.epoch + c.n0 * old.period / 65536 < 2 ^ 64 → old.epoch < s0.tsu.now + 250000000 → s0.tsu.now + 250000000 ≤ c.hoistAt c.n0)
        ∧ raised 106 t))
    ∧ (s.role 2 = false ∨ ensignModes s.mode = false ∨ s.isGm = true → Inert .ensignLost s)
    ∧ (∀ c, s.role 2 = true → ensignModes s.mode = true → s.isGm = false → s.cabId = some c → Runs .ensignLost s fun t =>
        t.isGm = true ∧ t.flag F.TSU_STAT_ACTING = true ∧ t.flag F.TSU_STAT_DVALID = false ∧ t.flag F.TSU_STAT_HOLDOVER = false
        ∧ t.fld F.TSU_STAT_GMID = c ∧ t.tsu.held = true ∧ t.tsu.doms = [] ∧ t.mode = s.mode)
    ∧ (∀ c, s.Due c 0x4001 →
      let b := c.params
      let row := Instr.ringCfg c.id now
      (2 < byteAt b 0 → Answers row s c Status.badParam [] s0)
      ∧ (byteAt b 0 = 0 →
        (ringIdBad b = true → Answers row s c Status.badParam [] s0)
        ∧ (ringIdBad b = false → s0.ringIdDenied b = true → Answers row s c Status.denied [] s0)
        ∧ (ringIdBad b = false → s0.ringIdDenied b = false → s.cfgWaits = true → Answers row s c Status.ok (leBytes 8 (leAt b 2 2))
            { s0 with ring := { s0.ring with cfgDue := s.ring.cfgDue ++ [b] } })
        ∧ (ringIdBad b = false → s0.ringIdDenied b = false → s.cfgWaits = false → ∃ u, Answers row s c Status.ok (leBytes 8 (leAt b 2 2)) u
          ∧ u.cabId = some (leAt b 2 2) ∧ u.fld F.RING_ID_ROLES = byteAt b 1 ∧ u.fld F.RING_ID_ENSIGN = leAt b 4 2
          ∧ u.fld F.RING_ID_STANDBY = leAt b 6 2 ∧ u.fld F.RING_ID_MSLOT = byteAt b 10 ∧ u.fld F.RING_AREA_X0C = leAt b 12 2
          ∧ u.fld F.RING_AREA_Y0C = leAt b 14 2 ∧ u.fld F.RING_AREA_WC = byteAt b 16 ∧ u.fld F.RING_AREA_HC = byteAt b 17
          ∧ u.fld F.RING_AREA_NENG = leAt b 18 2
          ∧ ∀ n, n < 2 → u.flag (F.RING_PORT_CFG_EN n) = bitOf (byteAt b 8) n ∧ u.flag (F.RING_PORT_CFG_FEC n) = bitOf (byteAt b 9) n
            ∧ u.fld (F.RING_PORT_CFG_DASYM n) = leAt b (20 + 2 * n) 2 ∧ (bitOf (byteAt b 8) n = false → u.portUp n = false)))
      ∧ (byteAt b 0 = 1 →
        (mapBad b s.mapDue = true → Answers row s c Status.badParam [] s0)
        ∧ (mapBad b s.mapDue = false → Answers row s c Status.ok (leBytes 8 (mapCrc (mapAfter b s.mapDue))) { s0 with
            ring := { s0.ring with
              cfgDue := if s.cfgWaits = true then s.ring.cfgDue ++ [b] else s.ring.cfgDue
              map := if s.cfgWaits = true then s.ring.map else mapAfter b s.ring.map } }))
      ∧ (byteAt b 0 = 2 →
        (s0.schedBad b = true → Answers row s c Status.badParam [] s0)
        ∧ (s0.schedBad b = false → s.role 1 = false → Answers row s c Status.denied [] s0)
        ∧ (s0.schedBad b = false → s.role 1 = true → s.hoists = false → ∃ u, Answers row s c Status.ok (leBytes 8 0) u
          ∧ u.fld F.TSU_SCHED0_EPOCH = (s0.tsu.now + 250000000) % 2 ^ 64 ∧ u.fld F.TSU_SCHED1_PERIOD = leAt b 8 6
          ∧ u.fld F.TSU_SCHED1_SSEQ = 0 ∧ u.fld F.TSU_SCHED2_LATENCY = leAt b 16 4 ∧ u.fld F.TSU_SCHED2_N0 = 0 ∧ u.tsu.held = true)))
    ∧ (∀ n, s.hoistOk n = false → Inert (.hoist n) s)
    ∧ (∀ n, s.hoistOk n = true → s.live = true → Runs (.hoist n) s fun t => t.ring.cfgDue = []
        ∧ ((∀ b ∈ s.ring.cfgDue, byteAt b 0 = 1) → t.ring.map = s.mapDue))
    ∧ (∀ n, s.hoistOk n = true → s.calm → s.ao.modeWait = none → s.cmds.atHoist = [] → s.tsu.next = [] →
        s.ring.cfgDue = [] → s.mode ≠ Mode.display →
        s.mode ≠ Mode.halfMast → Runs (.hoist n) s fun t =>
        let goal := s.fld F.TSU_SCHED2_LATENCY
        let d := s.fld F.TSU_SCHED1_PERIOD / 65536 / 1000
        t.frame = n ∧ t.fld F.TSU_FRAME_N = n % 2 ^ 32 ∧ t.tsu.ran = true ∧ t.mode = s.mode ∧ t.ring.p0.entry = 0 ∧ t.ring.p1.entry = 0
        ∧ s.hoistTime n ≤ t.tsu.now
        ∧ t.tsu.lat = (if s.tsu.lat < goal then min goal (s.tsu.lat + d) else max goal (s.tsu.lat - d))
        ∧ (s.live = true → ∀ q, q < 19 → seqPresent s.build q = true → bitOf (t.seq q).latch 0 = true ∧ bitOf (t.seq q).latch 1 = true))

/-! ### Rows, bands and the light path (R312 to R330, R374 to R376, R387 to R413, R419 to R421) -/

/-- The order of R318 picks the least candidate, and an engine in service takes it with its band buffer and binds its slice unit; a row is published as one operation:
RANK goes up by one, SEL turns, its cells are published; a band that closes records every unpublished cell as lost, raises 86 once and marks the engines whose rows it abandons; the light
path takes the bands in turn; pulses start only where a generator runs; a shorted generator is held; LP_MODm_GEOM is discarded in the Show modes
and where modules would overlap (R317 to R320, R327, R374, R404, R411).
Model's choices in it: log entries 52, 54. -/
def Obligations.RowsAndBands : Prop :=
  (∀ (l : List Candidate) (c : Candidate), firstCandidate l = some c → c ∈ l ∧ ∀ d ∈ l, lexLt d.order c.order = false)
  ∧ ∀ (s : State) (n : Nat),
    let raised := fun (k : Nat) (t : State) => t.fld (F.DIC_SRC_COUNT k) = min 15 (s.fld (F.DIC_SRC_COUNT k) + 1)
    let all := s.otherRows ++ s.decodeRows
    (s.seServes n = false ∨ s.dec.open_ = none ∨ 2 ≤ (s.rows n).length ∨ (∃ j ∈ s.rows n, j.ready 9 = false) → Inert (.sliceRowDispatch n) s)
    ∧ (all = [] → Inert (.sliceRowDispatch n) s)
    ∧ (∀ c, s.live = true → s.seServes n = true → s.dec.open_ ≠ none → (s.rows n).length < 2 → (∀ j ∈ s.rows n, j.ready 9 = true) →
        firstCandidate all = some c → Runs (.sliceRowDispatch n) s fun t => t.rows n = s.rows n ++ [{ c.job with half := s.freeHalf n }]
          ∧ (∀ id u, c.job.kind = .decode id → s.unit? c.job.win id = some u → ∃ v b, t.unit? c.job.win id = some v ∧ v.bound = some b
              ∧ ∀ x, u.bound = some x → b = x)
          ∧ t.fld (F.SEN_STAT_WIN n) = c.job.win % 64 ∧ t.fld (F.SEN_STAT_BAND n) = c.job.band % 32
          ∧ (∃ p ∈ t.dec.bufs, p.1 = c.job.band % 4) ∧ (∀ p ∈ s.dec.bufs, p ∈ t.dec.bufs) ∧ (∀ m, m ≠ n → t.rows m = s.rows m)
          ∧ ∀ k, k < 10 → c.job.needs k = true → (t.stage (n + 1) k).busy = true)
    ∧ (s.dec.swapDue = false →
      ((∀ j ∈ s.rows n, j.blended = false) → Inert (.rowPublish n) s)
      ∧ ∀ j, s.live = true → (s.rows n).find? (·.blended) = some j → s.dec.open_ = some j.frame → j.cells.length = j.cols.length → j.cols.Nodup →
        let w := s.win j.win
        let was := fun (x : Nat) => j.y * w.cw + x ∈ w.pub
        Runs (.rowPublish n) s fun t => t.rows n = (s.rows n).erase j ∧ (∀ m, m ≠ n → t.rows m = s.rows m)
          ∧ (∀ x ∈ j.cols, j.y * w.cw + x ∈ (t.win j.win).pub) ∧ (∀ c ∈ w.pub, c ∈ (t.win j.win).pub)
          ∧ (∀ b, s.bandBuf j.frame j.band = some b → ∃ d, t.bandBuf j.frame j.band = some d
              ∧ ∀ x ∈ j.cols, d.at (w.cx0 + x) = if was x then b.at (w.cx0 + x) else ((b.at (w.cx0 + x)).1 + 1, !(b.at (w.cx0 + x)).2))
          ∧ t.fld (F.SEN_CNT_ROWS n) = min (2 ^ 32 - 1) (s.fld (F.SEN_CNT_ROWS n) + 1))
    ∧ (∀ b, s.live = true →
      (s.dec.open_ = none ∨ 32 ≤ b ∨ b ∈ s.dec.closed → Inert (.bandClose b) s)
      ∧ (s.dec.open_ ≠ none → b < 31 → b ∉ s.dec.closed → Runs (.bandClose b) s fun t => t.dec.closed = s.dec.closed ++ [b]
        ∧ t.dec.open_ = s.dec.open_ ∧ (∀ m, (∃ j ∈ s.rows m, j.band = b ∧ j.kind ≠ .conceal) → m ∈ t.dec.late)
        ∧ ∀ p ∈ s.winsOn, s.win p.1 = p.2 → p.2.cy0 ≤ b → b < p.2.cy0 + p.2.ch → ∀ x, x < p.2.cw → (b - p.2.cy0) * p.2.cw + x ∉ p.2.pub →
          (∃ cause, ((b - p.2.cy0) * p.2.cw + x, cause) ∈ (t.win p.1).lost) ∧ (86 ∉ s.dec.raised → raised 86 t)))
    ∧ (∀ b, s.cclkOn = true →
      (s.showing = false ∨ 32 ≤ b ∨ bitOf s.lp.started b = true ∨ b ≠ popCount s.lp.started 32 → Inert (.lightPathBandStart b) s)
      ∧ (s.showing = true → b < 32 → bitOf s.lp.started b = false → b = popCount s.lp.started 32 → Runs (.lightPathBandStart b) s fun t =>
        bitOf t.lp.started b = true ∧ (∃ tab, t.lp.bands = [⟨s.frame + 1, b, tab, 0⟩])
        ∧ (s.dec.open_ ≠ none → b ∈ t.dec.started) ∧ ∀ m, ∀ j ∈ t.rows m, s.dec.open_ = some j.frame → j.band ≠ b))
    ∧ (∀ k, s.cclkOn = true →
      (s.showing = false ∨ s.flag F.AO_CLKST_PN_SAFE = true ∨ 2 ^ s.fld F.LP_CFG_SEGLOG ≤ k ∨ s.gclkRuns = 0 → Inert (.subperiodStart k) s)
      ∧ (s.showing = true → s.flag F.AO_CLKST_PN_SAFE = false → k < 2 ^ s.fld F.LP_CFG_SEGLOG → s.gclkRuns ≠ 0 →
        exec (.subperiodStart k) s = .next { s with lp := { s.lp with sub := some (s.frame, k) } }))
    ∧ (∀ g, 16 ≤ g ∨ bitOf s.lp.shortG g = true ∨ s.showing = false → Inert (.gclkPadShort g) s)
    ∧ (∀ g, s.cclkOn = true → s.aoOn = true → g < 16 → bitOf s.lp.shortG g = false → s.showing = true → Runs (.gclkPadShort g) s fun t =>
        bitOf t.lp.shortG g = true ∧ (∀ h, h ≠ g → bitOf t.lp.shortG h = bitOf s.lp.shortG h) ∧ bitOf t.gclkRuns g = false
        ∧ t.obs Cls.gclk g = Obs.failed ∧ ∀ j, j < 4 → raised (160 + 4 * g + j) t)
    ∧ (∀ (w : Writer) (m : Nat) (v : W64), s.cclkOn = true →
      let off := (F.LP_MOD_GEOM_EN m).off
      let g := geomOf (s.written w off 255 v)
      (64 ≤ m ∨ showMode s.heldOrMode = true → Inert (.lpModGeomWrite w m v) s)
      ∧ ((s.written w off 255 v).getLsbD 63 = true → (∃ k, k < 64 ∧ k ≠ m ∧ s.modEn k = true ∧ overlap g.x0 g.w (s.geom k).x0 (s.geom k).w = true
            ∧ overlap g.y0 g.h (s.geom k).y0 (s.geom k).h = true) → Inert (.lpModGeomWrite w m v) s)
      ∧ (m < 64 → showMode s.heldOrMode = false → (s.written w off 255 v).getLsbD 63 = false ∨ geomOk s m g = true →
        Runs (.lpModGeomWrite w m v) s fun t => t.geom m = g ∧ t.modEn m = (s.written w off 255 v).getLsbD 63
          ∧ t.fld (F.LP_MOD_GEOM_NCHM1 m) = (g.chips - 1) % 1024 ∧ ∀ k, k < 64 → k ≠ m → t.geom k = s.geom k ∧ t.modEn k = s.modEn k))

/-- The Lamp Link: a packet coded in the symbols of R387 comes out of the receiver as it went in, and a K28.5 stands after 255 data symbols; band
loads, SET_CURRENT, LATCH of the armed lanes alone, raw commands and status rounds each with the next SEQ; replies by
CRC, token and outcome; time-outs; training in a group one lane at a time, through QUIET, ALIGN and ENUM; reprobes; shorts of a lane and of a
return lane (R387 to R403, R406, R410 to R413).
Model's choices in it: log entries 54, 74, 75. -/
def Obligations.LampLink : Prop :=
  (∀ (f g : Nat) (b : List Byte), receiveSymbols g (sentSymbols f [b]) = (some b, 0))
  ∧ (∀ (b : List Byte) (i : Nat), ∃ k, k < 256 ∧ ∀ v, (linePacketSymbols b)[i + k]? ≠ some (.data v))
  ∧ ∀ (s : State) (n : Nat), s.cclkOn = true → n < 64 →
    let k := n / 8
    let x := s.lane n
    let raised := fun (j : Nat) (t : State) => t.fld (F.DIC_SRC_COUNT j) = min 15 (s.fld (F.DIC_SRC_COUNT j) + 1)
    let counts := fun (f : FRef) (t : State) => t.fld f = min 65535 (s.fld f + 1)
    let sends := fun (l : List (Nat × Nat × List Byte)) (t : State) => (t.lane n).seq = (x.seq + l.length) % 256
      ∧ (t.lane n).tx = l.zipIdx.map (fun p => lanePacket p.1.1 ((x.seq + p.2) % 256) p.1.2.1 p.1.2.2)
      ∧ ∃ f, (t.lane n).sym = sentSymbols f (t.lane n).tx
    let own := fun (t : State) => ∀ m, m ≠ n → t.lane m = s.lane m
    let failed := fun (reason : Nat) (t : State) => t.laneSt n = LaneSt.failed ∧ t.fld (F.ZLL_STAT_REASON n) = reason ∧ t.laneMod n = 0xFF
      ∧ (t.lane n).fifo = [] ∧ raised (160 + n) t
    let sendOk := s.lanesRun = true ∧ s.laneOn n = true
    let seg := s.fld F.LP_CFG_SEGLOG
    let cur := (if x.segSent = seg then [] else [setSeg seg]) ++ (if x.cgSent = s.gains n then [] else [setGains (s.gains n)])
      ++ [setCut (s.fld F.LP_CUT_CUT)]
    (∀ b rest, x.fifo = b :: rest → sendOk → Runs (.bandLoadSend n) s fun t => own t
        ∧ sends [(0x01, 0xFFFF, beBytes 2 b.start ++ beBytes 2 b.count ++ ((s.loadCodes b).map (beBytes 2)).flatten)] t
        ∧ (t.lane n).fifo = rest ∧ (t.lane n).sent = setBit x.sent b.band ∧ t = { noteLoad b s with lp := t.lp, freeCtr := s.freeCtr + 1 })
    ∧ (x.fifo = [] ∨ ¬ sendOk → Inert (.bandLoadSend n) s)
    ∧ (sendOk → s.hoists = true → x.cur = false → s.ba.fixed = some (s.frame + 1) → Runs (.setCurrentSend n) s fun t => own t ∧ sends cur t
        ∧ (t.lane n).cur = true ∧ (t.lane n).segSent = seg ∧ (t.lane n).cgSent = s.gains n ∧ (t.lane n).fifo = x.fifo ∧ t = { s with lp := t.lp, freeCtr := s.freeCtr + 1 })
    ∧ (x.cur = true ∨ s.hoists = false ∨ s.ba.fixed ≠ some (s.frame + 1) → Inert (.setCurrentSend n) s)
    ∧ (s.showing = false ∨ s.lp.latched = true → Inert .latchSend s)
    ∧ (s.showing = true → s.lp.latched = false → s.lanesRun = true → Runs .latchSend s fun t => t.lp.latched = true
        ∧ (s.laneOn n = true → x.armed = true → sends [(0x02, 0xFFFF, [])] t)
        ∧ (s.laneOn n = true → x.armed = false → x.counted = false → counts (F.ZLL_CNT_UNARMED n) t ∧ (t.lane n).tx = x.tx ∧ (t.lane n).seq = x.seq)
        ∧ (s.laneOn n = false → t.lane n = x))
    ∧ (∀ r rest, x.raw = r :: rest → sendOk → Runs (.rawCommandInsert n) s fun t =>
        own t ∧ sends [r] t ∧ (t.lane n).raw = rest ∧ t = { s with lp := t.lp, freeCtr := s.freeCtr + 1 })
    ∧ (x.raw = [] ∨ ¬ sendOk → Inert (.rawCommandInsert n) s)
    ∧ (∀ first count, sendOk → s.loadDone n = true → s.ret k = none → s.chainOn k = false → 0 < count → count ≤ 64 → first < 1024 →
        s.flag (F.ZLL_STAT_OPENCHAIN n) = false ∨ x.probe = true → Runs (.readStatusRound n first count) s fun t => own t
          ∧ sends [(0x03, first, beBytes 2 count ++ [0, 0] ++ List.replicate (16 * count) 0)] t ∧ t.ret k = some (n, .status first count)
          ∧ (t.lane n).probe = false ∧ ∀ j, j ≠ k → t.ret j = s.ret j)
    ∧ (∀ first count, s.ret k ≠ none ∨ s.loadDone n = false → Inert (.readStatusRound n first count) s)
    ∧ (∀ f b inv err, s.lanesRun = true → s.flag (F.ZLL_RT_SHORT k) = false →
      let row := Instr.laneReply k (sentSymbols f [b]) inv err
      let ok := 10 ≤ b.length ∧ (crc32 (b.take (b.length - 4))).toNat = beAt b (b.length - 4) 4
      (¬ ok → s.ret k = none → Runs row s fun t => t.lp = s.lp ∧ t.flag (F.ZLL_RT_RXINV k) = inv ∧ counts (F.ZLL_RT_CRCERR k) t
        ∧ t.fld (F.ZLL_RT_CODEERR k) = min 65535 (s.fld (F.ZLL_RT_CODEERR k) + err))
      ∧ (ok → byteAt b 0 = 0x86 → beAt b 6 2 % 64 = n → s.laneSt n = LaneSt.enum → s.ret k = some (n, .enum (beAt b 6 2)) →
        let uid := beAt b 14 8
        (∀ j, j < 8 → j ≠ k → s.flag (F.ZLL_RT_SHORT j) = false → Runs (.laneReply j (sentSymbols f [b]) inv err) s fun t => failed 3 t ∧ t.ret k = none)
        ∧ ((∀ j, j < 8 → s.modEn (8 * k + j) = true → s.fld (F.LP_MOD_UID_UID (8 * k + j)) ≠ uid) →
          (s.modEn n = false ∨ s.fld (F.LP_MOD_UID_UID n) ≠ 0 → Runs row s fun t => failed 3 t ∧ t.ret k = none)
          ∧ (s.modEn n = true → s.fld (F.LP_MOD_UID_UID n) = 0 → s.carrier n = none →
            (beAt b 8 2 ≠ (s.geom n).chips → Runs row s (failed 2))
            ∧ (beAt b 8 2 = (s.geom n).chips → Runs row s fun t => t.laneSt n = LaneSt.up ∧ t.laneMod n = n
              ∧ t.fld (F.LP_MOD_UID_UID n) = uid % 2 ^ 64 ∧ t.fld (F.ZLL_STAT_CHIPS n) = beAt b 8 2 % 2048 ∧ t.ret k = none
              ∧ sends [setSeg seg, setGains (t.gains n)] t ∧ t.flag (F.ZLL_STAT_OPENCHAIN n) = false))))
      ∧ (∀ first, ok → byteAt b 0 = 0x83 → s.ret k = some (n, .status first 1) → beAt b 10 2 = first → byteAt b 12 = 0 → beAt b 20 6 = 0 →
        (beAt b 14 6 = 0 → Runs row s fun t => (t.lane n).missed = 0 ∧ t.flag (F.ZLL_STAT_OPENCHAIN n) = false ∧ t.ret k = none
          ∧ t.fld (F.ZLL_CNT_LAMPFLT n) = s.fld (F.ZLL_CNT_LAMPFLT n) ∧ t.reg F.LP_FLT_VALID.off = s.reg F.LP_FLT_VALID.off)
        ∧ (∀ ch, beAt b 14 6 = 2 ^ ch → ch < 48 → s.flag (F.ZLL_STAT_OPENCHAIN n) = false → Runs row s fun t => counts (F.ZLL_CNT_LAMPFLT n) t
          ∧ raised (160 + n) t ∧ t.flag F.LP_FLT_VALID = true
          ∧ (s.flag F.LP_FLT_VALID = false → t.fld F.LP_FLT_KIND = 1 ∧ t.fld F.LP_FLT_MOD = s.laneMod n ∧ t.fld F.LP_FLT_INDEX = (48 * first + ch) % 65536)
          ∧ (s.flag F.LP_FLT_VALID = true → t.flag F.LP_FLT_OVF = true ∧ t.fld F.LP_FLT_INDEX = s.fld F.LP_FLT_INDEX))))
    ∧ (s.ret k = none → Inert (.laneReplyTimeout k) s)
    ∧ (∀ tok, s.ret k = some (n, .enum tok) → s.flag (F.ZLL_RT_SHORT k) = true → Inert (.laneReplyTimeout k) s)
    ∧ (∀ tok, s.ret k = some (n, .enum tok) → s.flag (F.ZLL_RT_SHORT k) = false → Runs (.laneReplyTimeout k) s fun t =>
        t.ret k = none ∧ counts (F.ZLL_RT_TMO k) t
        ∧ (x.attempt = 0 → t.laneSt n = LaneSt.quiet ∧ t.flag (F.ZLL_STAT_TXINV n) = !s.flag (F.ZLL_STAT_TXINV n) ∧ (t.lane n).attempt = 1)
        ∧ (x.attempt ≠ 0 → t.flag (F.ZLL_STAT_TXINV n) = x.txBefore ∧ (s.modEn n = true → failed 1 t) ∧ (s.modEn n = false → t.laneSt n = LaneSt.down)))
    ∧ (∀ first count, s.ret k = some (n, .status first count) → Runs (.laneReplyTimeout k) s fun t => t.ret k = none ∧ counts (F.ZLL_RT_TMO k) t
        ∧ counts (F.ZLL_CNT_STLOST n) t ∧ (t.lane n).missed = x.missed + 1
        ∧ t.flag (F.ZLL_STAT_OPENCHAIN n) = (s.flag (F.ZLL_STAT_OPENCHAIN n) || decide (2 ≤ x.missed)))
    ∧ (let may := s.lanesRun = true ∧ x.want = true ∧ s.training k = false ∧ s.laneTested n = false ∧ s.chainOn k = false
        ∧ ∀ j, j < n % 8 → (s.lane (8 * k + j)).want = false ∨ s.laneTested (8 * k + j) = true
      let trains := fun (t : State) => own t ∧ t.laneSt n = LaneSt.quiet ∧ counts (F.ZLL_CNT_RETRAIN n) t ∧ (t.lane n).want = false
        ∧ (t.lane n).attempt = 0 ∧ (t.lane n).alignOnly = false ∧ (t.lane n).txBefore = s.flag (F.ZLL_STAT_TXINV n)
      (may → Runs (.laneTrainStart n) s trains) ∧ (¬ may → Inert (.laneTrainStart n) s)
      ∧ (s.lanesRun = false ∨ s.fld F.LP_CFG_PROBE = 0 ∨ s.laneTested n = true ∨ s.chainOn k = true → Inert (.laneReprobe n) s)
      ∧ (s.lanesRun = true → s.fld F.LP_CFG_PROBE ≠ 0 → s.laneTested n = false → s.chainOn k = false →
        (s.laneUp n = true → exec (.laneReprobe n) s = .next (s.setLane n { x with probe := true }))
        ∧ (s.laneSt n = LaneSt.failed → s.ret k = none → ustIdx Cls.lane n ∉ s.unitOff →
          (s.training k = false → Runs (.laneReprobe n) s trains)
          ∧ (s.training k = true → s.decl Cls.lane n ≠ Obs.off → exec (.laneReprobe n) s = .next (s.setLane n { x with want := true })))))
    ∧ (s.lanesRun = false → Inert (.laneStateTimer n) s)
    ∧ (s.lanesRun = true →
      (s.laneSt n = LaneSt.quiet → Runs (.laneStateTimer n) s (FieldTakes s (F.ZLL_STAT_STATE n) LaneSt.align))
      ∧ (s.laneSt n = LaneSt.align → x.alignOnly = true → Runs (.laneStateTimer n) s fun t => t.laneSt n = LaneSt.up ∧ t.laneMod n = s.laneMod n
        ∧ sends [setSeg seg, setGains (s.gains n)] t ∧ (t.lane n).segSent = seg ∧ (t.lane n).alignOnly = false ∧ (t.lane n).armed = false)
      ∧ (s.laneSt n = LaneSt.align → x.alignOnly = false →
        let tok := n + 64 * b2n (s.flag (F.ZLL_STAT_TXINV n))
        (s.ret k ≠ none → Inert (.laneStateTimer n) s)
        ∧ (s.ret k = none → Runs (.laneStateTimer n) s fun t => t.laneSt n = LaneSt.enum ∧ t.ret k = some (n, .enum tok)
          ∧ sends [(0x06, 0xFFFF, beBytes 2 tok ++ List.replicate 14 0)] t))
      ∧ (s.laneSt n ≠ LaneSt.quiet → s.laneSt n ≠ LaneSt.align → Inert (.laneStateTimer n) s))
    ∧ (s.lanesRun = false ∨ s.laneSt n = LaneSt.failed ∨ s.laneSt n = LaneSt.down → Inert (.lanePadShort n) s)
    ∧ (s.aoOn = true → s.lanesRun = true → s.laneSt n ≠ LaneSt.failed → s.laneSt n ≠ LaneSt.down → Runs (.lanePadShort n) s fun t =>
        failed 4 t ∧ t.flag (F.ZLL_STAT_SHORT n) = true ∧ own t)
    ∧ (∀ p, s.flag (F.ZLL_RT_SHORT k) = p → Inert (.returnLaneShort k p) s)
    ∧ (s.flag (F.ZLL_RT_SHORT k) = true → Runs (.returnLaneShort k false) s (FieldTakes s (F.ZLL_RT_SHORT k) 0))
    ∧ (s.flag (F.ZLL_RT_SHORT k) = false → Runs (.returnLaneShort k true) s fun t => t.flag (F.ZLL_RT_SHORT k) = true ∧ t.lp = s.lp
        ∧ ∀ j, j < 8 → raised (160 + 8 * k + j) t)

/-! ### Feeds and playout (R340 to R372) -/

/-- Feeds: arming with its checks, stopping, posting; a frame binds the posted buffer, cuts its slices and is KEY by KEYINT, or has no source;
a free engine takes the next slice of the feed whose deadline is earliest, at a QP within its range; the encoded slice is queued or dropped;
at the deadline what is left is dropped and the reference buffers exchange roles; a unit leaves when the bucket holds its bits (R341, R346 to
R348, R353 to R358).
Model's choices in it: log entries 6, 57, 58. -/
def Obligations.Feeds : Prop :=
  ∀ (s : State) (f n now : Nat), s.live = true → s.build = .x → f < 16 →
    let s0 := s.atTime now
    let x := s.feed f
    let raised := fun (k : Nat) (t : State) => t.fld (F.DIC_SRC_COUNT k) = min 15 (s.fld (F.DIC_SRC_COUNT k) + 1)
    let off := (F.FEED_CFG_EN f).off
    (∀ w v,
      let u := s0.setReg off (s.written w off 255 (setBits v 63 1 1))
      s.flag (F.FEED_CFG_EN f) = false → u.flag (F.FEED_CFG_EN f) = true →
      (s.role 3 = false → feedCheck u f = 1)
      ∧ (feedCheck u f ≠ 0 → Runs (.feedArm w f v now) s fun t => t.flag (F.FEED_CFG_EN f) = false ∧ t.fld (F.FEED_STAT_CFGERR f) = feedCheck u f
        ∧ raised 92 t ∧ t.feeds = s.feeds)
      ∧ (feedCheck u f = 0 → Runs (.feedArm w f v now) s fun t => t.flag (F.FEED_CFG_EN f) = true ∧ t.fld (F.FEED_STAT_CFGERR f) = 0
        ∧ t.flag (F.FEED_CFG_WHOLE f) = u.feedWhole f ∧ (t.feed f).live = true ∧ (t.feed f).qpf = s.fld (F.FEED_RC_QPINIT f)
        ∧ (t.feed f).start = (if s.hoists = true then s0.earliestFrame else 0) ∧ ∀ g, g ≠ f → t.feed g = s.feed g))
    ∧ (∀ w, s.flag (F.FEED_CFG_EN f) = true → (s.written w off 255 (setBits (s.reg off) 63 1 0)).getLsbD 63 = false →
        Runs (.feedStop w f) s fun t => t.flag (F.FEED_CFG_EN f) = false
          ∧ t.feed f = (if x.cur.isSome = true then { x with stopping := true } else { x with live := false }) ∧ ∀ o, o ≠ off → t.reg o = s.reg o)
    ∧ (∀ b, b < 8 →
      let busy := s.fld (F.FEED_SRC_NBUF f) < b ∨ bitOf (s.fld (F.FEED_STAT_INUSE f)) b = true
      (busy → Runs (.feedPost f b) s (FieldTakes s (F.FEED_STAT_POSTERR f) 1))
      ∧ (¬ busy → exec (.feedPost f b) s = .next (s.setFeed f { x with posted := some b })))
    ∧ (x.cur = none →
      (s.openTenant (s.feedTenant f) = none ∨ s.feeds? 3 = false ∨ x.live = false ∨ n < x.start ∨ (x.posted = none ∧ x.first = none)
          ∨ s0.atFeedTime n = false → exec (.feedBind f n now) s = .next s0)
      ∧ ∀ t, s.openTenant (s.feedTenant f) = some t → s.feeds? 3 = true → s0.atFeedTime n = true → x.live = true → x.start ≤ n →
        let first := x.first.getD n
        let ki := s.fld (F.FEED_CFG_KEYINT f)
        let bound := fun (y : Feed) => y.cur = some n ∧ y.first = some first ∧ y.refF = x.lastF ∧ y.posted = none ∧ y.rects = [] ∧ y.start = n + 1
        (∀ b, b < 8 → x.posted = some b → Runs (.feedBind f n now) s fun u => bound (u.feed f) ∧ (u.feed f).buf = some b
          ∧ bitOf (u.fld (F.FEED_STAT_INUSE f)) b = true ∧ (u.feed f).nosrc = false ∧ (u.feed f).slices = cutSlices s f t
          ∧ ((u.feed f).key = true ↔ n = first ∨ (ki ≠ 0 ∧ (n - first) % ki = 0)))
        ∧ (x.posted = none → x.first ≠ none → Runs (.feedBind f n now) s fun u => bound (u.feed f) ∧ (u.feed f).buf = none
          ∧ (u.feed f).nosrc = true ∧ (u.feed f).key = false ∧ u.flag (F.FEED_STAT_NOSRC f) = true
          ∧ (u.feed f).slices = (if s.flag (F.FEED_CFG_WHOLE f) = true then [] else cutSlices s f t)))
    ∧ (∀ g, s.dueFeed = some g → ∃ m, (s.feed g).cur = some m ∧ (s.feed g).slices ≠ []
        ∧ ∀ h, h < 16 → ∀ k, (s.feed h).cur = some k → (s.feed h).slices ≠ [] → m < k ∨ (m = k ∧ g ≤ h))
    ∧ (s.encodes n = false ∨ s.dueFeed = none → exec (.sliceEncodeDispatch n now) s = .next s0)
    ∧ (∀ sl rest t, s.encodes n = true → s.dueFeed = some f → x.slices = sl :: rest → s.openTenant (s.feedTenant f) = some t →
        Runs (.sliceEncodeDispatch n now) s fun u => (u.feed f).slices = rest
          ∧ ∃ j, (n, j) ∈ u.encs ∧ j.feed = f ∧ j.slice = sl ∧ u.fld (F.FEED_STAT_QP f) = j.qp ∧ j.qp ≤ s.fld (F.FEED_RC_QPMAX f)
            ∧ min (s.fld (F.FEED_RC_QPMIN f)) (s.fld (F.FEED_RC_QPMAX f)) ≤ j.qp)
    ∧ (∀ choices, s.encs.find? (fun p => p.1 == n) = none → Inert (.sliceQueued n choices) s)
    ∧ (∀ choices j, s.encs.find? (fun p => p.1 == n) = some (n, j) → j.feed = f →
      (s.openTenant (s.feedTenant f) = none ∨ x.cur = none → Runs (.sliceQueued n choices) s fun u => (∀ p ∈ u.encs, p.1 ≠ n) ∧ u.feeds = s.feeds)
      ∧ ∀ t m, s.openTenant (s.feedTenant f) = some t → x.cur = some m → x.nosrc = true → x.buf = none → x.slices ≠ [] → j.qp < 64 →
        (∀ q ∈ s.sliceTiles f j.slice ((s.feedCabs f t).map fun c => (c.1, c.2)) choices, ∀ a ∈ tileQuads (s.feedTile f q.1 q.2),
          ∃ d ∈ s.lines, d.use = .feedRef f ∧ d.addr = 256 * a) →
        Runs (.sliceQueued n choices) s fun u => (∀ p ∈ u.encs, p.1 ≠ n) ∧ ∃ raw mends,
          byteAt raw 0 = 2 ∧ beAt raw 2 2 = s.feedTenant f ∧ beAt raw 8 4 = m % 2 ^ 32 ∧ byteAt raw 12 = 1 ∧ byteAt raw 14 = j.qp
          ∧ ((x.out.queue.map fun u => u.bytes.length).sum + raw.length ≤ Config.sendSpace f →
            (u.feed f).out.queue = x.out.queue ++ [⟨m, markUnit raw, unitBits x.out.qbytes raw.length, true, s.sliceCells f j.slice, mends⟩])
          ∧ (Config.sendSpace f < (x.out.queue.map fun u => u.bytes.length).sum + raw.length →
            (u.feed f).out.queue = x.out.queue ∧ u.fld (F.FEED_STAT_DROPS f) = min 65535 (s.fld (F.FEED_STAT_DROPS f) + 1)))
    ∧ (x.cur = none → Inert (.sendDeadline (.feed f) n) s)
    ∧ (∀ m, x.cur = some m →
      (n < m → Inert (.sendDeadline (.feed f) n) s)
      ∧ (m ≤ n → s.feedJobs f = [] → Runs (.sendDeadline (.feed f) n) s fun u =>
        let left := x.slices.length + (x.out.queue.filter (·.slice)).length
        (u.feed f).cur = none ∧ (u.feed f).slices = [] ∧ (u.feed f).out.queue = [] ∧ (u.feed f).live = (x.live && !x.stopping)
        ∧ u.fld (F.FEED_STAT_DROPS f) = min 65535 (s.fld (F.FEED_STAT_DROPS f) + left)
        ∧ (left ≠ 0 → x.raised90 = false → raised 90 u)
        ∧ (∀ b, b < 8 → x.buf = some b → (u.feed f).buf = none ∧ bitOf (u.fld (F.FEED_STAT_INUSE f)) b = false ∧ raised 91 u)
        ∧ u.fld (F.FEED_REF_CUR f) = (if x.nosrc = true ∧ s.flag (F.FEED_CFG_WHOLE f) = true then s.fld (F.FEED_REF_CUR f) else 1 - s.fld (F.FEED_REF_CUR f))))
    ∧ (∀ t m, s.openTenant (s.feedTenant f) = some t → x.cur = some m → s.feeds? 3 = true →
      let p := x.out.refill (s.fld (F.FEED_CFG_SHARE f)) t s0.tsu.now
      (p.leave = none → exec (.unitSend (.feed f) now) s = .next s0)
      ∧ (∀ a b rest, x.out.queue = a :: b :: rest → a.bits * 65536 ≤ p.tokens.getD 0 → Runs (.unitSend (.feed f) now) s fun u =>
        (u.feed f).out.queue = b :: rest ∧ (u.feed f).out.tokens = some (p.tokens.getD 0 - a.bits * 65536) ∧ (u.feed f).cur = some m
        ∧ (u.feed f).lastF = (if a.slice = true then some m else x.lastF) ∧ (s.role 0 = false → u.rf = s.rf)))

/-- Playout: CLIP_ADD and PLAY with their checks; a PLAY that takes effect, by its action; the catalogue enabled with INIT; the frame of a channel
that plays, holds or repeats; the deadline drops and counts; a unit leaves when the bucket holds its bits (R363 to R367, R372).
Model's choices in it: log entries 6, 60, 70. -/
def Obligations.Playout : Prop :=
  ∀ (s : State) (c n now : Nat), s.live = true → s.build = .x → c < 16 →
    let s0 := s.atTime now
    let x := s.ply c
    let raised := fun (k : Nat) (t : State) => t.fld (F.DIC_SRC_COUNT k) = min 15 (s.fld (F.DIC_SRC_COUNT k) + 1)
    (∀ d, s.Due d 0x9001 →
      (s.role 4 = false ∨ s.flag F.PLY_CAT_EN = false → Answers (.clipAdd d.id) s d Status.denied [] s)
      ∧ (s.role 4 = true → s.flag F.PLY_CAT_EN = true →
        (clipParamsBad d.params = true → Answers (.clipAdd d.id) s d Status.badParam [] s)
        ∧ (clipParamsBad d.params = false → Runs (.clipAdd d.id) s fun t => t.cmd? d.id = some { d with phase := .running }
          ∧ t.clipRuns = s.clipRuns ++ [⟨d.id, 0, [], [], 0, none, false⟩] ∧ t.rf = s.rf)))
    ∧ (∀ d, s.Due d 0x9010 →
      let row := Instr.play d.id now
      let p := d.params
      let ch := byteAt p 0
      let act := byteAt p 1
      let at_ := leAt p 12 4
      let idle := (act = 2 ∨ act = 3) ∧ ch < 16 ∧ s.plyState ch = PlyState.idle
      (s.role 4 = false ∨ idle → Answers row s d Status.denied [] s0)
      ∧ (s.role 4 = true → ¬ idle →
        (playBad s0 p = true → Answers row s d Status.badParam [] s0)
        ∧ (playBad s0 p = false → s.hoists = false → at_ ≠ 0xFFFFFFFF → Answers row s d Status.deferred [] s0)
        ∧ (playBad s0 p = false → s.hoists = true ∨ at_ = 0xFFFFFFFF → act = 0 → Runs row s fun t =>
          t.cmd? d.id = some { d with phase := .running } ∧ t.clipRuns = s.clipRuns ++ [⟨d.id, 0, [], [], 0, playNs s0 at_, false⟩] ∧ t.rf = s.rf)
        ∧ (playBad s0 p = false → s.hoists = true → act ≠ 0 →
          ((s.ply ch).pend ≠ none → Answers row s d Status.busy [] s0)
          ∧ ((s.ply ch).pend = none → Runs row s fun t => t.cmd? d.id = some { d with phase := .running } ∧ t.flag (F.PLY_STAT_PEND ch) = true
            ∧ t.ply ch = { s.ply ch with pend := some ⟨d.id, act, 0, 1, 0, playNs s0 at_, 0, none⟩ } ∧ t.plyState ch = s.plyState ch))))
    ∧ (x.pend = none ∨ (∃ q, x.pend = some q ∧ (q.ns = none ∨ ∃ m, q.ns = some m ∧ n < m)) → Inert (.playEffect c n) s)
    ∧ (∀ q m d, x.pend = some q → q.ns = some m → m ≤ n → s.InHand d → d.id = q.cmd →
      let num := s.fld (F.PLY_STAT_CLIP c)
      ((∃ k, x.cur = some k ∧ k < m) → Runs (.playEffect c n) s fun t => (t.ply c).cur = none ∧ (t.ply c).pend = none ∧ (t.ply c).out.queue = []
        ∧ t.fld (F.PLY_ERR_LATE c) = min 65535 (s.fld (F.PLY_ERR_LATE c) + x.out.queue.length + b2n (x.index || x.units.isSome)))
      ∧ ((∀ k, x.cur = some k → m ≤ k) →
      let ends := fun (start clip : Nat) (P : State → Prop) => ∃ u, Answers (.playEffect c n) s d Status.ok (playReply start q.ns clip) u
        ∧ u.flag (F.PLY_STAT_PEND c) = false ∧ (u.ply c).pend = none ∧ (q.action = 1 ∧ s.plyState c = PlyState.idle ∨ raised 93 u)
        ∧ (u.ply c).cur = x.cur ∧ (∀ k, k ≠ c → u.ply k = s.ply k) ∧ P u
      (∀ k, q.action = 0 → q.clip = some k → ends q.start k.num fun u => u.plyState c = PlyState.playing ∧ (u.ply c).clip = some k
        ∧ (u.ply c).i = q.start ∧ (u.ply c).r = 0 ∧ (u.ply c).rept = q.rept ∧ u.fld (F.PLY_STAT_CLIP c) = k.num % 65536)
      ∧ (q.action = 1 → ∃ start, ends start num fun u => u.plyState c = PlyState.idle ∧ (s.plyState c ≠ PlyState.idle → (u.ply c).clip = none))
      ∧ (q.action = 2 → s.plyState c ≠ PlyState.idle → ∃ start, ends start num fun u => u.plyState c = PlyState.paused ∧ (u.ply c).clip = x.clip)
      ∧ (q.action = 3 → s.plyState c ≠ PlyState.idle → ends (s.fld (F.PLY_STAT_FRAME c) + 1) num fun u => u.plyState c = PlyState.playing
        ∧ (u.ply c).i = s.fld (F.PLY_STAT_FRAME c) + 1 ∧ (u.ply c).r = 0 ∧ (u.ply c).clip = x.clip)))
    ∧ (∀ w v,
      let off := F.PLY_CAT_EN.off
      let new := s.written w off 255 (setBits v 63 1 1)
      (s.flag F.PLY_CAT_EN = true → Runs (.plyCatEnable w v) s fun t => t = { s with rf := t.rf } ∧ t.fld F.PLY_CAT_BASE = s.fld F.PLY_CAT_BASE
        ∧ ∀ o, o ≠ off → t.reg o = s.reg o)
      ∧ (s.flag F.PLY_CAT_EN = false → Runs (.plyCatEnable w v) s fun t => t.reg off = new
        ∧ t.mpt0.queue.length = s.mpt0.queue.length + (if new.getLsbD 63 = true ∧ v.getLsbD 62 = true then 8192 else 0)
        ∧ (∀ r ∈ t.mpt0.queue, r ∈ s.mpt0.queue ∨ (r.write = true ∧ r.raw = List.replicate 320 0
            ∧ t.fld F.PLY_CAT_BASE * 8192 ≤ r.quad ∧ r.quad < t.fld F.PLY_CAT_BASE * 8192 + 8192))
        ∧ ∀ o, o ≠ off → t.reg o = s.reg o))
    ∧ (s.feeds? 4 = false ∨ s0.atFeedTime n = false → exec (.playoutFrame c n now) s = .next s0)
    ∧ (∀ k, s.feeds? 4 = true → s0.atFeedTime n = true → x.cur = none → x.pend = none → x.clip = some k →
      let due := x.out.stream = none ∨ ∃ a, x.out.stream = some a ∧ a + 1000000000 ≤ s0.feedTime n
      let units := fun (l : List (List (Byte × Bool))) (t : State) => (due → (t.ply c).out.queue.map (·.bytes) = x.out.queue.map (·.bytes) ++ openBytes k.stream :: l)
        ∧ (¬ due → (t.ply c).out.queue.map (·.bytes) = x.out.queue.map (·.bytes) ++ l)
      let hold := fun (l : Nat) => openBytes (holdUnit k.tenant (n % 2 ^ 32) (l % 2 ^ 32))
      (s.plyState c = PlyState.playing → x.r < x.rept → x.i < k.nframes →
        (x.r = 0 → x.units = none → (∀ d ∈ s.lines, d.use ≠ .clip c) → Runs (.playoutFrame c n now) s fun t => (t.ply c).cur = some n ∧ (t.ply c).r = 1
          ∧ (t.ply c).index = true ∧ t.fld (F.PLY_STAT_FRAME c) = x.i % 2 ^ 32 ∧ (t.ply c).i = x.i ∧ units [] t)
        ∧ (∀ l, x.r ≠ 0 → x.l = some l → Runs (.playoutFrame c n now) s fun t => (t.ply c).cur = some n ∧ (t.ply c).r = x.r + 1
          ∧ (t.ply c).i = x.i ∧ units [hold l] t))
      ∧ (∀ l, s.plyState c ≠ PlyState.playing → x.l = some l → Runs (.playoutFrame c n now) s fun t => (t.ply c).cur = some n
        ∧ (t.ply c).i = x.i ∧ units [hold l] t ∧ t.plyState c = s.plyState c))
    ∧ (x.cur = none → Inert (.sendDeadline (.ply c) n) s)
    ∧ (∀ m, x.cur = some m →
      (n < m → Inert (.sendDeadline (.ply c) n) s)
      ∧ (m ≤ n → Runs (.sendDeadline (.ply c) n) s fun t =>
        let late := x.out.queue.length + b2n (x.index || x.units.isSome)
        (t.ply c).cur = none ∧ (t.ply c).out.queue = [] ∧ (t.ply c).clip = x.clip
        ∧ t.fld (F.PLY_ERR_LATE c) = min 65535 (s.fld (F.PLY_ERR_LATE c) + late) ∧ (late ≠ 0 → raised 95 t)))
    ∧ (∀ k m t, x.clip = some k → x.cur = some m → s.openTenant k.tenant = some t → s.feeds? 4 = true →
      let p := x.out.refill x.share t s0.tsu.now
      (p.leave = none → exec (.unitSend (.ply c) now) s = .next s0)
      ∧ (∀ a b rest, x.out.queue = a :: b :: rest → a.bits * 65536 ≤ p.tokens.getD 0 → Runs (.unitSend (.ply c) now) s fun u =>
        (u.ply c).out.queue = b :: rest ∧ (u.ply c).out.tokens = some (p.tokens.getD 0 - a.bits * 65536) ∧ (u.ply c).cur = some m
        ∧ (s.role 0 = false → u.rf = s.rf)))

/-! ### Pulse units, trips and timers (R422 to R458) -/

/-- The carrier's period: from the boundary (count 0, counting up) the counter takes every other position once, is back at the boundary
after 2 × PER edges and not before, and in those cycles the raw output is asserted DUTYU + DUTYD times, a duty above PER acting as PER (R423). -/
def Obligations.CarrierPeriod : Prop :=
  ∀ (p : Pu), 1 ≤ p.per → p.cnt = 0 → p.up = true →
    let edge := fun (q : Pu) => let c := carrierStep q; { q with cnt := c.1, up := c.2 }
    let after := fun (k : Nat) => Nat.repeat edge k p
    (∀ k, k < p.per → (after k).cnt = k ∧ (after k).up = true)
    ∧ (∀ k, p.per ≤ k → k < 2 * p.per → (after k).cnt = 2 * p.per - k ∧ (after k).up = false)
    ∧ (after (2 * p.per)).cnt = 0 ∧ (after (2 * p.per)).up = true
    ∧ ((List.range (2 * p.per)).filter fun k => hraw (after k).up (after k).cnt p.per p.dutyU p.dutyD).length
        = min p.dutyU p.per + min p.dutyD p.per

/-- One edge of a pulse unit: the counter's step, the shadow loads at a boundary and at IMM; after an edge the two pads of a unit are never both
high, and while its outputs are held they are low. Writes of PER with IMM and of the forces, PU_SYNC, row mode, pad readback, PU_CFG (R423 to
R432, R439, R451).
Model's choices in it: log entries 61, 70. -/
def Obligations.PulseUnits : Prop :=
  ∀ (s : State) (n : Nat), n < 64 →
    let p := s.pu n
    let per := s.fld (F.PU_PER_PER n)
    let raised := fun (k : Nat) (t : State) => t.fld (F.DIC_SRC_COUNT k) = min 15 (s.fld (F.DIC_SRC_COUNT k) + 1)
    (s.puClocked n = false → Inert (.puCarrierEdge n) s ∧ Inert (.puPeriodBoundary n) s)
    ∧ (s.puClocked n = true → p.cfg = none → s.fld (F.PU_FORCE_FH n) < 3 → s.fld (F.PU_FORCE_FL n) < 3 →
        Runs (.puCarrierEdge n) s fun t => ((t.pu n).padH && (t.pu n).padL) = false
          ∧ (t.puOff n = true → (t.pu n).padH = false ∧ (t.pu n).padL = false) ∧ ∀ m, m ≠ n → t.pu m = s.pu m)
    ∧ (s.puClocked n = true → s.puSw n = true → p.cfg = none →
      let edge := fun (cnt : Nat) (up : Bool) (pr : Nat) => Runs (.puCarrierEdge n) s fun t => (t.pu n).cnt = cnt ∧ (t.pu n).up = up ∧ (t.pu n).per = pr
      (p.imm = false →
        (p.up = true → p.cnt + 1 < p.per → edge (p.cnt + 1) true p.per)
        ∧ (p.up = true → p.cnt + 1 = p.per → edge p.per false p.per)
        ∧ (p.up = false → 2 ≤ p.cnt → edge (p.cnt - 1) false p.per)
        ∧ (p.up = false → p.cnt = 1 → Runs (.puCarrierEdge n) s fun t => (t.pu n).cnt = 0 ∧ (t.pu n).up = true ∧ (t.pu n).per = per
          ∧ (t.pu n).dutyU = s.fld (F.PU_DUTY_DUTYU n) ∧ (t.pu n).dutyD = s.fld (F.PU_DUTY_DUTYD n) ∧ (t.pu n).dt = s.fld (F.PU_CFG_DT n)
          ∧ (t.pu n).minp = s.fld (F.PU_CFG_MINP n) ∧ (s.puRank1 n = false → bitOf t.trip.held n = false)))
      ∧ (p.imm = true → p.up = true → p.cnt + 1 < per → edge (p.cnt + 1) true per)
      ∧ (p.imm = true → p.up = true → per ≤ p.cnt → 2 ≤ p.cnt → Runs (.puCarrierEdge n) s fun t => (t.pu n).cnt = p.cnt - 1 ∧ (t.pu n).up = false
        ∧ (t.pu n).per = per ∧ t.flag (F.PU_STAT_PSHORT n) = true ∧ raised (224 + n) t))
    ∧ (s.puClocked n = true → s.puSw n = false → p.running = false → p.cfg = none →
        Runs (.puCarrierEdge n) s fun t => (t.pu n).cnt = p.cnt ∧ (t.pu n).up = p.up ∧ (t.pu n).running = false
          ∧ (t.pu n).dt = s.fld (F.PU_CFG_DT n) ∧ (t.pu n).minp = s.fld (F.PU_CFG_MINP n))
    ∧ (∀ q, s.puClocked n = true → s.puSw n = false → p.running = false → p.cfg = some q → byteAt q.params 1 = 0 → q.at_ = none →
        Runs (.puCarrierEdge n) s fun t => t.puSw n = true ∧ (t.pu n).cfg = none ∧ (t.pu n).per = leAt q.params 4 2)
    ∧ (let due := s.puClocked n = true ∧ (s.puSw n = true ∨ p.running = true) ∧ carrierStep p = (0, true)
      (due → exec (.puPeriodBoundary n) s = exec (.puCarrierEdge n) s) ∧ (¬ due → Inert (.puPeriodBoundary n) s))
    ∧ (s.cclkOn = true →
      (∀ w v,
        let off := (F.PU_PER_PER n).off
        let new := s.written w off 255 (setBits (setBits (s.reg off) 0 16 v) 63 1 1)
        (s.mode = Mode.halt → Inert (.puImmediatePer w n v) s)
        ∧ (s.mode ≠ Mode.halt → s.puSw n = true →
          exec (.puImmediatePer w n v) s = .next ((s.setReg off new).setPu n { p with imm := true }))
        ∧ (s.mode ≠ Mode.halt → s.puSw n = false → Runs (.puImmediatePer w n v) s fun t => t.fld (F.PU_PER_PER n) = per ∧ t.pus = s.pus))
      ∧ (∀ w fh fl, s.mode ≠ Mode.halt →
        let off := (F.PU_FORCE_FH n).off
        let u := s.setReg off (s.written w off 255 (BitVec.ofNat 64 (fh % 4 + 4 * (fl % 4))))
        let both := u.fld (F.PU_FORCE_FH n) = 2 ∧ u.fld (F.PU_FORCE_FL n) = 2 ∧ s.flag (F.PU_STAT_FERR n) = false
        (¬ both → exec (.puForceWrite w n fh fl) s = .next u)
        ∧ (both → Runs (.puForceWrite w n fh fl) s fun t => t.flag (F.PU_STAT_FERR n) = true ∧ raised (224 + n) t ∧ t.reg off = u.reg off ∧ t.pus = s.pus))
      ∧ (∀ w, s.mode = Mode.halt → Inert (.puForceWrite w n 2 2) s)
      ∧ (∀ mask, s.mode = Mode.halt → Inert (.puSync mask) s)
      ∧ (∀ mask, s.mode ≠ Mode.halt → Runs (.puSync mask) s fun t => (∀ off, (∀ m, m < 64 → off ≠ (F.PU_STAT_MINHIT m).off) → t.reg off = s.reg off)
        ∧ (bitOf mask n = false ∨ s.puSw n = false → t.pu n = p)
        ∧ (bitOf mask n = true → s.puSw n = true → 1 ≤ p.per →
          let q := s.fld (F.PU_PER_PHASE n) % (2 * p.per)
          (t.pu n).cnt = (if q < p.per then q else 2 * p.per - q) ∧ (t.pu n).up = decide (q < p.per) ∧ (t.pu n).bstCnt = 0
            ∧ (t.pu n).per = p.per)))
    ∧ (s.aoOn = true →
      (s.puClocked n = false ∨ s.puSw n = true ∨ showMode s.mode = false ∨ s.inService Cls.lane n = false ∨ s.obs Cls.lane n ≠ Obs.on →
        Inert (.rowModeStart n) s)
      ∧ (s.puClocked n = true → s.puSw n = false → showMode s.mode = true → s.inService Cls.lane n = true → s.obs Cls.lane n = Obs.on →
        Runs (.rowModeStart n) s fun t => (t.pu n).cnt = 0 ∧ (t.pu n).up = true ∧ (t.pu n).running = true
          ∧ (t.pu n).dutyU + (t.pu n).dutyD = rowWindow s ∧ (t.pu n).per = (rowWindow s + 1) / 2 ∧ (t.pu n).dt = s.fld (F.PU_CFG_DT n)
          ∧ (s.puRank1 n = false → bitOf t.trip.held n = false))
      ∧ (∀ high, s.inReset = false → exec (.padReadbackMismatch n high false) s
          = .next (s.setPu n (if high then { p with mismH := false } else { p with mismL := false })))
      ∧ (∀ high, s.cclkOn = true →
        let f := if high then F.PU_STAT_SHORTH n else F.PU_STAT_SHORTL n
        Runs (.padReadbackMismatch n high true) s fun t => t.flag f = true ∧ (t.pu n).padH = false ∧ (t.pu n).padL = false ∧ t.puOff n = true
          ∧ t.obs Cls.pu n = Obs.failed ∧ (s.flag f = false → raised (224 + n) t)))
    ∧ (∀ c, s.Due c 0x8001 → byteAt c.params 0 = n →
      let b := c.params
      let at_ := leAt b 20 4
      let bad := puCfgBad s.hoists s.frame b
      (bad = true → Answers (.puCfg c.id) s c Status.badParam [] s)
      ∧ (bad = false →
        (s.hoists = false → at_ ≠ 0xFFFFFFFF → Answers (.puCfg c.id) s c Status.deferred [] s)
        ∧ (s.hoists = true ∨ at_ = 0xFFFFFFFF →
          (byteAt b 1 = 0 → s.flag (F.LP_MOD_GEOM_EN n) = true → Answers (.puCfg c.id) s c Status.denied [] s)
          ∧ (byteAt b 1 ≠ 0 ∨ s.flag (F.LP_MOD_GEOM_EN n) = false →
            (p.cfg ≠ none → Answers (.puCfg c.id) s c Status.busy [] s)
            ∧ (p.cfg = none → Runs (.puCfg c.id) s fun t => t.cmd? c.id = some { c with phase := .running } ∧ t.rf = s.rf
              ∧ t.pu n = { p with cfg := some ⟨c.id, if at_ = 0xFFFFFFFF then none else some (resolveFrame s.frame at_), b⟩ })))))

/-- Trips: an enabled input that goes low outside its blanking window holds the units it governs low at once, with no clock edge and no part for the
modes, and latches in latched mode; a latch clears only while its pin is high; the software trip holds every unit (R433 to R438).
Model's choices in it: log entry 62. -/
def Obligations.Trips : Prop :=
  ∀ (s : State) (k : Nat), k < 32 → s.ao.supplies = true → s.ao.engDis = false →
    let en := s.flag (F.TRIP_CFG_EN k)
    let trips := fun (t : State) => bitOf t.trip.asserted k = true
      ∧ (s.flag (F.TRIP_CFG_MODE k) = false → bitOf (t.fld F.TRIP_LATCH_LATCH) k = true)
      ∧ (s.flag (F.TRIP_CFG_MODE k) = true → t.fld F.TRIP_LATCH_LATCH = s.fld F.TRIP_LATCH_LATCH)
      ∧ ∀ n, n < 64 →
        (bitOf (s.fld (F.TRIP_MAP_MAP k)) n = true → (t.pu n).padH = false ∧ (t.pu n).padL = false ∧ t.puOff n = true ∧ bitOf t.trip.held n = true
          ∧ t.obs Cls.pu n = Obs.failed)
        ∧ (bitOf (s.fld (F.TRIP_MAP_MAP k)) n = false → t.pu n = s.pu n ∧ bitOf t.trip.held n = bitOf s.trip.held n)
    let pinsOnly := fun (t : State) => t = { s with trip := t.trip } ∧ t.trip.asserted = s.trip.asserted ∧ t.trip.held = s.trip.held
    (en = true → bitOf s.trip.asserted k = false → s.blankSource k = false → Runs (.tripAssert k) s fun t => trips t ∧ bitOf t.trip.pins k = true)
    ∧ (s.blankSource k = true → bitOf s.trip.ended k = false → Runs (.tripAssert k) s fun t => pinsOnly t ∧ bitOf t.trip.pins k = true)
    ∧ (en = false ∨ bitOf s.trip.asserted k = true → Runs (.tripAssert k) s fun t => pinsOnly t ∧ bitOf t.trip.pins k = true)
    ∧ (en = true → bitOf s.trip.asserted k = false → bitOf s.trip.pins k = true → Runs (.blankWindowEnd k) s trips)
    ∧ (bitOf s.trip.pins k = false → Runs (.blankWindowEnd k) s fun t => pinsOnly t ∧ bitOf t.trip.ended k = true)
    ∧ (Runs (.tripDeassert k) s fun t => bitOf t.trip.pins k = false ∧ bitOf t.trip.asserted k = false
        ∧ t.fld F.TRIP_LATCH_LATCH = s.fld F.TRIP_LATCH_LATCH ∧ t.pus = s.pus ∧ t.trip.held = s.trip.held
        ∧ ∀ j, j ≠ k → bitOf t.trip.asserted j = bitOf s.trip.asserted j ∧ bitOf t.trip.pins j = bitOf s.trip.pins j)
    ∧ (∀ mask, s.cclkOn = true → Runs (.tripLatchClear .host mask) s fun t => t.trip = s.trip ∧ t.pus = s.pus
        ∧ bitOf (t.fld F.TRIP_LATCH_LATCH) k = (bitOf (s.fld F.TRIP_LATCH_LATCH) k && (!bitOf mask k || bitOf s.trip.pins k))
        ∧ t.flag F.TRIP_LATCH_SW = (s.flag F.TRIP_LATCH_SW && !bitOf mask 32))
    ∧ (s.cclkOn = true → Runs .tripSwSet s fun t => t.flag F.TRIP_LATCH_SW = true ∧ t.fld F.TRIP_LATCH_LATCH = s.fld F.TRIP_LATCH_LATCH
        ∧ ∀ n, n < 64 → (t.pu n).padH = false ∧ (t.pu n).padL = false ∧ t.puOff n = true ∧ t.obs Cls.pu n = Obs.failed)

/-- Timers: steps up to TOP and down to 0 with the loads of CMP and TOP and their events; captures, OVR and STALE; the capture's read; the commits of
the pairs; a change of source, its loss and return; TMR_SYNC from the phase; TMR_SWCAP (R442 to R450, R458).
Model's choices in it: log entry 63. -/
def Obligations.Timers : Prop :=
  ∀ (s : State) (n : Nat), n < 32 → s.cclkOn = true → s.aoOn = true →
    let t := s.tmr n
    let ie := fun (b : Nat) => bitOf (s.fld (F.TMR_CFG_IE n)) (b - 4)
    let raised := fun (b : Nat) (u : State) => u.fld (F.DIC_SRC_COUNT (288 + n))
      = min 15 (s.fld (F.DIC_SRC_COUNT (288 + n)) + if ie b = true then 1 else 0)
    let lost := s.flag (F.TMR_STAT_SRCLOST n)
    let d := s.tmrDiv n
    (∀ e, lost = true → Inert (.timerStep n e) s)
    ∧ (∀ e, lost = false → t.acc + 65536 * e < d → exec (.timerStep n e) s = .next (s.setTmr n { t with acc := t.acc + 65536 * e }))
    ∧ (∀ e, lost = false → d ≤ t.acc + 65536 * e → t.acc + 65536 * e < 2 * d →
      let next := fun (cnt : Nat) (up : Bool) (top : Nat) => { t with acc := t.acc + 65536 * e - d, cmp := t.cmpC, cnt := cnt, up := up, top := top }
      (t.up = true → t.cnt + 1 < t.top → exec (.timerStep n e) s = .next (endWindows (s.setTmr n (next (t.cnt + 1) true t.top))))
      ∧ (t.up = true → t.top ≤ t.cnt + 1 → Runs (.timerStep n e) s fun u => u.tmr n = next (t.cnt + 1) false t.top ∧ raised 6 u)
      ∧ (t.up = false → 2 ≤ t.cnt → exec (.timerStep n e) s = .next (endWindows (s.setTmr n (next (t.cnt - 1) false t.top))))
      ∧ (t.up = false → t.cnt = 1 → Runs (.timerStep n e) s fun u => u.tmr n = next 0 true t.topC ∧ raised 5 u))
    ∧ (let cs := s.fld (F.TMR_CFG_CSEL n)
      (cs = 0 ∨ (8 < cs ∧ bitOf s.tmrDue n = false) → Inert (.timerCapture n) s)
      ∧ (cs ≠ 0 → cs ≤ 8 ∨ bitOf s.tmrDue n = true → Runs (.timerCapture n) s fun u => u.tmr n = { t with cap := ⟨t.cnt, !t.up, lost, t.full⟩, full := true }
        ∧ u.flag (F.TMR_STAT_FULL n) = true ∧ bitOf u.tmrDue n = false ∧ raised 7 u))
    ∧ (t.cap.cnt < 2 ^ 48 → Runs (.timerCaplRead n) s fun u => u.fld (F.TMR_CAPL_CAP_LO n) = t.cap.cnt % 2 ^ 32
        ∧ u.fld (F.TMR_CAPH_CAP_HI n) = t.cap.cnt / 2 ^ 32 ∧ u.flag (F.TMR_CAPH_DIR n) = t.cap.down ∧ u.flag (F.TMR_CAPH_STALE n) = t.cap.stale
        ∧ u.flag (F.TMR_CAPH_OVR n) = t.cap.ovr ∧ u.flag (F.TMR_CAPH_VALID n) = (s.flag (F.TMR_CAPH_VALID n) || t.full) ∧ u.flag (F.TMR_STAT_FULL n) = false
        ∧ u.tmr n = { t with full := false, cap := { t.cap with ovr := false, stale := false } })
    ∧ (∀ hi, hi < 2 ^ 16 →
      let v := fun (f : FRef) => hi * 2 ^ 32 + s.fld f
      (v (F.TMR_TOPL_TOP_LO n) = 0 → Inert (.timerPairCommit n .top hi) s)
      ∧ (v (F.TMR_TOPL_TOP_LO n) ≠ 0 → exec (.timerPairCommit n .top hi) s
        = .next ((s.setFld (F.TMR_TOPH_TOP_HI n) hi).setTmr n { t with topC := v (F.TMR_TOPL_TOP_LO n) }))
      ∧ exec (.timerPairCommit n .cmp hi) s = .next ((s.setFld (F.TMR_CMPH_CMP_HI n) hi).setTmr n { t with cmpC := v (F.TMR_CMPL_CMP_LO n) })
      ∧ exec (.timerPairCommit n .phase hi) s = .next ((s.setFld (F.TMR_PHH_PH_HI n) hi).setTmr n { t with phC := v (F.TMR_PHL_PH_LO n) }))
    ∧ (∀ w src psc, src < 8 → psc < 16 → Runs (.timerSourceWrite w n (.cfg src psc)) s fun u => u.tmr n = { t with acc := 0 }
        ∧ (isPrecision s.build n = false → u.fld (F.TMR_CFG_SRC n) = 0) ∧ ∀ off, off ≠ (F.TMR_CFG_SRC n).off → u.reg off = s.reg off)
    ∧ (∀ w v, (isPrecision s.build n = false → Inert (.timerSourceWrite w n (.div v)) s)
        ∧ (isPrecision s.build n = true → Runs (.timerSourceWrite w n (.div v)) s fun u => u.tmr n = { t with acc := 0 }
          ∧ ∀ off, off ≠ (F.TMR_DIV_DIV n).off → u.reg off = s.reg off))
    ∧ (lost = true → Inert (.timerSourceLost n) s)
    ∧ (lost = false → Runs (.timerSourceLost n) s fun u => u.flag (F.TMR_STAT_SRCLOST n) = true ∧ u.flag (F.TMR_STAT_LOSTEV n) = true
        ∧ u.obs Cls.tmr n = Obs.failed ∧ u.tmr n = t ∧ raised 4 u ∧ ∀ e, Inert (.timerStep n e) u)
    ∧ (lost = false → Inert (.timerSourceReturn n) s)
    ∧ (lost = true → Runs (.timerSourceReturn n) s fun u => u.flag (F.TMR_STAT_SRCLOST n) = false ∧ u.tmr n = { t with acc := 0 }
        ∧ u.obs Cls.tmr n = Obs.on ∧ raised 4 u)
    ∧ (∀ mask, Runs (.tmrSync mask) s fun u => u = { s with tmrs := u.tmrs, trip := { s.trip with ended := u.trip.ended } } ∧ (bitOf mask n = false → u.tmr n = t)
        ∧ (bitOf mask n = true → 1 ≤ t.top →
          let q := t.phC % (2 * t.top)
          u.tmr n = { t with cnt := if q < t.top then q else 2 * t.top - q, up := decide (q < t.top), acc := 0 }))
    ∧ (∀ mask, Runs (.tmrSwcap mask) s fun u => u = { s with tmrDue := u.tmrDue }
        ∧ bitOf u.tmrDue n = (bitOf s.tmrDue n || (bitOf mask n && s.fld (F.TMR_CFG_CSEL n) == 0x0A)))

/-! ### Test and debug: Halt, the debug port, loopbacks, planned breaks, self-test (R558 to R587) -/

/-- HALT waits while BUSY is 1, is lost while CCLK is stopped, is discarded while the lock is closed, and else holds the mode, the core, memory
and the sequencers as they are; RESUME gives back the mode held, in a Show mode with decode abandoned, the panel dark for three frames and
the lanes through ALIGN; both are transitions with the MODE hook, which runs once firmware acts; STEP lets the core run until one instruction has completed; a comparator sets HIT and acts under ACTION
(R573 to R579, R215, R402).
Model's choices in it: log entries 13, 65. -/
def Obligations.HaltResumeAndStep : Prop :=
  ∀ (s : State),
    let reports := fun (t u : State) => { u with
      rf := t.rf, ao := { u.ao with waking := t.ao.waking, wakeHeld := t.ao.wakeHeld }, cmds := { u.cmds with reportDue := t.cmds.reportDue }
      tmrs := t.tmrs, tmrDue := t.tmrDue, freeCtr := t.freeCtr, tsu := { u.tsu with now := t.tsu.now }
      tdu := { u.tdu with fifo := t.tdu.fifo, owed := t.tdu.owed, sinceSync := t.tdu.sinceSync } }
    let halted := fun (cause : Nat) (offs : List Nat) (t : State) =>
      t.mode = Mode.halt ∧ t.fld F.AO_MODE_LAST = s.mode ∧ t.flag F.TDU_STAT_HALTED = true ∧ t.fld F.TDU_STAT_CAUSE = cause
      ∧ t = reports t { s with
          ao := { s.ao with heldMode := s.mode }, lp := t.lp
          cc := { s.cc with step := false, stepped := false, hooks := s.cc.hooks ++ [⟨3, Mode.halt, none⟩] } }
      ∧ (∀ off, off ∉ offs → off ≠ F.AO_MODE_MODE.off → off ≠ F.TDU_STAT_HALTED.off → off < 0x202000 ∨ 0x203000 ≤ off → reportOff off = false →
          t.reg off = s.reg off)
      ∧ ∀ n, n < 64 → s.laneSt n = LaneSt.up → t.laneSt n = LaneSt.quiet ∧ (t.lane n).alignOnly = true
    let free := s.mode ≠ Mode.halt ∧ s.asleep = false ∧ s.ccRuns = true
    (∀ jtag : Bool, s.aoOn = true →
      let cause := if jtag = true then 2 else 1
      (s.tduLocked = true ∨ s.mode = Mode.halt → Inert (.tduHalt jtag) s)
      ∧ (s.tduLocked = false → s.mode ≠ Mode.halt →
        (s.asleep = true ∨ s.ccRuns = false → Runs (.tduHalt jtag) s (FieldTakes s F.TDU_STAT_HALTLOST 1))
        ∧ (free → s.flag F.AO_MODE_BUSY = true →
          exec (.tduHalt jtag) s = .next { s with tdu := { s.tdu with haltReq := some (s.tdu.haltReq.getD cause) } })
        ∧ (free → s.flag F.AO_MODE_BUSY = false → Runs (.tduHalt jtag) s (halted cause []))))
    ∧ (s.cclkOn = true →
      (s.calm →
        (s.mode ≠ Mode.halt → Inert .tduResume s)
        ∧ (s.mode = Mode.halt → s.ao.heldMode < 16 → s.ao.heldMode ≠ Mode.halt → anyPen (s.codeBytes (hookAddr 3) 8) = false → Runs .tduResume s fun t =>
          let idle := { s.cc with step := false, stepped := false }
          let waits := s.coreUp = false ∨ s.cc.hook.isSome = true ∨ s.cc.cx.isSome = true
          let entry := leAt (vals (s.codeBytes (hookAddr 3) 8)) 0 4
          t.mode = s.ao.heldMode ∧ t.flag F.TDU_STAT_HALTED = false ∧ t.fld F.TDU_STAT_CAUSE = s.fld F.TDU_STAT_CAUSE
          ∧ (waits → t.cc = { idle with hooks := [⟨3, s.ao.heldMode, none⟩] })
          ∧ (¬ waits → entry = 0 → t.cc = idle)
          ∧ (¬ waits → entry ≠ 0 → ∃ r, t.cc.hook = some r ∧ r.due = ⟨3, s.ao.heldMode, none⟩ ∧ r.pc = s.cc.pc ∧ r.pl = s.cc.pl ∧ t.g 4 = 3
            ∧ t.g 5 = BitVec.ofNat 32 s.ao.heldMode ∧ t.g 31 = r.ret ∧ t.cc.pc = BitVec.ofNat 32 (entry / 2 * 2))
          ∧ (∀ q, t.seqState q = s.seqState q ∧ (q = 0 ∨ 16 < q ∨ showMode s.ao.heldMode = false → t.seq q = s.seq q))
          ∧ t.hb = s.hb ∧ t.spm = s.spm ∧ t.cmds.list = s.cmds.list
          ∧ (waits → showMode s.ao.heldMode = false → Touches [F.AO_MODE_MODE.off, F.TDU_STAT_HALTED.off] { s with cc := t.cc } t)
          ∧ (showMode s.ao.heldMode = true → t.lp.firstFrame = s.frame + 3 ∧ t.ba.first = true ∧ t.dec.open_ = none
            ∧ (s.flag F.AO_CLKST_PN_OK = true → ∀ n, n < 64 → s.laneSt n = LaneSt.quiet → (s.lane n).alignOnly = true → t.laneSt n = LaneSt.align))))
      ∧ (s.mode ≠ Mode.halt ∨ s.tduLocked = true ∨ s.coreUp = false → Inert .tduStep s)
      ∧ (s.mode = Mode.halt → s.tduLocked = false → s.coreUp = true →
        exec .tduStep s = .next { s with cc := { s.cc with step := true, stepped := false } })
      ∧ (s.mode ≠ Mode.halt ∨ s.cc.stepped = false → Inert .stepDone s)
      ∧ (s.mode = Mode.halt → s.cc.stepped = true → Runs .stepDone s fun t =>
        Touches [F.TDU_STAT_CAUSE.off] { s with cc := { s.cc with stepped := false } } t ∧ t.fld F.TDU_STAT_CAUSE = 6
        ∧ t.flag F.TDU_STAT_HALTED = s.flag F.TDU_STAT_HALTED)
      ∧ (∀ k acc addr lvl trapped,
        let row := Instr.comparatorMatch k acc addr lvl trapped
        let hit := fun (t : State) => Touches [(F.TDU_CMP_HIT k).off] s t ∧ t.flag (F.TDU_CMP_HIT k) = true ∧ t.fld (F.TDU_CMP_ADDR k) = s.fld (F.TDU_CMP_ADDR k)
        let action := s.fld (F.TDU_CMP_ACTION k)
        (s.comparatorMatches k acc addr lvl = false → Inert row s)
        ∧ (s.comparatorMatches k acc addr lvl = true →
          (s.tduLocked = true ∨ action = 0 ∨ action = 3 → Runs row s hit)
          ∧ (s.tduLocked = false → action = 1 → free → s.flag F.AO_MODE_BUSY = false →
            Runs row s fun t => halted 3 [(F.TDU_CMP_HIT k).off] t ∧ t.flag (F.TDU_CMP_HIT k) = true)
          ∧ (s.tduLocked = false → action = 2 → acc ≠ 4 →
            (trapped = true ∨ s.flag F.CC_STAT_MCACT = true ∨ s.coreRuns = false → Runs row s hit)
            ∧ (trapped = false → s.flag F.CC_STAT_MCACT = false → s.coreRuns = true →
              ∃ u, hit u ∧ exec row s = .next (trapEnter 8 0 s.cc.pc 0 u)))))
      ∧ ∀ k kind a, k < 8 → s.flag (F.TDU_CMP_EN k) = true → s.fld (F.TDU_CMP_KIND k) = kind → s.fld (F.TDU_CMP_ADDR k) = a → kind < 3 →
        bitOf (s.fld (F.TDU_CMP_PLMASK k)) 1 = true → s.comparatorMatches k kind a 1 = true)

/-- The TAP: BYPASS, SAMPLE/PRELOAD, the instructions that halt, DBGRST, DBGACC; the core's registers written in Halt alone; stimulus and
echo (R564, R568 to R572, R575, R583, R94).
Model's choices in it: log entries 20, 66. -/
def Obligations.TheDebugPort : Prop :=
  ∀ (s : State),
    (s.aoOn = true →
      exec .tapReset s = .next (s.tap 0x3F) ∧ exec .bypass s = .next (s.tap 0x3F)
      ∧ (∀ cells, exec (.samplePreload cells) s = .next { s with tdu := { s.tdu with ir := 1, cells := cells } })
      ∧ (∀ row ir, (row, ir) ∈ [(Instr.extest, 0), (.clamp, 3), (.highz, 4)] →
        (s.tduLocked = true ∨ s.asleep = true ∨ s.ccRuns = false → exec row s = .next (s.tap 0x3F))
        ∧ (s.tduLocked = false → s.asleep = false → s.ccRuns = true →
          (s.mode = Mode.halt → exec row s = .next (s.tap ir))
          ∧ (s.mode ≠ Mode.halt → s.flag F.AO_MODE_BUSY = false → Runs row s fun t => t.mode = Mode.halt ∧ t.ao.heldMode = s.mode
            ∧ t.fld F.TDU_STAT_CAUSE = 5 ∧ t.tdu.ir = ir ∧ t.hb = s.hb ∧ t.spm = s.spm ∧ t.seqs = s.seqs)))
      ∧ (s.tduLocked = true → exec .dbgrst s = .next (s.tap 0x3F))
      ∧ (s.tduLocked = false → s.inReset = false → s.mode ≠ Mode.off → s.rfWf = true →
        let hold := s.flag F.TDU_CTL_HALTONRST
        Runs .dbgrst s fun t => t.mode = (if hold = true then Mode.halt else Mode.rigging) ∧ t.flag F.AO_RSTCAUSE_DBG = true
          ∧ t.flag F.TDU_STAT_HALTED = hold ∧ (hold = true → t.ao.heldMode = Mode.rigging ∧ t.fld F.TDU_STAT_CAUSE = 4) ∧ t.tdu.ir = 0x11
          ∧ t.cc = { CcSt.reset with nextLmov := s.cc.nextLmov } ∧ t.cmds.list = [] ∧ t.keys = [] ∧ t.hb = s.hb ∧ t.spm = s.spm)
      ∧ ∀ acc : BitVec 89,
        let op := bitsOf acc.toNat 0 2
        let off := bitsOf acc.toNat 4 21 * 8
        let row := Instr.dbgacc acc
        let done := fun (u : State) (e : Bool) (v : W64) => { u with tdu := { u.tdu with ir := 0x10, acc := ⟨true, e, v, none⟩ } }
        let reads := s.tduLocked = false ∧ s.cclkOn = true ∧ s.hpt.awake = true ∧ s.hpt.slots.length < 16
        s.calm → s.tdu.acc.wait = none →
          (op = 0 ∨ op = 3 → exec row s = .next (s.tap 0x10))
          ∧ (op = 1 ∨ op = 2 → s.tduLocked = true ∨ s.cclkOn = false ∨ s.hpt.awake = false → exec row s = .next (done s true 0))
          ∧ (op = 1 ∨ op = 2 → s.tduLocked = false → s.cclkOn = true → s.hpt.awake = true → s.hpt.slots.length = 16 →
            exec row s = .next { s with tdu := { s.tdu with ir := 0x10, acc := ⟨false, false, s.tdu.acc.data, some (dbgReq acc)⟩ } })
          ∧ (op = 1 → reads → bitOf acc.toNat 2 = false → 0x600000 ≤ off → off < 0x640000 → s.hptBehind (dbgReq acc) = false →
            anyPen (readBytes .hb (off - 0x600000) 8 s) = false →
            Runs row s fun t => t.tdu.acc = ⟨true, false, BitVec.ofNat 64 (leNat (vals (readBytes .hb (off - 0x600000) 8 s))), none⟩
              ∧ t.hb = s.hb ∧ t.spm = s.spm ∧ t.hpt = s.hpt)
          ∧ (op = 2 → reads → bitOf acc.toNat 2 = false → 0x600000 ≤ off → off < 0x640000 → s.hptBehind (dbgReq acc) = false →
            s.flag F.SCRUB_INJ_ARM = false → Runs row s fun t => t.tdu.acc = ⟨true, false, 0, none⟩ ∧ t.spm = s.spm ∧ (s.cc.portA = none → t.rf = s.rf)
              ∧ (∀ k, k < 8 → s.cc.portA = none → t.hb.read (off - 0x600000 + k) = ⟨BitVec.ofNat 8 (bitsOf acc.toNat 25 64 / 2 ^ (8 * k)), false⟩)
              ∧ ∀ b, b + 0x600000 < off ∨ off + 8 ≤ b + 0x600000 → t.hb.read b = s.hb.read b))
    ∧ (s.cclkOn = true →
      (∀ r v, s.flag F.TDU_STAT_HALTED = false ∨ s.tduLocked = true ∨ 52 ≤ r → Inert (.tduCcrWrite r v) s)
      ∧ (s.flag F.TDU_STAT_HALTED = true → s.tduLocked = false → ∀ (r : Nat) (v : W32),
        let core := fun (P : CcSt → Prop) => Runs (.tduCcrWrite r v) s fun t => t = { s with cc := t.cc } ∧ P t.cc
        (r = 0 → Inert (.tduCcrWrite r v) s)
        ∧ (0 < r → r < 32 → core fun c => c = { s.cc with g := c.g } ∧ c.slot (gSlot s.sb r) = v ∧ ∀ i, i ≠ gSlot s.sb r → c.slot i = s.cc.slot i)
        ∧ (r = 32 → core fun c => c = { s.cc with pc := BitVec.ofNat 32 (v.toNat / 2 * 2) })
        ∧ (r = 33 → core fun c => c = { s.cc with stat := c.stat } ∧ (∀ k, 2 ≤ k → k < 32 → c.bit k = (decide (k < 12) && v.getLsbD k))
            ∧ (c.pl = if v.toNat % 4 = 3 then s.cc.pl else v.toNat % 4))
        ∧ (r = 34 → core fun c => c = { s.cc with mql := v }) ∧ (r = 35 → core fun c => c = { s.cc with mqh := v })
        ∧ (36 ≤ r → r < 52 → core fun c => c = { s.cc with g := c.g } ∧ c.slot (gSlot (!s.sb) (r - 20)) = v
            ∧ ∀ i, i ≠ gSlot (!s.sb) (r - 20) → c.slot i = s.cc.slot i))
      ∧ (∀ k v, bitOf (s.fld F.TDU_CFG_STIMEN) k = false ∨ s.tracing = false ∨ 32 ≤ k → Inert (.tduStimWrite k v) s)
      ∧ (∀ (k : Nat) (v : W32), k < 32 → bitOf (s.fld F.TDU_CFG_STIMEN) k = true → s.tracing = true → s.tdu.owed = 0 →
          s.tdu.fifo.length + 6 ≤ 4096 → s.tdu.sinceSync + 6 < 4096 →
          let packet : List Byte := [0x35, BitVec.ofNat 8 k] ++ leBytes 4 v.toNat
          exec (.tduStimWrite k v) s = .next { s with tdu := { s.tdu with fifo := s.tdu.fifo ++ packet, sinceSync := s.tdu.sinceSync + 6 } })
      ∧ ∀ (be : BitVec 8) (v : W64), Runs (.tduEchoWrite be v) s fun t => t = { s with rf := t.rf }
          ∧ (∀ i, i < 64 → (t.reg F.TDU_ECHO_ECHO.off).getLsbD i = if be.getLsbD (i / 8) = true then !v.getLsbD i else (s.reg F.TDU_ECHO_ECHO.off).getLsbD i)
          ∧ ∀ off, off ≠ F.TDU_ECHO_ECHO.off → t.reg off = s.reg off)

/-- LOOPBACK: its checks in their order, the DEPTH that stops one, one that starts and one that ends with its counts; GRANT and APPROVE: their
checks, the grant taken; the end of a planned break; SELFTEST: its checks, the banks taken, the entries of its reply (R558 to R567).
Model's choices in it: log entries 6, 67, 68, 70. -/
def Obligations.LoopbacksBreaksAndSelfTest : Prop :=
  ∀ (s : State) (c : Cmd),
    let id := c.id
    let b := c.params
    let p := loopParams b
    let g := breakParams s b
    let none_ := loopReply 0 0 (2 ^ 64 - 1) 0 0 0 0
    let items := leAt b 0 4
    let engines := if bitOf items 3 = true then leAt b 4 2 else 0
    let test := s.mode = Mode.test
    let takes := fun (t : State) => t.tdu = { s.tdu with grants := s.tdu.grants ++ [⟨g.cab, g.port, g.first, g.frames⟩] }
    (s.Due c 0x6001 → p.kind ≠ 4 → p.kind ≠ 5 →
      (loopBad s p = true → Answers (.loopback id) s c Status.badParam [] s)
      ∧ (loopBad s p = false → p.depth = 0xFF → (∀ l ∈ s.tdu.loops, ¬ (l.kind = p.kind ∧ l.unit = p.unit)) → Answers (.loopback id) s c Status.ok none_ s)
      ∧ (loopBad s p = false → p.depth = 0xFF → ∀ l, s.loop? p.kind p.unit = some l → (∀ m ∈ s.tdu.loops, m.cmd = l.cmd → m = l) →
          ∃ u, Answers (.loopback id) s c Status.ok none_ u ∧ u = { s with tdu := { s.tdu with loops := u.tdu.loops } }
            ∧ (u.loop? p.kind p.unit) = some { l with stopping := true })
      ∧ (loopBad s p = false → p.depth ≠ 0xFF →
        (∀ st, loopRefusal s p = some st → Answers (.loopback id) s c st [] s)
        ∧ (loopRefusal s p = none → (s.loop? p.kind p.unit).isSome = true → Answers (.loopback id) s c Status.busy [] s)
        ∧ (loopRefusal s p = none → s.loop? p.kind p.unit = none → (∀ m ∈ s.tdu.loops, m.cmd ≠ id) →
            Runs (.loopback id) s fun t => t.cmd? id = some { c with phase := .running }
            ∧ ∃ l, t.loop? p.kind p.unit = some l ∧ l.cmd = id ∧ l.depth = p.depth ∧ l.params = b ∧ l.stopping = false ∧ l.fault = false)))
    ∧ (∀ kind unit sent errors first lost dups elapsed,
      let row := Instr.loopbackDone kind unit sent errors first lost dups elapsed
      (s.live = true → s.loop? kind unit = none → Inert row s)
      ∧ (∀ l, s.live = true → s.loop? kind unit = some l → l.left ≠ 0 ∨ (kind = 2 ∧ l.depth ≠ 0 ∧ l.stopping = false ∧ l.pos < 2 * l.total) →
          Inert row s)
      ∧ (∀ l, s.live = true → s.calm → s.ao.modeWait = none → s.loop? 0 unit = some l → kind = 0 → l.left = 0 → l.cmd = id → s.InHand c →
          let r := l.counts ⟨sent, errors, first, lost, dups⟩
          Answers row s c (if l.fault = true then Status.fault else Status.ok) (loopReply r.sent r.errors r.first elapsed r.lost r.dups l.corr)
            { s with tdu := { s.tdu with loops := s.tdu.loops.filter fun x => x.cmd != id } }))
    ∧ (s.Due c 0x6001 → byteAt b 0 = 5 →
      let ensign := c.src = .cab (s.fld F.RING_ID_ENSIGN) ∨ (c.src = .cab (s.fld F.RING_ID_STANDBY) ∧ s.tsu.acting = true)
      (breakBad b = true → Answers (.grant id) s c Status.badParam [] s)
      ∧ (breakBad b = false →
        (¬ ensign → Answers (.grant id) s c Status.denied [] s)
        ∧ (ensign → s.hoists = false → Answers (.grant id) s c Status.deferred [] s)
        ∧ (ensign → s.hoists = true → grantTimely s b = false → Answers (.grant id) s c Status.denied [] s)
        ∧ (ensign → s.hoists = true → grantTimely s b = true → ∃ u, Answers (.grant id) s c Status.ok none_ u ∧ takes u ∧ u = { s with tdu := u.tdu })))
    ∧ (∀ now, s.Due c 0x6001 → byteAt b 0 = 4 →
      let s1 := s.atTime now
      let row := Instr.approve id now
      (breakBad b = true → Answers row s c Status.badParam [] s1)
      ∧ (breakBad b = false →
        (s.isGm = false ∨ s.flag F.CMD_GWCFG_EN = false → Answers row s c Status.denied [] s1)
        ∧ (s.isGm = true → s.flag F.CMD_GWCFG_EN = true →
          (s.hoists = false ∨ s1.wallBusy g = true → Answers row s c Status.deferred [] s1)
          ∧ (s.hoists = true → s1.wallBusy g = false → s.cabId = some g.cab → grantTimely s b = true →
            ∃ u, Answers row s c Status.ok none_ u ∧ u = { s1 with tdu := u.tdu } ∧ u.tdu.grants = s.tdu.grants ++ [⟨g.cab, g.port, g.first, g.frames⟩]
              ∧ u.tdu.walls = s.tdu.walls ++ [⟨g.cab, g.port, g.first, g.frames⟩])
          ∧ (s.hoists = true → s1.wallBusy g = false → s.cabId = some g.cab → grantTimely s b = false → Answers row s c Status.denied [] s1))))
    ∧ (∀ n, s.cclkOn = true → Runs (.grantEnd n) s fun t => t = { s with tdu := { s.tdu with grants := t.tdu.grants, walls := t.tdu.walls, loops := t.tdu.loops } }
        ∧ (∀ x, x ∈ t.tdu.grants ↔ x ∈ s.tdu.grants ∧ ¬ (x.port = n ∧ x.first + x.frames ≤ s.frame))
        ∧ (∀ x, x ∈ t.tdu.walls ↔ x ∈ s.tdu.walls ∧ s.frame < x.first + x.frames)
        ∧ ((∃ x ∈ s.tdu.grants, x.port = n ∧ x.first + x.frames ≤ s.frame) → ∀ l ∈ t.tdu.loops, l.kind = 0 → l.depth < 4 → l.unit = n → l.stopping = true)
        ∧ ((∀ x ∈ s.tdu.grants, x.port = n → s.frame < x.first + x.frames) → t.tdu.loops = s.tdu.loops))
    ∧ (s.Due c 0x6002 →
      let absent := ∃ n, n < 16 ∧ seCount s.build ≤ n ∧ bitOf engines n = true
      (255 < items ∨ zeroAt b 6 10 = false ∨ absent → Answers (.selftest id) s c Status.badParam [] s)
      ∧ (items ≤ 255 → zeroAt b 6 10 = true → ¬ absent →
        (¬ test → bitOf items 1 = true ∨ bitOf items 4 = true → Answers (.selftest id) s c Status.denied [] s)
        ∧ (¬ test → bitOf items 1 = false → bitOf items 4 = false → bitOf items 0 = true → engines = 0 → s.freeBanks = [] →
            Answers (.selftest id) s c Status.deferred [] s)
        ∧ (test → s.tdu.selftest.isSome = true → Answers (.selftest id) s c Status.busy [] s)
        ∧ (test → s.tdu.selftest = none → Runs (.selftest id) s fun t => t.cmd? id = some { c with phase := .running }
            ∧ t.tdu.selftest = some ⟨id, items, engines, if bitOf items 0 = true then s.freeBanks else []⟩
            ∧ (∀ k, k < spmBanks s.build → t.fld (F.SCRUB_OWN_OWNER k)
                = if bitOf items 0 = true ∧ s.fld (F.SCRUB_OWN_OWNER k) = 0 then 0xFF else s.fld (F.SCRUB_OWN_OWNER k)))))
    ∧ (∀ out, s.live = true → s.tdu.selftest = none → s.hpt.slots = [] → s.tdu.acc.wait = none → Inert (.selftestDone out) s)
    ∧ (∀ out, s.live = true → s.calm → s.ao.modeWait = none → s.hpt.slots = [] → s.tdu.acc.wait = none → s.InHand c →
      s.tdu.selftest = some ⟨id, items, 0, []⟩ → bitOf items 0 = false → bitOf items 3 = false → bitOf items 4 = false →
      let fails := fun i => if bitOf items i = true ∧ i < 8 then (out.getD i (0, 0)).1 else 0
      let entry := fun i => itemEntry (decide (i < 8) && bitOf items i) (fails i) (out.getD i (0, 0)).2
      Answers (.selftestDone out) s c (if (List.range 8).all (fun i => fails i == 0) = true then Status.ok else Status.fault) ((List.range 16).flatMap entry)
        { s with tdu := { s.tdu with selftest := none } })
end

