-- ==== Sys2Proof/Laws/State.lean ====
section
/-!
SUPPORT. What the plain updates of State leave alone, one lemma per field and update, each true by rfl.
-/

namespace Sys2Proof.Machine

/-! ### A register -/

@[simp] theorem State.setReg_build (s : State) (off : Nat) (v : W64) : (s.setReg off v).build = s.build := rfl
@[simp] theorem State.setReg_ao (s : State) (off : Nat) (v : W64) : (s.setReg off v).ao = s.ao := rfl
@[simp] theorem State.setReg_hpt (s : State) (off : Nat) (v : W64) : (s.setReg off v).hpt = s.hpt := rfl
@[simp] theorem State.setReg_dic (s : State) (off : Nat) (v : W64) : (s.setReg off v).dic = s.dic := rfl
@[simp] theorem State.setReg_hb (s : State) (off : Nat) (v : W64) : (s.setReg off v).hb = s.hb := rfl
@[simp] theorem State.setReg_spm (s : State) (off : Nat) (v : W64) : (s.setReg off v).spm = s.spm := rfl
@[simp] theorem State.setReg_fixups (s : State) (off : Nat) (v : W64) : (s.setReg off v).fixups = s.fixups := rfl
@[simp] theorem State.setReg_scrubs (s : State) (off : Nat) (v : W64) : (s.setReg off v).scrubs = s.scrubs := rfl
@[simp] theorem State.setReg_mpt0 (s : State) (off : Nat) (v : W64) : (s.setReg off v).mpt0 = s.mpt0 := rfl
@[simp] theorem State.setReg_mpt1 (s : State) (off : Nat) (v : W64) : (s.setReg off v).mpt1 = s.mpt1 := rfl
@[simp] theorem State.setReg_lines (s : State) (off : Nat) (v : W64) : (s.setReg off v).lines = s.lines := rfl
@[simp] theorem State.setReg_cstore (s : State) (off : Nat) (v : W64) : (s.setReg off v).cstore = s.cstore := rfl
@[simp] theorem State.setReg_seqs (s : State) (off : Nat) (v : W64) : (s.setReg off v).seqs = s.seqs := rfl
@[simp] theorem State.setReg_cmds (s : State) (off : Nat) (v : W64) : (s.setReg off v).cmds = s.cmds := rfl
@[simp] theorem State.setReg_keys (s : State) (off : Nat) (v : W64) : (s.setReg off v).keys = s.keys := rfl
@[simp] theorem State.setReg_replays (s : State) (off : Nat) (v : W64) : (s.setReg off v).replays = s.replays := rfl
@[simp] theorem State.setReg_tenants (s : State) (off : Nat) (v : W64) : (s.setReg off v).tenants = s.tenants := rfl
@[simp] theorem State.setReg_trip (s : State) (off : Nat) (v : W64) : (s.setReg off v).trip = s.trip := rfl
@[simp] theorem State.setReg_pus (s : State) (off : Nat) (v : W64) : (s.setReg off v).pus = s.pus := rfl
@[simp] theorem State.setReg_tmrs (s : State) (off : Nat) (v : W64) : (s.setReg off v).tmrs = s.tmrs := rfl
@[simp] theorem State.setReg_tmrDue (s : State) (off : Nat) (v : W64) : (s.setReg off v).tmrDue = s.tmrDue := rfl
@[simp] theorem State.setReg_dec (s : State) (off : Nat) (v : W64) : (s.setReg off v).dec = s.dec := rfl
@[simp] theorem State.setReg_ring (s : State) (off : Nat) (v : W64) : (s.setReg off v).ring = s.ring := rfl
@[simp] theorem State.setReg_tsu (s : State) (off : Nat) (v : W64) : (s.setReg off v).tsu = s.tsu := rfl
@[simp] theorem State.setReg_lp (s : State) (off : Nat) (v : W64) : (s.setReg off v).lp = s.lp := rfl
@[simp] theorem State.setReg_ba (s : State) (off : Nat) (v : W64) : (s.setReg off v).ba = s.ba := rfl
@[simp] theorem State.setReg_feeds (s : State) (off : Nat) (v : W64) : (s.setReg off v).feeds = s.feeds := rfl
@[simp] theorem State.setReg_encs (s : State) (off : Nat) (v : W64) : (s.setReg off v).encs = s.encs := rfl
@[simp] theorem State.setReg_plys (s : State) (off : Nat) (v : W64) : (s.setReg off v).plys = s.plys := rfl
@[simp] theorem State.setReg_clipRuns (s : State) (off : Nat) (v : W64) : (s.setReg off v).clipRuns = s.clipRuns := rfl
@[simp] theorem State.setReg_cc (s : State) (off : Nat) (v : W64) : (s.setReg off v).cc = s.cc := rfl
@[simp] theorem State.setReg_tdu (s : State) (off : Nat) (v : W64) : (s.setReg off v).tdu = s.tdu := rfl
@[simp] theorem State.setReg_unitOff (s : State) (off : Nat) (v : W64) : (s.setReg off v).unitOff = s.unitOff := rfl
@[simp] theorem State.setReg_frame (s : State) (off : Nat) (v : W64) : (s.setReg off v).frame = s.frame := rfl
@[simp] theorem State.setReg_pending (s : State) (off : Nat) (v : W64) : (s.setReg off v).pending = s.pending := rfl
@[simp] theorem State.setReg_freeCtr (s : State) (off : Nat) (v : W64) : (s.setReg off v).freeCtr = s.freeCtr := rfl

/-! ### A field -/

@[simp] theorem State.setFld_build (s : State) (f : FRef) (v : Nat) : (s.setFld f v).build = s.build := rfl
@[simp] theorem State.setFld_ao (s : State) (f : FRef) (v : Nat) : (s.setFld f v).ao = s.ao := rfl
@[simp] theorem State.setFld_hpt (s : State) (f : FRef) (v : Nat) : (s.setFld f v).hpt = s.hpt := rfl
@[simp] theorem State.setFld_dic (s : State) (f : FRef) (v : Nat) : (s.setFld f v).dic = s.dic := rfl
@[simp] theorem State.setFld_hb (s : State) (f : FRef) (v : Nat) : (s.setFld f v).hb = s.hb := rfl
@[simp] theorem State.setFld_spm (s : State) (f : FRef) (v : Nat) : (s.setFld f v).spm = s.spm := rfl
@[simp] theorem State.setFld_fixups (s : State) (f : FRef) (v : Nat) : (s.setFld f v).fixups = s.fixups := rfl
@[simp] theorem State.setFld_scrubs (s : State) (f : FRef) (v : Nat) : (s.setFld f v).scrubs = s.scrubs := rfl
@[simp] theorem State.setFld_mpt0 (s : State) (f : FRef) (v : Nat) : (s.setFld f v).mpt0 = s.mpt0 := rfl
@[simp] theorem State.setFld_mpt1 (s : State) (f : FRef) (v : Nat) : (s.setFld f v).mpt1 = s.mpt1 := rfl
@[simp] theorem State.setFld_lines (s : State) (f : FRef) (v : Nat) : (s.setFld f v).lines = s.lines := rfl
@[simp] theorem State.setFld_cstore (s : State) (f : FRef) (v : Nat) : (s.setFld f v).cstore = s.cstore := rfl
@[simp] theorem State.setFld_seqs (s : State) (f : FRef) (v : Nat) : (s.setFld f v).seqs = s.seqs := rfl
@[simp] theorem State.setFld_cmds (s : State) (f : FRef) (v : Nat) : (s.setFld f v).cmds = s.cmds := rfl
@[simp] theorem State.setFld_keys (s : State) (f : FRef) (v : Nat) : (s.setFld f v).keys = s.keys := rfl
@[simp] theorem State.setFld_replays (s : State) (f : FRef) (v : Nat) : (s.setFld f v).replays = s.replays := rfl
@[simp] theorem State.setFld_tenants (s : State) (f : FRef) (v : Nat) : (s.setFld f v).tenants = s.tenants := rfl
@[simp] theorem State.setFld_trip (s : State) (f : FRef) (v : Nat) : (s.setFld f v).trip = s.trip := rfl
@[simp] theorem State.setFld_pus (s : State) (f : FRef) (v : Nat) : (s.setFld f v).pus = s.pus := rfl
@[simp] theorem State.setFld_tmrs (s : State) (f : FRef) (v : Nat) : (s.setFld f v).tmrs = s.tmrs := rfl
@[simp] theorem State.setFld_tmrDue (s : State) (f : FRef) (v : Nat) : (s.setFld f v).tmrDue = s.tmrDue := rfl
@[simp] theorem State.setFld_dec (s : State) (f : FRef) (v : Nat) : (s.setFld f v).dec = s.dec := rfl
@[simp] theorem State.setFld_ring (s : State) (f : FRef) (v : Nat) : (s.setFld f v).ring = s.ring := rfl
@[simp] theorem State.setFld_tsu (s : State) (f : FRef) (v : Nat) : (s.setFld f v).tsu = s.tsu := rfl
@[simp] theorem State.setFld_lp (s : State) (f : FRef) (v : Nat) : (s.setFld f v).lp = s.lp := rfl
@[simp] theorem State.setFld_ba (s : State) (f : FRef) (v : Nat) : (s.setFld f v).ba = s.ba := rfl
@[simp] theorem State.setFld_feeds (s : State) (f : FRef) (v : Nat) : (s.setFld f v).feeds = s.feeds := rfl
@[simp] theorem State.setFld_encs (s : State) (f : FRef) (v : Nat) : (s.setFld f v).encs = s.encs := rfl
@[simp] theorem State.setFld_plys (s : State) (f : FRef) (v : Nat) : (s.setFld f v).plys = s.plys := rfl
@[simp] theorem State.setFld_clipRuns (s : State) (f : FRef) (v : Nat) : (s.setFld f v).clipRuns = s.clipRuns := rfl
@[simp] theorem State.setFld_cc (s : State) (f : FRef) (v : Nat) : (s.setFld f v).cc = s.cc := rfl
@[simp] theorem State.setFld_tdu (s : State) (f : FRef) (v : Nat) : (s.setFld f v).tdu = s.tdu := rfl
@[simp] theorem State.setFld_unitOff (s : State) (f : FRef) (v : Nat) : (s.setFld f v).unitOff = s.unitOff := rfl
@[simp] theorem State.setFld_frame (s : State) (f : FRef) (v : Nat) : (s.setFld f v).frame = s.frame := rfl
@[simp] theorem State.setFld_pending (s : State) (f : FRef) (v : Nat) : (s.setFld f v).pending = s.pending := rfl
@[simp] theorem State.setFld_freeCtr (s : State) (f : FRef) (v : Nat) : (s.setFld f v).freeCtr = s.freeCtr := rfl

/-! ### A flag -/

@[simp] theorem State.setFlag_build (s : State) (f : FRef) (b : Bool) : (s.setFlag f b).build = s.build := rfl
@[simp] theorem State.setFlag_ao (s : State) (f : FRef) (b : Bool) : (s.setFlag f b).ao = s.ao := rfl
@[simp] theorem State.setFlag_hpt (s : State) (f : FRef) (b : Bool) : (s.setFlag f b).hpt = s.hpt := rfl
@[simp] theorem State.setFlag_dic (s : State) (f : FRef) (b : Bool) : (s.setFlag f b).dic = s.dic := rfl
@[simp] theorem State.setFlag_hb (s : State) (f : FRef) (b : Bool) : (s.setFlag f b).hb = s.hb := rfl
@[simp] theorem State.setFlag_spm (s : State) (f : FRef) (b : Bool) : (s.setFlag f b).spm = s.spm := rfl
@[simp] theorem State.setFlag_fixups (s : State) (f : FRef) (b : Bool) : (s.setFlag f b).fixups = s.fixups := rfl
@[simp] theorem State.setFlag_scrubs (s : State) (f : FRef) (b : Bool) : (s.setFlag f b).scrubs = s.scrubs := rfl
@[simp] theorem State.setFlag_mpt0 (s : State) (f : FRef) (b : Bool) : (s.setFlag f b).mpt0 = s.mpt0 := rfl
@[simp] theorem State.setFlag_mpt1 (s : State) (f : FRef) (b : Bool) : (s.setFlag f b).mpt1 = s.mpt1 := rfl
@[simp] theorem State.setFlag_lines (s : State) (f : FRef) (b : Bool) : (s.setFlag f b).lines = s.lines := rfl
@[simp] theorem State.setFlag_cstore (s : State) (f : FRef) (b : Bool) : (s.setFlag f b).cstore = s.cstore := rfl
@[simp] theorem State.setFlag_seqs (s : State) (f : FRef) (b : Bool) : (s.setFlag f b).seqs = s.seqs := rfl
@[simp] theorem State.setFlag_cmds (s : State) (f : FRef) (b : Bool) : (s.setFlag f b).cmds = s.cmds := rfl
@[simp] theorem State.setFlag_keys (s : State) (f : FRef) (b : Bool) : (s.setFlag f b).keys = s.keys := rfl
@[simp] theorem State.setFlag_replays (s : State) (f : FRef) (b : Bool) : (s.setFlag f b).replays = s.replays := rfl
@[simp] theorem State.setFlag_tenants (s : State) (f : FRef) (b : Bool) : (s.setFlag f b).tenants = s.tenants := rfl
@[simp] theorem State.setFlag_trip (s : State) (f : FRef) (b : Bool) : (s.setFlag f b).trip = s.trip := rfl
@[simp] theorem State.setFlag_pus (s : State) (f : FRef) (b : Bool) : (s.setFlag f b).pus = s.pus := rfl
@[simp] theorem State.setFlag_tmrs (s : State) (f : FRef) (b : Bool) : (s.setFlag f b).tmrs = s.tmrs := rfl
@[simp] theorem State.setFlag_tmrDue (s : State) (f : FRef) (b : Bool) : (s.setFlag f b).tmrDue = s.tmrDue := rfl
@[simp] theorem State.setFlag_dec (s : State) (f : FRef) (b : Bool) : (s.setFlag f b).dec = s.dec := rfl
@[simp] theorem State.setFlag_ring (s : State) (f : FRef) (b : Bool) : (s.setFlag f b).ring = s.ring := rfl
@[simp] theorem State.setFlag_tsu (s : State) (f : FRef) (b : Bool) : (s.setFlag f b).tsu = s.tsu := rfl
@[simp] theorem State.setFlag_lp (s : State) (f : FRef) (b : Bool) : (s.setFlag f b).lp = s.lp := rfl
@[simp] theorem State.setFlag_ba (s : State) (f : FRef) (b : Bool) : (s.setFlag f b).ba = s.ba := rfl
@[simp] theorem State.setFlag_feeds (s : State) (f : FRef) (b : Bool) : (s.setFlag f b).feeds = s.feeds := rfl
@[simp] theorem State.setFlag_encs (s : State) (f : FRef) (b : Bool) : (s.setFlag f b).encs = s.encs := rfl
@[simp] theorem State.setFlag_plys (s : State) (f : FRef) (b : Bool) : (s.setFlag f b).plys = s.plys := rfl
@[simp] theorem State.setFlag_clipRuns (s : State) (f : FRef) (b : Bool) : (s.setFlag f b).clipRuns = s.clipRuns := rfl
@[simp] theorem State.setFlag_cc (s : State) (f : FRef) (b : Bool) : (s.setFlag f b).cc = s.cc := rfl
@[simp] theorem State.setFlag_tdu (s : State) (f : FRef) (b : Bool) : (s.setFlag f b).tdu = s.tdu := rfl
@[simp] theorem State.setFlag_unitOff (s : State) (f : FRef) (b : Bool) : (s.setFlag f b).unitOff = s.unitOff := rfl
@[simp] theorem State.setFlag_frame (s : State) (f : FRef) (b : Bool) : (s.setFlag f b).frame = s.frame := rfl
@[simp] theorem State.setFlag_pending (s : State) (f : FRef) (b : Bool) : (s.setFlag f b).pending = s.pending := rfl
@[simp] theorem State.setFlag_freeCtr (s : State) (f : FRef) (b : Bool) : (s.setFlag f b).freeCtr = s.freeCtr := rfl

/-! ### A counter -/

@[simp] theorem State.bump_build (s : State) (f : FRef) (d : Nat) : (s.bump f d).build = s.build := rfl
@[simp] theorem State.bump_ao (s : State) (f : FRef) (d : Nat) : (s.bump f d).ao = s.ao := rfl
@[simp] theorem State.bump_hpt (s : State) (f : FRef) (d : Nat) : (s.bump f d).hpt = s.hpt := rfl
@[simp] theorem State.bump_dic (s : State) (f : FRef) (d : Nat) : (s.bump f d).dic = s.dic := rfl
@[simp] theorem State.bump_hb (s : State) (f : FRef) (d : Nat) : (s.bump f d).hb = s.hb := rfl
@[simp] theorem State.bump_spm (s : State) (f : FRef) (d : Nat) : (s.bump f d).spm = s.spm := rfl
@[simp] theorem State.bump_fixups (s : State) (f : FRef) (d : Nat) : (s.bump f d).fixups = s.fixups := rfl
@[simp] theorem State.bump_scrubs (s : State) (f : FRef) (d : Nat) : (s.bump f d).scrubs = s.scrubs := rfl
@[simp] theorem State.bump_mpt0 (s : State) (f : FRef) (d : Nat) : (s.bump f d).mpt0 = s.mpt0 := rfl
@[simp] theorem State.bump_mpt1 (s : State) (f : FRef) (d : Nat) : (s.bump f d).mpt1 = s.mpt1 := rfl
@[simp] theorem State.bump_lines (s : State) (f : FRef) (d : Nat) : (s.bump f d).lines = s.lines := rfl
@[simp] theorem State.bump_cstore (s : State) (f : FRef) (d : Nat) : (s.bump f d).cstore = s.cstore := rfl
@[simp] theorem State.bump_seqs (s : State) (f : FRef) (d : Nat) : (s.bump f d).seqs = s.seqs := rfl
@[simp] theorem State.bump_cmds (s : State) (f : FRef) (d : Nat) : (s.bump f d).cmds = s.cmds := rfl
@[simp] theorem State.bump_keys (s : State) (f : FRef) (d : Nat) : (s.bump f d).keys = s.keys := rfl
@[simp] theorem State.bump_replays (s : State) (f : FRef) (d : Nat) : (s.bump f d).replays = s.replays := rfl
@[simp] theorem State.bump_tenants (s : State) (f : FRef) (d : Nat) : (s.bump f d).tenants = s.tenants := rfl
@[simp] theorem State.bump_trip (s : State) (f : FRef) (d : Nat) : (s.bump f d).trip = s.trip := rfl
@[simp] theorem State.bump_pus (s : State) (f : FRef) (d : Nat) : (s.bump f d).pus = s.pus := rfl
@[simp] theorem State.bump_tmrs (s : State) (f : FRef) (d : Nat) : (s.bump f d).tmrs = s.tmrs := rfl
@[simp] theorem State.bump_tmrDue (s : State) (f : FRef) (d : Nat) : (s.bump f d).tmrDue = s.tmrDue := rfl
@[simp] theorem State.bump_dec (s : State) (f : FRef) (d : Nat) : (s.bump f d).dec = s.dec := rfl
@[simp] theorem State.bump_ring (s : State) (f : FRef) (d : Nat) : (s.bump f d).ring = s.ring := rfl
@[simp] theorem State.bump_tsu (s : State) (f : FRef) (d : Nat) : (s.bump f d).tsu = s.tsu := rfl
@[simp] theorem State.bump_lp (s : State) (f : FRef) (d : Nat) : (s.bump f d).lp = s.lp := rfl
@[simp] theorem State.bump_ba (s : State) (f : FRef) (d : Nat) : (s.bump f d).ba = s.ba := rfl
@[simp] theorem State.bump_feeds (s : State) (f : FRef) (d : Nat) : (s.bump f d).feeds = s.feeds := rfl
@[simp] theorem State.bump_encs (s : State) (f : FRef) (d : Nat) : (s.bump f d).encs = s.encs := rfl
@[simp] theorem State.bump_plys (s : State) (f : FRef) (d : Nat) : (s.bump f d).plys = s.plys := rfl
@[simp] theorem State.bump_clipRuns (s : State) (f : FRef) (d : Nat) : (s.bump f d).clipRuns = s.clipRuns := rfl
@[simp] theorem State.bump_cc (s : State) (f : FRef) (d : Nat) : (s.bump f d).cc = s.cc := rfl
@[simp] theorem State.bump_tdu (s : State) (f : FRef) (d : Nat) : (s.bump f d).tdu = s.tdu := rfl
@[simp] theorem State.bump_unitOff (s : State) (f : FRef) (d : Nat) : (s.bump f d).unitOff = s.unitOff := rfl
@[simp] theorem State.bump_frame (s : State) (f : FRef) (d : Nat) : (s.bump f d).frame = s.frame := rfl
@[simp] theorem State.bump_pending (s : State) (f : FRef) (d : Nat) : (s.bump f d).pending = s.pending := rfl
@[simp] theorem State.bump_freeCtr (s : State) (f : FRef) (d : Nat) : (s.bump f d).freeCtr = s.freeCtr := rfl

/-! ### A free value -/

@[simp] theorem State.drew_build (s : State)  : (s.drew).build = s.build := rfl
@[simp] theorem State.drew_rf (s : State)  : (s.drew).rf = s.rf := rfl
@[simp] theorem State.drew_ao (s : State)  : (s.drew).ao = s.ao := rfl
@[simp] theorem State.drew_hpt (s : State)  : (s.drew).hpt = s.hpt := rfl
@[simp] theorem State.drew_dic (s : State)  : (s.drew).dic = s.dic := rfl
@[simp] theorem State.drew_hb (s : State)  : (s.drew).hb = s.hb := rfl
@[simp] theorem State.drew_spm (s : State)  : (s.drew).spm = s.spm := rfl
@[simp] theorem State.drew_fixups (s : State)  : (s.drew).fixups = s.fixups := rfl
@[simp] theorem State.drew_scrubs (s : State)  : (s.drew).scrubs = s.scrubs := rfl
@[simp] theorem State.drew_mpt0 (s : State)  : (s.drew).mpt0 = s.mpt0 := rfl
@[simp] theorem State.drew_mpt1 (s : State)  : (s.drew).mpt1 = s.mpt1 := rfl
@[simp] theorem State.drew_lines (s : State)  : (s.drew).lines = s.lines := rfl
@[simp] theorem State.drew_cstore (s : State)  : (s.drew).cstore = s.cstore := rfl
@[simp] theorem State.drew_seqs (s : State)  : (s.drew).seqs = s.seqs := rfl
@[simp] theorem State.drew_cmds (s : State)  : (s.drew).cmds = s.cmds := rfl
@[simp] theorem State.drew_keys (s : State)  : (s.drew).keys = s.keys := rfl
@[simp] theorem State.drew_replays (s : State)  : (s.drew).replays = s.replays := rfl
@[simp] theorem State.drew_tenants (s : State)  : (s.drew).tenants = s.tenants := rfl
@[simp] theorem State.drew_trip (s : State)  : (s.drew).trip = s.trip := rfl
@[simp] theorem State.drew_pus (s : State)  : (s.drew).pus = s.pus := rfl
@[simp] theorem State.drew_tmrs (s : State)  : (s.drew).tmrs = s.tmrs := rfl
@[simp] theorem State.drew_tmrDue (s : State)  : (s.drew).tmrDue = s.tmrDue := rfl
@[simp] theorem State.drew_dec (s : State)  : (s.drew).dec = s.dec := rfl
@[simp] theorem State.drew_ring (s : State)  : (s.drew).ring = s.ring := rfl
@[simp] theorem State.drew_tsu (s : State)  : (s.drew).tsu = s.tsu := rfl
@[simp] theorem State.drew_lp (s : State)  : (s.drew).lp = s.lp := rfl
@[simp] theorem State.drew_ba (s : State)  : (s.drew).ba = s.ba := rfl
@[simp] theorem State.drew_feeds (s : State)  : (s.drew).feeds = s.feeds := rfl
@[simp] theorem State.drew_encs (s : State)  : (s.drew).encs = s.encs := rfl
@[simp] theorem State.drew_plys (s : State)  : (s.drew).plys = s.plys := rfl
@[simp] theorem State.drew_clipRuns (s : State)  : (s.drew).clipRuns = s.clipRuns := rfl
@[simp] theorem State.drew_cc (s : State)  : (s.drew).cc = s.cc := rfl
@[simp] theorem State.drew_tdu (s : State)  : (s.drew).tdu = s.tdu := rfl
@[simp] theorem State.drew_unitOff (s : State)  : (s.drew).unitOff = s.unitOff := rfl
@[simp] theorem State.drew_frame (s : State)  : (s.drew).frame = s.frame := rfl
@[simp] theorem State.drew_pending (s : State)  : (s.drew).pending = s.pending := rfl

/-! ### A transition -/

@[simp] theorem State.setMode_build (s : State) (m : Nat) : (s.setMode m).build = s.build := rfl
@[simp] theorem State.setMode_ao (s : State) (m : Nat) : (s.setMode m).ao = s.ao := rfl
@[simp] theorem State.setMode_hpt (s : State) (m : Nat) : (s.setMode m).hpt = s.hpt := rfl
@[simp] theorem State.setMode_dic (s : State) (m : Nat) : (s.setMode m).dic = s.dic := rfl
@[simp] theorem State.setMode_hb (s : State) (m : Nat) : (s.setMode m).hb = s.hb := rfl
@[simp] theorem State.setMode_spm (s : State) (m : Nat) : (s.setMode m).spm = s.spm := rfl
@[simp] theorem State.setMode_fixups (s : State) (m : Nat) : (s.setMode m).fixups = s.fixups := rfl
@[simp] theorem State.setMode_scrubs (s : State) (m : Nat) : (s.setMode m).scrubs = s.scrubs := rfl
@[simp] theorem State.setMode_mpt0 (s : State) (m : Nat) : (s.setMode m).mpt0 = s.mpt0 := rfl
@[simp] theorem State.setMode_mpt1 (s : State) (m : Nat) : (s.setMode m).mpt1 = s.mpt1 := rfl
@[simp] theorem State.setMode_lines (s : State) (m : Nat) : (s.setMode m).lines = s.lines := rfl
@[simp] theorem State.setMode_cstore (s : State) (m : Nat) : (s.setMode m).cstore = s.cstore := rfl
@[simp] theorem State.setMode_seqs (s : State) (m : Nat) : (s.setMode m).seqs = s.seqs := rfl
@[simp] theorem State.setMode_cmds (s : State) (m : Nat) : (s.setMode m).cmds = s.cmds := rfl
@[simp] theorem State.setMode_keys (s : State) (m : Nat) : (s.setMode m).keys = s.keys := rfl
@[simp] theorem State.setMode_replays (s : State) (m : Nat) : (s.setMode m).replays = s.replays := rfl
@[simp] theorem State.setMode_tenants (s : State) (m : Nat) : (s.setMode m).tenants = s.tenants := rfl
@[simp] theorem State.setMode_trip (s : State) (m : Nat) : (s.setMode m).trip = s.trip := rfl
@[simp] theorem State.setMode_pus (s : State) (m : Nat) : (s.setMode m).pus = s.pus := rfl
@[simp] theorem State.setMode_tmrs (s : State) (m : Nat) : (s.setMode m).tmrs = s.tmrs := rfl
@[simp] theorem State.setMode_tmrDue (s : State) (m : Nat) : (s.setMode m).tmrDue = s.tmrDue := rfl
@[simp] theorem State.setMode_dec (s : State) (m : Nat) : (s.setMode m).dec = s.dec := rfl
@[simp] theorem State.setMode_ring (s : State) (m : Nat) : (s.setMode m).ring = s.ring := rfl
@[simp] theorem State.setMode_tsu (s : State) (m : Nat) : (s.setMode m).tsu = s.tsu := rfl
@[simp] theorem State.setMode_lp (s : State) (m : Nat) : (s.setMode m).lp = s.lp := rfl
@[simp] theorem State.setMode_ba (s : State) (m : Nat) : (s.setMode m).ba = s.ba := rfl
@[simp] theorem State.setMode_feeds (s : State) (m : Nat) : (s.setMode m).feeds = s.feeds := rfl
@[simp] theorem State.setMode_encs (s : State) (m : Nat) : (s.setMode m).encs = s.encs := rfl
@[simp] theorem State.setMode_plys (s : State) (m : Nat) : (s.setMode m).plys = s.plys := rfl
@[simp] theorem State.setMode_clipRuns (s : State) (m : Nat) : (s.setMode m).clipRuns = s.clipRuns := rfl
@[simp] theorem State.setMode_cc (s : State) (m : Nat) : (s.setMode m).cc = s.cc := rfl
@[simp] theorem State.setMode_tdu (s : State) (m : Nat) : (s.setMode m).tdu = s.tdu := rfl
@[simp] theorem State.setMode_unitOff (s : State) (m : Nat) : (s.setMode m).unitOff = s.unitOff := rfl
@[simp] theorem State.setMode_frame (s : State) (m : Nat) : (s.setMode m).frame = s.frame := rfl
@[simp] theorem State.setMode_pending (s : State) (m : Nat) : (s.setMode m).pending = s.pending := rfl
@[simp] theorem State.setMode_freeCtr (s : State) (m : Nat) : (s.setMode m).freeCtr = s.freeCtr := rfl

/-! ### The program counter -/

@[simp] theorem State.setPc_build (s : State) (v : W32) : (s.setPc v).build = s.build := rfl
@[simp] theorem State.setPc_rf (s : State) (v : W32) : (s.setPc v).rf = s.rf := rfl
@[simp] theorem State.setPc_ao (s : State) (v : W32) : (s.setPc v).ao = s.ao := rfl
@[simp] theorem State.setPc_hpt (s : State) (v : W32) : (s.setPc v).hpt = s.hpt := rfl
@[simp] theorem State.setPc_dic (s : State) (v : W32) : (s.setPc v).dic = s.dic := rfl
@[simp] theorem State.setPc_hb (s : State) (v : W32) : (s.setPc v).hb = s.hb := rfl
@[simp] theorem State.setPc_spm (s : State) (v : W32) : (s.setPc v).spm = s.spm := rfl
@[simp] theorem State.setPc_fixups (s : State) (v : W32) : (s.setPc v).fixups = s.fixups := rfl
@[simp] theorem State.setPc_scrubs (s : State) (v : W32) : (s.setPc v).scrubs = s.scrubs := rfl
@[simp] theorem State.setPc_mpt0 (s : State) (v : W32) : (s.setPc v).mpt0 = s.mpt0 := rfl
@[simp] theorem State.setPc_mpt1 (s : State) (v : W32) : (s.setPc v).mpt1 = s.mpt1 := rfl
@[simp] theorem State.setPc_lines (s : State) (v : W32) : (s.setPc v).lines = s.lines := rfl
@[simp] theorem State.setPc_cstore (s : State) (v : W32) : (s.setPc v).cstore = s.cstore := rfl
@[simp] theorem State.setPc_seqs (s : State) (v : W32) : (s.setPc v).seqs = s.seqs := rfl
@[simp] theorem State.setPc_cmds (s : State) (v : W32) : (s.setPc v).cmds = s.cmds := rfl
@[simp] theorem State.setPc_keys (s : State) (v : W32) : (s.setPc v).keys = s.keys := rfl
@[simp] theorem State.setPc_replays (s : State) (v : W32) : (s.setPc v).replays = s.replays := rfl
@[simp] theorem State.setPc_tenants (s : State) (v : W32) : (s.setPc v).tenants = s.tenants := rfl
@[simp] theorem State.setPc_trip (s : State) (v : W32) : (s.setPc v).trip = s.trip := rfl
@[simp] theorem State.setPc_pus (s : State) (v : W32) : (s.setPc v).pus = s.pus := rfl
@[simp] theorem State.setPc_tmrs (s : State) (v : W32) : (s.setPc v).tmrs = s.tmrs := rfl
@[simp] theorem State.setPc_tmrDue (s : State) (v : W32) : (s.setPc v).tmrDue = s.tmrDue := rfl
@[simp] theorem State.setPc_dec (s : State) (v : W32) : (s.setPc v).dec = s.dec := rfl
@[simp] theorem State.setPc_ring (s : State) (v : W32) : (s.setPc v).ring = s.ring := rfl
@[simp] theorem State.setPc_tsu (s : State) (v : W32) : (s.setPc v).tsu = s.tsu := rfl
@[simp] theorem State.setPc_lp (s : State) (v : W32) : (s.setPc v).lp = s.lp := rfl
@[simp] theorem State.setPc_ba (s : State) (v : W32) : (s.setPc v).ba = s.ba := rfl
@[simp] theorem State.setPc_feeds (s : State) (v : W32) : (s.setPc v).feeds = s.feeds := rfl
@[simp] theorem State.setPc_encs (s : State) (v : W32) : (s.setPc v).encs = s.encs := rfl
@[simp] theorem State.setPc_plys (s : State) (v : W32) : (s.setPc v).plys = s.plys := rfl
@[simp] theorem State.setPc_clipRuns (s : State) (v : W32) : (s.setPc v).clipRuns = s.clipRuns := rfl
@[simp] theorem State.setPc_tdu (s : State) (v : W32) : (s.setPc v).tdu = s.tdu := rfl
@[simp] theorem State.setPc_unitOff (s : State) (v : W32) : (s.setPc v).unitOff = s.unitOff := rfl
@[simp] theorem State.setPc_frame (s : State) (v : W32) : (s.setPc v).frame = s.frame := rfl
@[simp] theorem State.setPc_pending (s : State) (v : W32) : (s.setPc v).pending = s.pending := rfl
@[simp] theorem State.setPc_freeCtr (s : State) (v : W32) : (s.setPc v).freeCtr = s.freeCtr := rfl

/-! ### A sequencer -/

@[simp] theorem State.setSeq_build (s : State) (q : Nat) (x : Seq) : (s.setSeq q x).build = s.build := rfl
@[simp] theorem State.setSeq_rf (s : State) (q : Nat) (x : Seq) : (s.setSeq q x).rf = s.rf := rfl
@[simp] theorem State.setSeq_ao (s : State) (q : Nat) (x : Seq) : (s.setSeq q x).ao = s.ao := rfl
@[simp] theorem State.setSeq_hpt (s : State) (q : Nat) (x : Seq) : (s.setSeq q x).hpt = s.hpt := rfl
@[simp] theorem State.setSeq_dic (s : State) (q : Nat) (x : Seq) : (s.setSeq q x).dic = s.dic := rfl
@[simp] theorem State.setSeq_hb (s : State) (q : Nat) (x : Seq) : (s.setSeq q x).hb = s.hb := rfl
@[simp] theorem State.setSeq_spm (s : State) (q : Nat) (x : Seq) : (s.setSeq q x).spm = s.spm := rfl
@[simp] theorem State.setSeq_fixups (s : State) (q : Nat) (x : Seq) : (s.setSeq q x).fixups = s.fixups := rfl
@[simp] theorem State.setSeq_scrubs (s : State) (q : Nat) (x : Seq) : (s.setSeq q x).scrubs = s.scrubs := rfl
@[simp] theorem State.setSeq_mpt0 (s : State) (q : Nat) (x : Seq) : (s.setSeq q x).mpt0 = s.mpt0 := rfl
@[simp] theorem State.setSeq_mpt1 (s : State) (q : Nat) (x : Seq) : (s.setSeq q x).mpt1 = s.mpt1 := rfl
@[simp] theorem State.setSeq_lines (s : State) (q : Nat) (x : Seq) : (s.setSeq q x).lines = s.lines := rfl
@[simp] theorem State.setSeq_cstore (s : State) (q : Nat) (x : Seq) : (s.setSeq q x).cstore = s.cstore := rfl
@[simp] theorem State.setSeq_cmds (s : State) (q : Nat) (x : Seq) : (s.setSeq q x).cmds = s.cmds := rfl
@[simp] theorem State.setSeq_keys (s : State) (q : Nat) (x : Seq) : (s.setSeq q x).keys = s.keys := rfl
@[simp] theorem State.setSeq_replays (s : State) (q : Nat) (x : Seq) : (s.setSeq q x).replays = s.replays := rfl
@[simp] theorem State.setSeq_tenants (s : State) (q : Nat) (x : Seq) : (s.setSeq q x).tenants = s.tenants := rfl
@[simp] theorem State.setSeq_trip (s : State) (q : Nat) (x : Seq) : (s.setSeq q x).trip = s.trip := rfl
@[simp] theorem State.setSeq_pus (s : State) (q : Nat) (x : Seq) : (s.setSeq q x).pus = s.pus := rfl
@[simp] theorem State.setSeq_tmrs (s : State) (q : Nat) (x : Seq) : (s.setSeq q x).tmrs = s.tmrs := rfl
@[simp] theorem State.setSeq_tmrDue (s : State) (q : Nat) (x : Seq) : (s.setSeq q x).tmrDue = s.tmrDue := rfl
@[simp] theorem State.setSeq_dec (s : State) (q : Nat) (x : Seq) : (s.setSeq q x).dec = s.dec := rfl
@[simp] theorem State.setSeq_ring (s : State) (q : Nat) (x : Seq) : (s.setSeq q x).ring = s.ring := rfl
@[simp] theorem State.setSeq_tsu (s : State) (q : Nat) (x : Seq) : (s.setSeq q x).tsu = s.tsu := rfl
@[simp] theorem State.setSeq_lp (s : State) (q : Nat) (x : Seq) : (s.setSeq q x).lp = s.lp := rfl
@[simp] theorem State.setSeq_ba (s : State) (q : Nat) (x : Seq) : (s.setSeq q x).ba = s.ba := rfl
@[simp] theorem State.setSeq_feeds (s : State) (q : Nat) (x : Seq) : (s.setSeq q x).feeds = s.feeds := rfl
@[simp] theorem State.setSeq_encs (s : State) (q : Nat) (x : Seq) : (s.setSeq q x).encs = s.encs := rfl
@[simp] theorem State.setSeq_plys (s : State) (q : Nat) (x : Seq) : (s.setSeq q x).plys = s.plys := rfl
@[simp] theorem State.setSeq_clipRuns (s : State) (q : Nat) (x : Seq) : (s.setSeq q x).clipRuns = s.clipRuns := rfl
@[simp] theorem State.setSeq_cc (s : State) (q : Nat) (x : Seq) : (s.setSeq q x).cc = s.cc := rfl
@[simp] theorem State.setSeq_tdu (s : State) (q : Nat) (x : Seq) : (s.setSeq q x).tdu = s.tdu := rfl
@[simp] theorem State.setSeq_unitOff (s : State) (q : Nat) (x : Seq) : (s.setSeq q x).unitOff = s.unitOff := rfl
@[simp] theorem State.setSeq_frame (s : State) (q : Nat) (x : Seq) : (s.setSeq q x).frame = s.frame := rfl
@[simp] theorem State.setSeq_pending (s : State) (q : Nat) (x : Seq) : (s.setSeq q x).pending = s.pending := rfl
@[simp] theorem State.setSeq_freeCtr (s : State) (q : Nat) (x : Seq) : (s.setSeq q x).freeCtr = s.freeCtr := rfl

/-! ### A timer -/

@[simp] theorem State.setTmr_build (s : State) (n : Nat) (x : Tmr) : (s.setTmr n x).build = s.build := rfl
@[simp] theorem State.setTmr_rf (s : State) (n : Nat) (x : Tmr) : (s.setTmr n x).rf = s.rf := rfl
@[simp] theorem State.setTmr_ao (s : State) (n : Nat) (x : Tmr) : (s.setTmr n x).ao = s.ao := rfl
@[simp] theorem State.setTmr_hpt (s : State) (n : Nat) (x : Tmr) : (s.setTmr n x).hpt = s.hpt := rfl
@[simp] theorem State.setTmr_dic (s : State) (n : Nat) (x : Tmr) : (s.setTmr n x).dic = s.dic := rfl
@[simp] theorem State.setTmr_hb (s : State) (n : Nat) (x : Tmr) : (s.setTmr n x).hb = s.hb := rfl
@[simp] theorem State.setTmr_spm (s : State) (n : Nat) (x : Tmr) : (s.setTmr n x).spm = s.spm := rfl
@[simp] theorem State.setTmr_fixups (s : State) (n : Nat) (x : Tmr) : (s.setTmr n x).fixups = s.fixups := rfl
@[simp] theorem State.setTmr_scrubs (s : State) (n : Nat) (x : Tmr) : (s.setTmr n x).scrubs = s.scrubs := rfl
@[simp] theorem State.setTmr_mpt0 (s : State) (n : Nat) (x : Tmr) : (s.setTmr n x).mpt0 = s.mpt0 := rfl
@[simp] theorem State.setTmr_mpt1 (s : State) (n : Nat) (x : Tmr) : (s.setTmr n x).mpt1 = s.mpt1 := rfl
@[simp] theorem State.setTmr_lines (s : State) (n : Nat) (x : Tmr) : (s.setTmr n x).lines = s.lines := rfl
@[simp] theorem State.setTmr_cstore (s : State) (n : Nat) (x : Tmr) : (s.setTmr n x).cstore = s.cstore := rfl
@[simp] theorem State.setTmr_seqs (s : State) (n : Nat) (x : Tmr) : (s.setTmr n x).seqs = s.seqs := rfl
@[simp] theorem State.setTmr_cmds (s : State) (n : Nat) (x : Tmr) : (s.setTmr n x).cmds = s.cmds := rfl
@[simp] theorem State.setTmr_keys (s : State) (n : Nat) (x : Tmr) : (s.setTmr n x).keys = s.keys := rfl
@[simp] theorem State.setTmr_replays (s : State) (n : Nat) (x : Tmr) : (s.setTmr n x).replays = s.replays := rfl
@[simp] theorem State.setTmr_tenants (s : State) (n : Nat) (x : Tmr) : (s.setTmr n x).tenants = s.tenants := rfl
@[simp] theorem State.setTmr_trip (s : State) (n : Nat) (x : Tmr) : (s.setTmr n x).trip = s.trip := rfl
@[simp] theorem State.setTmr_pus (s : State) (n : Nat) (x : Tmr) : (s.setTmr n x).pus = s.pus := rfl
@[simp] theorem State.setTmr_tmrDue (s : State) (n : Nat) (x : Tmr) : (s.setTmr n x).tmrDue = s.tmrDue := rfl
@[simp] theorem State.setTmr_dec (s : State) (n : Nat) (x : Tmr) : (s.setTmr n x).dec = s.dec := rfl
@[simp] theorem State.setTmr_ring (s : State) (n : Nat) (x : Tmr) : (s.setTmr n x).ring = s.ring := rfl
@[simp] theorem State.setTmr_tsu (s : State) (n : Nat) (x : Tmr) : (s.setTmr n x).tsu = s.tsu := rfl
@[simp] theorem State.setTmr_lp (s : State) (n : Nat) (x : Tmr) : (s.setTmr n x).lp = s.lp := rfl
@[simp] theorem State.setTmr_ba (s : State) (n : Nat) (x : Tmr) : (s.setTmr n x).ba = s.ba := rfl
@[simp] theorem State.setTmr_feeds (s : State) (n : Nat) (x : Tmr) : (s.setTmr n x).feeds = s.feeds := rfl
@[simp] theorem State.setTmr_encs (s : State) (n : Nat) (x : Tmr) : (s.setTmr n x).encs = s.encs := rfl
@[simp] theorem State.setTmr_plys (s : State) (n : Nat) (x : Tmr) : (s.setTmr n x).plys = s.plys := rfl
@[simp] theorem State.setTmr_clipRuns (s : State) (n : Nat) (x : Tmr) : (s.setTmr n x).clipRuns = s.clipRuns := rfl
@[simp] theorem State.setTmr_cc (s : State) (n : Nat) (x : Tmr) : (s.setTmr n x).cc = s.cc := rfl
@[simp] theorem State.setTmr_tdu (s : State) (n : Nat) (x : Tmr) : (s.setTmr n x).tdu = s.tdu := rfl
@[simp] theorem State.setTmr_unitOff (s : State) (n : Nat) (x : Tmr) : (s.setTmr n x).unitOff = s.unitOff := rfl
@[simp] theorem State.setTmr_frame (s : State) (n : Nat) (x : Tmr) : (s.setTmr n x).frame = s.frame := rfl
@[simp] theorem State.setTmr_pending (s : State) (n : Nat) (x : Tmr) : (s.setTmr n x).pending = s.pending := rfl
@[simp] theorem State.setTmr_freeCtr (s : State) (n : Nat) (x : Tmr) : (s.setTmr n x).freeCtr = s.freeCtr := rfl

/-! ### A pulse unit -/

@[simp] theorem State.setPu_build (s : State) (n : Nat) (x : Pu) : (s.setPu n x).build = s.build := rfl
@[simp] theorem State.setPu_rf (s : State) (n : Nat) (x : Pu) : (s.setPu n x).rf = s.rf := rfl
@[simp] theorem State.setPu_ao (s : State) (n : Nat) (x : Pu) : (s.setPu n x).ao = s.ao := rfl
@[simp] theorem State.setPu_hpt (s : State) (n : Nat) (x : Pu) : (s.setPu n x).hpt = s.hpt := rfl
@[simp] theorem State.setPu_dic (s : State) (n : Nat) (x : Pu) : (s.setPu n x).dic = s.dic := rfl
@[simp] theorem State.setPu_hb (s : State) (n : Nat) (x : Pu) : (s.setPu n x).hb = s.hb := rfl
@[simp] theorem State.setPu_spm (s : State) (n : Nat) (x : Pu) : (s.setPu n x).spm = s.spm := rfl
@[simp] theorem State.setPu_fixups (s : State) (n : Nat) (x : Pu) : (s.setPu n x).fixups = s.fixups := rfl
@[simp] theorem State.setPu_scrubs (s : State) (n : Nat) (x : Pu) : (s.setPu n x).scrubs = s.scrubs := rfl
@[simp] theorem State.setPu_mpt0 (s : State) (n : Nat) (x : Pu) : (s.setPu n x).mpt0 = s.mpt0 := rfl
@[simp] theorem State.setPu_mpt1 (s : State) (n : Nat) (x : Pu) : (s.setPu n x).mpt1 = s.mpt1 := rfl
@[simp] theorem State.setPu_lines (s : State) (n : Nat) (x : Pu) : (s.setPu n x).lines = s.lines := rfl
@[simp] theorem State.setPu_cstore (s : State) (n : Nat) (x : Pu) : (s.setPu n x).cstore = s.cstore := rfl
@[simp] theorem State.setPu_seqs (s : State) (n : Nat) (x : Pu) : (s.setPu n x).seqs = s.seqs := rfl
@[simp] theorem State.setPu_cmds (s : State) (n : Nat) (x : Pu) : (s.setPu n x).cmds = s.cmds := rfl
@[simp] theorem State.setPu_keys (s : State) (n : Nat) (x : Pu) : (s.setPu n x).keys = s.keys := rfl
@[simp] theorem State.setPu_replays (s : State) (n : Nat) (x : Pu) : (s.setPu n x).replays = s.replays := rfl
@[simp] theorem State.setPu_tenants (s : State) (n : Nat) (x : Pu) : (s.setPu n x).tenants = s.tenants := rfl
@[simp] theorem State.setPu_trip (s : State) (n : Nat) (x : Pu) : (s.setPu n x).trip = s.trip := rfl
@[simp] theorem State.setPu_tmrs (s : State) (n : Nat) (x : Pu) : (s.setPu n x).tmrs = s.tmrs := rfl
@[simp] theorem State.setPu_tmrDue (s : State) (n : Nat) (x : Pu) : (s.setPu n x).tmrDue = s.tmrDue := rfl
@[simp] theorem State.setPu_dec (s : State) (n : Nat) (x : Pu) : (s.setPu n x).dec = s.dec := rfl
@[simp] theorem State.setPu_ring (s : State) (n : Nat) (x : Pu) : (s.setPu n x).ring = s.ring := rfl
@[simp] theorem State.setPu_tsu (s : State) (n : Nat) (x : Pu) : (s.setPu n x).tsu = s.tsu := rfl
@[simp] theorem State.setPu_lp (s : State) (n : Nat) (x : Pu) : (s.setPu n x).lp = s.lp := rfl
@[simp] theorem State.setPu_ba (s : State) (n : Nat) (x : Pu) : (s.setPu n x).ba = s.ba := rfl
@[simp] theorem State.setPu_feeds (s : State) (n : Nat) (x : Pu) : (s.setPu n x).feeds = s.feeds := rfl
@[simp] theorem State.setPu_encs (s : State) (n : Nat) (x : Pu) : (s.setPu n x).encs = s.encs := rfl
@[simp] theorem State.setPu_plys (s : State) (n : Nat) (x : Pu) : (s.setPu n x).plys = s.plys := rfl
@[simp] theorem State.setPu_clipRuns (s : State) (n : Nat) (x : Pu) : (s.setPu n x).clipRuns = s.clipRuns := rfl
@[simp] theorem State.setPu_cc (s : State) (n : Nat) (x : Pu) : (s.setPu n x).cc = s.cc := rfl
@[simp] theorem State.setPu_tdu (s : State) (n : Nat) (x : Pu) : (s.setPu n x).tdu = s.tdu := rfl
@[simp] theorem State.setPu_unitOff (s : State) (n : Nat) (x : Pu) : (s.setPu n x).unitOff = s.unitOff := rfl
@[simp] theorem State.setPu_frame (s : State) (n : Nat) (x : Pu) : (s.setPu n x).frame = s.frame := rfl
@[simp] theorem State.setPu_pending (s : State) (n : Nat) (x : Pu) : (s.setPu n x).pending = s.pending := rfl
@[simp] theorem State.setPu_freeCtr (s : State) (n : Nat) (x : Pu) : (s.setPu n x).freeCtr = s.freeCtr := rfl

/-! ### A decode window -/

@[simp] theorem State.setWin_build (s : State) (k : Nat) (x : Win) : (s.setWin k x).build = s.build := rfl
@[simp] theorem State.setWin_rf (s : State) (k : Nat) (x : Win) : (s.setWin k x).rf = s.rf := rfl
@[simp] theorem State.setWin_ao (s : State) (k : Nat) (x : Win) : (s.setWin k x).ao = s.ao := rfl
@[simp] theorem State.setWin_hpt (s : State) (k : Nat) (x : Win) : (s.setWin k x).hpt = s.hpt := rfl
@[simp] theorem State.setWin_dic (s : State) (k : Nat) (x : Win) : (s.setWin k x).dic = s.dic := rfl
@[simp] theorem State.setWin_hb (s : State) (k : Nat) (x : Win) : (s.setWin k x).hb = s.hb := rfl
@[simp] theorem State.setWin_spm (s : State) (k : Nat) (x : Win) : (s.setWin k x).spm = s.spm := rfl
@[simp] theorem State.setWin_fixups (s : State) (k : Nat) (x : Win) : (s.setWin k x).fixups = s.fixups := rfl
@[simp] theorem State.setWin_scrubs (s : State) (k : Nat) (x : Win) : (s.setWin k x).scrubs = s.scrubs := rfl
@[simp] theorem State.setWin_mpt0 (s : State) (k : Nat) (x : Win) : (s.setWin k x).mpt0 = s.mpt0 := rfl
@[simp] theorem State.setWin_mpt1 (s : State) (k : Nat) (x : Win) : (s.setWin k x).mpt1 = s.mpt1 := rfl
@[simp] theorem State.setWin_lines (s : State) (k : Nat) (x : Win) : (s.setWin k x).lines = s.lines := rfl
@[simp] theorem State.setWin_cstore (s : State) (k : Nat) (x : Win) : (s.setWin k x).cstore = s.cstore := rfl
@[simp] theorem State.setWin_seqs (s : State) (k : Nat) (x : Win) : (s.setWin k x).seqs = s.seqs := rfl
@[simp] theorem State.setWin_cmds (s : State) (k : Nat) (x : Win) : (s.setWin k x).cmds = s.cmds := rfl
@[simp] theorem State.setWin_keys (s : State) (k : Nat) (x : Win) : (s.setWin k x).keys = s.keys := rfl
@[simp] theorem State.setWin_replays (s : State) (k : Nat) (x : Win) : (s.setWin k x).replays = s.replays := rfl
@[simp] theorem State.setWin_tenants (s : State) (k : Nat) (x : Win) : (s.setWin k x).tenants = s.tenants := rfl
@[simp] theorem State.setWin_trip (s : State) (k : Nat) (x : Win) : (s.setWin k x).trip = s.trip := rfl
@[simp] theorem State.setWin_pus (s : State) (k : Nat) (x : Win) : (s.setWin k x).pus = s.pus := rfl
@[simp] theorem State.setWin_tmrs (s : State) (k : Nat) (x : Win) : (s.setWin k x).tmrs = s.tmrs := rfl
@[simp] theorem State.setWin_tmrDue (s : State) (k : Nat) (x : Win) : (s.setWin k x).tmrDue = s.tmrDue := rfl
@[simp] theorem State.setWin_ring (s : State) (k : Nat) (x : Win) : (s.setWin k x).ring = s.ring := rfl
@[simp] theorem State.setWin_tsu (s : State) (k : Nat) (x : Win) : (s.setWin k x).tsu = s.tsu := rfl
@[simp] theorem State.setWin_lp (s : State) (k : Nat) (x : Win) : (s.setWin k x).lp = s.lp := rfl
@[simp] theorem State.setWin_ba (s : State) (k : Nat) (x : Win) : (s.setWin k x).ba = s.ba := rfl
@[simp] theorem State.setWin_feeds (s : State) (k : Nat) (x : Win) : (s.setWin k x).feeds = s.feeds := rfl
@[simp] theorem State.setWin_encs (s : State) (k : Nat) (x : Win) : (s.setWin k x).encs = s.encs := rfl
@[simp] theorem State.setWin_plys (s : State) (k : Nat) (x : Win) : (s.setWin k x).plys = s.plys := rfl
@[simp] theorem State.setWin_clipRuns (s : State) (k : Nat) (x : Win) : (s.setWin k x).clipRuns = s.clipRuns := rfl
@[simp] theorem State.setWin_cc (s : State) (k : Nat) (x : Win) : (s.setWin k x).cc = s.cc := rfl
@[simp] theorem State.setWin_tdu (s : State) (k : Nat) (x : Win) : (s.setWin k x).tdu = s.tdu := rfl
@[simp] theorem State.setWin_unitOff (s : State) (k : Nat) (x : Win) : (s.setWin k x).unitOff = s.unitOff := rfl
@[simp] theorem State.setWin_frame (s : State) (k : Nat) (x : Win) : (s.setWin k x).frame = s.frame := rfl
@[simp] theorem State.setWin_pending (s : State) (k : Nat) (x : Win) : (s.setWin k x).pending = s.pending := rfl
@[simp] theorem State.setWin_freeCtr (s : State) (k : Nat) (x : Win) : (s.setWin k x).freeCtr = s.freeCtr := rfl

/-! ### A lane -/

@[simp] theorem State.setLane_build (s : State) (n : Nat) (x : Lane) : (s.setLane n x).build = s.build := rfl
@[simp] theorem State.setLane_rf (s : State) (n : Nat) (x : Lane) : (s.setLane n x).rf = s.rf := rfl
@[simp] theorem State.setLane_ao (s : State) (n : Nat) (x : Lane) : (s.setLane n x).ao = s.ao := rfl
@[simp] theorem State.setLane_hpt (s : State) (n : Nat) (x : Lane) : (s.setLane n x).hpt = s.hpt := rfl
@[simp] theorem State.setLane_dic (s : State) (n : Nat) (x : Lane) : (s.setLane n x).dic = s.dic := rfl
@[simp] theorem State.setLane_hb (s : State) (n : Nat) (x : Lane) : (s.setLane n x).hb = s.hb := rfl
@[simp] theorem State.setLane_spm (s : State) (n : Nat) (x : Lane) : (s.setLane n x).spm = s.spm := rfl
@[simp] theorem State.setLane_fixups (s : State) (n : Nat) (x : Lane) : (s.setLane n x).fixups = s.fixups := rfl
@[simp] theorem State.setLane_scrubs (s : State) (n : Nat) (x : Lane) : (s.setLane n x).scrubs = s.scrubs := rfl
@[simp] theorem State.setLane_mpt0 (s : State) (n : Nat) (x : Lane) : (s.setLane n x).mpt0 = s.mpt0 := rfl
@[simp] theorem State.setLane_mpt1 (s : State) (n : Nat) (x : Lane) : (s.setLane n x).mpt1 = s.mpt1 := rfl
@[simp] theorem State.setLane_lines (s : State) (n : Nat) (x : Lane) : (s.setLane n x).lines = s.lines := rfl
@[simp] theorem State.setLane_cstore (s : State) (n : Nat) (x : Lane) : (s.setLane n x).cstore = s.cstore := rfl
@[simp] theorem State.setLane_seqs (s : State) (n : Nat) (x : Lane) : (s.setLane n x).seqs = s.seqs := rfl
@[simp] theorem State.setLane_cmds (s : State) (n : Nat) (x : Lane) : (s.setLane n x).cmds = s.cmds := rfl
@[simp] theorem State.setLane_keys (s : State) (n : Nat) (x : Lane) : (s.setLane n x).keys = s.keys := rfl
@[simp] theorem State.setLane_replays (s : State) (n : Nat) (x : Lane) : (s.setLane n x).replays = s.replays := rfl
@[simp] theorem State.setLane_tenants (s : State) (n : Nat) (x : Lane) : (s.setLane n x).tenants = s.tenants := rfl
@[simp] theorem State.setLane_trip (s : State) (n : Nat) (x : Lane) : (s.setLane n x).trip = s.trip := rfl
@[simp] theorem State.setLane_pus (s : State) (n : Nat) (x : Lane) : (s.setLane n x).pus = s.pus := rfl
@[simp] theorem State.setLane_tmrs (s : State) (n : Nat) (x : Lane) : (s.setLane n x).tmrs = s.tmrs := rfl
@[simp] theorem State.setLane_tmrDue (s : State) (n : Nat) (x : Lane) : (s.setLane n x).tmrDue = s.tmrDue := rfl
@[simp] theorem State.setLane_dec (s : State) (n : Nat) (x : Lane) : (s.setLane n x).dec = s.dec := rfl
@[simp] theorem State.setLane_ring (s : State) (n : Nat) (x : Lane) : (s.setLane n x).ring = s.ring := rfl
@[simp] theorem State.setLane_tsu (s : State) (n : Nat) (x : Lane) : (s.setLane n x).tsu = s.tsu := rfl
@[simp] theorem State.setLane_ba (s : State) (n : Nat) (x : Lane) : (s.setLane n x).ba = s.ba := rfl
@[simp] theorem State.setLane_feeds (s : State) (n : Nat) (x : Lane) : (s.setLane n x).feeds = s.feeds := rfl
@[simp] theorem State.setLane_encs (s : State) (n : Nat) (x : Lane) : (s.setLane n x).encs = s.encs := rfl
@[simp] theorem State.setLane_plys (s : State) (n : Nat) (x : Lane) : (s.setLane n x).plys = s.plys := rfl
@[simp] theorem State.setLane_clipRuns (s : State) (n : Nat) (x : Lane) : (s.setLane n x).clipRuns = s.clipRuns := rfl
@[simp] theorem State.setLane_cc (s : State) (n : Nat) (x : Lane) : (s.setLane n x).cc = s.cc := rfl
@[simp] theorem State.setLane_tdu (s : State) (n : Nat) (x : Lane) : (s.setLane n x).tdu = s.tdu := rfl
@[simp] theorem State.setLane_unitOff (s : State) (n : Nat) (x : Lane) : (s.setLane n x).unitOff = s.unitOff := rfl
@[simp] theorem State.setLane_frame (s : State) (n : Nat) (x : Lane) : (s.setLane n x).frame = s.frame := rfl
@[simp] theorem State.setLane_pending (s : State) (n : Nat) (x : Lane) : (s.setLane n x).pending = s.pending := rfl
@[simp] theorem State.setLane_freeCtr (s : State) (n : Nat) (x : Lane) : (s.setLane n x).freeCtr = s.freeCtr := rfl

/-! ### What an update writes -/

@[simp] theorem State.setPc_pc (s : State) (v : W32) : (s.setPc v).cc.pc = v := rfl
@[simp] theorem State.drew_freeCtr (s : State) : s.drew.freeCtr = s.freeCtr + 1 := rfl

/-! ### The modes are read from the register file alone -/

theorem State.reg_congr (s t : State) (hb : t.build = s.build) (hr : t.rf = s.rf) (off : Nat) : t.reg off = s.reg off := by
  unfold State.reg
  rw [hb, hr]

end Sys2Proof.Machine
end

