-- ==== Sys2Proof/Laws/Map.lean ====
section
/-!
SUPPORT. The laws of bit fields, of sparse maps and of the register file: what a read gives after a write, what a write leaves alone,
that every write keeps the canonical form.
-/

namespace Sys2Proof

/-! ### Bit fields -/

theorem getBits_testBit (x : BitVec 64) (lo w i : Nat) :
    (getBits x lo w).testBit i = (decide (i < w) && x.getLsbD (lo + i)) := by
  simp [getBits, bitsOf, Nat.testBit_mod_two_pow, Nat.testBit_div_two_pow, BitVec.testBit_toNat, Nat.add_comm]

theorem setBits_getLsbD (x : BitVec 64) (lo w v i : Nat) (hi : i < 64) :
    (setBits x lo w v).getLsbD i = if lo ≤ i ∧ i < lo + w then v.testBit (i - lo) else x.getLsbD i := by
  simp only [setBits, BitVec.getLsbD_or, BitVec.getLsbD_and, BitVec.getLsbD_not, BitVec.getLsbD_ofNat,
    Nat.testBit_mul_two_pow, Nat.testBit_two_pow_sub_one, Nat.testBit_mod_two_pow, hi]
  by_cases h1 : lo ≤ i
  · by_cases h2 : i < lo + w
    · have h3 : i - lo < w := by omega
      simp [h1, h2, h3]
    · have h3 : ¬ i - lo < w := by omega
      simp [h1, h2, h3]
  · simp [h1]

theorem getBits_setBits (x : BitVec 64) (lo w v : Nat) (h : lo + w ≤ 64) :
    getBits (setBits x lo w v) lo w = v % 2 ^ w := by
  apply Nat.eq_of_testBit_eq
  intro i
  rw [getBits_testBit, Nat.testBit_mod_two_pow]
  by_cases hi : i < w
  · rw [setBits_getLsbD _ _ _ _ _ (by omega)]
    simp [hi]
  · simp [hi]

theorem getBits_setBits_other (x : BitVec 64) (lo w v lo' w' : Nat) (h : lo' + w' ≤ 64)
    (hd : lo' + w' ≤ lo ∨ lo + w ≤ lo') : getBits (setBits x lo w v) lo' w' = getBits x lo' w' := by
  apply Nat.eq_of_testBit_eq
  intro i
  rw [getBits_testBit, getBits_testBit]
  by_cases hi : i < w'
  · rw [setBits_getLsbD _ _ _ _ _ (by omega), if_neg (by omega)]
  · simp [hi]

/-! ### Sparse maps -/

namespace SMap
variable {α : Type}

theorem get_erase (d : Nat → α) (l : List (Nat × α)) (a b : Nat) :
    get d (erase l a) b = if b = a then d b else get d l b := by
  induction l with
  | nil => simp [erase, get]
  | cons p t ih =>
    obtain ⟨k, v⟩ := p
    have e : erase ((k, v) :: t) a = if k = a then erase t a else (k, v) :: erase t a := by
      by_cases h : k = a <;> simp [erase, h]
    rw [e]
    by_cases hk : k = a
    · rw [if_pos hk, ih]
      by_cases hb : b = a
      · simp [hb]
      · simp [get, hb, hk, Ne.symm hb]
    · rw [if_neg hk]
      by_cases hkb : k = b
      · subst hkb; simp [get, hk]
      · simp [get, hkb, ih]

theorem get_insert (d : Nat → α) (l : List (Nat × α)) (a b : Nat) (v : α) (h : ∀ p ∈ l, p.1 ≠ a) :
    get d (insert a v l) b = if b = a then v else get d l b := by
  induction l with
  | nil => by_cases hb : a = b <;> simp [insert, get, hb, eq_comm]
  | cons p t ih =>
    obtain ⟨k, w⟩ := p
    have hk : k ≠ a := h (k, w) (by simp)
    have ih' := ih fun p hp => h p (by simp [hp])
    by_cases hlt : a < k
    · simp only [insert, hlt, if_true, get, eq_comm]
    · simp only [insert, hlt, if_false, get, ih']
      by_cases hkb : k = b
      · subst hkb; simp [hk]
      · simp [hkb]

theorem mem_erase_ne (l : List (Nat × α)) (a : Nat) : ∀ p ∈ erase l a, p.1 ≠ a := by
  intro p hp
  simpa using (List.mem_filter.mp hp).2

/-- What a read gives after a write. -/
theorem get_put [DecidableEq α] (d : Nat → α) (l : List (Nat × α)) (a b : Nat) (v : α) :
    get d (put d l a v) b = if b = a then v else get d l b := by
  unfold put
  split
  · rename_i hv
    rw [get_erase]
    by_cases hb : b = a <;> simp [hb, hv]
  · rw [get_insert d _ a b v (mem_erase_ne l a), get_erase]
    by_cases hb : b = a <;> simp [hb]

theorem wf_cons [DecidableEq α] (d : Nat → α) (k : Nat) (v : α) (t : List (Nat × α)) :
    wf d ((k, v) :: t) = true ↔ (∀ p ∈ t, k < p.1) ∧ v ≠ d k ∧ wf d t = true := by
  simp [wf, and_assoc]

theorem wf_erase [DecidableEq α] (d : Nat → α) (l : List (Nat × α)) (a : Nat) (h : wf d l = true) : wf d (erase l a) = true := by
  induction l with
  | nil => exact h
  | cons p t ih =>
    obtain ⟨k, v⟩ := p
    obtain ⟨h1, h2, h3⟩ := (wf_cons d k v t).mp h
    by_cases hk : k = a
    · simpa [erase, hk] using ih h3
    · have e : erase ((k, v) :: t) a = (k, v) :: erase t a := by simp [erase, hk]
      rw [e, wf_cons]
      exact ⟨fun p hp => h1 p (List.mem_filter.mp hp).1, h2, ih h3⟩

theorem mem_insert (a : Nat) (v : α) (l : List (Nat × α)) (p : Nat × α) (hp : p ∈ insert a v l) : p = (a, v) ∨ p ∈ l := by
  induction l with
  | nil => simpa [insert] using hp
  | cons q t ih =>
    obtain ⟨k, w⟩ := q
    by_cases hlt : a < k
    · simpa [insert, hlt] using hp
    · simp only [insert, hlt, if_false, List.mem_cons] at hp ⊢
      rcases hp with hp | hp
      · exact .inr (.inl hp)
      · rcases ih hp with h | h
        · exact .inl h
        · exact .inr (.inr h)

theorem wf_insert [DecidableEq α] (d : Nat → α) (l : List (Nat × α)) (a : Nat) (v : α) (h : wf d l = true) (ha : ∀ p ∈ l, p.1 ≠ a)
    (hv : v ≠ d a) : wf d (insert a v l) = true := by
  induction l with
  | nil => simp [insert, wf, hv]
  | cons q t ih =>
    obtain ⟨k, w⟩ := q
    obtain ⟨h1, h2, h3⟩ := (wf_cons d k w t).mp h
    have hk : k ≠ a := ha (k, w) (by simp)
    by_cases hlt : a < k
    · simp only [insert, hlt, if_true, wf_cons]
      refine ⟨fun p hp => ?_, hv, h1, h2, h3⟩
      rcases List.mem_cons.mp hp with rfl | hp
      · exact hlt
      · exact Nat.lt_trans hlt (h1 p hp)
    · simp only [insert, hlt, if_false, wf_cons]
      refine ⟨fun p hp => ?_, h2, ih h3 fun p hp => ha p (by simp [hp])⟩
      rcases mem_insert a v t p hp with rfl | hp
      · show k < a
        omega
      · exact h1 p hp

/-- A write keeps the canonical form. -/
theorem wf_put [DecidableEq α] (d : Nat → α) (l : List (Nat × α)) (a : Nat) (v : α) (h : wf d l = true) : wf d (put d l a v) = true := by
  unfold put
  split
  · exact wf_erase d l a h
  · rename_i hv
    exact wf_insert d _ a v (wf_erase d l a h) (mem_erase_ne l a) hv

end SMap
end Sys2Proof

namespace Sys2Proof.Machine

/-! ### The register file -/

theorem State.reg_setReg (s : State) (off off' : Nat) (v : W64) :
    (s.setReg off v).reg off' = if off' = off then v else s.reg off' := SMap.get_put _ _ _ _ _

@[simp] theorem State.reg_setReg_self (s : State) (off : Nat) (v : W64) : (s.setReg off v).reg off = v := by
  simp [State.reg_setReg]

theorem State.reg_setReg_ne (s : State) (off off' : Nat) (v : W64) (h : off' ≠ off) :
    (s.setReg off v).reg off' = s.reg off' := by
  simp [State.reg_setReg, h]

theorem State.reg_setFld_ne (s : State) (f : FRef) (v off : Nat) (h : off ≠ f.off) : (s.setFld f v).reg off = s.reg off :=
  s.reg_setReg_ne _ _ _ h

theorem State.reg_setFlag_ne (s : State) (f : FRef) (b : Bool) (off : Nat) (h : off ≠ f.off) :
    (s.setFlag f b).reg off = s.reg off := s.reg_setFld_ne _ _ _ h

/-- A field reads as it was written. -/
theorem State.fld_setFld (s : State) (f : FRef) (v : Nat) (h : f.lo + f.w ≤ 64) : (s.setFld f v).fld f = v % 2 ^ f.w := by
  unfold State.fld State.setFld
  rw [State.reg_setReg_self]
  exact getBits_setBits _ _ _ _ h

/-- A field of another register, or beside the one written, is left alone. -/
theorem State.fld_setFld_other (s : State) (f g : FRef) (v : Nat) (hg : g.lo + g.w ≤ 64)
    (h : g.off ≠ f.off ∨ g.lo + g.w ≤ f.lo ∨ f.lo + f.w ≤ g.lo) : (s.setFld f v).fld g = s.fld g := by
  unfold State.fld State.setFld
  rw [State.reg_setReg]
  split
  · rename_i he
    rw [getBits_setBits_other _ _ _ _ _ _ hg (h.resolve_left fun hn => hn he), he]
  · rfl

theorem State.flag_setFlag (s : State) (f : FRef) (b : Bool) (h : f.lo + f.w ≤ 64) (hw : 0 < f.w) :
    (s.setFlag f b).flag f = b := by
  have h2 : 1 % 2 ^ f.w = 1 := Nat.mod_eq_of_lt (Nat.one_lt_two_pow (by omega))
  unfold State.flag State.setFlag
  rw [State.fld_setFld _ _ _ h]
  cases b <;> simp [b2n, h2]

theorem State.flag_setFld_other (s : State) (f g : FRef) (v : Nat) (hg : g.lo + g.w ≤ 64)
    (h : g.off ≠ f.off ∨ g.lo + g.w ≤ f.lo ∨ f.lo + f.w ≤ g.lo) : (s.setFld f v).flag g = s.flag g := by
  unfold State.flag
  rw [State.fld_setFld_other s f g v hg h]

theorem State.flag_setFlag_other (s : State) (f g : FRef) (b : Bool) (hg : g.lo + g.w ≤ 64)
    (h : g.off ≠ f.off ∨ g.lo + g.w ≤ f.lo ∨ f.lo + f.w ≤ g.lo) : (s.setFlag f b).flag g = s.flag g :=
  State.flag_setFld_other s f g _ hg h

/-- A register write keeps the register file canonical. -/
theorem State.setReg_rfWf (s : State) (off : Nat) (v : W64) (h : s.rfWf = true) : (s.setReg off v).rfWf = true :=
  SMap.wf_put _ _ _ _ h

theorem State.setFld_rfWf (s : State) (f : FRef) (v : Nat) (h : s.rfWf = true) : (s.setFld f v).rfWf = true :=
  s.setReg_rfWf _ _ h

end Sys2Proof.Machine
end

