-- ==== Sys2Proof/Laws/Guards.lean ====
section
/-!
SUPPORT. The guards of the meanings: what they read, what holds where CCLK stands still and in a disabled engine.
-/

namespace Sys2Proof.Machine

theorem State.mode_setFld (s : State) (f : FRef) (v : Nat) (h : f.off ≠ 0x10000) : (s.setFld f v).mode = s.mode := by
  unfold State.mode
  exact State.fld_setFld_other _ _ _ _ (by decide) (.inl fun e => h (e.symm.trans (by decide)))

theorem State.mode_setFlag (s : State) (f : FRef) (b : Bool) (h : f.off ≠ 0x10000) : (s.setFlag f b).mode = s.mode :=
  s.mode_setFld f _ h

theorem State.mode_setReg (s : State) (off : Nat) (v : W64) (h : off ≠ 0x10000) : (s.setReg off v).mode = s.mode := by
  unfold State.mode State.fld
  rw [State.reg_setReg_ne _ _ _ _ fun e => h (e.symm.trans (by decide))]

/-- Modes and clocks depend on the register file, the build and the AO part alone. -/
theorem State.mode_congr (s t : State) (hb : t.build = s.build) (hr : t.rf = s.rf) : t.mode = s.mode := by
  unfold State.mode State.fld
  rw [State.reg_congr s t hb hr]

theorem State.cclkOn_of (s t : State) (hm : t.mode = s.mode) (ha : t.ao = s.ao) : t.cclkOn = s.cclkOn := by
  unfold State.cclkOn State.inReset State.asleep
  rw [hm, ha]

theorem State.cclkOn_setFld (s : State) (f : FRef) (v : Nat) (h : f.off ≠ 0x10000) :
    (s.setFld f v).cclkOn = s.cclkOn := State.cclkOn_of _ _ (s.mode_setFld f v h) rfl

theorem State.cclkOn_setFlag (s : State) (f : FRef) (b : Bool) (h : f.off ≠ 0x10000) :
    (s.setFlag f b).cclkOn = s.cclkOn := s.cclkOn_setFld f _ h

theorem whileClocked_on {s : State} (h : s.cclkOn = true) (t : State) : whileClocked s t = t := by simp [whileClocked, h]
theorem whileClocked_off {s : State} (h : s.cclkOn = false) (t : State) : whileClocked s t = s := by simp [whileClocked, h]
theorem whilePowered_on {s : State} (h : s.aoOn = true) (t : State) : whilePowered s t = t := by simp [whilePowered, h]
theorem whilePowered_off {s : State} (h : s.aoOn = false) (t : State) : whilePowered s t = s := by simp [whilePowered, h]
theorem whileLive_on {s : State} (h : s.live = true) (t : State) : whileLive s t = t := by simp [whileLive, h]

/-- Nothing that Halt stops works while CCLK stands still. -/
theorem State.live_off {s : State} (h : s.cclkOn = false) : s.live = false := by simp [State.live, h]
theorem State.live_clocked {s : State} (h : s.live = true) : s.cclkOn = true := by
  simp only [State.live, Bool.and_eq_true] at h
  exact h.1
theorem whileLive_off {s : State} (h : s.cclkOn = false) (t : State) : whileLive s t = s := by
  simp [whileLive, State.live_off h]

/-- The command core needs CCLK. -/
theorem State.coreUp_off {s : State} (h : s.cclkOn = false) : s.coreUp = false := by simp [State.coreUp, h]
theorem State.coreRuns_off {s : State} (h : s.cclkOn = false) : s.coreRuns = false := by
  simp [State.coreRuns, State.coreUp_off h]
theorem State.firmware_off {s : State} (h : s.cclkOn = false) : s.firmware = false := by
  simp [State.firmware, State.coreUp_off h]

/-- No instruction begins while CCLK stands still. -/
theorem ccStart_off {s : State} (h : s.cclkOn = false) (len : Nat) (wt : Option CcWait) (op : State → State) :
    ccStart len wt s op = s := by
  simp [ccStart, State.coreRuns_off h]

/-- A disabled engine is in reset: CCLK does not run, the AO island is held. -/
theorem State.disabled_engDis {s : State} (h : s.disabled = true) : s.ao.engDis = true := by
  simp only [State.disabled, Bool.and_eq_true] at h
  exact h.1
theorem State.disabled_inReset {s : State} (h : s.disabled = true) : s.inReset = true := by
  simp [State.inReset, State.disabled_engDis h]
theorem State.disabled_cclkOff {s : State} (h : s.disabled = true) : s.cclkOn = false := by
  simp [State.cclkOn, State.disabled_inReset h]
theorem State.disabled_aoOff {s : State} (h : s.disabled = true) : s.aoOn = false := by
  simp [State.aoOn, State.disabled_engDis h]

end Sys2Proof.Machine
end

