-- ==== Sys2Proof/Laws/Reports.lean ====
section
/-!
SUPPORT. The operations that only report: raisings of doorbell sources, observed unit states, timer events, trace packets. One lemma
per operation says everything it can change.
-/

namespace Sys2Proof.Machine

theorem Reports.refl (s : State) : Reports s s := ⟨rfl, fun _ _ => rfl⟩

theorem Reports.trans {s t u : State} (h : Reports s t) (k : Reports t u) : Reports s u := by
  refine ⟨?_, fun off ho => (k.regs off ho).trans (h.regs off ho)⟩
  have h1 := h.rest
  have k1 := k.rest
  rw [h1] at k1
  exact k1

theorem Reports.foldl {α : Type} (f : State → α → State) (l : List α) (hf : ∀ s, ∀ a ∈ l, Reports s (f s a)) (s : State) :
    Reports s (l.foldl f s) := by
  induction l generalizing s with
  | nil => exact .refl s
  | cons a l ih => exact .trans (hf s a (by simp)) (ih (fun s b hb => hf s b (by simp [hb])) _)

theorem Reports.setReg (s : State) (off : Nat) (v : W64) (h : reportOff off = true) : Reports s (s.setReg off v) := by
  refine ⟨rfl, fun o ho => s.reg_setReg_ne _ _ _ ?_⟩
  rintro rfl
  simp [h] at ho

theorem Reports.setFld (s : State) (f : FRef) (v : Nat) (h : reportOff f.off = true) : Reports s (s.setFld f v) :=
  .setReg s _ _ h

theorem Reports.setFlag (s : State) (f : FRef) (b : Bool) (h : reportOff f.off = true) : Reports s (s.setFlag f b) :=
  .setReg s _ _ h

/-! ### Raisings -/

theorem Reports.wakeEvent (s : State) : Reports s s.wakeEvent := by
  unfold State.wakeEvent
  split
  · exact ⟨rfl, fun _ _ => rfl⟩
  · split
    · exact .refl s
    · exact ⟨rfl, fun _ _ => rfl⟩

theorem reportOff_watch (w : Nat) (h : w < 64) : reportOff (F.DIC_WATCH_HIT w).off = true := by
  simp only [reportOff, Bool.or_eq_true, Bool.and_eq_true, beq_iff_eq, decide_eq_true_eq]
  omega

theorem State.watchers_lt (s : State) (src : Nat) : ∀ w ∈ s.watchers src, w < 64 := by
  intro w hw
  exact List.mem_range.mp (List.mem_filter.mp hw).1

theorem Reports.watchHit (s : State) (src : Nat) : Reports s (s.watchHit src) := by
  unfold State.watchHit
  split
  · extract_lets first s1 s2
    have h1 : Reports s s1 :=
      .foldl _ _ (fun u w hw => .setFlag u _ _ (reportOff_watch w (s.watchers_lt src w hw))) s
    have h2 : Reports s s2 := by
      refine .trans h1 ?_
      unfold s2
      split
      · exact .setFld _ _ _ rfl
      · exact .refl _
    refine .trans h2 ?_
    split
    · exact .trans (.setFlag _ _ _ rfl) (.wakeEvent _)
    · exact .refl _
  · exact .refl s

theorem reportOff_src (src : Nat) (h : src < 4096) : reportOff (F.DIC_SRC_COUNT src).off = true := by
  simp only [reportOff, Bool.or_eq_true, Bool.and_eq_true, beq_iff_eq, decide_eq_true_eq]
  omega

theorem Reports.raiseN (s : State) (src add : Nat) : Reports s (s.raiseN src add) := by
  unfold State.raiseN
  split
  · exact .watchHit s src
  · split
    · exact .refl s
    · split
      · exact .refl s
      · rename_i h
        refine .setFld s _ _ (reportOff_src src ?_)
        simp only [reservedSource, Bool.or_eq_true, Bool.and_eq_true, beq_iff_eq, decide_eq_true_eq] at h
        omega

theorem Reports.raise (s : State) (src : Nat) : Reports s (s.raise src) := .raiseN s src 1

theorem Reports.assertWatch (s : State) (src : Nat) : Reports s (s.assertWatch src) := .watchHit s src

/-- What raising a counting source does while CCLK runs. -/
theorem State.raise_eq (s : State) (src : Nat) (hc : s.cclkOn = true) (h32 : 32 ≤ src) (hr : reservedSource src = false) :
    s.raise src = s.setFld (F.DIC_SRC_COUNT src) (satAdd (s.fld (F.DIC_SRC_COUNT src)) 1 15) := by
  simp only [State.cclkOn, Bool.and_eq_true, Bool.not_eq_true'] at hc
  simp [State.raise, State.raiseN, hc, hr, Nat.not_lt.mpr h32]

/-! ### Unit states -/

theorem Reports.reportDue (s : State) (b : Bool) : Reports s { s with cmds := { s.cmds with reportDue := b } } :=
  ⟨rfl, fun _ _ => rfl⟩

theorem reportOff_ust (u : Nat) (h : u < 1024) : reportOff (0x038000 + 0x8 * u) = true := by
  simp only [reportOff, Bool.or_eq_true, Bool.and_eq_true, beq_iff_eq, decide_eq_true_eq]
  omega

theorem Reports.judged (s s1 : State) (h : Reports s s1) (div : Bool) (u c : Nat) (ho : reportOff (0x038000 + 0x8 * u) = true) :
    Reports s (if div then (({ s1 with cmds := { s1.cmds with reportDue := true } } : State).raise 159).setFld (F.CMD_UST_CAUSE u) c
      else ({ s1 with cmds := { s1.cmds with reportDue := true } } : State).raise 159) := by
  have k := Reports.trans h (.trans (.reportDue s1 true) (.raise _ 159))
  cases div
  · exact k
  · exact .trans k (.setFld _ _ _ ho)

theorem Reports.judgeUnit (cls idx cause : Nat) (s : State) (h : ustIdx cls idx < 1024) : Reports s (judgeUnit cls idx cause s) := by
  have ho := reportOff_ust _ h
  unfold Machine.judgeUnit
  by_cases hd : (!statesAgree (s.fld (F.CMD_UST_DECL (ustIdx cls idx))) (s.fld (F.CMD_UST_OBS (ustIdx cls idx)))) =
      s.flag (F.CMD_UST_DIV (ustIdx cls idx))
  · simp only [hd, beq_self_eq_true, if_true]
    exact .refl s
  · simp only [beq_iff_eq, hd, if_false]
    exact .judged s _ (.trans (.setFlag s _ _ ho) (.setFld _ _ _ ho)) _ _ _ ho

theorem unitPresent_ustIdx (b : Build) (cls idx : Nat) (h : unitPresent b cls idx = true) : ustIdx cls idx < 1024 := by
  simp only [unitPresent, Bool.and_eq_true] at h
  have hv := h.1
  unfold unitValid at hv
  unfold ustIdx
  split at hv <;> simp at hv <;> omega

theorem Reports.observe (cls idx obs cause : Nat) (s : State) : Reports s (observe cls idx obs cause s) := by
  unfold Machine.observe
  split
  · rename_i h
    have hu := unitPresent_ustIdx _ _ _ h
    exact .trans (.setFld s _ _ (reportOff_ust _ hu)) (.judgeUnit _ _ _ _ hu)
  · exact .refl s

theorem Reports.observePu (n : Nat) (s : State) : Reports s (observePu n s) := by
  unfold Machine.observePu
  repeat' split
  all_goals exact .observe _ _ _ _ s

theorem Reports.observePus (mask : Nat) (s : State) : Reports s (observePus mask s) :=
  .foldl _ _ (fun _ _ _ => .observePu _ _) s

/-! ### Timers -/

theorem reportOff_tmr (n off : Nat) (h : n < 32) (ho : off < 0x80) : reportOff (0x2C0000 + 0x80 * n + off) = true := by
  simp only [reportOff, Bool.or_eq_true, Bool.and_eq_true, beq_iff_eq, decide_eq_true_eq]
  omega

theorem reportOff_tmrStat (n : Nat) (h : n < 32) : reportOff (0x2C0060 + 0x80 * n) = true := by
  simp only [reportOff, Bool.or_eq_true, Bool.and_eq_true, beq_iff_eq, decide_eq_true_eq]
  omega

theorem Reports.tmrEvent (csel : Nat) (r f : Bool) (s : State) : Reports s (tmrEvent csel r f s) := ⟨rfl, fun _ _ => rfl⟩
theorem Reports.setTmr (s : State) (n : Nat) (x : Tmr) : Reports s (s.setTmr n x) := ⟨rfl, fun _ _ => rfl⟩

theorem Reports.tmrRaise (n b : Nat) (s : State) : Reports s (tmrRaise n b s) := by
  unfold Machine.tmrRaise
  split
  · exact .raise _ _
  · exact .refl s

theorem Reports.tmrStep (n : Nat) (s : State) : Reports s (tmrStep n s) := by
  unfold Machine.tmrStep
  extract_lets t0 t
  split <;> split
  all_goals first
    | exact .trans (.setTmr s _ _) (.tmrRaise _ _ _)
    | exact .setTmr s _ _

theorem Reports.tmrSteps (n k : Nat) (s : State) : Reports s (tmrSteps n k s) := by
  induction k generalizing s with
  | zero => exact .refl s
  | succ k ih => exact .trans (.tmrStep n s) (ih _)

theorem Reports.tmrLost (n : Nat) (s : State) : Reports s (tmrLost n s) := by
  unfold Machine.tmrLost
  split
  · exact .refl s
  · rename_i h
    have hn : n < 32 := by simp at h; omega
    exact .trans (.trans (.setFlag s _ _ (reportOff_tmrStat n hn)) (.setFlag _ _ _ (reportOff_tmrStat n hn)))
      (.trans (.tmrRaise _ _ _) (.observe _ _ _ _ _))

theorem Reports.tmrReturn (n : Nat) (s : State) : Reports s (tmrReturn n s) := by
  unfold Machine.tmrReturn
  split
  · exact .refl s
  · rename_i h
    have hn : n < 32 := by simp at h; omega
    exact .trans (.trans (.setFlag s _ _ (reportOff_tmrStat n hn)) (.setTmr _ _ _))
      (.trans (.tmrRaise _ _ _) (.observe _ _ _ _ _))

theorem Reports.tmrsLost (src : Nat) (s : State) : Reports s (tmrsLost src s) := .foldl _ _ (fun _ _ _ => .tmrLost _ _) s
theorem Reports.tmrsReturn (src : Nat) (s : State) : Reports s (tmrsReturn src s) := .foldl _ _ (fun _ _ _ => .tmrReturn _ _) s

/-! ### Trace packets -/

theorem Reports.tracePut (l : List Byte) (s : State) : Reports s (tracePut l s) := ⟨rfl, fun _ _ => rfl⟩

theorem Reports.traceSync (s : State) : Reports s (traceSync s) := by
  unfold Machine.traceSync
  split
  · exact .refl s
  · exact ⟨rfl, fun _ _ => rfl⟩

theorem Reports.owed (s : State) (n : Nat) : Reports s { s with tdu := { s.tdu with owed := n } } := ⟨rfl, fun _ _ => rfl⟩

theorem Reports.traceOwed (s u : State) (h : Reports s u) (b : Bool) :
    Reports s (if b then Machine.traceSync { u with tdu := { u.tdu with owed := 0 } } else s) := by
  cases b
  · exact .refl s
  · exact .trans h (.trans (.owed u 0) (.traceSync _))

theorem Reports.traceQueue (s u v : State) (hu : Reports s u) (hv : Reports s v) (c d : Bool) (n : Nat) :
    Reports s (if c then { u with tdu := { u.tdu with owed := n } } else if d then Machine.traceSync v else v) := by
  cases c
  · cases d
    · exact hv
    · exact .trans hv (.traceSync _)
  · exact .trans hu (.owed u n)

theorem Reports.traceEmit (ty : Nat) (l : List Byte) (s : State) : Reports s (traceEmit ty l s) := by
  unfold Machine.traceEmit
  split
  · exact .refl s
  · have h := Reports.traceOwed s _ (.tracePut (packetBytes 5 (leBytes 2 (min s.tdu.owed 65535))) s)
      (s.tdu.owed != 0 && decide (16 ≤ s.traceFree))
    have k := fun u : State => Reports.traceQueue u _ _ (.setFld u F.TDU_TRST_LOST
        (satAdd (u.fld F.TDU_TRST_LOST) 1 (2 ^ F.TDU_TRST_LOST.w - 1)) rfl) (.tracePut (packetBytes ty l) u)
      (u.tdu.owed != 0 || decide (u.traceFree < (packetBytes ty l).length))
      (decide (4096 ≤ (Machine.tracePut (packetBytes ty l) u).tdu.sinceSync)) (u.tdu.owed + 1)
    simp only [decide_eq_true_eq] at k
    exact .trans h (k _)

theorem Reports.traceMode (s : State) : Reports s (traceMode s) := .traceEmit _ _ s

/-! ### What reports leave alone -/

theorem Reports.build {s t : State} (h : Reports s t) : t.build = s.build := by rw [h.rest]
theorem Reports.hb {s t : State} (h : Reports s t) : t.hb = s.hb := by rw [h.rest]
theorem Reports.spm {s t : State} (h : Reports s t) : t.spm = s.spm := by rw [h.rest]
theorem Reports.cc {s t : State} (h : Reports s t) : t.cc = s.cc := by rw [h.rest]
theorem Reports.pus {s t : State} (h : Reports s t) : t.pus = s.pus := by rw [h.rest]
theorem Reports.trip {s t : State} (h : Reports s t) : t.trip = s.trip := by rw [h.rest]
theorem Reports.pending {s t : State} (h : Reports s t) : t.pending = s.pending := by rw [h.rest]

theorem Reports.fld {s t : State} (h : Reports s t) (f : FRef) (ho : reportOff f.off = false) : t.fld f = s.fld f := by
  unfold State.fld
  rw [h.regs _ ho]
theorem Reports.flag {s t : State} (h : Reports s t) (f : FRef) (ho : reportOff f.off = false) : t.flag f = s.flag f := by
  unfold State.flag
  rw [h.fld f ho]
theorem Reports.mode {s t : State} (h : Reports s t) : t.mode = s.mode := h.fld _ rfl
theorem Reports.cclkOn {s t : State} (h : Reports s t) : t.cclkOn = s.cclkOn := by
  unfold State.cclkOn State.inReset State.asleep
  rw [h.mode, h.rest]

end Sys2Proof.Machine
end

