-- ==== Sys2Proof/Laws/Core.lean ====
section
/-!
SUPPORT. The command core: bits of STAT, registers of a bank, the fetch that every instruction begins with.
-/

namespace Sys2Proof

theorem bitOf_eq_testBit (m k : Nat) : bitOf m k = m.testBit k := by
  rw [bitOf, Nat.testBit, Nat.shiftRight_eq_div_pow, Nat.one_and_eq_mod_two]
  cases h : m / 2 ^ k % 2 == 1 <;> simp_all

theorem ofNat_two_pow (k : Nat) : BitVec.ofNat 32 (2 ^ k) = BitVec.twoPow 32 k := by
  apply BitVec.eq_of_toNat_eq
  simp [BitVec.toNat_twoPow]

/-- Setting a bit of a word kept as a number. -/
theorem ofNat_setBit (x : BitVec 32) (k : Nat) (hk : k < 32) :
    BitVec.ofNat 32 (setBit x.toNat k) = x ||| BitVec.twoPow 32 k := by
  unfold setBit
  rw [bitOf_eq_testBit, BitVec.testBit_toNat]
  by_cases h : x.getLsbD k = true
  · rw [if_pos h, BitVec.ofNat_toNat, BitVec.setWidth_eq]
    ext i hi
    by_cases hik : i = k
    · subst hik; simp [← BitVec.getLsbD_eq_getElem, h]
    · simp [BitVec.getElem_twoPow, hik]
  · rw [if_neg h, BitVec.ofNat_add, BitVec.ofNat_toNat, BitVec.setWidth_eq, ofNat_two_pow, BitVec.add_eq_or_of_and_eq_zero]
    ext i hi
    by_cases hik : i = k
    · subst hik; simp_all [BitVec.getLsbD_eq_getElem]
    · simp [BitVec.getElem_twoPow, hik]

theorem clear_add (x : BitVec 32) (k : Nat) (hk : k < 32) (h : x.getLsbD k = true) :
    (x &&& ~~~(BitVec.twoPow 32 k)) + BitVec.twoPow 32 k = x := by
  rw [BitVec.add_eq_or_of_and_eq_zero]
  · ext i hi
    by_cases hik : i = k
    · subst hik; simpa [BitVec.getElem_twoPow, BitVec.getLsbD_eq_getElem, hi] using h
    · simp [BitVec.getElem_twoPow, hik]
  · ext i hi
    simp

/-- Clearing a bit of a word kept as a number. -/
theorem ofNat_clrBit (x : BitVec 32) (k : Nat) (hk : k < 32) :
    BitVec.ofNat 32 (clrBit x.toNat k) = x &&& ~~~(BitVec.twoPow 32 k) := by
  unfold clrBit
  rw [bitOf_eq_testBit, BitVec.testBit_toNat]
  by_cases h : x.getLsbD k = true
  · rw [if_pos h]
    have hle : 2 ^ k ≤ x.toNat := Nat.ge_two_pow_of_testBit (by rw [BitVec.testBit_toNat]; exact h)
    have e : BitVec.ofNat 32 (x.toNat - 2 ^ k) = x - BitVec.twoPow 32 k := by
      rw [← ofNat_two_pow]
      apply BitVec.eq_of_toNat_eq
      have h1 := x.isLt
      have h2 : 2 ^ k % 2 ^ 32 = 2 ^ k := Nat.mod_eq_of_lt (Nat.lt_of_le_of_lt hle h1)
      simp only [BitVec.toNat_ofNat, BitVec.toNat_sub, h2]
      omega
    rw [e]
    conv_lhs => rw [← clear_add x k hk h]
    simp
  · rw [if_neg h, BitVec.ofNat_toNat, BitVec.setWidth_eq]
    ext i hi
    by_cases hik : i = k
    · subst hik; simp_all [BitVec.getLsbD_eq_getElem]
    · simp [BitVec.getElem_twoPow, hik]

namespace Machine

/-! ### STAT -/

/-- A bit of STAT after a bit has been set. -/
theorem CcSt.bit_setStatBit (c : CcSt) (k j : Nat) (b : Bool) (hk : k < 32) (hj : j < 32) :
    (c.setStatBit k b).bit j = if j = k then b else c.bit j := by
  unfold CcSt.bit CcSt.setStatBit
  cases b
  · simp only [Bool.false_eq_true, if_false]
    rw [ofNat_clrBit _ _ hk]
    by_cases h : j = k
    · subst h; simp [hj]
    · simp [hj, h]
  · simp only [if_true]
    rw [ofNat_setBit _ _ hk]
    by_cases h : j = k
    · subst h; simp [hj]
    · simp [BitVec.getLsbD_twoPow, hj, h]

theorem CcSt.bit_setFlags (c : CcSt) (f : AluFlags) (j : Nat) (hj : j < 32) :
    (c.setFlags f).bit j = if j = 8 then f.z else if j = 9 then f.n else if j = 10 then f.c else if j = 11 then f.v else c.bit j := by
  unfold CcSt.setFlags
  repeat rw [CcSt.bit_setStatBit _ _ _ _ (by decide) hj]
  by_cases h8 : j = 8
  · simp [h8]
  by_cases h9 : j = 9
  · simp [h9]
  by_cases h10 : j = 10
  · simp [h10]
  by_cases h11 : j = 11 <;> simp [h8, h9, h10, h11]

@[simp] theorem CcSt.aluFlags_setFlags (c : CcSt) (f : AluFlags) : (c.setFlags f).aluFlags = f := by
  unfold CcSt.aluFlags
  simp [CcSt.bit_setFlags]

@[simp] theorem CcSt.setFlags_g (c : CcSt) (f : AluFlags) : (c.setFlags f).g = c.g := rfl
@[simp] theorem CcSt.setFlags_pc (c : CcSt) (f : AluFlags) : (c.setFlags f).pc = c.pc := rfl
@[simp] theorem CcSt.setFlags_mql (c : CcSt) (f : AluFlags) : (c.setFlags f).mql = c.mql := rfl
@[simp] theorem CcSt.setFlags_mqh (c : CcSt) (f : AluFlags) : (c.setFlags f).mqh = c.mqh := rfl
@[simp] theorem CcSt.setStatBit_g (c : CcSt) (k : Nat) (b : Bool) : (c.setStatBit k b).g = c.g := rfl
@[simp] theorem CcSt.setStatBit_pc (c : CcSt) (k : Nat) (b : Bool) : (c.setStatBit k b).pc = c.pc := rfl

/-! ### Registers -/

/-- A kept register after a write of one. -/
theorem CcSt.slot_setSlot (c : CcSt) (i j : Nat) (v : W32) : (c.setSlot i v).slot j = if j = i then v else c.slot j :=
  SMap.get_put _ _ _ _ _

theorem gSlot_inj (sb : Bool) (j k : Nat) (hj : j < 32) (hk : k < 32) : gSlot sb j = gSlot sb k ↔ j = k := by
  unfold gSlot
  cases sb <;> simp only [Bool.false_eq_true, if_false, if_true, ite_self] <;> split <;> split <;> omega

theorem State.sb_setG (s : State) (k : Nat) (v : W32) : (s.setG k v).sb = s.sb := by
  unfold State.setG
  split <;> rfl

/-- A register reads as it was written; g0 reads zero. -/
theorem State.g_setG (s : State) (k j : Nat) (v : W32) (hk : k < 32) (hj : j < 32) :
    (s.setG k v).g j = if j = k ∧ k ≠ 0 then v else s.g j := by
  unfold State.g
  rw [State.sb_setG]
  by_cases h0 : j = 0
  · subst h0
    by_cases hk0 : k = 0 <;> simp [hk0, eq_comm]
  · rw [if_neg h0]
    unfold State.setG
    by_cases hk0 : k = 0
    · simp [hk0, h0]
    · simp only [hk0, if_false]
      rw [CcSt.slot_setSlot]
      simp [gSlot_inj _ _ _ hj hk, h0, hk0]

/-- Registers read through STAT's bank bit and the register file alone. -/
theorem State.g_congr (s t : State) (k : Nat) (hg : t.cc.g = s.cc.g) (hb : t.cc.bit 4 = s.cc.bit 4) : t.g k = s.g k := by
  unfold State.g State.sb CcSt.slot
  rw [hg, hb]

/-! ### The fetch -/

/-- What notes on stored bytes may change: SCRUB_ERR, SCRUB_CCNT and the counts of doorbell sources, the list of bytes to
be written back. -/
structure Notes (s t : State) : Prop where
  rest : t = { s with rf := t.rf, fixups := t.fixups }
  regs : ∀ off, (off ≠ 0x048008 ∧ off ≠ 0x048010) → reportOff off = false → t.reg off = s.reg off

theorem Notes.refl (s : State) : Notes s s := ⟨rfl, fun _ _ _ => rfl⟩

theorem Notes.trans {s t u : State} (h : Notes s t) (k : Notes t u) : Notes s u := by
  refine ⟨?_, fun off h1 h2 => (k.regs off h1 h2).trans (h.regs off h1 h2)⟩
  have h1 := h.rest
  have k1 := k.rest
  rw [h1] at k1
  exact k1

theorem Notes.setFld (s : State) (f : FRef) (v : Nat) (h : f.off = 0x048008 ∨ f.off = 0x048010) : Notes s (s.setFld f v) := by
  refine ⟨rfl, fun off h1 _ => s.reg_setFld_ne _ _ _ ?_⟩
  rintro rfl
  omega

theorem Notes.mode {s t : State} (h : Notes s t) : t.mode = s.mode := by
  unfold State.mode State.fld
  rw [h.regs _ (by decide) rfl]

theorem Notes.cclkOn {s t : State} (h : Notes s t) : t.cclkOn = s.cclkOn := by
  refine State.cclkOn_of _ _ h.mode ?_
  rw [h.rest]

theorem Notes.raiseN (s : State) (src n : Nat) (hc : s.cclkOn = true) : Notes s (s.raiseN src n) := by
  simp only [State.cclkOn, Bool.and_eq_true, Bool.not_eq_true'] at hc
  unfold State.raiseN
  simp only [hc.1.1, hc.1.2, Bool.false_eq_true, if_false]
  split
  · exact .refl s
  · rename_i h
    refine ⟨rfl, fun off _ ho => s.reg_setFld_ne _ _ _ ?_⟩
    rintro rfl
    rw [reportOff_src src] at ho
    · exact absurd ho (by decide)
    · simp only [reservedSource, Bool.or_eq_true, Bool.and_eq_true, beq_iff_eq, decide_eq_true_eq] at h
      omega

theorem Notes.fixup (s : State) (x : Fixup) : Notes s { s with fixups := s.fixups ++ [x] } := ⟨rfl, fun _ _ _ => rfl⟩

theorem Notes.corrected (x : StoreSel) (a : Nat) (s : State) : Notes s (noteCorrected x a s) := by
  have h1 : ∀ f : FRef, f.off = 0x048008 ∨ f.off = 0x048010 → Notes s
      (if (s.bump f 1).fixups.contains ⟨x, a⟩ then s.bump f 1 else { s.bump f 1 with fixups := (s.bump f 1).fixups ++ [⟨x, a⟩] }) := by
    intro f hf
    split
    · exact .setFld s _ _ hf
    · exact .trans (.setFld s _ _ hf) (.fixup _ _)
  cases x
  · exact h1 F.SCRUB_CCNT_SPM (by decide)
  · exact h1 F.SCRUB_CCNT_HB (by decide)

theorem Notes.uncorrectable (x : StoreSel) (word bytes : Nat) (s : State) (hc : s.cclkOn = true) :
    Notes s (noteUncorrectable x word bytes s) := by
  unfold noteUncorrectable
  split
  · exact .refl s
  · have h1 : Notes s (if s.flag F.SCRUB_ERR_VALID then s.setFlag F.SCRUB_ERR_OVF true
        else (((s.setFlag F.SCRUB_ERR_VALID true).setFld F.SCRUB_ERR_STORE (match x with | .spm => 0 | .hb => 1)).setFld
          F.SCRUB_ERR_BYTES bytes).setFld F.SCRUB_ERR_OFFSET (word / 8 * 8)) := by
      split
      · exact .setFld s _ _ (by decide)
      · exact .trans (.setFld s _ _ (by decide)) (.trans (.setFld _ _ _ (by decide))
          (.trans (.setFld _ _ _ (by decide)) (.setFld _ _ _ (by decide))))
    exact .trans h1 (.raiseN _ _ _ (h1.cclkOn.trans hc))

theorem Notes.foldl {α : Type} (f : State → α → State) (l : List α) (hf : ∀ s a, s.cclkOn = true → Notes s (f s a)) (s : State)
    (hc : s.cclkOn = true) : Notes s (l.foldl f s) := by
  induction l generalizing s with
  | nil => exact .refl s
  | cons a l ih =>
    have h := hf s a hc
    exact .trans h (ih _ (h.cclkOn.trans hc))

theorem Notes.read (x : StoreSel) (word mask : Nat) (s : State) (hc : s.cclkOn = true) : Notes s (noteRead x word mask s) := by
  unfold noteRead
  have h : ∀ l : List Nat, Notes s (l.foldl (fun t k => noteCorrected x (word + k) t) s) :=
    fun l => .foldl _ _ (fun _ _ _ => .corrected _ _ _) s hc
  exact .trans (h _) (.uncorrectable _ _ _ _ ((h _).cclkOn.trans hc))

/-- Everything that the effects of a read of a store can change. -/
theorem Notes.reads (x : StoreSel) (a n : Nat) (s : State) (hc : s.cclkOn = true) : Notes s (noteReads x a n s) :=
  .foldl _ _ (fun _ _ h => .read _ _ _ _ h) s hc

theorem Notes.code (a n : Nat) (s : State) (hc : s.cclkOn = true) : Notes s (noteCode a n s) := by
  unfold noteCode
  split
  · exact .reads _ _ _ s hc
  · exact .refl s

theorem State.coreRuns_clocked {s : State} (h : s.coreRuns = true) : s.cclkOn = true := by
  simp only [State.coreRuns, State.coreUp, Bool.and_eq_true] at h
  exact h.1.1.1.1.1

theorem ccFetch_ready (s : State) (len : Nat) (op : State → State)
    (h : ∀ a ∈ s.halfwords len, s.executable a = true ∧ anyPen (s.codeBytes a 2) = false) :
    (match (s.halfwords len).find? fun a => !s.executable a with
    | some a => ccFault 5 1 (BitVec.ofNat 32 a) s
    | none =>
      let s1 := noteCode s.cc.pc.toNat len s
      match (s.halfwords len).find? fun a => anyPen (s.codeBytes a 2) with
      | some a => ccFault 2 1 (BitVec.ofNat 32 a) s1
      | none => op s1) = op (noteCode s.cc.pc.toNat len s) := by
  have e1 : (s.halfwords len).find? (fun a => !s.executable a) = none :=
    List.find?_eq_none.mpr fun a ha => by simp [(h a ha).1]
  have e2 : (s.halfwords len).find? (fun a => anyPen (s.codeBytes a 2)) = none :=
    List.find?_eq_none.mpr fun a ha => by simp [(h a ha).2]
  rw [e1, e2]

/-- An instruction that may begin is fetched and acts. -/
theorem ccStart_ready {s : State} {len : Nat} (h : s.ccReady len) (wt : Option CcWait) (op : State → State) :
    ccStart len wt s op = op (s.fetched len) := by
  obtain ⟨h1, h2, h3, h4⟩ := h
  unfold ccStart
  rw [if_neg (by simp [h1, h2, h3])]
  exact ccFetch_ready _ len op h4

/-- The fetch leaves everything but the notes on HB alone. -/
theorem State.fetched_notes {s : State} (h : s.coreRuns = true) (len : Nat) :
    Notes { s with cc := { s.cc with wait := none, portA := none } } (s.fetched len) := by
  refine .code _ _ _ ?_
  rw [← State.coreRuns_clocked h]
  exact State.cclkOn_of _ _ (State.mode_congr _ _ rfl rfl) rfl

theorem State.fetched_cc {s : State} (h : s.coreRuns = true) (len : Nat) :
    (s.fetched len).cc = { s.cc with wait := none, portA := none } := by
  rw [(State.fetched_notes h len).rest]

theorem State.fetched_g {s : State} (h : s.coreRuns = true) (len k : Nat) : (s.fetched len).g k = s.g k :=
  State.g_congr _ _ _ (by rw [State.fetched_cc h]) (by rw [State.fetched_cc h]; rfl)

end Machine
end Sys2Proof
end

