-- ==== Sys2Proof/Laws/Alu.lean ====
section
/-!
SUPPORT. What the shapes of the arithmetic instructions do, and the arithmetic of the 32-bit operations in numbers.
-/

namespace Sys2Proof.Machine

/-! ### Shapes of instructions -/

/-- The common end: the core's registers, STAT, the multiplier and divider change, the instruction is done. -/
theorem ccNext_ran {s : State} {len : Nat} (g : List (Nat × W32)) (stat mql mqh : W32) (fl : List CcFlight) :
    let t := ccNext len { s.fetched len with
      cc := { s.cc with g := g, stat := stat, mql := mql, mqh := mqh, flights := fl, wait := none, portA := none } }
    CcRan s len t ∧ t.cc.pc = s.cc.pc + BitVec.ofNat 32 len := ⟨⟨⟨rfl, rfl⟩, rfl⟩, rfl⟩

theorem State.setG_eq (s : State) (k : Nat) (v : W32) : s.setG k v = { s with
    cc := { s.cc with g := if k = 0 then s.cc.g else SMap.put (fun _ => (0 : W32)) s.cc.g (gSlot s.sb k) v } } := by
  unfold State.setG
  split
  · rfl
  · rfl

theorem RegTakes.setG (s u : State) (rd : BitVec 5) (v : W32) (hg : u.cc.g = s.cc.g) (hb : u.cc.bit 4 = s.cc.bit 4) :
    RegTakes s (u.setG rd.toNat v) rd.toNat v := by
  have hrd : rd.toNat < 32 := rd.isLt
  refine ⟨fun k hk => ?_, fun k hk h16 => ?_⟩
  · rw [State.g_setG u rd.toNat k v hrd hk]
    by_cases hkr : k = rd.toNat ∧ rd.toNat ≠ 0
    · rw [if_pos hkr, if_pos hkr]
    · rw [if_neg hkr, if_neg hkr]
      exact State.g_congr _ _ _ hg hb
  · have hs : u.sb = s.sb := hb
    unfold State.setG
    split
    · unfold CcSt.slot
      rw [hg]
    · show (u.cc.setSlot (gSlot u.sb rd.toNat) v).slot _ = _
      rw [CcSt.slot_setSlot, if_neg, CcSt.slot, CcSt.slot, hg]
      rw [hs]
      unfold gSlot
      cases s.sb <;> simp only [Bool.not_true, Bool.not_false, Bool.false_eq_true, if_true, if_false, ite_self] <;>
        split <;> omega

theorem RegTakes.congr {s t u : State} {rd : Nat} {v : W32} (h : RegTakes s t rd v) (hg : u.cc.g = t.cc.g)
    (hb : u.cc.bit 4 = t.cc.bit 4) : RegTakes s u rd v := by
  refine ⟨fun k hk => ?_, fun k hk h16 => ?_⟩
  · rw [State.g_congr t u k hg hb]
    exact h.bank k hk
  · have e : u.cc.slot = t.cc.slot := by unfold CcSt.slot; rw [hg]
    rw [e]
    exact h.other k hk h16

/-- Flags and a register together, and PC: the shape of every three-operand instruction. -/
theorem ccResult_ran {s : State} {len : Nat} (h : s.ccReady len) (rd : BitVec 5) (o : AluOut) :
    let t := ccNext len ({ s.fetched len with cc := (s.fetched len).cc.setFlags o.f }.setG rd.toNat o.r)
    CcRan s len t ∧ t.cc.pc = s.cc.pc + BitVec.ofNat 32 len ∧ RegTakes s t rd.toNat o.r ∧ FlagsTake s t o.f ∧ MulDivStay s t := by
  intro t
  have hf := State.fetched_cc h.1 len
  have hb : ∀ j, j < 32 → (s.fetched len).cc.bit j = s.cc.bit j := fun j _ => by rw [hf]; rfl
  have hg := RegTakes.setG s ({ s.fetched len with cc := (s.fetched len).cc.setFlags o.f } : State) rd o.r
    (by rw [hf]; rfl) (by rw [CcSt.bit_setFlags _ _ _ (by decide)]; exact hb 4 (by decide))
  have hs : t.cc.stat = ((s.fetched len).cc.setFlags o.f).stat := by
    show (State.setG _ _ _).cc.stat = _
    rw [State.setG_eq]
  have ht : ∃ g, t = ccNext len { s.fetched len with
      cc := { s.cc with g := g, stat := (s.cc.setFlags o.f).stat, mql := s.cc.mql, mqh := s.cc.mqh, flights := s.cc.flights, wait := none, portA := none } } := by
    refine ⟨if rd.toNat = 0 then s.cc.g else SMap.put (fun _ => (0 : W32)) s.cc.g (gSlot ((s.cc.setFlags o.f).bit 4) rd.toNat) o.r, ?_⟩
    show ccNext len (State.setG _ _ _) = _
    rw [State.setG_eq]
    simp only [hf]
    rfl
  obtain ⟨g, ht⟩ := ht
  have hr := ccNext_ran (s := s) (len := len) g (s.cc.setFlags o.f).stat s.cc.mql s.cc.mqh s.cc.flights
  rw [← ht] at hr
  refine ⟨hr.1, hr.2, hg.congr rfl rfl, ⟨?_, fun k hk hn => ?_⟩, ?_⟩
  · show t.cc.aluFlags = o.f
    unfold CcSt.aluFlags CcSt.bit
    rw [hs]
    exact CcSt.aluFlags_setFlags _ _
  · show t.cc.stat.getLsbD k = s.cc.bit k
    rw [hs]
    show ((s.fetched len).cc.setFlags o.f).bit k = _
    rw [CcSt.bit_setFlags _ _ _ hk, if_neg (by omega), if_neg (by omega), if_neg (by omega), if_neg (by omega)]
    exact hb k hk
  · rw [ht]
    exact ⟨rfl, rfl, rfl⟩

/-- A three-register instruction. -/
theorem aluRegs_ran {s : State} {len : Nat} (h : s.ccReady len) (f : AluFlags → W32 → W32 → AluOut) (rd ra rb : BitVec 5) :
    let t := aluRegs len f rd ra rb s
    let o := f s.cc.aluFlags (s.g ra.toNat) (s.g rb.toNat)
    CcRan s len t ∧ t.cc.pc = s.cc.pc + BitVec.ofNat 32 len ∧ RegTakes s t rd.toNat o.r ∧ FlagsTake s t o.f ∧ MulDivStay s t := by
  intro t o
  have e : t = ccNext len ({ s.fetched len with cc := (s.fetched len).cc.setFlags o.f }.setG rd.toNat o.r) := by
    show aluRegs len f rd ra rb s = _
    unfold aluRegs
    rw [ccStart_ready h]
    simp only [State.fetched_g h.1]
    rw [show (s.fetched len).cc.aluFlags = s.cc.aluFlags by rw [State.fetched_cc h.1]; rfl]
  rw [e]
  exact ccResult_ran h rd o

/-- An instruction with an immediate. -/
theorem aluImm_ran {s : State} {len : Nat} (h : s.ccReady len) (f : AluFlags → W32 → W32 → AluOut) (rd ra : BitVec 5) (imm : W32) :
    let t := aluImm len f rd ra imm s
    let o := f s.cc.aluFlags (s.g ra.toNat) imm
    CcRan s len t ∧ t.cc.pc = s.cc.pc + BitVec.ofNat 32 len ∧ RegTakes s t rd.toNat o.r ∧ FlagsTake s t o.f ∧ MulDivStay s t := by
  intro t o
  have e : t = ccNext len ({ s.fetched len with cc := (s.fetched len).cc.setFlags o.f }.setG rd.toNat o.r) := by
    show aluImm len f rd ra imm s = _
    unfold aluImm
    rw [ccStart_ready h]
    simp only [State.fetched_g h.1]
    rw [show (s.fetched len).cc.aluFlags = s.cc.aluFlags by rw [State.fetched_cc h.1]; rfl]
  rw [e]
  exact ccResult_ran h rd o

/-! ### The operations in numbers -/

theorem aluAdd_carry (a b : W32) (k : Bool) : (aluAdd a b k).f.c = decide (2 ^ 32 ≤ a.toNat + b.toNat + b2n k) := rfl
theorem aluSub_borrow (a b : W32) (k : Bool) : (aluSub a b k).f.c = decide (a.toNat < b.toNat + b2n k) := rfl

theorem aluAdd_value (a b : W32) (k : Bool) : (aluAdd a b k).r = a + b + BitVec.ofNat 32 (b2n k) := by
  apply BitVec.eq_of_toNat_eq
  simp [aluAdd, mkOut, BitVec.toNat_add]

/-- The overflow flag of an addition says that the signed sum does not fit. -/
theorem aluAdd_overflow (a b : W32) (k : Bool) :
    (aluAdd a b k).f.v = decide ((aluAdd a b k).r.toInt ≠ a.toInt + b.toInt + b2n k) := by
  have hr : (aluAdd a b k).r.toNat = (a.toNat + b.toNat + b2n k) % 2 ^ 32 := by simp [aluAdd, mkOut]
  have hk : b2n k ≤ 1 := by cases k <;> decide
  have e : (aluAdd a b k).f.v = ((a.msb == b.msb) && ((aluAdd a b k).r.msb != a.msb)) := rfl
  rw [e]
  simp only [BitVec.msb_eq_decide, BitVec.toInt_eq_toNat_cond, hr]
  have ha := a.isLt
  have hb := b.isLt
  generalize a.toNat = x at *
  generalize b.toNat = y at *
  generalize b2n k = z at *
  by_cases h1 : 2 ^ (32 - 1) ≤ x <;> by_cases h2 : 2 ^ (32 - 1) ≤ y <;> by_cases h3 : 2 ^ (32 - 1) ≤ (x + y + z) % 2 ^ 32 <;>
    simp only [h1, h2, h3, decide_true, decide_false, beq_self_eq_true, Bool.true_and] <;>
    (split <;> split <;> split) <;> simp <;> omega

theorem aluSub_value (a b : W32) (k : Bool) : (aluSub a b k).r = a - b - BitVec.ofNat 32 (b2n k) := rfl

/-- The overflow flag of a subtraction says that the signed difference does not fit. -/
theorem aluSub_overflow (a b : W32) (k : Bool) :
    (aluSub a b k).f.v = decide ((aluSub a b k).r.toInt ≠ a.toInt - b.toInt - b2n k) := by
  have ha := a.isLt
  have hb := b.isLt
  have hk : b2n k ≤ 1 := by cases k <;> decide
  have hr : (aluSub a b k).r.toNat = (a.toNat + 2 * 2 ^ 32 - b.toNat - b2n k) % 2 ^ 32 := by
    show (a - b - BitVec.ofNat 32 (b2n k)).toNat = _
    have h1 : b2n k % 2 ^ 32 = b2n k := Nat.mod_eq_of_lt (by omega)
    rw [BitVec.toNat_sub, BitVec.toNat_sub, BitVec.toNat_ofNat, h1]
    omega
  have e : (aluSub a b k).f.v = ((a.msb != b.msb) && ((aluSub a b k).r.msb != a.msb)) := rfl
  rw [e]
  simp only [BitVec.msb_eq_decide, BitVec.toInt_eq_toNat_cond, hr]
  generalize a.toNat = x at *
  generalize b.toNat = y at *
  generalize b2n k = z at *
  by_cases h1 : 2 ^ (32 - 1) ≤ x <;> by_cases h2 : 2 ^ (32 - 1) ≤ y <;>
    by_cases h3 : 2 ^ (32 - 1) ≤ (x + 2 * 2 ^ 32 - y - z) % 2 ^ 32 <;>
    simp only [h1, h2, h3, decide_true, decide_false] <;>
    (split <;> split <;> split) <;> simp <;> omega

end Sys2Proof.Machine
end

