-- ==== Sys2Proof/Laws/Replies.lean ====
section
/-!
SUPPORT. What completing a command changes: one lemma per operation of the completion rings, and the reply that `finish` queues.
-/

namespace Sys2Proof.Machine

/-- What queueing and writing replies of ring `k` can change: the writer of ring `k` beyond its queue, and the requests of port 0. -/
structure RingWrites (k : Nat) (s t : State) : Prop where
  rest : t = { s with cmds := { s.cmds with cq := t.cmds.cq }, mpt0 := { s.mpt0 with queue := t.mpt0.queue } }
  queue : (t.cqw k).queue = (s.cqw k).queue
  rings : ∀ j, j ≠ k → t.cqw j = s.cqw j

theorem State.cqw_setCqw (s : State) (k j : Nat) (w : CqWriter) : (s.setCqw k w).cqw j = if j = k then w else s.cqw j :=
  SMap.get_put _ _ _ _ _

theorem State.cqw_of_cq {s t : State} (h : t.cmds.cq = s.cmds.cq) (k : Nat) : t.cqw k = s.cqw k := by
  unfold State.cqw
  rw [h]

theorem RingWrites.refl (k : Nat) (s : State) : RingWrites k s s := ⟨rfl, rfl, fun _ _ => rfl⟩

theorem RingWrites.trans {k : Nat} {s t u : State} (h : RingWrites k s t) (g : RingWrites k t u) : RingWrites k s u := by
  refine ⟨?_, g.queue.trans h.queue, fun j hj => (g.rings j hj).trans (h.rings j hj)⟩
  have h1 := h.rest
  have g1 := g.rest
  rw [h1] at g1
  exact g1

theorem RingWrites.setCqw (k : Nat) (s : State) (w : CqWriter) (hq : w.queue = (s.cqw k).queue) : RingWrites k s (s.setCqw k w) := by
  refine ⟨rfl, ?_, fun j hj => ?_⟩
  · rw [State.cqw_setCqw, if_pos rfl, hq]
  · rw [State.cqw_setCqw, if_neg hj]

theorem RingWrites.mptQueue (k : Nat) (s : State) (q : MptReq) : RingWrites k s (s.mptQueue 0 q) := ⟨rfl, rfl, fun _ _ => rfl⟩

theorem RingWrites.queueAll (k : Nat) (l : List MptReq) (s : State) : RingWrites k s (l.foldl (fun t q => t.mptQueue 0 q) s) := by
  induction l generalizing s with
  | nil => exact .refl k s
  | cons q l ih => exact .trans (.mptQueue k s q) (ih _)

theorem RingWrites.cqWriteHead (k : Nat) (s : State) : RingWrites k s (cqWriteHead k s) := by
  unfold Machine.cqWriteHead
  extract_lets w
  split
  · exact .refl k s
  · rename_i r rest h
    exact .trans (.setCqw k s { w with left := _, retried := [], lost := false, filling := false } rfl) (.queueAll k _ _)

theorem RingWrites.cqStart (k : Nat) (s : State) : RingWrites k s (cqStart k s) := by
  unfold Machine.cqStart
  extract_lets w tail q
  split
  · exact .refl k s
  · split
    · exact .cqWriteHead k s
    · exact .trans (.setCqw k s { w with filling := true } rfl) (.mptQueue k _ _)

/-- A reply joins the end of its ring's queue. -/
theorem cqPush_writes (k : Nat) (r : Reply) (s : State) :
    RingWrites k (s.setCqw k { s.cqw k with queue := (s.cqw k).queue ++ [r] }) (cqPush k r s) := .cqStart k _

theorem State.find_replace_other (l : List Cmd) (c : Cmd) (id : Nat) (hi : id ≠ c.id) :
    (l.map fun d => if d.id = c.id then c else d).find? (fun d => d.id == id) = l.find? (fun d => d.id == id) := by
  induction l with
  | nil => rfl
  | cons d l ih =>
    by_cases hd : d.id = c.id
    · simp [hd, Ne.symm hi, ih]
    · simp only [List.map_cons, if_neg hd, List.find?_cons, ih]

theorem State.find_replace_self (l : List Cmd) (c : Cmd) (h : (l.find? fun d => d.id == c.id).isSome = true) :
    (l.map fun d => if d.id = c.id then c else d).find? (fun d => d.id == c.id) = some c := by
  induction l with
  | nil => simp at h
  | cons d l ih =>
    by_cases hd : d.id = c.id
    · simp [hd]
    · have h2 : (d.id == c.id) = false := by simpa using hd
      simp only [List.find?_cons, h2] at h
      simp only [List.map_cons, if_neg hd, List.find?_cons, h2]
      exact ih h

theorem State.cmd?_setCmd (s : State) (c : Cmd) (id : Nat) (h : (s.cmd? c.id).isSome = true) :
    (s.setCmd c).cmd? id = if id = c.id then some c else s.cmd? id := by
  by_cases hi : id = c.id
  · subst hi
    rw [if_pos rfl, State.cmd?, State.setCmd, ← List.map_append]
    exact State.find_replace_self _ c h
  · rw [if_neg hi, State.cmd?, State.setCmd, ← List.map_append]
    exact State.find_replace_other _ c id hi

/-- Replacing a command leaves those whose own execution outlived their reply as they are. -/
theorem State.setCmd_eq (s : State) (c : Cmd) (h : ∀ d ∈ s.cmds.after, d.id ≠ c.id) :
    s.setCmd c = { s with cmds := { s.cmds with list := s.cmds.list.map fun d => if d.id = c.id then c else d } } := by
  have e : (s.cmds.after.map fun d => if d.id = c.id then c else d) = s.cmds.after :=
    (List.map_congr_left fun d hd => if_neg (h d hd)).trans (List.map_id _)
  unfold State.setCmd
  simp only [e]

theorem State.find_filter_ne (l : List Cmd) (d id : Nat) :
    (l.filter fun c => c.id != d).find? (fun c => c.id == id) = if id = d then none else l.find? fun c => c.id == id := by
  by_cases hi : id = d
  · subst hi
    rw [if_pos rfl, List.find?_eq_none]
    intro c hc
    have := (List.mem_filter.mp hc).2
    simpa using this
  · rw [if_neg hi]
    induction l with
    | nil => rfl
    | cons c l ih =>
      by_cases hc : c.id = d
      · have h2 : (c.id == id) = false := by simpa [hc] using fun h => hi h.symm
        simp [List.filter_cons, hc, List.find?_cons, ih, Ne.symm hi]
      · simp [List.filter_cons, hc, List.find?_cons, ih]

/-- A command that does not work is dropped whole. -/
theorem State.cmd?_dropCmd (s : State) (d id : Nat) (hw : ∀ c ∈ s.cmds.list, c.id = d → c.works = false)
    (ha : ∀ c ∈ s.cmds.after, c.id ≠ d) :
    (s.dropCmd d).cmd? id = (if id = d then none else s.cmd? id) ∧ (s.dropCmd d).cmds.after = s.cmds.after := by
  have e : (s.cmds.list.filter fun c => c.id == d && c.works) = [] := by
    rw [List.filter_eq_nil_iff]
    intro c hc
    by_cases hcd : c.id = d
    · simp [hcd, hw c hc hcd]
    · simp [hcd]
  have e2 : s.cmds.after ++ (s.cmds.list.filter fun c => c.id == d && c.works) = s.cmds.after := by rw [e, List.append_nil]
  have e3 : (s.cmds.after.filter fun c => c.id != d) = s.cmds.after := by
    rw [List.filter_eq_self]
    intro c hc
    simpa using ha c hc
  refine ⟨?_, e2⟩
  show ((s.cmds.list.filter fun c => c.id != d) ++ (s.cmds.after ++ _)).find? _ = _
  rw [e2]
  conv_lhs => rw [← e3, ← List.filter_append]
  exact State.find_filter_ne _ d id

theorem replyHeader_congr {s t : State} (h : t.cabId = s.cabId) (hdr : List Byte) (st n : Nat) :
    replyHeader t hdr st n = replyHeader s hdr st n := by
  unfold replyHeader
  rw [h]

theorem RingWrites.cmd? {k : Nat} {s t : State} (h : RingWrites k s t) (id : Nat) : t.cmd? id = s.cmd? id := by
  rw [h.rest]
  rfl

theorem RingWrites.cabId {k : Nat} {s t : State} (h : RingWrites k s t) : t.cabId = s.cabId := by
  rw [h.rest]
  rfl

theorem sendReply_ring (c : Cmd) (k : Nat) (st : Nat) (ps : List Byte) (v : State) (h : c.src = .ring k) :
    sendReply c st ps true v = cqPush k ⟨c.id, replyHeader v c.hdr st ps.length ++ ps, true, c.quiet⟩ v := by
  unfold sendReply
  rw [h]

theorem sendReply_cab (c : Cmd) (sender : Nat) (st : Nat) (ps : List Byte) (v : State) (h : c.src = .cab sender) :
    ∃ m : MgmtTx, m.kind = 2 ∧ m.target = sender ∧ m.hdr = replyHeader v c.hdr st ps.length ∧ m.params = ps
      ∧ sendReply c st ps true v = ({ v with cmds := { v.cmds with tx := v.cmds.tx ++ [m] } } : State).dropCmd c.id := by
  unfold sendReply
  rw [h]
  exact ⟨_, rfl, rfl, rfl, rfl, rfl⟩

theorem finish_own {u : State} {c : Cmd} (st : Nat) (ps : List Byte) (h : u.InHand c) :
    finish c.id st ps u = sendReply c st ps true (u.setCmd c.ending) := by
  unfold finish
  rw [h.found]
  simp only [h.own, h.unsent]
  rfl

/-- No execution of a command that awaits its reply stands among those that outlived theirs. -/
theorem State.InHand.after_ne {u : State} {c : Cmd} (h : u.InHand c) : ∀ d ∈ u.cmds.after, d.id ≠ c.id := by
  intro d hd he
  have := h.unsent
  unfold State.answered at this
  simp only [Bool.or_eq_false_iff, List.any_eq_false] at this
  exact this.1 d hd (by simpa using he)

theorem Replied.of_ring {u v t : State} {c : Cmd} {k st : Nat} {ps : List Byte} {l : List Cmd} (hsrc : c.src = .ring k)
    (hv : v = { u with cmds := { u.cmds with list := l } }) (hc : ∀ id, v.cmd? id = if id = c.id then some c.ending else u.cmd? id)
    (ht : t = cqPush k ⟨c.id, replyHeader v c.hdr st ps.length ++ ps, true, c.quiet⟩ v) : Replied c st ps u t := by
  have hw := cqPush_writes k ⟨c.id, replyHeader v c.hdr st ps.length ++ ps, true, c.quiet⟩ v
  rw [← ht] at hw
  have hr := hw.rest
  refine ⟨?_, ?_, fun id hid => ?_, ?_, fun j hj => ?_⟩
  · unfold State.holdsReply
    rw [hsrc]
    refine ⟨⟨c.id, replyHeader v c.hdr st ps.length ++ ps, true, c.quiet⟩, ?_, rfl, rfl, rfl, ?_⟩
    · rw [hw.queue, State.cqw_setCqw, if_pos rfl]
      exact List.mem_append_right _ (List.mem_singleton.mpr rfl)
    · rw [replyHeader_congr hw.cabId]
      rfl
  · rw [hr, hv]
    rfl
  · rw [hw.cmd?]
    exact (hc id).trans (if_neg hid)
  · rw [hsrc, hw.cmd?]
    exact (hc c.id).trans (if_pos rfl)
  · have hjk : j ≠ k := fun h => hj (by rw [hsrc, h])
    rw [hw.rings j hjk, State.cqw_setCqw, if_neg hjk, hv]
    rfl

/-- What `finish` leads to: the reply of the command is queued, with the status and parameters given. -/
theorem finish_replied {u : State} {c : Cmd} (st : Nat) (ps : List Byte) (h : u.InHand c) :
    Replied c st ps u (finish c.id st ps u) := by
  have hc1 : ∀ id, (u.setCmd c.ending).cmd? id = if id = c.id then some c.ending else u.cmd? id :=
    fun id => State.cmd?_setCmd u c.ending id (by change (u.cmd? c.id).isSome = true; rw [h.found]; rfl)
  have he := State.setCmd_eq u c.ending h.after_ne
  have ha : (u.setCmd c.ending).cmds.after = u.cmds.after := by rw [he]
  rw [finish_own st ps h]
  match hsrc : c.src with
  | .ring k => exact .of_ring hsrc he hc1 (sendReply_ring c k st ps _ hsrc)
  | .cab sender =>
    obtain ⟨m, h1, h2, h3, h4, e⟩ := sendReply_cab c sender st ps (u.setCmd c.ending) hsrc
    have hd := fun id => State.cmd?_dropCmd
      ({ u.setCmd c.ending with cmds := { (u.setCmd c.ending).cmds with tx := (u.setCmd c.ending).cmds.tx ++ [m] } } : State) c.id id
      (by
        intro d hd hi
        obtain ⟨d0, _, rfl⟩ := List.mem_map.mp hd
        by_cases h0 : d0.id = c.id
        · have : (if d0.id = c.ending.id then c.ending else d0) = c.ending := if_pos h0
          rw [this]
          rfl
        · have : (if d0.id = c.ending.id then c.ending else d0) = d0 := if_neg h0
          rw [this] at hi
          exact absurd hi h0)
      (by
        intro d hd
        exact h.after_ne d (ha ▸ hd))
    rw [e]
    refine ⟨?_, ?_, fun id hid => ?_, ?_, fun _ _ => rfl⟩
    · unfold State.holdsReply
      rw [hsrc]
      exact ⟨m, List.mem_append_right _ (List.mem_singleton.mpr rfl), h1, h2, h3, h4⟩
    · have h2 := (hd 0).2.trans ha
      rw [he] at h2 ⊢
      rw [State.dropCmd] at h2 ⊢
      simp only at h2 ⊢
      rw [h2]
    · exact (hd id).1.trans ((if_neg hid).trans ((hc1 id).trans (if_neg hid)))
    · rw [hsrc]
      exact (hd c.id).1.trans (if_pos rfl)

/-- A due command whose meaning begins with `withStarted`. -/
theorem withStarted_due {s : State} {c : Cmd} {opc : Nat} (h : s.Due c opc) (f : Cmd → State) : withStarted c.id opc s f = f c := by
  unfold withStarted
  rw [h.found]
  exact if_pos ⟨h.opcode, h.started, h.live⟩

/-- A due command that completes from `u`, where it still stands as it was. -/
theorem Answers.of_finish {s u : State} {c : Cmd} {opc : Nat} (h : s.Due c opc) (st : Nat) (ps : List Byte)
    (hl : u.cmds.list = s.cmds.list) (hg : u.cmds.gw = s.cmds.gw) (ha : u.cmds.after = s.cmds.after) (hq : u.cmds.cq = s.cmds.cq) :
    Replied c st ps u (finish c.id st ps u) := by
  refine finish_replied st ps ⟨?_, ?_, ?_⟩
  · have := h.found
    unfold State.cmd? at this ⊢
    rw [hl, ha]
    exact this
  · have := h.own
    unfold State.broadcast? at this ⊢
    rw [hg]
    exact this
  · have := h.unsent
    unfold State.answered at this ⊢
    have e := State.cqw_of_cq hq
    rw [ha]
    simp only [e]
    exact this

end Sys2Proof.Machine
end

