-- ==== Sys2Proof/Laws/Modes.lean ====
section
/-!
SUPPORT. What follows a transition: firmware's hooks and a waiting Halt.
-/

namespace Sys2Proof.Machine

theorem pumpHooks_none (n : Nat) (s : State) (h : s.cc.hooks = []) : pumpHooks n s = s := by
  cases n with
  | zero => rfl
  | succ n =>
    unfold pumpHooks
    rw [h]
    simp

theorem haltSettle_none (s : State) (h : s.tdu.haltReq = none) : haltSettle s = s := by
  unfold haltSettle
  rw [h]

/-- Where no hook is due and no Halt waits, nothing follows. -/
theorem settle_calm {s : State} (h : s.calm) : settle s = s := by
  unfold settle
  rw [pumpHooks_none 16 s h.1, haltSettle_none s h.2]

end Sys2Proof.Machine
end

