-- ==== Sys2Proof/Laws/PerInstr.lean ====
section
/-!
SUPPORT. One lemma per row of the command table: a well-formed command that carries a writer carries one that exists (R18, R184, R541).
-/

namespace Sys2Proof

/-- The writer that a command carries: the rows that are register accesses have one. -/
def writerOf : Instr → Option Writer
  | .cclkMulWrite w _ => some w
  | .pnMulWrite w _ => some w
  | .registerWrite w _ _ _ => some w
  | .mptEnWrite w _ _ => some w
  | .mptCwinWrite w _ _ _ => some w
  | .scrubInjArm w _ => some w
  | .synfWrite w _ _ _ => some w
  | .plyCatEnable w _ => some w
  | .feedArm w _ _ _ => some w
  | .feedStop w _ => some w
  | .lpModGeomWrite w _ _ => some w
  | .puImmediatePer w _ _ => some w
  | .puForceWrite w _ _ _ => some w
  | .tripLatchClear w _ => some w
  | .timerSourceWrite w _ _ => some w
  | .doorbellWrite w _ _ => some w
  | .dicClaim w _ => some w
  | .dicComplete w _ _ => some w
  | _ => none

/-- A writer of a register is one of the agents that write. -/
theorem anyWriter_of_reg {w : Writer} (h : regWriter w = true) : anyWriter w = true := by
  cases w with
  | host => rfl
  | core pl => exact h
  | seq q => cases h

namespace Laws.Writers

/-- The writer of a well-formed command is the host, the command core at a level from 0 to 2, or a sequencer from 0 to 18. -/
def Statement (i : Instr) : Prop := wellFormed i = true → ∀ w, writerOf i = some w → anyWriter w = true

/-- A command without a writer. -/
theorem no_writer {i : Instr} (h : writerOf i = none) : Statement i := by
  intro _ w hw
  rw [h] at hw
  cases hw

theorem powerOnReset : Statement .powerOnReset := no_writer rfl
theorem powerOnResetRelease : Statement .powerOnResetRelease := no_writer rfl
theorem pwrgoodRise : Statement .pwrgoodRise := no_writer rfl
theorem pwrgoodFall : Statement .pwrgoodFall := no_writer rfl
theorem suppliesRemoved : Statement .suppliesRemoved := no_writer rfl
theorem fillComplete : Statement .fillComplete := no_writer rfl
theorem coreRelease : Statement .coreRelease := no_writer rfl
theorem engineReset : Statement .engineReset := no_writer rfl
theorem engineResetRelease : Statement .engineResetRelease := no_writer rfl
theorem watchdogWarning : Statement .watchdogWarning := no_writer rfl
theorem watchdogReset : Statement .watchdogReset := no_writer rfl
theorem watchdogKick (x0 : Nat) : Statement (.watchdogKick x0) := no_writer rfl
theorem softReset (x0 : Nat) : Statement (.softReset x0) := no_writer rfl
theorem softResetEffect : Statement .softResetEffect := no_writer rfl
theorem unitReset (x0 : Nat) : Statement (.unitReset x0) := no_writer rfl
theorem synthLockLost (x0 : ClkDom) : Statement (.synthLockLost x0) := no_writer rfl
theorem cclkMulWrite (x0 : Writer) (x1 : Nat) : Statement (.cclkMulWrite x0 x1) := by
  intro h w hw
  cases hw
  simp only [wellFormed, Bool.and_eq_true] at h
  simp [anyWriter_of_reg, h]
theorem pnMulWrite (x0 : Writer) (x1 : Nat) : Statement (.pnMulWrite x0 x1) := by
  intro h w hw
  cases hw
  simp only [wellFormed, Bool.and_eq_true] at h
  simp [anyWriter_of_reg, h]
theorem releaseTestWindow (x0 : ClkDom) (x1 : Nat) (x2 : Bool) : Statement (.releaseTestWindow x0 x1 x2) := no_writer rfl
theorem pnclkRelockTimeout : Statement .pnclkRelockTimeout := no_writer rfl
theorem refclkLost : Statement .refclkLost := no_writer rfl
theorem modeSet (x0 : Nat) : Statement (.modeSet x0) := no_writer rfl
theorem displayEntry (x0 : Nat) : Statement (.displayEntry x0) := no_writer rfl
theorem leaveDisplayAtHoist (x0 : Nat) : Statement (.leaveDisplayAtHoist x0) := no_writer rfl
theorem sleepEntry : Statement .sleepEntry := no_writer rfl
theorem hptSlpAck : Statement .hptSlpAck := no_writer rfl
theorem hptSleepTimeout : Statement .hptSleepTimeout := no_writer rfl
theorem wakePinEdge (x0 : Nat) (x1 : Bool) : Statement (.wakePinEdge x0 x1) := no_writer rfl
theorem hptWakeEdge : Statement .hptWakeEdge := no_writer rfl
theorem wakeFrameMatch (x0 : List Byte) : Statement (.wakeFrameMatch x0) := no_writer rfl
theorem watcherHit (x0 : Nat) : Statement (.watcherHit x0) := no_writer rfl
theorem wakeSequence : Statement .wakeSequence := no_writer rfl
theorem hptRequest (x0 : Bool) (x1 : BitVec 21) (x2 : BitVec 8) (x3 : W64) (x4 : BitVec 8) (x5 : Bool) : Statement (.hptRequest x0 x1 x2 x3 x4 x5) := no_writer rfl
theorem hptResponse : Statement .hptResponse := no_writer rfl
theorem registerWrite (x0 : Writer) (x1 : Nat) (x2 : BitVec 8) (x3 : W64) : Statement (.registerWrite x0 x1 x2 x3) := by
  intro h w hw
  cases hw
  simp only [wellFormed, Bool.and_eq_true] at h
  simp [anyWriter_of_reg, h]
theorem mptRequestIssue (x0 : Nat) (x1 : Nat) (x2 : Bool) : Statement (.mptRequestIssue x0 x1 x2) := no_writer rfl
theorem mptReadResponse (x0 : Nat) (x1 : Nat) (x2 : Bool) (x3 : List Byte) : Statement (.mptReadResponse x0 x1 x2 x3) := no_writer rfl
theorem mptWriteResponse (x0 : Nat) (x1 : Nat) (x2 : Bool) : Statement (.mptWriteResponse x0 x1 x2) := no_writer rfl
theorem mptRequestOverdue (x0 : Nat) (x1 : Nat) : Statement (.mptRequestOverdue x0 x1) := no_writer rfl
theorem mptEnWrite (x0 : Writer) (x1 : Nat) (x2 : Bool) : Statement (.mptEnWrite x0 x1 x2) := by
  intro h w hw
  cases hw
  simp only [wellFormed, Bool.and_eq_true] at h
  simp [anyWriter_of_reg, h]
theorem mptCwinWrite (x0 : Writer) (x1 : Nat) (x2 : Nat) (x3 : W64) : Statement (.mptCwinWrite x0 x1 x2 x3) := by
  intro h w hw
  cases hw
  simp only [wellFormed, Bool.and_eq_true] at h
  simp [anyWriter_of_reg, h]
theorem correctionWriteBack (x0 : StoreSel) (x1 : Nat) : Statement (.correctionWriteBack x0 x1) := no_writer rfl
theorem scrubOwnWrite (x0 : Nat) (x1 : Nat) : Statement (.scrubOwnWrite x0 x1) := no_writer rfl
theorem spmBankReleaseDone (x0 : Nat) : Statement (.spmBankReleaseDone x0) := no_writer rfl
theorem scrubInjArm (x0 : Writer) (x1 : W64) : Statement (.scrubInjArm x0 x1) := by
  intro h w hw
  cases hw
  simp only [wellFormed] at h
  simp [anyWriter_of_reg, h]
theorem scrub (x0 : Nat) : Statement (.scrub x0) := no_writer rfl
theorem scrubDone (x0 : Nat) : Statement (.scrubDone x0) := no_writer rfl
theorem microwordExecute (x0 : Nat) : Statement (.microwordExecute x0) := no_writer rfl
theorem synBarrierComplete (x0 : Nat) : Statement (.synBarrierComplete x0) := no_writer rfl
theorem hangLimit (x0 : Nat) : Statement (.hangLimit x0) := no_writer rfl
theorem retire (x0 : Nat) : Statement (.retire x0) := no_writer rfl
theorem seqStop (x0 : Nat) : Statement (.seqStop x0) := no_writer rfl
theorem seqStart (x0 : Nat) : Statement (.seqStart x0) := no_writer rfl
theorem synfWrite (x0 : Writer) (x1 : Nat) (x2 : BitVec 8) (x3 : W64) : Statement (.synfWrite x0 x1 x2 x3) := by
  intro h w hw
  cases hw
  simp only [wellFormed, Bool.and_eq_true] at h
  simp [anyWriter_of_reg, h]
theorem ucodeLoad (x0 : Nat) : Statement (.ucodeLoad x0) := no_writer rfl
theorem custopDef (x0 : Nat) : Statement (.custopDef x0) := no_writer rfl
theorem mov (x0 : BitVec 5) (x1 : BitVec 5) : Statement (.mov x0 x1) := no_writer rfl
theorem add (x0 : AluForm) : Statement (.add x0) := no_writer rfl
theorem adc (x0 : BitVec 5) (x1 : BitVec 5) (x2 : BitVec 5) : Statement (.adc x0 x1 x2) := no_writer rfl
theorem sub (x0 : AluForm) : Statement (.sub x0) := no_writer rfl
theorem sbc (x0 : BitVec 5) (x1 : BitVec 5) (x2 : BitVec 5) : Statement (.sbc x0 x1 x2) := no_writer rfl
theorem and (x0 : AluForm) : Statement (.and x0) := no_writer rfl
theorem or (x0 : AluForm) : Statement (.or x0) := no_writer rfl
theorem xor (x0 : AluForm) : Statement (.xor x0) := no_writer rfl
theorem shl (x0 : AluForm) : Statement (.shl x0) := no_writer rfl
theorem shr (x0 : AluForm) : Statement (.shr x0) := no_writer rfl
theorem sar (x0 : AluForm) : Statement (.sar x0) := no_writer rfl
theorem rol (x0 : BitVec 5) (x1 : BitVec 5) (x2 : BitVec 5) : Statement (.rol x0 x1 x2) := no_writer rfl
theorem min (x0 : BitVec 5) (x1 : BitVec 5) (x2 : BitVec 5) : Statement (.min x0 x1 x2) := no_writer rfl
theorem max (x0 : BitVec 5) (x1 : BitVec 5) (x2 : BitVec 5) : Statement (.max x0 x1 x2) := no_writer rfl
theorem clz (x0 : BitVec 5) (x1 : BitVec 5) (x2 : BitVec 5) : Statement (.clz x0 x1 x2) := no_writer rfl
theorem slt (x0 : BitVec 5) (x1 : BitVec 5) (x2 : BitVec 5) : Statement (.slt x0 x1 x2) := no_writer rfl
theorem sltu (x0 : BitVec 5) (x1 : BitVec 5) (x2 : BitVec 5) : Statement (.sltu x0 x1 x2) := no_writer rfl
theorem cmp (x0 : BitVec 5) (x1 : BitVec 5) : Statement (.cmp x0 x1) := no_writer rfl
theorem movi (x0 : BitVec 5) (x1 : BitVec 5) : Statement (.movi x0 x1) := no_writer rfl
theorem addi (x0 : ImmForm) : Statement (.addi x0) := no_writer rfl
theorem andi (x0 : BitVec 5) (x1 : BitVec 5) (x2 : BitVec 14) : Statement (.andi x0 x1 x2) := no_writer rfl
theorem ori (x0 : BitVec 5) (x1 : BitVec 5) (x2 : BitVec 14) : Statement (.ori x0 x1 x2) := no_writer rfl
theorem xori (x0 : BitVec 5) (x1 : BitVec 5) (x2 : BitVec 14) : Statement (.xori x0 x1 x2) := no_writer rfl
theorem shli (x0 : BitVec 5) (x1 : BitVec 5) : Statement (.shli x0 x1) := no_writer rfl
theorem shri (x0 : BitVec 5) (x1 : BitVec 5) : Statement (.shri x0 x1) := no_writer rfl
theorem sari (x0 : BitVec 5) (x1 : BitVec 5) : Statement (.sari x0 x1) := no_writer rfl
theorem cmpi (x0 : BitVec 5) (x1 : BitVec 5) : Statement (.cmpi x0 x1) := no_writer rfl
theorem tstb (x0 : BitVec 5) (x1 : BitVec 5) : Statement (.tstb x0 x1) := no_writer rfl
theorem lw (x0 : MemForm) : Statement (.lw x0) := no_writer rfl
theorem sw (x0 : MemForm) : Statement (.sw x0) := no_writer rfl
theorem lh (x0 : BitVec 5) (x1 : BitVec 5) (x2 : BitVec 14) : Statement (.lh x0 x1 x2) := no_writer rfl
theorem lhu (x0 : BitVec 5) (x1 : BitVec 5) (x2 : BitVec 14) : Statement (.lhu x0 x1 x2) := no_writer rfl
theorem lb (x0 : BitVec 5) (x1 : BitVec 5) (x2 : BitVec 14) : Statement (.lb x0 x1 x2) := no_writer rfl
theorem lbu (x0 : BitVec 5) (x1 : BitVec 5) (x2 : BitVec 14) : Statement (.lbu x0 x1 x2) := no_writer rfl
theorem sh (x0 : BitVec 5) (x1 : BitVec 5) (x2 : BitVec 14) : Statement (.sh x0 x1 x2) := no_writer rfl
theorem sb (x0 : BitVec 5) (x1 : BitVec 5) (x2 : BitVec 14) : Statement (.sb x0 x1 x2) := no_writer rfl
theorem ldd (x0 : BitVec 5) (x1 : BitVec 5) (x2 : BitVec 14) : Statement (.ldd x0 x1 x2) := no_writer rfl
theorem std (x0 : BitVec 5) (x1 : BitVec 5) (x2 : BitVec 14) : Statement (.std x0 x1 x2) := no_writer rfl
theorem jr (x0 : BitVec 5) : Statement (.jr x0) := no_writer rfl
theorem jalr (x0 : BitVec 5) (x1 : BitVec 5) (x2 : BitVec 14) : Statement (.jalr x0 x1 x2) := no_writer rfl
theorem lui (x0 : BitVec 5) (x1 : BitVec 19) : Statement (.lui x0 x1) := no_writer rfl
theorem jmp (x0 : BitVec 24) : Statement (.jmp x0) := no_writer rfl
theorem call (x0 : BitVec 24) : Statement (.call x0) := no_writer rfl
theorem br (x0 : BitVec 10) : Statement (.br x0) := no_writer rfl
theorem beq (x0 : BitVec 10) : Statement (.beq x0) := no_writer rfl
theorem bne (x0 : BitVec 10) : Statement (.bne x0) := no_writer rfl
theorem blt (x0 : BitVec 10) : Statement (.blt x0) := no_writer rfl
theorem bge (x0 : BitVec 10) : Statement (.bge x0) := no_writer rfl
theorem bltu (x0 : BitVec 10) : Statement (.bltu x0) := no_writer rfl
theorem bgeu (x0 : BitVec 10) : Statement (.bgeu x0) := no_writer rfl
theorem bndv (x0 : BitVec 10) : Statement (.bndv x0) := no_writer rfl
theorem bc (x0 : BitVec 5) (x1 : BitVec 19) : Statement (.bc x0 x1) := no_writer rfl
theorem mfq (x0 : BitVec 5) (x1 : BitVec 5) : Statement (.mfq x0 x1) := no_writer rfl
theorem mul (x0 : BitVec 5) (x1 : BitVec 5) : Statement (.mul x0 x1) := no_writer rfl
theorem mulu (x0 : BitVec 5) (x1 : BitVec 5) : Statement (.mulu x0 x1) := no_writer rfl
theorem multiplyLand : Statement .multiplyLand := no_writer rfl
theorem div (x0 : BitVec 5) (x1 : BitVec 5) : Statement (.div x0 x1) := no_writer rfl
theorem divu (x0 : BitVec 5) (x1 : BitVec 5) : Statement (.divu x0 x1) := no_writer rfl
theorem divideLand : Statement .divideLand := no_writer rfl
theorem mfstat (x0 : BitVec 5) : Statement (.mfstat x0) := no_writer rfl
theorem mtstat (x0 : BitVec 5) : Statement (.mtstat x0) := no_writer rfl
theorem sys (x0 : BitVec 5) : Statement (.sys x0) := no_writer rfl
theorem rtt : Statement .rtt := no_writer rfl
theorem brk : Statement .brk := no_writer rfl
theorem wfi : Statement .wfi := no_writer rfl
theorem fence : Statement .fence := no_writer rfl
theorem hold (x0 : BitVec 9) : Statement (.hold x0) := no_writer rfl
theorem rels : Statement .rels := no_writer rfl
theorem holdExpiry : Statement .holdExpiry := no_writer rfl
theorem lmov (x0 : BitVec 5) : Statement (.lmov x0) := no_writer rfl
theorem lmovComplete (x0 : Nat) : Statement (.lmovComplete x0) := no_writer rfl
theorem custom (x0 : BitVec 6) (x1 : BitVec 5) (x2 : BitVec 5) (x3 : BitVec 5) (x4 : BitVec 3) : Statement (.custom x0 x1 x2 x3 x4) := no_writer rfl
theorem customTimeout : Statement .customTimeout := no_writer rfl
theorem illegalInstruction (x0 : Bool) (x1 : W32) : Statement (.illegalInstruction x0 x1) := no_writer rfl
theorem interruptTaken : Statement .interruptTaken := no_writer rfl
theorem machineCheckTrap : Statement .machineCheckTrap := no_writer rfl
theorem hookTimeout : Statement .hookTimeout := no_writer rfl
theorem submissionDoorbell (x0 : Nat) (x1 : Nat) : Statement (.submissionDoorbell x0 x1) := no_writer rfl
theorem cqHeadWrite (x0 : Nat) (x1 : Nat) : Statement (.cqHeadWrite x0 x1) := no_writer rfl
theorem cmdCfgEnWrite (x0 : Nat) (x1 : Bool) : Statement (.cmdCfgEnWrite x0 x1) := no_writer rfl
theorem packetAccept (x0 : List (Nat × List PByte)) : Statement (.packetAccept x0) := no_writer rfl
theorem commandStart (x0 : Nat) : Statement (.commandStart x0) := no_writer rfl
theorem nop (x0 : Nat) : Statement (.nop x0) := no_writer rfl
theorem cancel (x0 : Nat) : Statement (.cancel x0) := no_writer rfl
theorem wallStatus (x0 : Nat) (x1 : Nat) : Statement (.wallStatus x0 x1) := no_writer rfl
theorem unitQuery (x0 : Nat) : Statement (.unitQuery x0) := no_writer rfl
theorem unitSet (x0 : Nat) : Statement (.unitSet x0) := no_writer rfl
theorem unitStateReport : Statement .unitStateReport := no_writer rfl
theorem tenantOpen (x0 : Nat) : Statement (.tenantOpen x0) := no_writer rfl
theorem tenantClose (x0 : Nat) : Statement (.tenantClose x0) := no_writer rfl
theorem keyLoad (x0 : Nat) : Statement (.keyLoad x0) := no_writer rfl
theorem keyInfo (x0 : Nat) : Statement (.keyInfo x0) := no_writer rfl
theorem gatewayReplyTimeout (x0 : Nat) : Statement (.gatewayReplyTimeout x0) := no_writer rfl
theorem aggregateReply (x0 : Nat) : Statement (.aggregateReply x0) := no_writer rfl
theorem customerCommand (x0 : Nat) : Statement (.customerCommand x0) := no_writer rfl
theorem calLoad (x0 : Nat) : Statement (.calLoad x0) := no_writer rfl
theorem budgetCfg (x0 : Nat) : Statement (.budgetCfg x0) := no_writer rfl
theorem ceilSet (x0 : Nat) : Statement (.ceilSet x0) := no_writer rfl
theorem ringCfg (x0 : Nat) (x1 : Nat) : Statement (.ringCfg x0 x1) := no_writer rfl
theorem gclLoad (x0 : Nat) : Statement (.gclLoad x0) := no_writer rfl
theorem gclTakeEffect : Statement .gclTakeEffect := no_writer rfl
theorem loopback (x0 : Nat) : Statement (.loopback x0) := no_writer rfl
theorem approve (x0 : Nat) (x1 : Nat) : Statement (.approve x0 x1) := no_writer rfl
theorem grant (x0 : Nat) : Statement (.grant x0) := no_writer rfl
theorem grantEnd (x0 : Nat) : Statement (.grantEnd x0) := no_writer rfl
theorem selftest (x0 : Nat) : Statement (.selftest x0) := no_writer rfl
theorem puCfg (x0 : Nat) : Statement (.puCfg x0) := no_writer rfl
theorem clipAdd (x0 : Nat) : Statement (.clipAdd x0) := no_writer rfl
theorem play (x0 : Nat) (x1 : Nat) : Statement (.play x0 x1) := no_writer rfl
theorem playEffect (x0 : Nat) (x1 : Nat) : Statement (.playEffect x0 x1) := no_writer rfl
theorem plyCatEnable (x0 : Writer) (x1 : W64) : Statement (.plyCatEnable x0 x1) := by
  intro h w hw
  cases hw
  simp only [wellFormed] at h
  simp [anyWriter_of_reg, h]
theorem playoutFrame (x0 : Nat) (x1 : Nat) (x2 : Nat) : Statement (.playoutFrame x0 x1 x2) := no_writer rfl
theorem feedArm (x0 : Writer) (x1 : Nat) (x2 : W64) (x3 : Nat) : Statement (.feedArm x0 x1 x2 x3) := by
  intro h w hw
  cases hw
  simp only [wellFormed, Bool.and_eq_true] at h
  simp [anyWriter_of_reg, h]
theorem feedStop (x0 : Writer) (x1 : Nat) : Statement (.feedStop x0 x1) := by
  intro h w hw
  cases hw
  simp only [wellFormed, Bool.and_eq_true] at h
  simp [anyWriter_of_reg, h]
theorem feedPost (x0 : Nat) (x1 : Nat) : Statement (.feedPost x0 x1) := no_writer rfl
theorem feedBind (x0 : Nat) (x1 : Nat) (x2 : Nat) : Statement (.feedBind x0 x1 x2) := no_writer rfl
theorem sliceEncodeDispatch (x0 : Nat) (x1 : Nat) : Statement (.sliceEncodeDispatch x0 x1) := no_writer rfl
theorem sliceQueued (x0 : Nat) (x1 : List CellChoice) : Statement (.sliceQueued x0 x1) := no_writer rfl
theorem sendDeadline (x0 : SendSrc) (x1 : Nat) : Statement (.sendDeadline x0 x1) := no_writer rfl
theorem unitSend (x0 : SendSrc) (x1 : Nat) : Statement (.unitSend x0 x1) := no_writer rfl
theorem sliceRowDispatch (x0 : Nat) : Statement (.sliceRowDispatch x0) := no_writer rfl
theorem rowPublish (x0 : Nat) : Statement (.rowPublish x0) := no_writer rfl
theorem bandClose (x0 : Nat) : Statement (.bandClose x0) := no_writer rfl
theorem lightPathBandStart (x0 : Nat) : Statement (.lightPathBandStart x0) := no_writer rfl
theorem hoist (x0 : Nat) : Statement (.hoist x0) := no_writer rfl
theorem subperiodStart (x0 : Nat) : Statement (.subperiodStart x0) := no_writer rfl
theorem bandLoadSend (x0 : Nat) : Statement (.bandLoadSend x0) := no_writer rfl
theorem setCurrentSend (x0 : Nat) : Statement (.setCurrentSend x0) := no_writer rfl
theorem latchSend : Statement .latchSend := no_writer rfl
theorem rawCommandInsert (x0 : Nat) : Statement (.rawCommandInsert x0) := no_writer rfl
theorem readStatusRound (x0 : Nat) (x1 : Nat) (x2 : Nat) : Statement (.readStatusRound x0 x1 x2) := no_writer rfl
theorem laneReply (x0 : Nat) (x1 : List Nat) (x2 : Bool) (x3 : Nat) : Statement (.laneReply x0 x1 x2 x3) := no_writer rfl
theorem laneReplyTimeout (x0 : Nat) : Statement (.laneReplyTimeout x0) := no_writer rfl
theorem laneTrainStart (x0 : Nat) : Statement (.laneTrainStart x0) := no_writer rfl
theorem laneStateTimer (x0 : Nat) : Statement (.laneStateTimer x0) := no_writer rfl
theorem laneReprobe (x0 : Nat) : Statement (.laneReprobe x0) := no_writer rfl
theorem lanePadShort (x0 : Nat) : Statement (.lanePadShort x0) := no_writer rfl
theorem gclkPadShort (x0 : Nat) : Statement (.gclkPadShort x0) := no_writer rfl
theorem returnLaneShort (x0 : Nat) (x1 : Bool) : Statement (.returnLaneShort x0 x1) := no_writer rfl
theorem lpModGeomWrite (x0 : Writer) (x1 : Nat) (x2 : W64) : Statement (.lpModGeomWrite x0 x1 x2) := by
  intro h w hw
  cases hw
  simp only [wellFormed, Bool.and_eq_true] at h
  simp [anyWriter_of_reg, h]
theorem puPeriodBoundary (x0 : Nat) : Statement (.puPeriodBoundary x0) := no_writer rfl
theorem puImmediatePer (x0 : Writer) (x1 : Nat) (x2 : Nat) : Statement (.puImmediatePer x0 x1 x2) := by
  intro h w hw
  cases hw
  simp only [wellFormed, Bool.and_eq_true] at h
  simp [anyWriter_of_reg, h]
theorem puForceWrite (x0 : Writer) (x1 : Nat) (x2 : Nat) (x3 : Nat) : Statement (.puForceWrite x0 x1 x2 x3) := by
  intro h w hw
  cases hw
  simp only [wellFormed, Bool.and_eq_true] at h
  simp [anyWriter_of_reg, h]
theorem puSync (x0 : Nat) : Statement (.puSync x0) := no_writer rfl
theorem rowModeStart (x0 : Nat) : Statement (.rowModeStart x0) := no_writer rfl
theorem padReadbackMismatch (x0 : Nat) (x1 : Bool) (x2 : Bool) : Statement (.padReadbackMismatch x0 x1 x2) := no_writer rfl
theorem tripAssert (x0 : Nat) : Statement (.tripAssert x0) := no_writer rfl
theorem blankWindowEnd (x0 : Nat) : Statement (.blankWindowEnd x0) := no_writer rfl
theorem tripDeassert (x0 : Nat) : Statement (.tripDeassert x0) := no_writer rfl
theorem tripLatchClear (x0 : Writer) (x1 : Nat) : Statement (.tripLatchClear x0 x1) := by
  intro h w hw
  cases hw
  simp only [wellFormed, Bool.and_eq_true] at h
  simp [anyWriter_of_reg, h]
theorem tripSwSet : Statement .tripSwSet := no_writer rfl
theorem timerStep (x0 : Nat) (x1 : Nat) : Statement (.timerStep x0 x1) := no_writer rfl
theorem timerCapture (x0 : Nat) : Statement (.timerCapture x0) := no_writer rfl
theorem timerCaplRead (x0 : Nat) : Statement (.timerCaplRead x0) := no_writer rfl
theorem timerPairCommit (x0 : Nat) (x1 : TmrPair) (x2 : Nat) : Statement (.timerPairCommit x0 x1 x2) := no_writer rfl
theorem timerSourceWrite (x0 : Writer) (x1 : Nat) (x2 : TmrSrcWrite) : Statement (.timerSourceWrite x0 x1 x2) := by
  intro h w hw
  cases hw
  simp only [wellFormed, Bool.and_eq_true] at h
  simp [anyWriter_of_reg, h]
theorem timerSourceLost (x0 : Nat) : Statement (.timerSourceLost x0) := no_writer rfl
theorem timerSourceReturn (x0 : Nat) : Statement (.timerSourceReturn x0) := no_writer rfl
theorem tmrSync (x0 : Nat) : Statement (.tmrSync x0) := no_writer rfl
theorem tmrSwcap (x0 : Nat) : Statement (.tmrSwcap x0) := no_writer rfl
theorem budgetReportSend (x0 : Nat) : Statement (.budgetReportSend x0) := no_writer rfl
theorem ledgerSolve (x0 : Nat) : Statement (.ledgerSolve x0) := no_writer rfl
theorem leaseBlockSend (x0 : Nat) : Statement (.leaseBlockSend x0) := no_writer rfl
theorem leaseDeadline (x0 : Nat) : Statement (.leaseDeadline x0) := no_writer rfl
theorem senseRead (x0 : Nat) (x1 : Bool) : Statement (.senseRead x0 x1) := no_writer rfl
theorem senseLost (x0 : Nat) : Statement (.senseLost x0) := no_writer rfl
theorem emergClear : Statement .emergClear := no_writer rfl
theorem linkUp (x0 : Nat) (x1 : Nat) : Statement (.linkUp x0 x1) := no_writer rfl
theorem linkDown (x0 : Nat) : Statement (.linkDown x0) := no_writer rfl
theorem portHoldExpiry (x0 : Nat) : Statement (.portHoldExpiry x0) := no_writer rfl
theorem preemptVerifySend (x0 : Nat) : Statement (.preemptVerifySend x0) := no_writer rfl
theorem preemptRespond (x0 : Nat) : Statement (.preemptRespond x0) := no_writer rfl
theorem preemptVerifyTimeout (x0 : Nat) : Statement (.preemptVerifyTimeout x0) := no_writer rfl
theorem frameReceive (x0 : Nat) (x1 : Nat) (x2 : RxFrame) : Statement (.frameReceive x0 x1 x2) := no_writer rfl
theorem egressStart (x0 : Nat) (x1 : Nat) : Statement (.egressStart x0 x1) := no_writer rfl
theorem supervisionSend : Statement .supervisionSend := no_writer rfl
theorem nodeForget (x0 : Nat) : Statement (.nodeForget x0) := no_writer rfl
theorem dupWindowClear (x0 : Nat) (x1 : Nat) : Statement (.dupWindowClear x0 x1) := no_writer rfl
theorem replayRecordExpiry (x0 : Nat) (x1 : Nat) (x2 : Nat) : Statement (.replayRecordExpiry x0 x1 x2) := no_writer rfl
theorem reassemblyForget (x0 : Nat) (x1 : Nat) : Statement (.reassemblyForget x0 x1) := no_writer rfl
theorem gateEntryChange (x0 : Nat) : Statement (.gateEntryChange x0) := no_writer rfl
theorem syncSend : Statement .syncSend := no_writer rfl
theorem pdelayExchange (x0 : Nat) (x1 : Nat) (x2 : Nat) : Statement (.pdelayExchange x0 x1 x2) := no_writer rfl
theorem syncTimeout : Statement .syncTimeout := no_writer rfl
theorem domainChoice (x0 : Bool) : Statement (.domainChoice x0) := no_writer rfl
theorem scheduleFrameSend : Statement .scheduleFrameSend := no_writer rfl
theorem scheduleGovern : Statement .scheduleGovern := no_writer rfl
theorem latencyRaise (x0 : Nat) : Statement (.latencyRaise x0) := no_writer rfl
theorem ensignLost : Statement .ensignLost := no_writer rfl
theorem doorbellWrite (x0 : Writer) (x1 : Nat) (x2 : Nat) : Statement (.doorbellWrite x0 x1 x2) := by
  intro h w hw
  cases hw
  simp only [wellFormed, Bool.and_eq_true] at h
  exact h.1.1
theorem dicSelect : Statement .dicSelect := no_writer rfl
theorem dicLand (x0 : Nat) (x1 : Bool) : Statement (.dicLand x0 x1) := no_writer rfl
theorem holdoffExpiry (x0 : Nat) : Statement (.holdoffExpiry x0) := no_writer rfl
theorem dicClaim (x0 : Writer) (x1 : Nat) : Statement (.dicClaim x0 x1) := by
  intro h w hw
  cases hw
  simp only [wellFormed, Bool.and_eq_true] at h
  simp [anyWriter_of_reg, h]
theorem dicComplete (x0 : Writer) (x1 : Nat) (x2 : Nat) : Statement (.dicComplete x0 x1 x2) := by
  intro h w hw
  cases hw
  simp only [wellFormed, Bool.and_eq_true] at h
  simp [anyWriter_of_reg, h]
theorem dicTargetDisable (x0 : Nat) : Statement (.dicTargetDisable x0) := no_writer rfl
theorem dicSourceMask (x0 : Nat) (x1 : Bool) : Statement (.dicSourceMask x0 x1) := no_writer rfl
theorem dicSourceClear (x0 : Nat) : Statement (.dicSourceClear x0) := no_writer rfl
theorem tduHalt (x0 : Bool) : Statement (.tduHalt x0) := no_writer rfl
theorem tduResume : Statement .tduResume := no_writer rfl
theorem tduStep : Statement .tduStep := no_writer rfl
theorem stepDone : Statement .stepDone := no_writer rfl
theorem comparatorMatch (x0 : Nat) (x1 : Nat) (x2 : Nat) (x3 : Nat) (x4 : Bool) : Statement (.comparatorMatch x0 x1 x2 x3 x4) := no_writer rfl
theorem tduCcrWrite (x0 : Nat) (x1 : W32) : Statement (.tduCcrWrite x0 x1) := no_writer rfl
theorem tduStimWrite (x0 : Nat) (x1 : W32) : Statement (.tduStimWrite x0 x1) := no_writer rfl
theorem tduEchoWrite (x0 : BitVec 8) (x1 : W64) : Statement (.tduEchoWrite x0 x1) := no_writer rfl
theorem tapReset : Statement .tapReset := no_writer rfl
theorem extest : Statement .extest := no_writer rfl
theorem samplePreload (x0 : BitVec 290) : Statement (.samplePreload x0) := no_writer rfl
theorem clamp : Statement .clamp := no_writer rfl
theorem highz : Statement .highz := no_writer rfl
theorem dbgacc (x0 : BitVec 89) : Statement (.dbgacc x0) := no_writer rfl
theorem dbgrst : Statement .dbgrst := no_writer rfl
theorem bypass : Statement .bypass := no_writer rfl
theorem seqMemReadLand (x0 : Nat) : Statement (.seqMemReadLand x0) := no_writer rfl
theorem stageOperationDone (x0 : Nat) (x1 : Nat) : Statement (.stageOperationDone x0 x1) := no_writer rfl
theorem puCarrierEdge (x0 : Nat) : Statement (.puCarrierEdge x0) := no_writer rfl
theorem refclkReturn : Statement .refclkReturn := no_writer rfl
theorem loopbackDone (x0 : Nat) (x1 : Nat) (x2 : Nat) (x3 : Nat) (x4 : Nat) (x5 : Nat) (x6 : Nat) (x7 : Nat) : Statement (.loopbackDone x0 x1 x2 x3 x4 x5 x6 x7) := no_writer rfl
theorem selftestDone (x0 : List (Nat × Nat)) : Statement (.selftestDone x0) := no_writer rfl
theorem ucodeLoadDone (x0 : Nat) : Statement (.ucodeLoadDone x0) := no_writer rfl

end Laws.Writers
end Sys2Proof
end

