-- ==== Sys2Proof/Laws/Stores.lean ====
section
/-!
SUPPORT. SPM and HB: every operation on a store keeps its canonical form.
-/

namespace Sys2Proof

namespace SMap

variable {α : Type} [DecidableEq α]

/-- The canonical form, said of the list: keys rise from any entry to every later one, no value is its default. -/
theorem wf_iff (d : Nat → α) (l : List (Nat × α)) :
    wf d l = true ↔ l.Pairwise (fun p q => p.1 < q.1) ∧ ∀ p ∈ l, p.2 ≠ d p.1 := by
  induction l with
  | nil => simp [wf]
  | cons p t ih =>
    obtain ⟨k, v⟩ := p
    rw [wf_cons, ih, List.pairwise_cons]
    constructor
    · rintro ⟨h1, h2, h3, h4⟩
      refine ⟨⟨h1, h3⟩, fun q hq => ?_⟩
      rcases List.mem_cons.mp hq with rfl | hq
      · exact h2
      · exact h4 q hq
    · rintro ⟨⟨h1, h3⟩, h4⟩
      exact ⟨h1, h4 (k, v) (by simp), h3, fun q hq => h4 q (by simp [hq])⟩

theorem wf_filter (d : Nat → α) (l : List (Nat × α)) (f : Nat × α → Bool) (h : wf d l = true) : wf d (l.filter f) = true := by
  rw [wf_iff] at h ⊢
  exact ⟨h.1.filter f, fun p hp => h.2 p (List.mem_filter.mp hp).1⟩

omit [DecidableEq α] in
/-- The keys of values written one after the other. -/
theorem zipIdx_keys (a n : Nat) (vs : List α) :
    ((vs.zipIdx n).map fun p => (a + p.2, p.1)).Pairwise (fun p q => p.1 < q.1)
      ∧ ∀ p ∈ (vs.zipIdx n).map fun p => (a + p.2, p.1), a + n ≤ p.1 ∧ p.1 < a + n + vs.length := by
  induction vs generalizing n with
  | nil => simp
  | cons v vs ih =>
    obtain ⟨h1, h2⟩ := ih (n + 1)
    rw [List.zipIdx_cons, List.map_cons]
    refine ⟨List.pairwise_cons.mpr ⟨fun q hq => ?_, h1⟩, fun p hp => ?_⟩
    · have := (h2 q hq).1
      show a + n < q.1
      omega
    · rcases List.mem_cons.mp hp with rfl | hp
      · exact ⟨Nat.le_refl _, by simp⟩
      · have := h2 p hp
        simp only [List.length_cons]
        omega

/-- Writing consecutive keys keeps the canonical form. -/
theorem wf_splice (d : Nat → α) (l : List (Nat × α)) (a : Nat) (vs : List α) (h : wf d l = true) : wf d (splice d l a vs) = true := by
  rw [wf_iff] at h ⊢
  obtain ⟨z1, z2⟩ := zipIdx_keys a 0 vs
  unfold splice
  constructor
  · rw [List.pairwise_append, List.pairwise_append]
    refine ⟨⟨h.1.filter _, z1.filter _, fun p hp q hq => ?_⟩, h.1.filter _, fun p hp q hq => ?_⟩
    · have hp := (List.mem_filter.mp hp).2
      have hq := z2 q (List.mem_filter.mp hq).1
      simp only [decide_eq_true_eq] at hp
      omega
    · have hq := (List.mem_filter.mp hq).2
      simp only [decide_eq_true_eq] at hq
      rcases List.mem_append.mp hp with hp | hp
      · have hp := (List.mem_filter.mp hp).2
        simp only [decide_eq_true_eq] at hp
        omega
      · have hp := z2 p (List.mem_filter.mp hp).1
        omega
  · intro p hp
    rcases List.mem_append.mp hp with hp | hp
    · rcases List.mem_append.mp hp with hp | hp
      · exact h.2 p (List.mem_filter.mp hp).1
      · exact of_decide_eq_true (List.mem_filter.mp hp).2
    · exact h.2 p (List.mem_filter.mp hp).1

end SMap

namespace Machine

theorem Store.wf_set (m : Store) (a : Nat) (d : Byte) (e : BitVec 5) (h : m.wf = true) : (m.set a d e).wf = true := by
  rw [Store.wf, Bool.and_eq_true] at h ⊢
  exact ⟨SMap.wf_put _ _ _ _ h.1, SMap.wf_put _ _ _ _ h.2⟩

theorem Store.wf_write (m : Store) (a : Nat) (b : PByte) (h : m.wf = true) : (m.write a b).wf = true := Store.wf_set m a _ _ h

theorem Store.wf_invert (m : Store) (a bits : Nat) (h : m.wf = true) : (m.invert a bits).wf = true := Store.wf_set m a _ _ h

theorem Store.wf_writeRange (m : Store) (a : Nat) (l : List PByte) (h : m.wf = true) : (m.writeRange a l).wf = true := by
  rw [Store.wf, Bool.and_eq_true] at h ⊢
  exact ⟨SMap.wf_splice _ _ _ _ h.1, SMap.wf_splice _ _ _ _ h.2⟩

/-- Both stores are canonical when the one selected and the other are. -/
theorem State.storesWf_iff (s : State) : s.storesWf = true ↔ ∀ x, (s.store x).wf = true := by
  rw [State.storesWf, Bool.and_eq_true]
  constructor
  · rintro ⟨h1, h2⟩ x
    cases x
    · exact h2
    · exact h1
  · exact fun h => ⟨h .hb, h .spm⟩

theorem State.storesWf_setStore (s : State) (x : StoreSel) (m : Store) (h : s.storesWf = true) (hm : m.wf = true) :
    (s.setStore x m).storesWf = true := by
  rw [State.storesWf, Bool.and_eq_true] at h ⊢
  cases x
  · exact ⟨h.1, hm⟩
  · exact ⟨hm, h.2⟩

/-- A write of HB or SPM keeps the canonical form of both stores. -/
theorem writeBytes_storesWf (x : StoreSel) (a : Nat) (l : List PByte) (s : State) (h : s.storesWf = true) :
    (writeBytes x a l s).storesWf = true := by
  have hm := Store.wf_writeRange (s.store x) a l ((s.storesWf_iff.mp h) x)
  unfold writeBytes
  extract_lets m s0 s1 tgt
  have h1 : s1.storesWf = true := by
    show (s.setStore x m).storesWf = true
    exact State.storesWf_setStore s x m h hm
  split
  · exact h
  · split
    · show (s1.setStore x _).storesWf = true
      exact State.storesWf_setStore s1 x _ h1 (Store.wf_invert m _ _ hm)
    · exact h1

/-- The release of a bank keeps it. -/
theorem zeroBank_storesWf (b : Nat) (s : State) (h : s.storesWf = true) : (zeroBank b s).storesWf = true := by
  rw [State.storesWf, Bool.and_eq_true] at h ⊢
  refine ⟨h.1, ?_⟩
  have h2 := h.2
  rw [Store.wf, Bool.and_eq_true] at h2 ⊢
  exact ⟨SMap.wf_filter _ _ _ h2.1, SMap.wf_filter _ _ _ h2.2⟩

/-- The write-back of a correction keeps it. -/
theorem correctionWriteBack_storesWf (x : StoreSel) (a : Nat) (s : State) (h : s.storesWf = true) :
    (correctionWriteBack x a s).storesWf = true := by
  unfold correctionWriteBack
  extract_lets r s1
  split
  · have h1 : s1.storesWf = true := h
    split
    · exact State.storesWf_setStore s1 x _ h1 (Store.wf_set _ _ _ _ ((s1.storesWf_iff.mp h1) x))
    · exact h1
  · exact h

/-- Reset has it. -/
theorem reset_storesWf : State.reset.storesWf = true := rfl

end Machine
end Sys2Proof
end

