-- ==== Sys2Proof/Machine/Bumps.lean ====
section
/-!
DEFINITION. The states of the signal bumps (R43, R44, R61, R570).
-/

namespace Sys2Proof.Machine

/-- A row of the table of R43; HLn_RX stands for HLn_CK too, `sns` for SNS_SCK and SNS_CS_N, `io` for the other VDDIO inputs, `ao` for
AOCLK, AORST_N, PWRGOOD, WAKEn and CAPn. -/
inductive Bump where
  | hlTx (n : Nat) | hlRx (n : Nat) | zfw (n : Nat) | zrt (n : Nat) | pu (n : Nat) | trp (n : Nat) | gck (g : Nat) | sns | tdo
  | trace | io | ao | tout (k : Nat)
  deriving DecidableEq, Repr

/-- What the table says of a bump: `pair` is SNS_SCK low with SNS_CS_N high; `cell` is a bump that the boundary register governs. -/
inductive BumpState where
  | hiZ | idle | heldIgnored | active | ignored | quiet | unterminated | terminated | low | pair | frozen | monitored | jtag
  | perTrace | perReset | perTimer | perLoopback | cell
  deriving DecidableEq, Repr

/-- The columns of the table. -/
inductive BumpCol where
  | off | absent | reset | furled | watch | run | show_ | test | halt
  deriving DecidableEq, Repr

/-- Is the bump's unit in the AO island, which only a power-on reset covers (R78, R94)? -/
def Bump.inIsland : Bump → Bool
  | .trp _ | .ao | .tout _ => true
  | _ => false

/-- The column that holds for a bump. -/
def State.bumpCol (s : State) (b : Bump) : BumpCol :=
  if !s.ao.supplies || s.mode == Mode.off then .off
  else if s.ao.engDis then .absent
  else if s.ao.porHeld || (!b.inIsland && s.inReset) then .reset
  else if s.mode = Mode.furled then .furled
  else if s.mode = Mode.watch then .watch
  else if showMode s.mode then .show_
  else if s.mode = Mode.test then .test
  else if s.mode = Mode.halt then .halt
  else .run

/-- Does a loopback run on a ring port? -/
def State.loopOn (s : State) (n : Nat) : Bool := s.tdu.loops.any fun l => l.kind == 0 && l.unit == n

/-- The table of R43. -/
def State.bumpTable (s : State) : Bump → BumpCol → BumpState
  | .hlTx _, .off | .hlTx _, .absent | .hlTx _, .furled => .hiZ
  | .hlTx _, .reset | .hlTx _, .watch => .idle
  | .hlTx n, .run => if s.flag (F.RING_PORT_CFG_EN n) then .active else .idle
  | .hlTx n, .test => if s.loopOn n then .perLoopback else .active
  | .hlTx _, _ => .active
  | .hlRx _, .off | .hlRx _, .absent | .hlRx _, .furled => .hiZ
  | .hlRx _, .reset => .heldIgnored
  | .hlRx _, _ => .active
  | .zfw _, .off => .hiZ
  | .zfw _, .show_ => .active
  | .zfw n, .test => if s.laneTested n then .active else .quiet
  | .zfw _, _ => .quiet
  | .zrt _, .off | .zrt _, .absent => .hiZ
  | .zrt _, .reset | .zrt _, .furled | .zrt _, .watch => .unterminated
  | .zrt _, _ => .terminated
  | .pu _, .off => .hiZ
  | .pu _, .show_ => .active
  | .pu _, .halt => .frozen
  | .pu _, _ => .low
  | .trp _, .off | .trp _, .absent => .ignored
  | .trp _, _ => .monitored
  | .gck _, .off | .gck _, .furled | .gck _, .watch => .hiZ
  | .gck _, .show_ => .active
  | .gck _, .halt => .frozen
  | .gck _, _ => .low
  | .sns, .off | .sns, .furled | .sns, .watch => .hiZ
  | .sns, .absent | .sns, .reset => .pair
  | .sns, .run | .sns, .test => if s.flag F.BA_SNS_EN then .active else .pair
  | .sns, _ => .active
  | .tdo, .run | .tdo, .show_ | .tdo, .test | .tdo, .halt => .jtag
  | .tdo, _ => .hiZ
  | .trace, .off | .trace, .furled | .trace, .watch => .hiZ
  | .trace, .absent | .trace, .reset => .low
  | .trace, _ => .perTrace
  | .io, .off | .io, .absent | .io, .furled | .io, .watch => .ignored
  | .io, .reset => .perReset
  | .io, _ => .active
  | .ao, .off | .ao, .absent => .ignored
  | .ao, _ => .active
  | .tout _, .off => .hiZ
  | .tout _, .absent | .tout _, .reset => .low
  | .tout _, _ => .perTimer

/-- The outputs that the boundary register covers: classes IO18, AO18 and AOP but for TDO, and the lane pairs (R570). -/
def Bump.covered : Bump → Bool
  | .zfw _ | .pu _ | .gck _ | .sns | .trace | .tout _ => true
  | _ => false

/-- The state of a bump: in Halt the cells govern the covered outputs while EXTEST or CLAMP is in the instruction register, and HIGHZ
releases them. -/
def State.bump? (s : State) (b : Bump) : BumpState :=
  if s.mode = Mode.halt && b.covered && s.tdu.ir == Tap.highz then .hiZ
  else if s.mode = Mode.halt && b.covered && (s.tdu.ir == Tap.extest || s.tdu.ir == Tap.clamp) then .cell
  else s.bumpTable b (s.bumpCol b)

/-- The level that the engine drives on TOUTk, if it drives one. -/
def State.toutPin (s : State) (k : Nat) : Option Bool :=
  match s.bump? (.tout k) with
  | .low => some false
  | .perTimer => some (s.tout k)
  | _ => none

/-- The levels that the engine drives on PUn_H and PUn_L, if it drives them: low under a trip in every column but Off (R44). -/
def State.puPins (s : State) (n : Nat) : Option (Bool × Bool) :=
  match s.bump? (.pu n) with
  | .hiZ | .cell => none
  | .low => some (false, false)
  | _ => some ((s.pu n).padH, (s.pu n).padL)

end Sys2Proof.Machine
end

