-- ==== Sys2Proof/Tests/Slice0.lean ====
section
/-!
SUPPORT. Tests: what WellFormed refuses, a state and operands that meet the hypotheses of every statement, and single steps whose results the
spec gives.
-/

set_option maxRecDepth 100000
set_option Elab.async false

namespace Sys2Proof.Tests
open Sys2Proof.Machine

/-! ### Small states -/

/-- A running engine in mode m: PWRGOOD is high, both clocks have been released, HPT is awake, the core is out of reset. -/
def up (m : Nat) : State :=
  let s : State := { State.reset with
    build := .x
    ao := { Ao.reset with pwrgood := true, coreHeld := false, cclk := ⟨false, 0, false, false⟩, pnclk := ⟨false, 0, false, false⟩ }
    hpt := { Hpt.reset with awake := true } }
  (((((s.setFld F.AO_MODE_MODE m).setFlag F.AO_MODE_BUSY false).setFlag F.AO_CLKST_CC_OK true).setFlag F.AO_CLKST_CC_SAFE false).setFlag
    F.AO_CLKST_PN_OK true).setFlag F.AO_CLKST_PN_SAFE false

/-- The core is about to execute an instruction at the start of HB. -/
def core (m : Nat) : State := { up m with cc := { CcSt.reset with pc := 0x600000, stat := 0x42 } }

/-- A command in hand with number 7, opcode `opc` and parameters `b`, from submission ring 0, started. -/
def cmdOf (opc : Nat) (b : List Byte) : Cmd :=
  ⟨7, .ring 0, leBytes 2 opc ++ [0, 1] ++ leBytes 4 0 ++ leBytes 2 b.length ++ [0xFF, 0xFF] ++ leBytes 4 0, b, false, 8, .started, none, none, 0, false⟩

/-- `s` with that command alone in hand. -/
def holding (c : Cmd) (s : State) : State := { s with cmds := { s.cmds with list := [c], nextId := 8 } }

/-- Is a command in hand, started, and this engine's own work? -/
def due (s : State) (c : Cmd) (opc : Nat) : Bool :=
  s.cmd? c.id == some c && s.broadcast? c.id == none && !s.answered c && c.opc == opc && c.phase == .started && s.live

theorem due_of {s : State} {c : Cmd} {opc : Nat} (h : due s c opc = true) : s.Due c opc := by
  simp only [due, Bool.and_eq_true, beq_iff_eq, Bool.not_eq_true'] at h
  obtain ⟨⟨⟨⟨⟨h1, h2⟩, h6⟩, h3⟩, h4⟩, h5⟩ := h
  exact ⟨⟨h1, h2, h6⟩, h3, h4, h5⟩

/-- Is nothing to follow a transition: no hook, no Halt that waits? -/
def calm (s : State) : Bool := s.cc.hooks == [] && s.tdu.haltReq == none

theorem calm_of {s : State} (h : calm s = true) : s.calm := by
  simp only [calm, Bool.and_eq_true, beq_iff_eq] at h
  exact h

/-- Is the core ready for an instruction of `len` bytes? -/
def ready (s : State) (len : Nat) : Bool :=
  s.coreRuns && s.cc.cx == none && s.cc.wait == none && (s.halfwords len).all fun a => s.executable a && !anyPen (s.codeBytes a 2)

theorem ready_of {s : State} {len : Nat} (h : ready s len = true) : s.ccReady len := by
  simp only [ready, Bool.and_eq_true, beq_iff_eq, List.all_eq_true, Bool.not_eq_true'] at h
  obtain ⟨⟨⟨h1, h2⟩, h3⟩, h4⟩ := h
  exact ⟨h1, h2, h3, h4⟩

/-- The state that a command leads to. -/
def after (i : Instr) (s : State) : State := match exec i s with | .next t => t | _ => s

theorem test_up : (up Mode.standby).live = true ∧ (up Mode.standby).firmware = true ∧ (up Mode.standby).calm ∧ (up Mode.standby).aoOn = true := by
  refine ⟨by decide, by decide, calm_of (by decide), by decide⟩

theorem test_core : (core Mode.standby).ccReady 2 ∧ (core Mode.standby).ccReady 4 := ⟨ready_of (by decide), ready_of (by decide)⟩

/-! ### WellFormed: each check refuses a term, and takes the operands at its bound -/

/-- One ill-formed command for each check. -/
theorem test_ill_formed_0 : ([.watchdogKick (2 ^ 16), .cclkMulWrite (.core 3) 0, .cclkMulWrite .host (2 ^ 6), .pnMulWrite (.core 3) 0,
    .pnMulWrite .host (2 ^ 12), .releaseTestWindow .cclk (2 ^ 16) true, .wakePinEdge 8 true, .watcherHit 4096,
    .registerWrite (.core 3) 0 0xFF 0, .registerWrite .host 0x600000 0xFF 0, .registerWrite .host 4 0xFF 0, .mptRequestIssue 2 0 true,
    .mptReadResponse 2 0 true (List.replicate 320 0), .mptReadResponse 0 64 true (List.replicate 320 0), .mptReadResponse 0 0 true [], .mptWriteResponse 2 0 true,
    .mptWriteResponse 0 64 true, .mptRequestOverdue 2 0, .mptRequestOverdue 0 64, .mptEnWrite (.core 3) 0 true,
    .mptEnWrite .host 2 true, .mptCwinWrite (.core 3) 0 0 0, .mptCwinWrite .host 2 0 0, .mptCwinWrite .host 0 8 0,
    .correctionWriteBack .hb (2 ^ 23), .scrubOwnWrite 64 0, .scrubOwnWrite 0 256, .spmBankReleaseDone 64,
    .scrubInjArm (.core 3) 0, .scrubDone 4, .microwordExecute 19, .synBarrierComplete 8,
    .hangLimit 19, .retire 19, .seqStop 19, .seqStart 19,
    .synfWrite (.core 3) 0 0xFF 0, .synfWrite .host 8 0xFF 0, .illegalInstruction false 0xC000, .illegalInstruction true 0xBFFFFFFF] : List Instr).all (fun i => !wellFormed i) = true := by decide

/-- One ill-formed command for each check. -/
theorem test_ill_formed_1 : ([.submissionDoorbell 8 0, .submissionDoorbell 0 (2 ^ 20), .cqHeadWrite 8 0, .cqHeadWrite 0 (2 ^ 20),
    .cmdCfgEnWrite 8 true, .packetAccept [(8, [])], .wallStatus 0 (2 ^ 64), .ringCfg 0 (2 ^ 64),
    .approve 0 (2 ^ 64), .grantEnd 2, .play 0 (2 ^ 64), .playEffect 16 0,
    .plyCatEnable (.core 3) 0, .playoutFrame 16 0 0, .playoutFrame 0 0 (2 ^ 64), .feedArm (.core 3) 0 0 0,
    .feedArm .host 16 0 0, .feedArm .host 0 0 (2 ^ 64), .feedStop (.core 3) 0, .feedStop .host 16,
    .feedPost 16 0, .feedPost 0 8, .feedBind 16 0 0, .feedBind 0 0 (2 ^ 64),
    .sliceEncodeDispatch 16 0, .sliceEncodeDispatch 0 (2 ^ 64), .sliceQueued 16 [], .unitSend (.feed 0) (2 ^ 64),
    .sliceRowDispatch 16, .rowPublish 16, .bandClose 32, .lightPathBandStart 32,
    .bandLoadSend 64, .setCurrentSend 64, .rawCommandInsert 2, .readStatusRound 64 0 0,
    .readStatusRound 0 16 0, .readStatusRound 0 0 17, .laneReply 8 [] true 0, .laneReply 0 [] true (2 ^ 16), .laneReply 0 [2 ^ 10] true 0] : List Instr).all (fun i => !wellFormed i) = true := by decide

/-- One ill-formed command for each check. -/
theorem test_ill_formed_2 : ([.laneReplyTimeout 8, .laneTrainStart 64, .laneStateTimer 64, .laneReprobe 64,
    .lanePadShort 64, .gclkPadShort 16, .returnLaneShort 8 true, .lpModGeomWrite (.core 3) 0 0,
    .lpModGeomWrite .host 64 0, .puPeriodBoundary 64, .puImmediatePer (.core 3) 0 0, .puImmediatePer .host 64 0,
    .puImmediatePer .host 0 (2 ^ 16), .puForceWrite (.core 3) 0 0 0, .puForceWrite .host 64 0 0, .puForceWrite .host 0 4 0,
    .puForceWrite .host 0 0 4, .puSync (2 ^ 64), .rowModeStart 64, .padReadbackMismatch 64 true true,
    .tripAssert 32, .blankWindowEnd 32, .tripDeassert 32, .tripLatchClear (.core 3) 0,
    .tripLatchClear .host (2 ^ 33), .timerStep 32 0, .timerCapture 32, .timerCaplRead 32,
    .timerPairCommit 32 .top 0, .timerPairCommit 0 .top (2 ^ 17), .timerSourceWrite (.core 3) 0 (.div 0), .timerSourceWrite .host 32 (.div 0),
    .timerSourceLost 32, .timerSourceReturn 32, .tmrSync (2 ^ 32), .tmrSwcap (2 ^ 32),
    .budgetReportSend (2 ^ 64), .ledgerSolve (2 ^ 64), .leaseBlockSend (2 ^ 64), .leaseDeadline (2 ^ 64)] : List Instr).all (fun i => !wellFormed i) = true := by decide

/-- One ill-formed command for each check. -/
theorem test_ill_formed_3 : ([.senseRead (2 ^ 24) true, .linkUp 2 0, .linkUp 0 (2 ^ 64), .linkDown 2,
    .portHoldExpiry 2, .preemptVerifySend 2, .preemptRespond 2, .preemptVerifyTimeout 2,
    .frameReceive 2 0 (.sync 0 0 0 0), .frameReceive 0 (2 ^ 64) (.sync 0 0 0 0), .egressStart 2 0, .egressStart 0 (2 ^ 64),
    .nodeForget 1024, .replayRecordExpiry 1024 0 0, .reassemblyForget 1024 0, .reassemblyForget 0 1024,
    .gateEntryChange 2, .pdelayExchange 2 0 0, .pdelayExchange 0 (2 ^ 16) 0, .pdelayExchange 0 0 (2 ^ 32),
    .latencyRaise (2 ^ 64), .doorbellWrite (.seq 19) 0 0, .doorbellWrite .host 4096 0, .doorbellWrite .host 0 16,
    .dicLand 9 true, .holdoffExpiry 64, .dicClaim (.core 3) 0, .dicClaim .host 9,
    .dicComplete (.core 3) 0 0, .dicComplete .host 9 0, .dicComplete .host 0 4096, .dicTargetDisable 9,
    .dicSourceMask 4096 true, .dicSourceClear 4096, .comparatorMatch 8 0 0 0 true, .comparatorMatch 0 5 0 0 true,
    .comparatorMatch 0 0 0 32 true, .tduCcrWrite 52 0, .tduStimWrite 32 0, .seqMemReadLand 19] : List Instr).all (fun i => !wellFormed i) = true := by decide

/-- One ill-formed command for each check. -/
theorem test_ill_formed_4 : ([.stageOperationDone 19 0, .stageOperationDone 0 12, .puCarrierEdge 64] : List Instr).all (fun i => !wellFormed i) = true := by decide

/-- The largest operands that each check takes. -/
theorem test_well_formed_0 : ([.watchdogKick (2 ^ 16 - 1), .cclkMulWrite .host (2 ^ 6 - 1), .pnMulWrite .host (2 ^ 12 - 1), .releaseTestWindow .cclk (2 ^ 16 - 1) true,
    .wakePinEdge 7 true, .watcherHit 4095, .registerWrite .host 0x5FFFF8 0xFF 0, .mptRequestIssue 1 0 true,
    .mptReadResponse 1 63 true (List.replicate 320 0), .mptWriteResponse 1 63 true, .mptRequestOverdue 1 63, .mptEnWrite .host 1 true,
    .mptCwinWrite .host 1 7 0, .correctionWriteBack .hb (2 ^ 23 - 1), .scrubOwnWrite 63 255, .spmBankReleaseDone 63,
    .scrubInjArm .host 0, .scrubDone 3, .microwordExecute 18, .synBarrierComplete 7,
    .hangLimit 18, .retire 18, .seqStop 18, .seqStart 18,
    .synfWrite .host 7 0xFF 0, .illegalInstruction true 0xFFFFFFFF, .submissionDoorbell 7 (2 ^ 20 - 1), .cqHeadWrite 7 (2 ^ 20 - 1),
    .cmdCfgEnWrite 7 true, .packetAccept [(7, [])], .wallStatus 0 (2 ^ 64 - 1), .ringCfg 0 (2 ^ 64 - 1),
    .approve 0 (2 ^ 64 - 1), .grantEnd 1, .play 0 (2 ^ 64 - 1), .playEffect 15 0,
    .plyCatEnable .host 0, .playoutFrame 15 0 (2 ^ 64 - 1), .feedArm .host 15 0 (2 ^ 64 - 1), .feedStop .host 15] : List Instr).all (fun i => wellFormed i) = true := by decide

/-- The largest operands that each check takes. -/
theorem test_well_formed_1 : ([.feedPost 15 7, .feedBind 15 0 (2 ^ 64 - 1), .sliceEncodeDispatch 15 (2 ^ 64 - 1), .sliceQueued 15 [],
    .unitSend (.feed 0) (2 ^ 64 - 1), .sliceRowDispatch 15, .rowPublish 15, .bandClose 31,
    .lightPathBandStart 31, .bandLoadSend 63, .setCurrentSend 63, .rawCommandInsert 1,
    .readStatusRound 63 15 16, .laneReply 7 [2 ^ 10 - 1] true (2 ^ 16 - 1), .laneReplyTimeout 7, .laneTrainStart 63,
    .laneStateTimer 63, .laneReprobe 63, .lanePadShort 63, .gclkPadShort 15,
    .returnLaneShort 7 true, .lpModGeomWrite .host 63 0, .puPeriodBoundary 63, .puImmediatePer .host 63 (2 ^ 16 - 1),
    .puForceWrite .host 63 3 3, .puSync (2 ^ 64 - 1), .rowModeStart 63, .padReadbackMismatch 63 true true,
    .tripAssert 31, .blankWindowEnd 31, .tripDeassert 31, .tripLatchClear .host (2 ^ 33 - 1),
    .timerStep 31 0, .timerCapture 31, .timerCaplRead 31, .timerPairCommit 31 .top (2 ^ 17 - 1),
    .timerSourceWrite .host 31 (.div 0), .timerSourceLost 31, .timerSourceReturn 31, .tmrSync (2 ^ 32 - 1)] : List Instr).all (fun i => wellFormed i) = true := by decide

/-- The largest operands that each check takes. -/
theorem test_well_formed_2 : ([.tmrSwcap (2 ^ 32 - 1), .budgetReportSend (2 ^ 64 - 1), .ledgerSolve (2 ^ 64 - 1), .leaseBlockSend (2 ^ 64 - 1),
    .leaseDeadline (2 ^ 64 - 1), .senseRead (2 ^ 24 - 1) true, .linkUp 1 (2 ^ 64 - 1), .linkDown 1,
    .portHoldExpiry 1, .preemptVerifySend 1, .preemptRespond 1, .preemptVerifyTimeout 1,
    .frameReceive 1 (2 ^ 64 - 1) (.sync 0 0 0 0), .egressStart 1 (2 ^ 64 - 1), .nodeForget 1023, .replayRecordExpiry 1023 0 0,
    .reassemblyForget 1023 1023, .gateEntryChange 1, .pdelayExchange 1 (2 ^ 16 - 1) (2 ^ 32 - 1), .latencyRaise (2 ^ 64 - 1),
    .doorbellWrite .host 4095 15, .dicLand 8 true, .holdoffExpiry 63, .dicClaim .host 8,
    .dicComplete .host 8 4095, .dicTargetDisable 8, .dicSourceMask 4095 true, .dicSourceClear 4095,
    .comparatorMatch 7 4 0 31 true, .tduCcrWrite 51 0, .tduStimWrite 31 0, .seqMemReadLand 18,
    .stageOperationDone 18 11, .puCarrierEdge 63] : List Instr).all (fun i => wellFormed i) = true := by decide

/-- No word spells a command: the command table gives its rows no bits. -/
theorem test_decode : ∀ n w, decodeTableWord n w = none := fun _ _ => rfl

/-! ### Power, resets, clocks: the hypotheses of the statements are met -/

theorem test_queue : step { up Mode.standby with pending := [.bypass, .nop 0] } = exec .bypass { up Mode.standby with pending := [.nop 0] }
    ∧ step (up Mode.standby) = .next (up Mode.standby) := ⟨rfl, rfl⟩

/-- An engine that ENG_DIS has disabled, and a step of it. -/
def disabledEngine : State := after .powerOnReset { State.reset with ao := { Ao.reset with engDis := true } }

theorem test_disabled : disabledEngine.disabled = true ∧ (after .powerOnResetRelease disabledEngine).disabled = true
    ∧ step disabledEngine = .next disabledEngine := ⟨by decide +kernel, by decide +kernel, rfl⟩

theorem test_no_cclk : needsCclk (.nop 0) = true ∧ State.reset.cclkOn = false ∧ exec (.nop 0) State.reset = .next State.reset :=
  ⟨rfl, by decide +kernel, rfl⟩

/-- Held in power-on reset, with PWRGOOD as given. -/
def held (good : Bool) : State := { State.reset with build := .x, ao := { Ao.reset with porHeld := true, pwrgood := good } }

theorem test_release : (after .powerOnResetRelease (held false)).ao.porHeld = false
    ∧ (after .powerOnResetRelease (held true)).ao.filling = true ∧ (after .powerOnResetRelease (held true)).flag F.AO_CLKST_CC_SAFE = true := by
  decide +kernel

/-- The fill is in progress, CCLK released. -/
def filling : State := { up Mode.rigging with ao := { (up Mode.rigging).ao with filling := true, coreHeld := true } }

theorem test_fill : (filling.ao.filling && !filling.inReset && filling.ccOk && filling.hpt.slots == [] && filling.tdu.acc.wait == none
    && !(after .fillComplete filling).ao.filling) = true := by decide +kernel

/-- The core is held after the fill. -/
def coreHeld : State := { up Mode.rigging with ao := { (up Mode.rigging).ao with coreHeld := true } }

theorem test_coreRelease : (coreHeld.ao.coreHeld && !coreHeld.ao.filling && !coreHeld.inReset && !coreHeld.asleep && coreHeld.mode != Mode.off
    && coreHeld.hb == .zero && coreHeld.tdu.haltReq == none && coreHeld.ccOk && coreHeld.ao.sleep == .none) = true
    ∧ (after .coreRelease coreHeld).cc.pc = 0x01000000 ∧ (after .coreRelease coreHeld).ao.coreHeld = false := by decide +kernel

theorem test_pwrgoodFall : (let s := up Mode.display
    s.rfWf && s.ao.supplies && !s.ao.porHeld && !s.ao.engDis && s.ao.pwrgood && !s.ao.engHeld && !s.asleep) = true
    ∧ (after .pwrgoodFall (up Mode.display)).mode = Mode.rigging ∧ (after .pwrgoodFall (up Mode.display)).flag F.AO_RSTCAUSE_PWRLOSS = true
    ∧ (after .engineReset (up Mode.display)).flag F.AO_RSTCAUSE_ENG = true := by decide +kernel

/-- The watchdog runs and has expired once, or not. -/
def watched (once : Bool) : State :=
  let s := (up Mode.standby).setFld F.AO_WDOG_PERIOD 100
  { s with ao := { s.ao with wdogExpired := once } }

theorem test_watchdog : (watched true).wdogRuns = true ∧ (watched true).rfWf = true ∧ (after .watchdogReset (watched true)).flag F.AO_RSTCAUSE_WDOG = true
    ∧ (after .watchdogReset (watched true)).mode = Mode.rigging ∧ (after .watchdogWarning (watched false)).flag F.AO_WDOG_WARNED = true
    ∧ (after (.watchdogKick 0x5A3C) (after .watchdogWarning (watched false))).flag F.AO_WDOG_WARNED = false := by decide +kernel

theorem test_engineResetRelease : (let s := after .engineReset (up Mode.standby)
    s.ao.engHeld && !(after .engineResetRelease s).ao.engHeld) = true := by decide +kernel

/-- A SOFT_RESET in hand. -/
def softC : Cmd := cmdOf 0x0002 (leBytes 8 0x5AFE0002)

theorem test_softReset : (holding softC (up Mode.display)).Due softC 0x0002 ∧ (∀ d ∈ (holding softC (up Mode.display)).cmds.list, d.id = 7)
    ∧ (after (.softReset 7) (holding softC (up Mode.display))).ao.softPending = some 7 := ⟨due_of (by decide +kernel), by decide +kernel, by decide +kernel⟩

theorem test_softResetEffect : (let s : State := { up Mode.display with ao := { (up Mode.display).ao with softPending := some 7 } }
    s.cmd? 7 == none && s.cclkOn && (after .softResetEffect s).mode == Mode.standby && (after .softResetEffect s).flag F.AO_RSTCAUSE_SOFT) = true := by
  decide +kernel

/-- CCLK is relocking to CCLK_MUL = 32 and has passed `n` windows. -/
def relocking (n : Nat) : State :=
  let s := (((up Mode.standby).setFld F.AO_CLKCFG_CCLK_MUL 32).setFlag F.AO_CLKST_CC_OK false).setFlag F.AO_CLKST_CC_SAFE true
  { s with ao := { s.ao with cclk := ⟨true, n, false, false⟩ } }

/-- T = 32,768: the windows of 32,704 to 32,832 cycles pass. -/
theorem test_releaseWindow : (relocking 3).clocked = true ∧ (relocking 3).ao.refAbsent = false
    ∧ ((after (.releaseTestWindow .cclk 32704 true) (relocking 3)).flag F.AO_CLKST_CC_OK
      && (after (.releaseTestWindow .cclk 32832 true) (relocking 3)).flag F.AO_CLKST_CC_OK
      && !(after (.releaseTestWindow .cclk 32703 true) (relocking 3)).flag F.AO_CLKST_CC_OK
      && !(after (.releaseTestWindow .cclk 32833 true) (relocking 3)).flag F.AO_CLKST_CC_OK
      && !(after (.releaseTestWindow .cclk 32768 false) (relocking 3)).flag F.AO_CLKST_CC_OK
      && ((after (.releaseTestWindow .cclk 32768 true) (relocking 2)).clk .cclk).passes == 3) = true := by decide +kernel

theorem test_watchWindow : ((up Mode.standby).clk .pnclk).relocking = false ∧ (up Mode.standby).fld F.AO_CLKCFG_PN_MUL = 0x400
    ∧ (let s := up Mode.standby
      (after (.releaseTestWindow .pnclk 16319 true) s).flag F.AO_CLKST_PN_OK && (after (.releaseTestWindow .pnclk 16449 true) s).flag F.AO_CLKST_PN_OK
      && !(after (.releaseTestWindow .pnclk 16318 true) s).flag F.AO_CLKST_PN_OK && !(after (.synthLockLost .pnclk) s).flag F.AO_CLKST_PN_OK) = true := by
  decide +kernel

theorem test_multipliers : (let s := up Mode.standby
    s.cclkOn && !s.ao.refAbsent && !s.flag F.AO_CLKCFG_LOCK && s.fld F.AO_CLKCFG_CCLK_MUL != 8 && s.fld F.AO_CLKCFG_PN_MUL != 0x100 && !showMode s.mode
    && (after (.cclkMulWrite .host 8) s).fld F.AO_CLKCFG_CCLK_MUL == 8 && (after (.pnMulWrite .host 0x100) s).fld F.AO_CLKCFG_PN_MUL == 0x100
    && (after (.pnMulWrite .host 0x100) (up Mode.display)).fld F.AO_CLKCFG_PN_MUL == 0x400) = true := by decide +kernel

theorem test_clockFaults : (let s : State := { up Mode.display with ao := { (up Mode.display).ao with pnclk := ⟨true, 0, false, false⟩ } }
    s.clocked && calm s && (after .pnclkRelockTimeout s).mode == Mode.dark && (after .refclkLost s).fld F.AO_MODE_DCAUSE == 2
    && !(after .refclkReturn (after .refclkLost s)).ao.refAbsent) = true := by decide +kernel

/-! ### Modes, sleep and wake -/

/-- A MODE_SET in hand. -/
def modeC (m : Nat) : Cmd := cmdOf 0x0001 (leBytes 8 m)

/-- A schedule is in force. -/
def scheduled (s : State) : State := s.setFld F.TSU_SCHED1_PERIOD 0xFFFFFF

theorem test_modeSet : (holding (modeC 9) (up Mode.standby)).Due (modeC 9) 1 ∧ (holding (modeC 9) (up Mode.standby)).calm
    ∧ (let s := holding (modeC 9) (up Mode.standby)
      !s.flag F.AO_MODE_BUSY && (modeTargets s.mode).contains 9 && !s.modeDenied 9 && (after (.modeSet 7) s).mode == Mode.test
      && (after (.modeSet 7) s).fld F.AO_MODE_LAST == Mode.standby) = true :=
  ⟨due_of (by decide +kernel), calm_of (by decide +kernel), by decide +kernel⟩

/-- Display is refused while the roles and a schedule are not there; Half-Mast is no target; bytes 1 to 7 are reserved. -/
theorem test_modeSet_refused : (let s := holding (modeC 6) (up Mode.standby)
      (modeTargets s.mode).contains 6 && s.modeDenied 6 && (after (.modeSet 7) s).mode == Mode.standby) = true
    ∧ (modeTargets Mode.standby).contains 7 = false ∧ zeroAt (cmdOf 1 (leBytes 8 0x105)).params 1 7 = false := by decide +kernel

theorem test_modeSet_dark : (let s := holding (modeC 0xA) (up Mode.display)
    due s (modeC 0xA) 1 && (modeTargets s.mode).contains 0xA && !s.modeDenied 0xA && s.cmds.list.all (fun d => d.opc != 1 || d == modeC 0xA)) = true := by
  decide +kernel

theorem test_modeSet_sleep : (let s := holding (modeC 1) (up Mode.standby)
    due s (modeC 1) 1 && (modeTargets s.mode).contains 1 && !s.modeDenied 1 && (after (.modeSet 7) s).ao.sleepTo == 1
    && (after (.modeSet 7) s).ao.sleepCmd == some 7) = true := by decide +kernel

theorem test_modeSet_hoist : (let s := scheduled (holding (modeC 4) (up Mode.display))
    due s (modeC 4) 1 && s.hoists && (modeTargets s.mode).contains 4 && !s.modeDenied 4
    && (after (.modeSet 7) s).ao.modeWait == some ⟨7, 4, 1⟩) = true := by decide +kernel

/-- A MODE_SET to mode m waits for the hoist of frame 5. -/
def waiting (m : Nat) : State :=
  let s := scheduled (holding { modeC m with phase := .running } (up (if m = Mode.display then Mode.standby else Mode.display)))
  { s with ao := { s.ao with modeWait := some ⟨7, m, 5⟩ }, frame := 4 }

theorem test_hoist_modes : ((waiting Mode.display).modeDue 5 == some ⟨7, Mode.display, 5⟩ && (waiting Mode.display).hoistOk 5 && (waiting Mode.display).live
    && calm (waiting Mode.display) && (waiting Mode.standby).modeDue 5 == some ⟨7, Mode.standby, 5⟩ && (waiting Mode.standby).hoistOk 5
    && (after (.leaveDisplayAtHoist 5) (waiting Mode.standby)).mode == Mode.standby) = true := by decide +kernel

/-- A MODE_SET to Furled is in hand and nothing else is. -/
def sleeping (p : SleepPhase) : State :=
  let s := holding { modeC 1 with phase := .running } (up Mode.standby)
  { s with ao := { s.ao with sleepCmd := some 7, sleepTo := 1, sleep := p } }

theorem test_sleepEntry : ((sleeping .none).ao.saved == none && (sleeping .none).firmware && calm (sleeping .none) && (sleeping .none).cc.hook == none
    && (sleeping .none).cc.cx == none && (sleeping .none).hb == .zero && (after .sleepEntry (sleeping .none)).hpt.slpReq) = true := by decide +kernel

theorem test_sleepAck : (let s := sleeping .handshake
    s.hpt.slots == [] && s.firmware && calm s && s.cmd? 7 == some { modeC 1 with phase := .running } && s.broadcast? 7 == none && s.aoOn
    && !(after .hptSlpAck s).hpt.awake && (after .hptSleepTimeout s).ao.sleep == .none) = true := by decide +kernel

/-- The engine sleeps in Watch; both the watcher and the WAKE pins are enabled. -/
def asleep : State :=
  let s := ((((up Mode.watch).setFld F.AO_WAKEEN_PIN_EN 0xFF).setFlag F.AO_WAKEEN_HPT true).setFlag F.AO_WAKEEN_WATCHER true).setFlag F.AO_WAKEEN_RING true
  ((s.setFlag (F.DIC_WATCH_EN 63) true).setFld (F.DIC_WATCH_SRC 63) 224).setFlag F.AO_WAKEST_HPT false

theorem test_wakes : (asleep.aoOn && asleep.asleep && watchable 224 && (true != bitOf (asleep.fld F.AO_WAKEEN_PIN_POL) 7)
    && (after (.wakePinEdge 7 true) asleep).ao.waking && (after .hptWakeEdge asleep).ao.waking && (after (.watcherHit 224) asleep).ao.waking
    && (after (.watcherHit 224) asleep).flag (F.DIC_WATCH_HIT 63)) = true := by decide +kernel

theorem test_wakeSequence : (let s : State := { asleep with ao := { asleep.ao with waking := true } }
    !s.inReset && s.ao.sleep == .none && calm s && (after .wakeSequence s).mode == Mode.standby && (after .wakeSequence s).hpt.awake) = true := by
  decide +kernel

/-! ### Registers, the host port, the DIC -/

theorem test_registerWrite : ((up Mode.standby).cclkOn && calm (up Mode.standby) && plainOff 0x010018
    && (after (.registerWrite .host 0x010018 0xFF 0) (up Mode.standby)).reg 0x010018 == 0) = true := by decide +kernel

theorem test_hpt : (let s := up Mode.standby
    let x : State := { s with hb := s.hb.writeRange 0 (plain (leBytes 8 0x1122334455667788)) }
    s.hpt.awake && s.hpt.slots == [] && !s.hptWaits ⟨false, 0x600000, 255, 0, 3⟩
    && (after (.hptRequest false 0xC0000 0xFF 0 3 false) x).hpt.slots == [.ready 3 0x1122334455667788 false]
    && (after (.hptRequest false 0xC8000 0xFF 0 3 false) x).hpt.slots == [.ready 3 0 false]
    && (after (.hptRequest false 0x1FFFFF 0xFF 0 4 false) { x with build := .d }).fld F.HPT_ERR_CAUSE == 1
    && (after (.hptRequest true 0x2000 0x03 0 4 false) x).fld F.HPT_ERR_CAUSE == 3
    && ((after (.hptRequest true 0xC0000 0x81 0xAA000000000000BB 4 false) s).hb.read 7 == ⟨0xAA, false⟩)) = true := by decide +kernel

/-- A response waits to be taken; a request waits for the port's memory. -/
theorem test_hptResponse : (let s : State := { up Mode.standby with hpt := ⟨true, false, [.ready 1 0 false]⟩ }
    let w : State := { up Mode.standby with hpt := ⟨true, false, [.waiting ⟨false, 0x600000, 255, 0, 3⟩]⟩ }
    s.tdu.acc.wait == none && (after .hptResponse s).hpt.slots == [] && (after .hptResponse w).hpt.slots == w.hpt.slots) = true := by decide +kernel

theorem test_doorbell : (let s := up Mode.standby
    s.cclkOn && !reservedSource 1024 && !reservedSource 32 && !reservedSource 15 && (after (.doorbellWrite .host 1024 0) s).fld (F.DIC_SRC_COUNT 1024) == 1
    && (after (.doorbellWrite .host 1023 0) s).fld F.DIC_STAT_DBREJ == 1 && (after (.doorbellWrite (.core 2) 15 0) s).flag (F.DIC_SRC_SWA 15)
    && (after (.doorbellWrite (.core 1) 15 0) s).fld F.DIC_STAT_DBREJ == 1 && (after (.doorbellWrite (.seq 18) 4095 15) s).fld (F.DIC_SRC_COUNT 4095) == 15) = true := by
  decide +kernel

/-- Source 32 is enabled with one event, in group 1; target 0 and target 8 are enabled and in its mask. -/
def events : State :=
  (((((up Mode.standby).setFlag (F.DIC_SRC_EN 32) true).setFld (F.DIC_SRC_COUNT 32) 3).setFld (F.DIC_GRP_TGTMASK 1) 0x101).setFlag
    (F.DIC_TGTCFG_EN 0) true).setFlag (F.DIC_TGTCFG_EN 8) true

theorem test_select : (events.cclkOn && events.rfWf && events.eligible false 32 && (List.range 32).all (fun k => !events.eligible false k)
    && (List.range 64).all (fun k => !events.eligible true k) && events.fld (F.DIC_GRP_RRPTR 1) == 8 && events.targetOk 1 0
    && (after .dicSelect events).flag (F.DIC_SRC_INFL 32) && (after .dicSelect events).fld (F.DIC_GRP_RRPTR 1) == 0) = true := by decide +kernel

/-- A message for target 8 on its way, landed, claimed, completed. -/
theorem test_slots : (let m : DicMsg := ⟨32, 3⟩
    let s : State := { (events.setFlag (F.DIC_SRC_INFL 32) true).setFld (F.DIC_SRC_TGT 32) 8 with dic := { Dic.reset with flights := [⟨8, false, m, false⟩] } }
    let r : State := { s with dic := { Dic.reset with flights := [⟨8, false, m, true⟩] } }
    let u := after (.dicLand 8 false) s
    s.cclkOn && slotMsg u.dic.normal 8 == some m && u.dic.flights == [] && (after (.dicLand 8 false) r).fld (F.DIC_SRC_COUNT 32) == 6
    && slotMsg (after (.dicClaim (.core 2) 8) u).dic.normal 8 == none && slotMsg (after (.dicClaim .host 8) u).dic.normal 8 == some m
    && !(after (.dicComplete (.core 2) 8 32) u).flag (F.DIC_SRC_INFL 32) && (after (.dicComplete (.core 2) 7 32) u).fld F.DIC_STAT_BADCOMP == 1
    && (after (.dicTargetDisable 8) u).fld (F.DIC_SRC_COUNT 32) == 6) = true := by decide +kernel

/-! ### The memory ports -/

/-- Port 0 without shaping, with one read of quad 0 asked for, or outstanding. -/
def reading (out : Bool) : State :=
  let q : MptReq := { write := false, quad := 0, mask := 15, raw := [], use := .test 7 }
  let s := (up Mode.standby).setFlag (F.MPT_CFG_SHAPE 0) false
  { s with mpt0 := { MptPort.idle with waitIdle := false, queue := if out then [] else [q], out := if out then [⟨5, q, [], false⟩] else [] } }

/-- A port out of service, with a read of a microcode image asked for. -/
def deadPort : State :=
  let s := (up Mode.standby).setFlag (F.MPT_CFG_EN 1) false
  { s with mpt1 := { MptPort.idle with queue := [⟨false, 2, 15, [], .ucode 7, 0⟩] } }

theorem test_mptIssue : ((reading false).cclkOn && (reading false).mode != Mode.halt && !(reading false).portDead 0 && deadPort.portDead 1
    && (reading false).mpt0.queue.length == 1 && (reading false).mpt0.out.length == 0
    && (after (.mptRequestIssue 0 0 false) (reading false)).mpt0.queue.length == 0) = true := by decide +kernel

/-- One request outstanding under identifier 63, overdue or not. -/
def outOne (wr late : Bool) (use : MptUse) : State :=
  let s := up Mode.display
  { s with mpt0 := { MptPort.idle with waitIdle := false, out := [⟨63, ⟨wr, 0, 15, [], use, 0⟩, [], late⟩] } }

theorem test_mptResponse : (let s := outOne false false (.ucode 7)
    calm s && s.ao.sleep != .replying && !s.coded 0 0 && (after (.mptReadResponse 0 63 true (List.replicate 320 0)) s).fld (F.MPT_ERR_CAUSE 0) == 2
    && (after (.mptReadResponse 0 63 false (List.replicate 320 7)) s).lines.map (·.addr) == [0]
    && (after (.mptReadResponse 0 63 false []) (outOne false true (.ucode 7))).fld (F.MPT_ERR_CAUSE 0) == 5
    && (after (.mptWriteResponse 0 63 true) (outOne true false (.scrubWrite 0))).fld (F.MPT_ERR_CAUSE 0) == 3
    && (after (.mptWriteResponse 0 63 false) (outOne true false (.scrubWrite 0))).mpt0.out == []) = true := by decide +kernel

theorem test_mptOverdue : (let s := outOne false false (.ucode 7)
    s.cclkOn && s.mode != Mode.halt && s.mpt0.out.length == 1 && (after (.mptRequestOverdue 0 63) s).fld (F.MPT_ERR_CAUSE 0) == 4
    && (after (.mptRequestOverdue 0 63) s).mpt0.out.map (·.overdue) == [true]) = true := by decide +kernel

/-- 31 overdue requests and one that is about to be. -/
def nearlyFailed : State :=
  let s := up Mode.standby
  { s with mpt0 := { MptPort.idle with waitIdle := false, out := (List.range 32).map fun i => ⟨i, ⟨false, i, 15, [], .ucode 7, 0⟩, [], decide (i < 31)⟩ } }

theorem test_mptFails : (nearlyFailed.overdue 0 == 31 && !nearlyFailed.flag (F.MPT_STAT_FAILED 0) && calm nearlyFailed
    && (nearlyFailed.mpt0.out.find? fun o => o.aid == 31 && !o.overdue).isSome) = true := by decide +kernel

theorem test_mptSetup : (let s := up Mode.standby
    s.build == .x && s.mpt1.out == [] && (after (.mptEnWrite .host 1 true) s).flag (F.MPT_CFG_EN 1)
    && (after (.mptEnWrite .host 0 false) (outOne false false (.ucode 7))).flag (F.MPT_CFG_EN 0)
    && (after (.mptCwinWrite .host 0 7 0x8000000100000000) s).fld (F.MPT_CWIN_LIMIT 0 7) == 1
    && !(after (.mptCwinWrite .host 0 7 0x8000000100000000) (outOne false false (.ucode 7))).flag (F.MPT_CWIN_EN 0 7)) = true := by decide +kernel

/-! ### SPM and HB, the scrubber -/

theorem test_correction : (let s : State := { up Mode.standby with hb := (Store.zero.write 5 ⟨0xA5, false⟩).invert 5 0x1000, fixups := [⟨.hb, 5⟩] }
    s.cclkOn && (s.store .hb).read 5 == ⟨0xA5, false⟩ && (s.store .hb).chkAt 5 != 0 && ((after (.correctionWriteBack .hb 5) s).store .hb).chkAt 5 == 0
    && ((Store.zero.invert 5 0x1001).read 5).pen && (Store.zero.invert 5 1).read 5 == ⟨0, false⟩) = true := by decide +kernel

theorem test_banks : (let s := (up Mode.standby).setFld (F.SCRUB_OWN_OWNER 63) 1
    let r := after (.scrubOwnWrite 63 0) s
    decide (63 < spmBanks s.build) && ownerCodeOk 1 && ownerCodeOk 0 && !ownerCodeOk 0xFF && s.fld (F.SCRUB_OWN_OWNER 63) == 1 && r.fld (F.SCRUB_OWN_OWNER 63) == 0xFF
    && r.tdu.selftest == none && (after (.spmBankReleaseDone 63) r).fld (F.SCRUB_OWN_OWNER 63) == 0
    && (after (.scrubOwnWrite 0 0x10) s).fld (F.SCRUB_OWN_OWNER 0) == 0x10) = true := by decide +kernel

theorem test_inject : (let s := up Mode.standby
    (after (.scrubInjArm .host 0x8000000100000000) s).flag F.SCRUB_INJ_ARM && (after (.scrubInjArm .host 0x8000000100000000) s).fld F.SCRUB_INJ_BITS == 1) = true := by
  decide +kernel

/-- A SCRUB of `len` bytes from 0 in hand. -/
def scrubC (sp len : Nat) : Cmd := cmdOf 0x5001 ([BitVec.ofNat 8 sp] ++ List.replicate 7 0 ++ leBytes 8 0 ++ leBytes 8 len ++ List.replicate 8 0)

theorem test_scrub : (let s := holding (scrubC 3 64) (up Mode.standby)
    let bad := holding (scrubC 4 64) (up Mode.standby)
    let t := after (.scrub 7) s
    due s (scrubC 3 64) 0x5001 && !scrubBad s (scrubC 3 64).params && scrubBad bad (scrubC 4 64).params && !scrubBad s (scrubC 3 0).params
    && (s.scrub? 3).isNone && (t.scrub? 3).isSome && t.live && ((after (.scrubDone 3) t).scrub? 3).isNone) = true := by decide +kernel

/-! ### The microsequencers -/

/-- A word with the function bits `f` and the parity that R141 asks for. -/
def sealedWord (f : Nat) : BitVec 184 :=
  BitVec.ofNat 184 (f + 2 ^ 176 * ((List.range 8).filter fun k => !parity (bitsOf f (22 * k) 22) 22).foldl setBit 0)

/-- PSQ0 (sequencer 1) runs a word at address 0; `st` is its state. -/
def running (f st : Nat) : State := ((up Mode.standby).setUcWord 1 0 (sealedWord f)).setSeqState 1 st

/-- NXT 0, ALU 1 (ADD), SRCA and SRCB immediate (SRC 7), DST W1, IMM 5. -/
def addWord : Nat := 1 * 2 ^ 33 + 7 * 2 ^ 39 + 7 * 2 ^ 45 + 0x11 * 2 ^ 51 + 5 * 2 ^ 57

/-- The word of a jump to 0x123. -/
def jumpWord (nxt : Nat) : Nat := nxt + 0x123 * 2 ^ 4

theorem test_word_issues : (let s := running addWord SeqState.running
    let m := s.nextWord 1
    s.issues 1 && parityErrors m == 0 && !reservedUse .psq m && !branchBad .psq m && m.plainWord && m.synOp == 0 && m.dst == 0x11
    && (after (.microwordExecute 1) s).upc 1 == 1) = true := by decide +kernel

theorem test_word_jumps : (let j := running (jumpWord 1) SeqState.running
    let c := running (jumpWord 3) SeqState.running
    let r := running 5 SeqState.running
    let p : State := (up Mode.standby).setUcWord 1 0 (sealedWord 1 ^^^ 1) |>.setSeqState 1 SeqState.running
    parityErrors (j.nextWord 1) == 0 && !reservedUse .psq (c.nextWord 1) && !reservedUse .psq (r.nextWord 1) && !branchBad .psq (c.nextWord 1)
    && (j.nextWord 1).plainWord && (c.nextWord 1).alu == 0 && (after (.microwordExecute 1) j).upc 1 == 0x123
    && ((after (.microwordExecute 1) c).seq 1).stack == [1] && (after (.microwordExecute 1) r).fld (F.SQ_STAT_MCAUSE 1) == 3
    && parityErrors (p.nextWord 1) == 1 && (after (.microwordExecute 1) p).fld (F.SQ_STAT_MCAUSE 1) == 1
    && (after (.microwordExecute 1) (running 0xC SeqState.running)).fld (F.SQ_STAT_MCAUSE 1) == 4
    && (after (.microwordExecute 1) (running 0xB SeqState.running)).seqState 1 == SeqState.stopped) = true := by decide +kernel

/-- The next word waits for COUNT of SYN7, which is 0. -/
theorem test_word_waits : (let s := running (0x38 * 2 ^ 145 + 2 ^ 145 * 0x80) SeqState.running
    let m := s.nextWord 1
    m.synOp == 2 && m.synF == 7 && s.fld (F.SYN_COUNT 7) == 0 && !reservedUse .psq m
    && (after (.microwordExecute 1) s).seqState 1 == SeqState.stalled) = true := by decide +kernel

theorem test_startStop : (let s := (running 0 SeqState.stopped).setFlag (F.SQ_STAT_VALID 1) true
    let r := running 0 SeqState.running
    seqPresent s.build 18 && (after (.seqStart 1) s).seqState 1 == SeqState.running && (after (.seqStart 1) (running 0 SeqState.stopped)).seqState 1 == SeqState.stopped
    && (after (.seqStop 1) r).seqState 1 == SeqState.stopped) = true := by decide +kernel

theorem test_hang : (let s := (running 0 SeqState.stalled).setFld (F.SQ_CTL_HANGLIM 1) 1
    s.mode != Mode.halt && !bitOf (s.nextWord 1).lctl 0 && (after (.hangLimit 1) s).fld (F.SQ_STAT_MCAUSE 1) == 6) = true := by decide +kernel

theorem test_retire : (let s := running 0 SeqState.running
    calm s && (List.range 19).all (fun r => (s.seq r).barrier == none) && s.seqState 2 != SeqState.retired && decide (1 < seCount s.build)
    && (after (.retire 1) s).seqState 1 == SeqState.retired && (after (.retire 1) (after (.retire 1) s)).seqState 1 == SeqState.retired) = true := by decide +kernel

/-- PSQ0 and LSQ1 have reached the barrier of SYN0. -/
def atBarrier : State :=
  let s := ((((up Mode.standby).setUcWord 1 0 (sealedWord 0)).setUcWord 18 0 (sealedWord 0)).setFld (F.SYN_MASK 0) 0x40002).setFld (F.SYN_ARRIVED 0) 0x40002
  (s.setSeq 1 { s.seq 1 with barrier := some 0 }).setSeq 18 { s.seq 18 with barrier := some 0 }

theorem test_barrier : (barrierReady 0 atBarrier && (atBarrier.nextWord 1).idleWord && (atBarrier.nextWord 18).idleWord
    && (after (.synBarrierComplete 0) atBarrier).fld (F.SYN_ARRIVED 0) == 0 && (after (.synBarrierComplete 0) atBarrier).upc 18 == 1
    && ((after (.synBarrierComplete 0) atBarrier).seq 1).barrier == none) = true := by decide +kernel

theorem test_synf : (let s := up Mode.standby
    (List.range 19).all (fun r => (s.seq r).barrier == none) && (after (.synfWrite .host 7 0xFF 0x0007FFFF000000FF) s).fld (F.SYN_MASK 7) == 0x7FFFF
    && (after (.synfWrite .host 7 0xFF 0x0007FFFF000000FF) s).fld (F.SYN_COUNT 7) == 0xFF) = true := by decide +kernel

theorem test_lands : (let s := up Mode.standby
    let m := s.setSeq 18 { s.seq 18 with mem := [⟨7, true⟩] }
    let g := s.setStage 18 4 { Stage.idle with busy := true }
    ((after (.seqMemReadLand 18) m).seq 18).mdr == 7 && ((after (.seqMemReadLand 18) m).seq 18).memPen
    && ((after (.stageOperationDone 18 4) g).stage 18 4).done) = true := by decide +kernel

/-- The records of one good word for the PSQs, and a UCODE_LOAD of it from HB. -/
def ucRecs (w : BitVec 184) : List Byte := leBytes 23 w.toNat ++ [0]
def ucC (mode : Nat) (w : BitVec 184) : Cmd :=
  cmdOf 0x7001 (leBytes 4 2 ++ leBytes 2 0xFFF ++ leBytes 2 1 ++ [1, 0xFF, BitVec.ofNat 8 mode, 0] ++ leBytes 4 (crc32 (ucRecs w)).toNat ++ leBytes 8 0)
def ucImage (w : BitVec 184) : List Byte :=
  leBytes 4 0x43554C5A ++ leBytes 2 1 ++ [2, 0] ++ leBytes 2 0xFFF ++ leBytes 2 1 ++ leBytes 4 (crc32 (ucRecs w)).toNat ++ List.replicate 32 0 ++ ucRecs w
def ucState (w : BitVec 184) : State :=
  let s := holding (ucC 0 w) (up Mode.standby)
  { s with hb := s.hb.writeRange 0 (plain (ucImage w)) }

theorem test_ucode : (let w := sealedWord addWord
    let s := ucState w
    let u := ucodeParams (ucC 0 w).params
    let img := readBytes .hb 0 72 s
    let t := after (.ucodeLoad 7) s
    let d := after (.ucodeLoadDone 7) t
    due s (ucC 0 w) 0x7001 && ucodeEarly s (ucC 0 w) u == none && u.mode == 0 && u.src == 1 && s.seqState 0 != SeqState.loading
    && !anyPen (img.take 48) && ucodeHeaderBad s.build u (vals (img.take 48)) == none && t.seqState 1 == SeqState.loading
    && t.live && (t.cmd? 7 == some { ucC 0 w with phase := .running }) && !ucodeBadParam t (ucC 0 w).params u && !anyPen (img.drop 48)
    && (crc32 ((vals img).drop 48)).toNat == u.crc && firstBadRecord .psq false false ((vals img).drop 48) 1 == none
    && d.flag (F.SQ_STAT_VALID 1) && d.ucWord 1 0xFFF == w && d.ucWord 1 0 == fillWord && d.seqState 1 == SeqState.stopped) = true := by decide +kernel

/-- A record with a reserved use is named; a verify needs no image. -/
theorem test_ucode_bad : (let w := sealedWord 0xC
    let d := after (.ucodeLoadDone 7) (after (.ucodeLoad 7) (ucState w))
    firstBadRecord .psq false false (ucRecs w) 1 == some (0, 2) && d.ucWord 1 0xFFF == fillWord && !d.flag (F.SQ_STAT_VALID 1)
    && due (holding (ucC 1 w) (up Mode.standby)) (ucC 1 w) 0x7001 && ucodeEarly (up Mode.standby) (ucC 1 w) (ucodeParams (ucC 1 w).params) == none) = true := by
  decide +kernel

/-! ### The command core -/

/-- The core with g1 = x and g2 = y. -/
def regs (x y : W32) : State := ((core Mode.standby).setG 1 x).setG 2 y

/-- Register gk after a command. -/
def gAfter (i : Instr) (s : State) (k : Nat) : W32 := (after i s).g k

theorem test_arith : (let s := regs 0x7FFFFFFF 1
    ready s 4 && ready s 2 && gAfter (.add (.long 3 1 2)) s 3 == 0x80000000 && (after (.add (.long 3 1 2)) s).cc.aluFlags == ⟨false, true, false, true⟩
    && gAfter (.sub (.short 2 1)) s 2 == 0x80000002 && (after (.sub (.short 2 1)) s).cc.aluFlags == ⟨false, true, true, false⟩
    && gAfter (.adc 3 1 2) (after (.sub (.short 5 1)) s) 3 == 0x80000001 && gAfter (.sbc 3 1 2) (after (.sub (.short 5 1)) s) 3 == 0x7FFFFFFD
    && gAfter (.addi (.long 3 1 0x3FFF)) s 3 == 0x7FFFFFFE && gAfter (.addi (.short 0 1)) s 0 == 0) = true := by decide +kernel

theorem test_logic : (let s := regs 0xFFFF0000 0x00FFFF00
    gAfter (.and (.long 3 1 2)) s 3 == 0x00FF0000 && gAfter (.or (.short 1 2)) s 1 == 0xFFFFFF00 && gAfter (.xor (.long 3 1 2)) s 3 == 0xFF00FF00
    && gAfter (.andi 3 1 0x3FFF) s 3 == 0 && gAfter (.ori 3 1 0x3FFF) s 3 == 0xFFFF3FFF && gAfter (.xori 3 2 0x2000) s 3 == 0x00FFDF00
    && gAfter (.min 3 1 2) s 3 == 0xFFFF0000 && gAfter (.max 3 1 2) s 3 == 0x00FFFF00 && gAfter (.clz 3 2 0) s 3 == 8 && gAfter (.clz 3 0 0) s 3 == 32) = true := by
  decide +kernel

theorem test_shifts : (let s := regs 0x80000001 33
    gAfter (.shl (.long 3 1 2)) s 3 == 2 && (after (.shl (.long 3 1 2)) s).cc.aluFlags.c && gAfter (.shr (.short 1 2)) s 1 == 0x40000000
    && gAfter (.sar (.long 3 1 2)) s 3 == 0xC0000000 && gAfter (.rol 3 1 2) s 3 == 3 && gAfter (.shli 1 31) s 1 == 0x80000000
    && gAfter (.shri 1 31) s 1 == 1 && gAfter (.sari 1 31) s 1 == 0xFFFFFFFF && !(after (.sari 1 0) s).cc.aluFlags.c) = true := by decide +kernel

theorem test_compare : (let s := regs 0x80000000 1
    gAfter (.slt 3 1 2) s 3 == 1 && gAfter (.sltu 3 1 2) s 3 == 0 && (after (.cmp 1 2) s).cc.aluFlags == ⟨false, false, false, true⟩
    && (after (.cmpi 2 0x1F) s).cc.aluFlags == ⟨false, false, true, false⟩ && (after (.tstb 1 31) s).cc.aluFlags.z == false
    && (after (.tstb 1 0) s).cc.aluFlags.z) = true := by decide +kernel

theorem test_moves : (let s := regs 0x00000F0C 1
    gAfter (.mov 3 1) s 3 == 0xF0C && gAfter (.movi 3 0x10) s 3 == 0xFFFFFFF0 && gAfter (.lui 3 0x7FFFF) s 3 == 0xFFFFE000
    && gAfter (.mfstat 3) s 3 == 0x42 && (after (.mtstat 1) s).cc.stat == 0xF4E && gAfter (.mfq 3 0) s 3 == 0) = true := by decide +kernel

theorem test_muldiv : (let s := regs 0xFFFFFFFE 3
    let m := after (.mul 1 2) s
    let u := after (.mulu 1 2) s
    let d := after (.div 1 2) s
    m.cc.flights == [.mul 0xFFFFFFFA 0xFFFFFFFF] && u.cc.flights == [.mul 0xFFFFFFFA 2] && d.cc.flights == [.div 0 0xFFFFFFFE false]
    && (after (.divu 1 0) s).cc.flights == [.div 0xFFFFFFFF 0xFFFFFFFE true] && (after (.divu 1 2) s).cc.flights == [.div 0x55555554 2 false]
    && (after .multiplyLand m).cc.mqh == 0xFFFFFFFF && (after .divideLand d).cc.mqh == 0xFFFFFFFE && !(after .divideLand d).cc.bit 7
    && s.mode != Mode.halt) = true := by decide +kernel

theorem test_jumps : (let s := regs 0x01000010 1
    (after (.br 0x3FF) s).cc.pc == 0x5FFFFE && (after (.beq 4) s).cc.pc == 0x600002 && (after (.bne 4) s).cc.pc == 0x600008
    && (after (.blt 4) s).cc.pc == 0x600002 && (after (.bge 4) s).cc.pc == 0x600008 && (after (.bltu 4) s).cc.pc == 0x600002
    && (after (.bgeu 4) s).cc.pc == 0x600008 && (after (.bndv 4) s).cc.pc == 0x600002 && (after (.jmp 0xFFFFFF) s).cc.pc == 0x5FFFFE
    && (after (.call 8) s).cc.pc == 0x600010 && gAfter (.call 8) s 31 == 0x600004 && s.cc.hook == none && (after (.jr 1) s).cc.pc == 0x01000010
    && (after (.jalr 3 1 4) s).cc.pc == 0x01000014 && gAfter (.jalr 3 1 4) s 3 == 0x600004 && (after (.bc 14 4) s).cc.pc == 0x600004
    && (after (.bc 13 4) s).cc.pc == 0x600008) = true := by decide +kernel

theorem test_memory : (let s := regs 0x63FFF8 0x8182F384
    let t := after (.sw (.long 2 1 4)) s
    s.ccPlace false 0x63FFFC == .mem .hb 0x3FFFC && s.ccPlace true 0x63FFF8 == .mem .hb 0x3FFF8 && !anyPen (readBytes .hb 0x3FFF8 8 s)
    && s.ccPlace false 0x640000 == .zero && s.ccPlace false 0x1000000 == .rom 0 && calm s
    && gAfter (.lw (.long 3 1 4)) t 3 == 0x8182F384 && gAfter (.lh 3 1 4) t 3 == 0xFFFFF384 && gAfter (.lhu 3 1 4) t 3 == 0xF384
    && gAfter (.lb 3 1 4) t 3 == 0xFFFFFF84 && gAfter (.lbu 3 1 7) t 3 == 0x81 && gAfter (.ldd 4 1 0) t 5 == 0x8182F384
    && (after (.sb 2 1 1) s).hb.read 0x3FFF9 == ⟨0x84, false⟩ && (after (.sh 2 1 2) s).hb.read 0x3FFFB == ⟨0xF3, false⟩
    && (after (.std 2 1 0) s).hb.read 0x3FFF8 == ⟨0x84, false⟩ && gAfter (.lw (.short 3 1)) t 3 == 0) = true := by decide +kernel

/-- CC_TSBP at 0x084010 resets to 0x0064_0000. -/
theorem test_registers : (let s := (regs 0x610000 0x84010).setG 4 0x610008
    s.cc.pl == 2 && gAfter (.lw (.long 3 2 0)) s 3 == 0x640000 && (after (.sw (.long 1 2 0)) s).fld F.CC_TSBP_TSBP == 0x610000
    && gAfter (.ldd 4 2 0) s 4 == 0x640000 && gAfter (.ldd 4 2 0) s 5 == 0 && (after (.std 4 2 0) s).fld F.CC_TSBP_TSBP == 0x610008) = true := by
  decide +kernel

/-- A vector table in HB at 0x600400, every entry at Machine level with its handler at 0x600C00, and the stack at 0x610000. -/
def vectors : State :=
  let s := (((((core Mode.standby).setFld F.CC_VBASE_VBASE 0x600400).setFld F.CC_TSBP_TSBP 0x610000).setFld F.CC_TSBLIM_TOP 0x610000).setFld
    F.CC_TSBLIM_LIM 0x608000).setFld F.CC_MCTSB_MCTSB 0x620000
  { s with hb := s.hb.writeRange 0x400 (plain ((List.replicate 64 (leBytes 4 0x600C00 ++ leBytes 4 2)).flatten)) }

/-- SYS 31 enters vector 63 behind itself, and RTT returns there. -/
theorem test_sys : (let s := vectors
    let u := after (.sys 31) s
    ready s 2 && s.cc.flights == [] && !s.flag F.SCRUB_INJ_ARM && !s.cc.pc.getLsbD 0 && s.vector 63 == some (0x600C00, 2) && s.cc.pl == 2
    && u.cc.pc == 0x600C00 && u.fld F.CC_TSBP_TSBP == 0x60FF60 && !u.flag F.CC_STAT_MCACT && ready u 2
    && leNat (vals (u.codeBytes 0x60FF60 4)) == 0x600002 && (after .rtt u).cc.pc == 0x600002 && (after .rtt u).fld F.CC_TSBP_TSBP == 0x610000
    && !anyPen (u.codeBytes 0x60FF60 0x98)) = true := by decide +kernel

theorem test_traps : (let s := vectors.setG 1 0x600001
    let sub := fun (i : Instr) => (leNat (vals ((after i s).codeBytes 0x60FF68 4)) / 256 % 16, leNat (vals ((after i s).codeBytes 0x60FF68 4)) % 64)
    sub .brk == (0, 8) && sub (.illegalInstruction false 0xBC00) == (0, 3) && !legal16 0xBC00 && sub (.mfq 3 2) == (0, 3) && sub (.jr 1) == (2, 5)
    && !legal32 0xFC000000 && sub (.illegalInstruction true 0xFC000000) == (0, 3) && sub (.clz 3 1 1) == (0, 3) && sub (.jalr 3 1 0) == (2, 5)
    && sub (.lw (.long 3 1 0)) == (1, 6) && sub (.ldd 3 1 7) == (0, 3) && sub (.lb 3 0 0x10) == (4, 6)) = true := by decide +kernel

/-- At Task level with window 0 over all of HB: privileged instructions and register blocks are not permitted. -/
theorem test_task_traps : (let s : State := ({ vectors with cc := { vectors.cc with stat := 0x40 } }.setReg (F.CC_TWIN_BASE 0).off
      (BitVec.ofNat 64 (0x63F * 2 ^ 44 + 7 * 2 ^ 32 + 0x600 * 2 ^ 12))).setG 1 0x10000
    let cause := fun (i : Instr) => leNat (vals ((after i s).codeBytes 0x60FF68 4)) % 4096
    s.cc.pl == 0 && ready s 2 && ready s 4 && cause .rtt == 4 && cause .rels == 4 && cause .wfi == 4 && cause (.hold 3) == 4 && cause (.lmov 1) == 4
    && cause (.lw (.long 3 1 0)) == 0x206 && cause (.sw (.long 3 1 0)) == 0x206) = true := by decide +kernel

/-- A normal interrupt is pending and NIE is 1, or the machine-check slot holds source 5. -/
theorem test_interrupts : (let s : State := { vectors with cc := { vectors.cc with stat := 0x46 }, dic := { Dic.reset with normal := [(8, ⟨32, 1⟩)] } }
    let m : State := { vectors with dic := { Dic.reset with mcSlot := some 5 } }
    s.coreRuns && !s.cc.afterRtt && !s.cc.step && !s.coreMsg true && s.coreMsg false && s.cc.bit 2 && !s.cc.bit 5
    && leNat (vals ((after .interruptTaken s).codeBytes 0x60FF68 4)) % 64 == 16 && (after .machineCheckTrap m).flag F.CC_STAT_MCACT
    && (after .machineCheckTrap (m.setFlag F.CC_STAT_MCACT true)).flag F.CC_STAT_DBL) = true := by decide +kernel

/-- The stack takes a trap through vector 16 or 17, the fast one while FIE is 1. -/
theorem test_stack : vectors.StackTakes 16 0x600C00 2 ∧ vectors.StackTakes 17 0x600C00 2
    ∧ (let f : State := { vectors with cc := { vectors.cc with stat := 0x4A }, dic := { Dic.reset with fast := [(8, ⟨32, 1⟩)] } }
      let t := after .interruptTaken f
      !f.mcDue && f.coreMsg true && f.cc.bit 3 && !f.cc.bit 4 && f.takesInt && t.cc.pc == 0x600C00 && t.cc.bit 4
      && leNat (vals (t.codeBytes 0x60FF68 4)) == 0x2051 && (after (.hold 3) f).cc.pc == 0x600C00) = true :=
  ⟨⟨by decide +kernel, by decide +kernel, by decide +kernel, by decide +kernel, by decide +kernel, by decide +kernel⟩,
    ⟨by decide +kernel, by decide +kernel, by decide +kernel, by decide +kernel, by decide +kernel, by decide +kernel⟩, by decide +kernel⟩

/-- A command of group 0xC, and a CMD hook at 0x600C00 of level 1. -/
def hookC : Cmd := cmdOf 0xC001 [1, 2, 3]
def hooked : State :=
  let s := holding hookC (core Mode.standby)
  { s with hb := s.hb.writeRange 0x10 (plain (leBytes 4 0x600C00 ++ [1, 0, 0, 0])) }
theorem test_customerCommand : hooked.calm ∧ (due hooked hookC 0xC001 && hooked.firmware && hooked.cc.hook == none && hooked.cc.cx == none
    && !hooked.flag F.SCRUB_INJ_ARM && !anyPen (hooked.codeBytes (hookAddr 2) 8) && leAt (vals (hooked.codeBytes (hookAddr 2) 8)) 0 4 == 0x600C00
    && hookC.hdr.length + hookC.params.length == 19) = true := ⟨calm_of (by decide +kernel), by decide +kernel⟩

theorem test_waits : (let s := core Mode.standby
    let i : State := { s with dic := { Dic.reset with normal := [(8, ⟨32, 1⟩)] } }
    !s.intPending && i.intPending && (after .wfi s).cc.wait == some .wfi && (after .wfi i).cc.wait == none && s.cc.lmovs == []
    && (after .fence s).cc.pc == 0x600002 && (after (.hold 0x1FF) s).cc.bit 5 && !(after .rels (after (.hold 3) s)).cc.bit 5
    && !(after .holdExpiry (after (.hold 3) s)).cc.bit 5) = true := by decide +kernel

/-- A descriptor at 0x600100: 2 lines of DRAM at 0x1000 to HB. -/
def moving (count : Nat) : State :=
  let s := (core Mode.standby).setG 1 0x600100
  { s with hb := s.hb.writeRange 0x100 (plain (leBytes 6 0x1000 ++ leBytes 2 0 ++ leBytes 4 0x601000 ++ leBytes 2 count ++ [0, 0])) }

theorem test_lmov : (let s := moving 2
    let bad := moving 0
    let t := after (.lmov 1) s
    let d := lmovDesc (vals (readBytes .hb 0x100 16 s))
    ready s 4 && !anyPen (readBytes .hb 0x100 16 s) && (lmovDesc (vals (readBytes .hb 0x100 16 bad))).place bad == none
    && d.place s == some (.hb, 0x1000) && d.dir == 0 && t.cc.lmovs.length == 1 && (after (.lmov 1) bad).hb.read 0x10F == ⟨3, false⟩) = true := by decide +kernel

theorem test_lmovComplete : (let m : Lmov := { id := 9, desc := 0x100, out := false, daddr := 0, st := .hb, laddr := 0, count := 1, left := 0, pen := true, failed := false }
    let s : State := { core Mode.standby with cc := { (core Mode.standby).cc with lmovs := [m] } }
    s.lmov? 9 == some m && (after (.lmovComplete 9) s).hb.read 0x10F == ⟨2, false⟩ && (after (.lmovComplete 9) s).cc.lmovs == []) = true := by decide +kernel

/-- Customer opcode 5 is defined at 0x3800 for level 1; the image is valid. -/
def customised : State :=
  (((vectors.setFlag (F.SQ_STAT_CVALID 0) true).setFlag (F.CC_CX_EN 5) true).setFld (F.CC_CX_ENTRY 5) 0x3800).setFld (F.CC_CX_MINPL 5) 1

theorem test_custom : (let t := after (.custom 5 3 1 2 7) customised
    let k : State := { t with cc := { t.cc with hook := some ⟨⟨3, 0, none⟩, 0, 0x600800, 1, false⟩ } }
    ready customised 4 && t.fld (F.SQ_STAT_UPC 0) == 0x3800 && t.csqW 3 == 0x600000 && t.coreRuns
    && leNat (vals ((after .customTimeout t).codeBytes 0x60FF68 4)) % 4096 == 0x209
    && leNat (vals ((after (.custom 6 3 1 2 7) customised).codeBytes 0x60FF68 4)) % 64 == 3
    && calm k && (after .hookTimeout k).cc.pc == 0x600800 && (after .hookTimeout k).flag F.CC_STAT_HOOKTMO) = true := by decide +kernel

/-! ### Commands, units, tenants, keys -/

/-- Ring pair 0 is enabled. -/
def ringOn (m : Nat) : State := (up m).setFlag (F.CMD_CFG_EN 0) true

theorem test_ringPair : (let s := ringOn Mode.standby
    let t := after (.submissionDoorbell 0 16) s
    t.fld (F.CMD_SQPTR_TAIL 0) == 16 && (after (.submissionDoorbell 0 4) s).fld (F.CMD_SQPTR_TAIL 0) == 0
    && (after (.cqHeadWrite 0 8) s).fld (F.CMD_CQPTR_HEAD 0) == 0 && (after (.cqHeadWrite 0 8) (s.setFld (F.CMD_CQPTR_TAIL 0) 16)).fld (F.CMD_CQPTR_HEAD 0) == 8
    && !(after (.cmdCfgEnWrite 0 false) t).flag (F.CMD_CFG_EN 0) && (after (.cmdCfgEnWrite 0 true) (up Mode.standby)).flag (F.CMD_CFG_EN 0)) = true := by
  decide +kernel

/-- The final reply of a NOP is on its way to memory. -/
def replying : State :=
  let c := (cmdOf 0 []).ending
  let s := holding c ((ringOn Mode.standby).setFld (F.CMD_CFG_CQSRC 0) 2048)
  { s with
    cmds := { s.cmds with cq := [(0, { CqWriter.idle with queue := [⟨7, leBytes 8 0x5A, true, false⟩], left := 1 })] }
    mpt0 := { MptPort.idle with waitIdle := false, out := [⟨3, ⟨true, 0, 1, [], .cqWrite 0, 0⟩, [], false⟩] } }

theorem test_replyWritten : (calm replying && replying.ao.sleep != .replying && (replying.cqw 0).left == 1 && !(replying.cqw 0).filling
    && (replying.cmd? 7).isSome && decide (replying.fld (F.CMD_CFG_CQLOG 0) ≤ 8)
    && (after (.mptWriteResponse 0 3 false) replying).fld (F.CMD_CQPTR_TAIL 0) == 8
    && (after (.mptWriteResponse 0 3 false) replying).cmd? 7 == none
    && (after (.mptWriteResponse 0 3 false) replying).fld (F.DIC_SRC_COUNT 2048) == 1) = true := by decide +kernel

theorem test_replyRetried : (let t := after (.mptWriteResponse 0 3 true) replying
    let u := after (.mptWriteResponse 0 3 true) { replying with cmds := { replying.cmds with cq := [(0, { replying.cqw 0 with retried := [0] })] } }
    (t.cqw 0).retried == [0] && t.mpt0.queue.map (·.quad) == [0] && t.fld (F.CMD_CQPTR_TAIL 0) == 0 && (t.cmd? 7).isSome
    && u.flag (F.CMD_CFG_STOPPED 0) && u.fld (F.DIC_SRC_COUNT 156) == 1) = true := by decide +kernel

/-- A NOP with TAG 5 at HEAD of ring 0. -/
def nopPacket : List PByte := plain (leBytes 2 0 ++ [0, 1] ++ leBytes 2 5 ++ leBytes 4 0 ++ [0xFF, 0xFF] ++ leBytes 4 0)
def withPacket : State := (ringOn Mode.standby).setFld (F.CMD_SQPTR_TAIL 0) 16

theorem test_accept : (let x := withPacket.ringReady 0 nopPacket
    let t := after (.packetAccept [(0, nopPacket)]) withPacket
    withPacket.accepting && withPacket.cmds.rx == [] && (x.map (·.take)) == some 16 && (x.map (·.early)) == some none && (x.map (·.stops)) == some false
    && t.cmds.list.map (·.phase) == [.waiting] && t.fld (F.CMD_SQPTR_HEAD 0) == 16 && t.cmds.lastSrc == 0
    && (after (.packetAccept []) withPacket).cmds.list == [] && chooseSource 0 [(0, 1), (3, 2), (5, 2)] == some 3) = true := by decide +kernel

/-- The same packet of a later version: it is answered and stops its ring. -/
theorem test_accept_broken : (let p : List PByte := nopPacket.take 3 ++ plain [2] ++ nopPacket.drop 4
    let x := withPacket.ringReady 0 p
    let t := after (.packetAccept [(0, p)]) withPacket
    (x.map (·.stops)) == some true && t.flag (F.CMD_CFG_STOPPED 0) && t.fld (F.CMD_SQPTR_HEAD 0) == 16 && t.fld (F.DIC_SRC_COUNT 156) == 1
    && (t.cqw 0).queue.map (·.final) == [true]) = true := by decide +kernel

/-- A management command waits in the intake. -/
theorem test_acceptMgmt : (let s : State := { up Mode.standby with cmds := { Cmds.reset with rx := [⟨⟨0, 1, 2, 0⟩, leBytes 16 0, []⟩] } }
    s.accepting && (after (.packetAccept []) s).cmds.rx == [] && (after (.packetAccept []) s).cmds.list.map (·.src) == [.cab 2]) = true := by decide +kernel

/-- A command that waits for its start. -/
def starting (opc : Nat) (e : Option Nat) (pen : Bool) : Cmd := { cmdOf opc [] with phase := .waiting, early := e, parPen := pen }

theorem test_start : (let ok := holding (starting 0 none false) (up Mode.standby)
    let no := holding (starting 0x9001 none false) (up Mode.rigging)
    ok.firmware && ok.mayStart (starting 0 none false) && ok.permitted (starting 0 none false) true && !ok.remote (starting 0 none false)
    && (after (.commandStart 7) ok).cmd? 7 == some (cmdOf 0 []) && !no.permitted (starting 0x9001 none false) true
    && ok.mayStart (starting 0 (some Status.badParam) false) && ok.permitted (starting 0 none true) true) = true := by decide +kernel

/-- A packet for cabinet 9 on the ensign's ring. -/
theorem test_start_remote : (let c : Cmd := { starting 0 none false with hdr := leBytes 2 0 ++ [0, 1] ++ leBytes 4 0 ++ leBytes 2 0 ++ leBytes 2 9 ++ leBytes 4 0 }
    let s := holding c ((((up Mode.standby).setFld F.RING_ID_CABID 3).setFlag F.CMD_GWCFG_EN true).setFld F.RING_ID_ROLES 2)
    s.remote c && s.mayStart c && !s.broadcasts true c.hdr) = true := by decide +kernel

/-- A broadcast starts: it goes out and runs here as well; its aggregate reply carries the maps. -/
theorem test_start_wide : (let c : Cmd := { starting 0 none false with wide := true }
    let s := holding c (up Mode.standby)
    let t := after (.commandStart 7) s
    let u := after (.aggregateReply 0) t
    let v := after (.nop 7) u
    s.mayStart c && !s.remote c && t.cmds.gw == [⟨0, 7, 0xFFFF, [], []⟩] && t.cmds.tx.map (·.target) == [0xFFFF]
    && (t.cmd? 7).map (·.phase) == some .started && u.cmds.gw == [] && (u.cqw 0).queue.map (·.bytes.length) == [272]
    && (v.cqw 0).queue.length == 1 && (v.cmd? 7).map (·.phase) == some .replying) = true := by decide +kernel

theorem test_simple : (let s := holding (cmdOf 0 []) (up Mode.standby)
    let q := holding (cmdOf 6 (leBytes 8 0x0405)) (up Mode.standby)
    due s (cmdOf 0 []) 0 && due q (cmdOf 6 (leBytes 8 0x0405)) 6 && unitValid 4 5 && zeroAt (leBytes 8 0x0405) 2 6 && !unitValid 4 64
    && (after (.nop 7) s).cmd? 7 == some (cmdOf 0 []).ending && ((after (.nop 7) s).cqw 0).queue.map (·.final) == [true]
    && (after (.unitQuery 7) q).cmd? 7 == some (cmdOf 6 (leBytes 8 0x0405)).ending) = true := by decide +kernel

/-- A UNIT_QUERY behind a UNIT_SET of the same unit and source that waits for its hoist. -/
theorem test_unitTurn : (let q : Cmd := { cmdOf 6 (leBytes 8 0x0405) with id := 8 }
    let c : Cmd := { cmdOf 7 [5, 4, Obs.off, 0, 0, 0, 0, 0] with phase := .running }
    let s := holding c (up Mode.standby)
    let t : State := { s with cmds := { s.cmds with list := [c, q], nextId := 9 } }
    due t q 6 && !t.unitTurn q && after (.unitQuery 8) t == t) = true := by decide +kernel

theorem test_cancel : (let c := cmdOf 3 (leBytes 8 5)
    let d : Cmd := { starting 0 none false with id := 8, hdr := leBytes 2 0 ++ [0, 1] ++ leBytes 2 5 ++ leBytes 10 0 }
    let s := holding c (up Mode.standby)
    let t : State := { s with cmds := { s.cmds with list := [c, d] } }
    due t c 3 && t.cmd? 8 == some d && t.broadcast? 8 == none && d.tag == 5 && zeroAt c.params 2 6 && (after (.cancel 7) t).cmd? 8 == some d.ending) = true := by
  decide +kernel

theorem test_wallStatus : due (holding (cmdOf 5 []) (up Mode.standby)) (cmdOf 5 []) 5 = true ∧ ((after (.wallStatus 7 100) (holding (cmdOf 5 []) (up Mode.standby))).cmd? 7).isSome = true := by
  decide +kernel

theorem test_custop : (let c := cmdOf 0x7002 ([63, 0, 1, 0] ++ leBytes 2 0x3FFF ++ [0, 0] ++ leBytes 4 0xABCD ++ leBytes 4 0)
    let s := ((holding c (up Mode.standby)).setFlag (F.SQ_STAT_CVALID 0) true).setFld (F.SQ_CRC_CUST 0) 0xABCD
    due s c 0x7002 && due (holding c (up Mode.standby)) c 0x7002 && leAt c.params 8 4 == 0xABCD && (after (.custopDef 7) s).flag (F.CC_CX_EN 63)
    && (after (.custopDef 7) s).fld (F.CC_CX_ENTRY 63) == 0x3FFF) = true := by decide +kernel

theorem test_customer : (let c := cmdOf 0xC000 []
    let s := holding c (up Mode.standby)
    due s c 0xC000 && calm s && s.firmware && s.cc.hook == none && s.cc.cx == none && s.hb == .zero) = true := by decide +kernel

/-- A broadcast in hand, or a command sent to cabinet 9. -/
def sentOut (target : Nat) : State :=
  let c : Cmd := { cmdOf 0 [] with hdr := leBytes 2 0 ++ [0, 1] ++ leBytes 4 0 ++ leBytes 2 0 ++ leBytes 2 target ++ leBytes 4 0, phase := .running }
  let s := holding c (up Mode.standby)
  { s with cmds := { s.cmds with gw := [⟨4, 7, target, [3], []⟩] } }

theorem test_gateway : ((sentOut 9).firmware && ((sentOut 9).cmd? 7).map (·.target) == some 9 && (after (.gatewayReplyTimeout 4) (sentOut 9)).cmds.gw == []
    && ((after (.gatewayReplyTimeout 4) (sentOut 9)).cqw 0).queue.map (fun r => leAt r.bytes 10 2) == [9]
    && (after (.aggregateReply 4) (sentOut 0xFFFF)).cmds.gw == [] && (after (.aggregateReply 4) (sentOut 9)).cmds.gw.length == 1) = true := by decide +kernel

/-- An ensign with a cabinet ID and port 0 up. -/
def onRing (m : Nat) : State :=
  ((((up m).setFld F.RING_ID_CABID 3).setFld F.RING_ID_ENSIGN 3).setFlag (F.RING_PORT_CFG_EN 0) true).setFlag (F.RING_PORT_STAT_LINK 0) true

theorem test_report : (let s : State := { onRing Mode.standby with cmds := { Cmds.reset with reportDue := true } }
    s.cabId == some 3 && s.anyPortUp && s.firmware && s.fld F.RING_ID_ENSIGN == 3 && !(after .unitStateReport s).cmds.reportDue) = true := by decide +kernel

/-- UNIT_SET of lane 63 to OFF, UNIT_RESET of timer 31. -/
theorem test_units : (let c := cmdOf 7 [63, Cls.lane, Obs.off, 0, 0, 0, 0, 0]
    let r := cmdOf 4 [31, Cls.tmr, 0, 0, 0, 0, 0, 0]
    let s := scheduled (holding c (up Mode.standby))
    let q := holding r (up Mode.standby)
    due s c 7 && unitValid Cls.lane 63 && settable Cls.lane && unitPresent .x Cls.lane 63 && s.hoists && (after (.unitSet 7) s).cmds.atHoist == [7]
    && (after (.unitSet 7) s).decl Cls.lane 63 == Obs.off && due q r 4 && calm q && unitValid Cls.tmr 31 && (after (.unitReset 7) q).tmr 31 == .reset) = true := by
  decide +kernel

/-- TENANT_OPEN of tenant 2 outside this cabinet, without SEC. -/
def openC : Cmd :=
  let c := cmdOf 0x1001 (leBytes 4 40000 ++ leBytes 4 0 ++ leBytes 4 32 ++ leBytes 4 32 ++ [1, 0, 0, 0] ++ leBytes 4 1000 ++ leBytes 4 20000 ++ leBytes 4 0)
  { c with hdr := leBytes 2 0x1001 ++ [0, 1] ++ leBytes 2 0 ++ leBytes 2 2 ++ leBytes 2 32 ++ [0xFF, 0xFF] ++ leBytes 4 0 }
def closeC : Cmd := { cmdOf 0x1002 (leBytes 8 0) with hdr := leBytes 2 0x1002 ++ [0, 1] ++ leBytes 2 0 ++ leBytes 2 2 ++ leBytes 2 8 ++ [0xFF, 0xFF] ++ leBytes 4 0 }

theorem test_tenants : (let s := scheduled (holding openC (up Mode.standby))
    let b := openC.params
    let ten : Tenant := ⟨0, 0, 32, 32, 1, 0, 1000, 20000, 0xFF, .opened⟩
    let o : State := { scheduled (holding closeC (up Mode.standby)) with tenants := [(2, ten)] }
    due s openC 0x1001 && s.tenants == [] && !tenantBad b && s.ownRect (leAt b 0 4) (leAt b 4 4) (leAt b 8 4) (leAt b 12 4) == none
    && s.secKey 2 0 && openC.tenant == 2 && s.hoists && ((after (.tenantOpen 7) s).tenants.map (·.1)) == [2]
    && due o closeC 0x1002 && zeroAt closeC.params 0 8 && ((after (.tenantClose 7) o).tenants.map (·.2.phase)) == [.closing]) = true := by decide +kernel

/-- KEY_LOAD of plaintext into slot 1039, KEY_INFO of it. -/
def keyC : Cmd := cmdOf 0x1010 (leBytes 2 1039 ++ leBytes 2 0xFFFE ++ leBytes 2 0 ++ [0, 0xFF] ++ leBytes 4 0 ++ leBytes 12 0 ++ leBytes 32 0x77 ++ leBytes 24 0)
theorem test_keys : (let s := (holding keyC (up Mode.standby)).setFlag F.CMD_KEYCTL_PLAINOK true
    let i := holding (cmdOf 0x1011 (leBytes 8 1039)) (up Mode.standby)
    let b := keyC.params
    due s keyC 0x1010 && keyC.onRing && zeroAt b 10 2 && zeroAt b 72 8 && zeroAt b 56 16 && byteAt b 7 == 0xFF && byteAt b 6 == 0
    && ((s.keySlot 1039).byId 0xFFFE).isNone && (((after (.keyLoad 7) s).keySlot 1039).byId 0xFFFE).isSome
    && due i (cmdOf 0x1011 (leBytes 8 1039)) 0x1011 && (after (.keyInfo 7) i).cmd? 7 == some (cmdOf 0x1011 (leBytes 8 1039)).ending) = true := by decide +kernel

/-- A wrapping key with bit 15 of USE stands in slot 1024. -/
theorem test_keys_wrapped : (let b := leBytes 2 5 ++ leBytes 2 9 ++ leBytes 2 0 ++ [0, 0] ++ leBytes 2 1 ++ leBytes 2 0 ++ leBytes 12 0 ++ leBytes 32 0x77 ++ leBytes 24 0
    let c := cmdOf 0x1010 b
    let s : State := { holding c (up Mode.standby) with keys := [(1024, ⟨some ⟨1, 0x8000, 0, 0⟩, none, false⟩)] }
    due s c 0x1010 && byteAt b 7 == 0 && ((s.keySlot 1024).byId 1).isSome && ((after (.keyLoad 7) s).keySlot 5).byId 9 == none) = true := by decide +kernel

/-! ### The budget and calibration -/

/-- A member and ensign in mode m with a schedule in force, cabinet 3, port 0 up, module 5, cabinet 3 in group 63 of its ledger, an entry for budget
frames in the slot of R463. -/
def solver (m : Nat) : State :=
  let s := ((((scheduled (onRing m)).setFld F.BA_CFG_FMAX10 1000).setFld F.RING_ID_ROLES 3).setFlag (F.LP_MOD_GEOM_EN 5) true).setFld (F.BA_CAB_GROUP 3) 63
  let t := (((s.setFlag (F.BA_CAB_EN 3) true).setFld (F.BA_CAB_W 3) 100).setFld (F.BA_CAB_SAFE 3) 0x40).setFld (F.BA_GRP_CAP10 63) 100
  { t with keys := [(1024 + t.fld F.BA_CFG_KSLOT, ⟨some ⟨9, 0x2008, 0x1234, 0⟩, none, false⟩)] }

/-- The same after its report for frame 1. -/
def solving (m : Nat) : State := { solver m with ba := { (solver m).ba with reported := some 1 } }

theorem test_ledger : (let s := solving Mode.display
    s.live && s.hoists && s.solves && s.ba.reported == some (s.frame + 1) && s.ba.own == none && s.ba.pend == [] && s.groupsFit && s.ledger == [3]) = true := by decide +kernel

theorem test_budget_report : (let s := solver Mode.display
    let t := after (.budgetReportSend 0) s
    s.ba.reported == none && s.role 0 && s.anyPortUp && s.memberShows && !(solver Mode.dark).memberShows && s.mods == [5]
    && t.ba.reported == some 1 && bitOf (t.seq 18).latch 3) = true := by decide +kernel

theorem test_lease_blocks : (let s : State := { solver Mode.relay with ba := { BaSt.reset with own := some (1, [(3, 0x50)]) } }
    s.live && s.hoists && s.baEntry.isSome && s.cabId == some 3 && s.solves && s.portUp 0) = true := by decide +kernel

theorem test_deadline : (let s := solving Mode.display
    let t := after (.leaseDeadline 0) s
    s.ba.reported == some (s.frame + 1) && s.ba.fixed == none && s.fallback < 2 ^ 16 && s.ba.lease == none && s.kOf 5 ≤ 32768 && t.fld F.BA_CNT_LMISS == 1 && t.ba.fixed == some 1
    && (let d := solving Mode.dark; !d.memberShows && d.ba.fixed == none && (after (.leaseDeadline 0) d).fld F.LP_CUT_CUT == 1023)
    && (let n := (solving Mode.relay).setFld F.RING_ID_ROLES 2; !n.role 0 && n.ba.fixed == none && (after (.leaseDeadline 0) n).ba.fixed == some 1)) = true := by
  decide +kernel

/-- The sensing port with channel 7 enabled. -/
def sensing : State := ((up Mode.standby).setFlag F.BA_SNS_EN true).setFld F.BA_SNS_CHEN 0x80

theorem test_sense : (let t := after (.senseRead 0x7ABCD5 false) sensing
    let u := after (.senseRead 0x8ABCD5 false) sensing
    let a : State := { sensing with ba := { BaSt.reset with alert := 1 } }
    sensing.live && !sensing.ao.refAbsent && t.fld (F.BA_SNSCH_LAST 7) == 0xABCD && u.fld F.BA_SNSERR_CHKERR == 1 && (after (.senseRead 0x0ABCD5 false) sensing).ba.bad == 1
    && !a.flag F.BA_STAT_EMERG && (after (.senseRead 0 true) a).flag F.BA_STAT_EMERG
    && (after (.senseLost 7) sensing).flag F.BA_STAT_OPENLOOP) = true := by decide +kernel

theorem test_emerg : (let s := sensing.setFlag F.BA_STAT_EMERG true
    s.cclkOn && !(after .emergClear s).flag F.BA_STAT_EMERG && (after .emergClear { s with ba := { BaSt.reset with alert := 2 } }).flag F.BA_STAT_EMERG
    && (after .emergClear { s with ba := { BaSt.reset with overRun := 4 } }).flag F.BA_STAT_EMERG) = true := by decide +kernel

/-- BUDGET_CFG SUB 0 for group 63: FMAX 65535, SAFE 0x8000, HARD 0xFFFF. -/
def budgetC : Cmd := cmdOf 0x3001 ([0, 63, 15, 0] ++ leBytes 2 0xFFFF ++ leBytes 2 0x8000 ++ leBytes 2 0xFFFF ++ leBytes 2 0 ++ leBytes 4 0x1000 ++ leBytes 6 0
  ++ [1, 1] ++ leBytes 8 0)

theorem test_budgetCfg : (let s := scheduled (holding budgetC (up Mode.standby))
    due s budgetC 0x3001 && !budgetBad s budgetC.params && !showMode s.mode && !s.flag F.BA_LOCK_LOCK && s.hoists
    && (after (.budgetCfg 7) s).ba.pend == [budgetC.params]
    && budgetBad s (cmdOf 0x3001 [5]).params && due (s.setFlag F.BA_LOCK_LOCK true) budgetC 0x3001) = true := by decide +kernel

theorem test_ceil : (let c := cmdOf 0x3002 (leBytes 8 0x1000)
    let s := (scheduled (holding c (up Mode.standby))).setFld F.BA_CFG_FMAX10 1000
    let p : State := { s with ba := { s.ba with last := some 0x80 } }
    due s c 0x3002 && s.sc + 0x40 ≤ 0x1000 && s.ba.last == none && s.fld F.BA_STAT_GEFF < 0x1000 && due p c 0x3002 && p.ba.last != none
    && (after (.ceilSet 7) s).fld F.BA_LIM_CEIL == 0x1000
    && (let q := s.setFld F.BA_CFG_STATIC 10000000; 0x1000 < q.sc + 0x40 && due q c 0x3002)) = true := by decide +kernel

theorem test_calLoad : (let c := cmdOf 0x2001 ([5, 0, 0, 0, 0, 0, 0, 0] ++ leBytes 8 0x10000 ++ leBytes 8 0)
    let s := (holding c (up Mode.standby)).setFlag (F.LP_MOD_GEOM_EN 5) true
    due s c 0x2001 && calMod c == 5 && s.modEn 5 && calAddr c % 64 == 0 && zeroAt c.params 1 7 && zeroAt c.params 14 2 && zeroAt c.params 20 4
    && (after (.calLoad 7) s).lp.cals.map (·.mod) == [5]) = true := by decide +kernel

/-! ### Ring ports and frames -/

/-- A frame that waits at the egress of a port: from cabinet 9, of rank 4. -/
def waitFrame : RFrame := ⟨4, false, (HsrFrame.mk daEvery (unicast 9) 0 7 0x88B6 (1 :: List.replicate 47 0)).bytes, false⟩

/-- Port 1 is enabled and down, it holds a frame. -/
def holdingPort : State :=
  let s := (onRing Mode.standby).setFlag (F.RING_PORT_CFG_EN 1) true
  s.setRport 1 { RingPort.reset with queue := [waitFrame], holding := true }

theorem test_ports : (let s := holdingPort
    let u := after (.linkUp 1 0) s
    let e := after (.portHoldExpiry 1) s
    s.cclkOn && !s.portUp 1 && s.flag (F.RING_PORT_CFG_EN 1) && !s.unitOff.contains (ustIdx Cls.ring 1) && s.tdu.loops == [] && (s.rport 1).holding
    && u.portUp 1 && (u.rport 1).queue.length == 1 && (u.rport 1).verify == .running && !(after (.linkDown 0) s).portUp 0
    && (e.rport 1).queue == [] && e.fld (F.RING_PORT_CNT0_HOLDDROP 1) == 1) = true := by decide +kernel

theorem test_preempt : (let s := (onRing Mode.standby).setRport 0 { RingPort.reset with verify := .running, verifies := 1 }
    s.portUp 0 && (s.rport 0).verify == .running && ((after (.preemptVerifySend 0) s).rport 0).verifies == 2
    && (after (.preemptRespond 0) s).flag (F.RING_PORT_STAT_PREEMPT 0)
    && ((after (.preemptVerifyTimeout 0) s).rport 0).verify == .failed) = true := by decide +kernel

theorem test_records : (let r : RingSt := { RingSt.reset with nodes := [9], dups := [⟨1, 9, 5, [5]⟩], vreps := [⟨9, 2, 1, 0, []⟩], reas := [⟨9, 2, 1, 0, [], false⟩] }
    let s : State := { onRing Mode.standby with ring := r }
    (after (.nodeForget 9) s).ring.nodes == [] && (after (.nodeForget 9) s).fld (F.DIC_SRC_COUNT 103) == 1 && (after (.dupWindowClear 1 9) s).ring.dups == []
    && (after (.replayRecordExpiry 9 2 1) s).ring.vreps == [] && (after (.reassemblyForget 9 2) s).ring.reas == []
    && (after (.dupWindowClear 0 9) s).ring.dups == s.ring.dups) = true := by decide +kernel

/-- A management frame of cabinet 9 for cabinet 12, and the engine with both ports up. -/
def passing : List Byte := (HsrFrame.mk (unicast 12) (unicast 9) 0 7 0x88B6 (1 :: List.replicate 47 0)).bytes
def bothUp : State := (onRing Mode.standby).setFlag (F.RING_PORT_STAT_LINK 1) true

theorem test_frame_forward : (let t := after (.frameReceive 0 5 (.eth passing true false)) bothUp
    let u := after (.frameReceive 0 5 (.eth passing true false)) t
    bothUp.cclkOn && bothUp.portUp 0 && bothUp.portUp 1 && parseHsr passing == some ⟨unicast 12, unicast 9, 0, 7, 0x88B6, 1 :: List.replicate 47 0⟩
    && ((parseHsr passing).bind HsrFrame.cls) == some (4, 1096) && bothUp.cabId == some 3 && !bothUp.addressed (unicast 12)
    && !((bothUp.atTime 5).expiredQ ⟨4, true, passing, false⟩) && !bothUp.seen 1 (unicast 9) 7 && t.seen 1 (unicast 9) 7
    && (t.rport 1).queue == [⟨4, true, passing, false⟩] && u.fld (F.RING_PORT_CNT0_DUPDISC 0) == 1 && (u.rport 1).queue.length == 1) = true := by decide +kernel

/-- A frame without a tag, one of no class, one too long, its own. -/
theorem test_frame_refused : (let r := fun (b : List Byte) => after (.frameReceive 0 5 (.eth b true false)) bothUp
    let none_ := (HsrFrame.mk (unicast 12) (unicast 9) 0 7 0x88B6 (0x55 :: List.replicate 47 0)).bytes
    let long := (HsrFrame.mk (unicast 12) (unicast 9) 0 7 0x88B6 (0x20 :: List.replicate 107 0)).bytes
    let own := (HsrFrame.mk (unicast 12) (unicast 3) 0 7 0x88B6 (1 :: List.replicate 47 0)).bytes
    parseHsr (List.replicate 64 0) == none && (r (List.replicate 64 0)).fld (F.RING_PORT_CNT1_NOTAG 0) == 1
    && ((parseHsr none_).bind HsrFrame.cls) == none && (r none_).fld (F.RING_PORT_CNT1_NOTAG 0) == 1
    && ((parseHsr long).bind HsrFrame.cls) == some (1, 128) && 128 < long.length + 4 && (r long).fld (F.RING_PORT_CNT1_NOTAG 0) == 1
    && (parseHsr own).map (·.sa) == some (unicast 3) && r own == bothUp.atTime 5) = true := by decide +kernel

/-- A VIDEO frame for a frame that is due already. -/
theorem test_frame_expired : (let s := scheduled bothUp
    let b := (HsrFrame.mk (unicast 12) (unicast 9) 0 7 0x88B5 ((0x40 : Byte) :: List.replicate 47 0)).bytes
    ((parseHsr b).map fun h => (s.atTime 5).expired h) == some true && ((parseHsr b).bind HsrFrame.cls) == some (3, 2112)
    && (after (.frameReceive 0 5 (.eth b true false)) s).fld (F.RING_PORT_CNT0_EXPIRED 0) == 1) = true := by decide +kernel

/-- A management NOP for cabinet 3, XID 2, under the entry of slot 1024 + 15. -/
def mgmtEntry : KeyEntry := ⟨9, 0x2001, 0x1234, 0⟩
def mgmtHead : List Byte := [1, 15, 0, 9, 0, 9, 0, 2, 0, 0, 0, 0, 0, 0, 0, 5, 0, 0, 0, 1, 0, 0, 0, 0, 0, 0, 0, 3, 0, 0, 0, 0]
def mgmtTag : List Byte := (gcmSeal mgmtEntry.key (frameNonce 9 9 5) mgmtHead []).2
def mgmtPay : List Byte := mgmtHead ++ mgmtTag
def mgmtFrame : List Byte := (HsrFrame.mk (unicast 3) (unicast 9) 0 7 0x88B6 mgmtPay).bytes
def keyed : State := { bothUp with keys := [(1039, ⟨some mgmtEntry, none, false⟩)] }

theorem test_mgmtOpens : gcmOpen mgmtEntry.key (frameNonce 9 9 5) mgmtHead [] mgmtTag = some [] := by
  simp [gcmOpen, mgmtTag, gcmSeal, gcmCtr, chunks]

theorem test_mgmt_tag : mgmtPay.take 32 = mgmtHead ∧ mgmtPay.drop 32 = mgmtTag :=
  ⟨List.take_left' (by decide +kernel), List.drop_left' (by decide +kernel)⟩

theorem test_mgmt : (mgmtPay.length == 48 && byteAt mgmtPay 1 == 15 && beAt mgmtPay 2 2 == 9 && beAt mgmtPay 4 2 == 9 && beAt mgmtPay 8 8 == 5
    && !bitOf (byteAt mgmtPay 18) 2 && (keyed.keySlot 1039).byId 9 == some mgmtEntry && bitOf mgmtEntry.use 13 && keyed.replays == []
    && mgmtAllowed mgmtEntry.use 0 [] && !keyed.blocked && keyed.cmds.rx == [] && leAt (hdrNet (mgmtHead.drop 16)) 10 2 == 3
    && leAt (hdrNet (mgmtHead.drop 16)) 0 2 == 0 && (bothUp.keySlot 1039).byId 9 == none) = true := by decide +kernel

theorem test_mgmt_parsed : parseHsr mgmtFrame = some ⟨unicast 3, unicast 9, 0, 7, 0x88B6, mgmtPay⟩ := by rfl

theorem test_mgmt_unauthenticated : (after (.frameReceive 0 5 (.eth mgmtFrame true false)) bothUp).fld F.CMD_MGSTAT_AUTH = 1 := by decide +kernel

theorem test_supervision : (let t := after .supervisionSend bothUp
    bothUp.cabId == some 3 && t.ring.seqNo == 1 && (t.rport 0).queue.length == 1 && (t.rport 1).queue.length == 1) = true := by decide +kernel

/-- A wake frame leaves a port that is down, and stays at the end of a hold. -/
theorem test_wake_frame : (let w : RFrame := ⟨4, true, (HsrFrame.mk daWake (unicast 9) 1 8 0x88B6 (1 :: List.replicate 47 0)).bytes, false⟩
    let s := (onRing Mode.standby).setFlag (F.RING_PORT_CFG_EN 1) true
    let q := s.setRport 1 { RingPort.reset with queue := [waitFrame, w], holding := true }
    !q.portUp 1 && q.portEnabled 1 && (q.rport 1).queue.find? RFrame.wake == some w && (q.atTime 5).gateAllows 1 4
    && ((after (.egressStart 1 5) q).rport 1).tx == some w && ((after (.portHoldExpiry 1) q).rport 1).queue == [w]
    && ((after (.frameReceive 0 5 (.eth w.bytes true false)) s).rport 1).queue == [w]) = true := by decide +kernel

/-- Frames of ranks 4 and 2 wait; the gate of class 2 is open alone. -/
theorem test_egress : (let f2 : RFrame := { waitFrame with cls := 2 }
    let s := bothUp.setRport 0 { RingPort.reset with queue := [waitFrame, f2] }
    let g := bothUp.setRport 0 { RingPort.reset with queue := [f2, waitFrame], gcl := [(0, 8)] }
    s.cmds.tx == [] && s.dec.refresh == [] && ((after (.egressStart 0 5) s).rport 0).tx == some f2
    && ((after (.egressStart 0 5) g).rport 0).tx == some waitFrame) = true := by decide +kernel

/-- GCL_LOAD of two entries for both ports. -/
def gclC : Cmd := cmdOf 0x4002 ([3, 2] ++ leBytes 6 0 ++ leBytes 4 2000 ++ [31, 0, 0, 0] ++ leBytes 4 0 ++ [31, 0, 0, 0])

theorem test_gates : (let s := bothUp.setRport 1 { RingPort.reset with gcl := [(9, 31), (0, 5)] }
    let n := bothUp.setRport 0 { RingPort.reset with gclNext := some [(0, 5)] }
    ((after (.gateEntryChange 1) s).rport 1).entry == 1 && ((after .gclTakeEffect n).rport 0).gcl == [(0, 5)]
    && (after .gclTakeEffect n).fld (F.DIC_SRC_COUNT 104) == 1) = true := by decide +kernel

theorem test_gclLoad : (let s := holding gclC bothUp
    due s gclC 0x4002 && !gclBad gclC.params 0 && !s.hoists && s.ring.p0.gclNext == none && (gclEntries gclC.params) == [(2000, 31), (0, 31)]
    && ((after (.gclLoad 7) s).rport 1).gcl == [(2000, 31), (0, 31)] && due (scheduled s) gclC 0x4002 && (scheduled s).hoists
    && !gclBad gclC.params (273066666667)) = true := by decide +kernel

theorem test_gclLoad_later : (let s := (holding gclC bothUp).setFld F.TSU_SCHED1_PERIOD 0xFFFFFFFFFF
    due s gclC 0x4002 && !gclBad gclC.params (s.fld F.TSU_SCHED1_PERIOD) && s.hoists && ((after (.gclLoad 7) s).rport 0).gclNext == some [(2000, 31), (0, 31)])
    = true := by decide +kernel

/-! ### Time -/

/-- The ensign as grandmaster in mode m, both ports up, an entry in slot 1024 + MSLOT. -/
def master (m : Nat) : State :=
  let s := ((((onRing m).setFlag (F.RING_PORT_STAT_LINK 1) true).setFlag F.TSU_STAT_GM true).setFld F.RING_ID_ROLES 2).setFld F.RING_ID_MSLOT 15
  { s with keys := [(1039, ⟨some ⟨9, 0x2001, 0x1234, 0⟩, none, false⟩)] }

theorem test_master : (let s := master Mode.relay
    let t := after .syncSend s
    s.gmSends && s.cabId == some 3 && (scheduled s).hoists && (s.txEntry 15 [13]).isSome && t.tsu.syncSeq == 1 && (t.rport 1).queue.length == 2
    && ((after .scheduleFrameSend (scheduled s)).rport 0).queue.length == 1
    && ((after (.pdelayExchange 1 9 750) s).fld (F.RING_PORT_STAT_MLD 1)) == 750 && !(master Mode.standby).gmSends) = true := by decide +kernel

/-- A follower that hears both domains. -/
def follower : State :=
  let s := onRing Mode.standby
  { s with tsu := { s.tsu with doms := [(0, 3), (1, 2)] } }

theorem test_domains : (let v := (follower.setFlag F.TSU_STAT_DVALID true).setFlag F.TSU_STAT_SYNC true
    !follower.isGm && !follower.flag F.TSU_STAT_DVALID && (after (.domainChoice false) follower).fld F.TSU_STAT_DOM == 1
    && (after (.domainChoice true) v).fld F.TSU_STAT_DOM == 1 && (after .syncTimeout v).flag F.TSU_STAT_HOLDOVER
    && (after .syncTimeout v).fld (F.DIC_SRC_COUNT 100) == 1
    && (let one : State := { follower with tsu := { follower.tsu with doms := [(0, 3)] } }
      (after (.domainChoice false) one).flag F.TSU_STAT_DVALID)) = true := by decide +kernel

/-- A schedule that governs from frame 1 on. -/
def nextSched : Sched := ⟨5, 1000, 300000000000, 70000, 1, 10⟩
theorem test_govern : (let s : State := { bothUp with tsu := { bothUp.tsu with next := [nextSched] } }
    let t := after .scheduleGovern s
    let f : State := { bothUp with tsu := { bothUp.tsu with fresh := true, n0 := 1 } }
    t.fld F.TSU_SCHED1_SSEQ == 5 && t.fld F.TSU_SCHED0_EPOCH == 1000 && t.tsu.n0 == 1 && t.fld (F.DIC_SRC_COUNT 102) == 1
    && (after .scheduleGovern f).fld (F.DIC_SRC_COUNT 102) == 1) = true := by decide +kernel

theorem test_latencyRaise : (let s := (((master Mode.relay).setFld F.TSU_SCHED1_PERIOD 300000000000).setFld F.TSU_SCHED1_SSEQ 4).setFld F.TSU_SCHED0_EPOCH 1000
    let t := after (.latencyRaise 2000) s
    s.role 1 && s.hoists && s.tsu.next == [] && t.tsu.next.map (·.sseq) == [5] && t.fld (F.DIC_SRC_COUNT 106) == 1
    && (t.tsu.next.map fun c => c.hoistAt c.n0) == (t.tsu.next.map fun c => s.sched.hoistAt c.n0)) = true := by decide +kernel

theorem test_ensignLost : (let s := (onRing Mode.dark).setFld F.RING_ID_ROLES 4
    s.role 2 && ensignModes s.mode && !s.isGm && (after .ensignLost s).isGm && (after .ensignLost s).flag F.TSU_STAT_ACTING
    && (after .ensignLost s).fld F.TSU_STAT_GMID == 3) = true := by decide +kernel

/-- RING_CFG: the identity of cabinet 3 as ensign, an entry of the map, a schedule. -/
def ringIdC : Cmd := cmdOf 0x4001 ([0, 3] ++ leBytes 2 3 ++ leBytes 2 3 ++ leBytes 2 0xFFFF ++ [3, 0, 15, 0] ++ leBytes 2 100 ++ leBytes 2 200 ++ [8, 9] ++ leBytes 2 2
  ++ leBytes 4 0 ++ leBytes 8 0)
def mapC : Cmd := cmdOf 0x4001 ([1, 0] ++ leBytes 2 1023 ++ leBytes 2 1 ++ leBytes 2 0 ++ leBytes 2 32 ++ leBytes 2 64 ++ [32, 32, 1, 0])
def schedC : Cmd := cmdOf 0x4001 ([2, 0, 0, 0, 0, 0, 0, 0] ++ leBytes 6 1000000000000 ++ leBytes 2 0 ++ leBytes 4 40000000 ++ leBytes 4 10)

theorem test_ringCfg : (let s := holding ringIdC (up Mode.standby)
    let m := holding mapC (up Mode.standby)
    let c := holding schedC ((up Mode.standby).setFld F.RING_ID_ROLES 2)
    let t := after (.ringCfg 7 5) s
    let u := after (.ringCfg 7 5) c
    due s ringIdC 0x4001 && !ringIdBad ringIdC.params && !(s.atTime 5).ringIdDenied ringIdC.params && t.cabId == some 3 && t.fld F.RING_AREA_HC == 9
    && t.flag (F.RING_PORT_CFG_EN 1) && due m mapC 0x4001 && !mapBad mapC.params m.ring.map && (mapAfter mapC.params m.ring.map).map (·.1) == [1023]
    && due c schedC 0x4001 && !(c.atTime 5).schedBad schedC.params && c.role 1 && !c.hoists && u.hoists
    && u.fld F.TSU_SCHED0_EPOCH == 250000005 && u.tsu.held
    && due (holding ringIdC (up Mode.dark)) ringIdC 0x4001 && ((holding ringIdC (up Mode.dark)).atTime 5).ringIdDenied ringIdC.params
    && ringIdBad (cmdOf 0x4001 []).params && mapBad [1] [] && (c.atTime 5).schedBad [2]) = true := by decide +kernel

theorem test_hoist : (let s := scheduled (up Mode.standby)
    s.hoistOk 0 && !{ s with tsu := { s.tsu with ran := true } }.hoistOk 2 && calm s && s.ao.modeWait == none && s.cmds.atHoist == [] && s.tsu.next == []
    && s.live && (hoistTimeSide 0 s).fld F.TSU_FRAME_N == 0 && bitOf ((seqEvent 49 (seqEvent 48 s)).seq 18).latch 1) = true := by decide +kernel

/-! ### Rows, bands, the light path and the Lamp Link -/

/-- Window 63 of 1 × 1 cells in use, cell 0 lost, frame 1 open. -/
def oneWin : Win := { Win.empty with cfg := setBits 0 (F.SE_WCFG_EN 0).lo 1 1, lost := [(0, 9)] }
def decoding (closed : List Nat) : State :=
  { scheduled ((up Mode.display).setFld F.RING_ID_ROLES 1) with dec := { DecSt.reset with open_ := some 1, wins := [(63, oneWin)], closed := closed } }

theorem test_dispatch : (let s := decoding [0]
    let all := s.otherRows ++ s.decodeRows
    let t := after (.sliceRowDispatch 0) s
    s.live && s.seServes 0 && s.dec.open_ == some 1 && s.rows 0 == [] && all.map (·.job.kind) == [.conceal] && (firstCandidate all).isSome
    && (t.rows 0).map (·.kind) == [.conceal] && (t.stage 1 8).busy && (t.stage 1 9).busy
    && (decoding []).otherRows.isEmpty && (decoding []).decodeRows.isEmpty) = true := by decide +kernel

/-- The row of that cell, blended. -/
def blended : RowJob := { RowJob.fresh 1 63 .conceal 0 0 [0] with ended := 0x3FF, cells := [⟨#[], 0, 1, none⟩] }
theorem test_publish : (let s := (decoding [0]).setRows 0 [blended]
    let b : State := { s with dec := { s.dec with bufs := [(0, ⟨1, 0, []⟩)] } }
    let t := after (.rowPublish 0) b
    b.live && !b.dec.swapDue && (b.rows 0).find? (·.blended) == some blended && blended.cells.length == blended.cols.length
    && (b.bandBuf 1 0).isSome && t.rows 0 == [] && (t.win 63).pub == [0] && ((t.bandBuf 1 0).map fun d => d.at 0) == some (1, true)) = true := by decide +kernel

theorem test_bands : (let s := decoding []
    let t := after (.bandClose 0) s
    let u := after (.lightPathBandStart 0) s
    s.live && s.showing && s.winsOn.length == 1 && t.dec.closed == [0] && bitOf u.lp.started 0 && u.lp.bands.map (·.frame) == [1]
    && (let w : State := { s with dec := { s.dec with wins := [(63, { oneWin with lost := [] })] } }
      (after (.bandClose 0) w).fld (F.DIC_SRC_COUNT 86) == 1)) = true := by decide +kernel

theorem test_pulses : (let s := (decoding []).setFld F.GCLK_CTL_EN 0x8000
    s.showing && !s.flag F.AO_CLKST_PN_SAFE && s.gclkRuns == 0x8000 && (after (.subperiodStart 0) s).lp.sub == some (0, 0) && s.aoOn
    && bitOf (after (.gclkPadShort 15) s).lp.shortG 15 && (after (.gclkPadShort 15) s).fld (F.DIC_SRC_COUNT 223) == 1
    && (after (.gclkPadShort 15) s).gclkRuns == 0) = true := by decide +kernel

/-- A module of 16 × 16 lamps at (0, 16), and another one on top of it. -/
def geomWord : W64 := setBits (setBits (setBits (setBits 0 63 1 1) 17 10 16) 27 11 16) 38 11 16
theorem test_geom : (let s := up Mode.standby
    let t := after (.lpModGeomWrite .host 63 geomWord) s
    let off := (F.LP_MOD_GEOM_EN 63).off
    (s.written .host off 255 geomWord).getLsbD 63 && geomOk s 63 (geomOf (s.written .host off 255 geomWord)) && t.modEn 63 && (t.geom 63).y0 == 16
    && t.fld (F.LP_MOD_GEOM_NCHM1 63) == 15 && showMode (up Mode.display).heldOrMode
    && (let g := geomOf (t.written .host (F.LP_MOD_GEOM_EN 5).off 255 geomWord)
      t.modEn 63 && overlap g.x0 g.w (t.geom 63).x0 (t.geom 63).w && overlap g.y0 g.h (t.geom 63).y0 (t.geom 63).h
      && !(after (.lpModGeomWrite .host 5 geomWord) t).modEn 5)) = true := by decide +kernel

/-- Lane 63 in state st, its module 63 enabled; the lanes run. -/
def lane63 (st : Nat) (l : Lane) : State :=
  let s := (((scheduled (up Mode.display)).setFld (F.ZLL_STAT_STATE 63) st).setFld (F.ZLL_STAT_MOD 63) 63).setReg (F.LP_MOD_GEOM_EN 63).off geomWord
  (s.setFld (F.CMD_UST_DECL (ustIdx Cls.lane 63)) Obs.on).setLane 63 l

theorem test_lane_sends : (let l : Lane := { Lane.reset with fifo := [⟨1, 0, 2, none, [5, 6]⟩], raw := [(5, 1, [7])], armed := true, seq := 255 }
    let s := lane63 LaneSt.up l
    let c : State := { s with ba := { s.ba with fixed := some 1 } }
    s.lanesRun && s.laneOn 63 && ((after (.bandLoadSend 63) s).lane 63).seq == 0 && ((after (.bandLoadSend 63) s).lane 63).fifo == []
    && c.hoists && ((after (.setCurrentSend 63) c).lane 63).cur && s.showing && !s.lp.latched && ((after .latchSend s).lane 63).seq == 0
    && (after .latchSend (lane63 LaneSt.up Lane.reset)).fld (F.ZLL_CNT_UNARMED 63) == 1 && ((after (.rawCommandInsert 63) s).lane 63).raw == []) = true := by
  decide +kernel

theorem test_lane_status : (let s := lane63 LaneSt.up { Lane.reset with sent := (lane63 0 Lane.reset).geom 63 |>.bands }
    let t := after (.readStatusRound 63 1023 1) s
    s.loadDone 63 && s.ret 7 == none && !s.chainOn 7 && !s.flag (F.ZLL_STAT_OPENCHAIN 63) && t.ret 7 == some (63, .status 1023 1)
    && (after (.laneReplyTimeout 7) t).fld (F.ZLL_CNT_STLOST 63) == 1 && (after (.laneReplyTimeout 7) t).ret 7 == none) = true := by decide +kernel

/-- Replies: one whose CRC fails; a status record with channel 47 open. -/
def statusReply (mask : Nat) : List Byte :=
  let b := [0x83, 0, 0, 0, 0, 0, 0, 0, 0, 0] ++ beBytes 2 1023 ++ [0, 0] ++ beBytes 6 mask ++ List.replicate 6 0
  b ++ beBytes 4 (crc32 b).toNat
theorem test_lane_reply : (let s := (lane63 LaneSt.up Lane.reset).setRet 7 (some (63, .status 1023 1))
    let b := statusReply (2 ^ 47)
    let t := after (.laneReply 7 (sentSymbols 0 [b]) false 0) s
    s.lanesRun && !s.flag (F.ZLL_RT_SHORT 7) && 10 ≤ b.length && (crc32 (b.take (b.length - 4))).toNat == beAt b (b.length - 4) 4 && byteAt b 0 == 0x83
    && s.ret 7 == some (63, .status 1023 1) && beAt b 10 2 == 1023 && byteAt b 12 == 0 && beAt b 20 6 == 0 && beAt b 14 6 == 2 ^ 47
    && t.fld F.LP_FLT_INDEX == 48 * 1023 + 47 && t.flag F.LP_FLT_VALID && beAt (statusReply 0) 14 6 == 0
    && (after (.laneReply 7 (sentSymbols 0 [[0]]) true 3) (s.setRet 7 none)).fld (F.ZLL_RT_CRCERR 7) == 1) = true := by decide +kernel

/-- The reply to ENUM: 16 chips, UID 0x55. -/
def enumReply (chips : Nat) : List Byte :=
  let b := [0x86, 0, 0, 0, 0, 0] ++ beBytes 2 63 ++ beBytes 2 chips ++ [0, 0, 0, 0] ++ beBytes 8 0x55
  b ++ beBytes 4 (crc32 b).toNat
theorem test_lane_enum : (let s := (lane63 LaneSt.enum Lane.reset).setRet 7 (some (63, .enum 63))
    let b := enumReply 16
    let t := after (.laneReply 7 (sentSymbols 0 [b]) false 0) s
    10 ≤ b.length && (crc32 (b.take (b.length - 4))).toNat == beAt b (b.length - 4) 4 && byteAt b 0 == 0x86 && beAt b 6 2 % 64 == 63
    && s.laneSt 63 == LaneSt.enum && s.ret 7 == some (63, .enum (beAt b 6 2)) && s.modEn 63 && s.fld (F.LP_MOD_UID_UID 63) == 0 && s.carrier 63 == none
    && beAt b 8 2 == (s.geom 63).chips && t.laneUp 63 && t.fld (F.LP_MOD_UID_UID 63) == 0x55
    && (after (.laneReply 7 (sentSymbols 0 [enumReply 17]) false 0) s).fld (F.ZLL_STAT_REASON 63) == 2
    && (after (.laneReply 0 (sentSymbols 0 [b]) false 0) s).fld (F.ZLL_STAT_REASON 63) == 3
    && (after (.laneReplyTimeout 7) s).laneSt 63 == LaneSt.quiet) = true := by decide +kernel

theorem test_lane_train : (let w := lane63 LaneSt.down { Lane.reset with want := true }
    let q := lane63 LaneSt.quiet Lane.reset
    let a := lane63 LaneSt.align Lane.reset
    let f := (lane63 LaneSt.failed Lane.reset).setFld F.LP_CFG_PROBE 1
    w.lanesRun && (w.lane 63).want && !w.training 7 && !w.laneTested 63 && !w.chainOn 7 && (w.lane 56) == Lane.reset
    && (after (.laneTrainStart 63) w).laneSt 63 == LaneSt.quiet && (after (.laneStateTimer 63) q).laneSt 63 == LaneSt.align
    && (after (.laneStateTimer 63) a).laneSt 63 == LaneSt.enum && f.ret 7 == none && !f.training 7 && (after (.laneReprobe 63) f).laneSt 63 == LaneSt.quiet
    && q.aoOn && (after (.lanePadShort 63) q).fld (F.ZLL_STAT_REASON 63) == 4 && (after (.returnLaneShort 7 true) q).flag (F.ZLL_RT_SHORT 7)
    && (let c := lane63 LaneSt.align { Lane.reset with alignOnly := true }
      (after (.laneStateTimer 63) c).laneUp 63)) = true := by decide +kernel

/-! ### Feeds and playout -/

/-- A feeder and playout engine in Display with a schedule, tenant 2 in the cell at (0, 0), cabinet 9 in the wall map there. -/
def wallTen : Tenant := ⟨0, 0, 32, 32, 1, 0, 4000000, 4000, 0xFF, .opened⟩
def feeder : State :=
  let s := ((up Mode.display).setFld F.RING_ID_ROLES 0x18).setFld F.TSU_SCHED1_PERIOD 1000000000000
  { s with tenants := [(2, wallTen)], ring := { RingSt.reset with map := [(9, ⟨0, 0, 1, 1, 1⟩)] } }

/-- FEED 15 for tenant 2 with a region of one cell, FMT 1, one buffer, a reference in window 0 of port 0. -/
def feedSet (en : Bool) : State :=
  let s := (((feeder.setFld (F.FEED_CFG_TENANT 15) 2).setFld (F.FEED_CFG_SEGW 15) 1).setFld (F.FEED_CFG_SH 15) 1).setFld (F.FEED_CFG_SPAN 15) 1
  let t := (((s.setFld (F.FEED_SRC_FMT 15) 1).setFld (F.FEED_SRC_NBUF 15) 1).setFld (F.FEED_RC_SRX 15) 128).setFld (F.FEED_RC_SRY 15) 64
  let u := ((t.setFld (F.FEED_PITCH_LINE 15) 256).setFld (F.FEED_PITCH_FRAME 15) 2).setFlag (F.MPT_CWIN_EN 0 0) true
  (u.setFlag (F.FEED_CFG_EN 15) en).setFld (F.FEED_RC_QPMAX 15) 40

/-- Every check of a feed but the one that the spec leaves to the implementation (check 6 of R341). -/
theorem test_feedCheck : (let s := feedSet true
    s.openTenant (s.feedTenant 15) == some wallTen && s.role 3 && s.feedRegionOk 15 wallTen && s.fld (F.FEED_SRC_FMT 15) == 1 && !s.sendsTenant 2 (.feed 15)
    && s.inWindow 0 (s.feedRef 15 0) 9216 && s.feedCw 15 * s.feedCh 15 == 1 && fmtBytes16 1 == 128 && !(feedSet false).flag (F.FEED_CFG_EN 15)) = true := by
  decide +kernel

theorem test_feedArm_refused : (let s := (feedSet false).setFld F.RING_ID_ROLES 0
    let v := s.reg (F.FEED_CFG_EN 15).off
    let u := s.setReg (F.FEED_CFG_EN 15).off (s.written .host (F.FEED_CFG_EN 15).off 255 (setBits v 63 1 1))
    u.flag (F.FEED_CFG_EN 15) && feedCheck u 15 == 1 && (after (.feedArm .host 15 v 0) s).fld (F.FEED_STAT_CFGERR 15) == 1
    && (after (.feedArm .host 15 v 0) s).fld (F.DIC_SRC_COUNT 92) == 1) = true := by decide +kernel

theorem test_feedStop : (let s := feedSet true
    (s.written .host (F.FEED_CFG_EN 15).off 255 (setBits (s.reg (F.FEED_CFG_EN 15).off) 63 1 0)).getLsbD 63 == false
    && !(after (.feedStop .host 15) s).flag (F.FEED_CFG_EN 15) && (after (.feedPost 15 1) s).feed 15 == { Feed.reset with posted := some 1 }
    && (after (.feedPost 15 2) s).flag (F.FEED_STAT_POSTERR 15)) = true := by decide +kernel

/-- The feed is live; x is what else it holds. -/
def feeding (x : Feed) : State := (feedSet true).setFeed 15 { x with live := true }

theorem test_feedBind : (let s := feeding { Feed.reset with posted := some 1, start := 2 }
    let t := after (.feedBind 15 2 30517578) s
    let e := after (.feedBind 15 2 30517578) (feeding { Feed.reset with start := 2, first := some 1 })
    s.feeds? 3 && (s.atTime 30517578).atFeedTime 2 && !(s.atTime 45776367).atFeedTime 2 && (s.feed 15).cur == none && (t.feed 15).cur == some 2 && (t.feed 15).key && (t.feed 15).slices.length == 1
    && bitOf (t.fld (F.FEED_STAT_INUSE 15)) 1 && (e.feed 15).nosrc && e.flag (F.FEED_STAT_NOSRC 15)) = true := by decide +kernel

/-- A slice of one cell in hand for frame 2, without a source, with the reference held. -/
def oneSlice : FSlice := ⟨0, 0, 0, 1, 1, [(9, 0, 1)]⟩
def slicing : State :=
  let s := feeding { Feed.reset with cur := some 2, nosrc := true, slices := [oneSlice, oneSlice] }
  ((s.setFlag (F.SEN_CTL_ENC 0) true).setFld (F.CMD_UST_DECL (ustIdx Cls.se 0)) Obs.on).setFld (F.CMD_UST_OBS (ustIdx Cls.se 0)) Obs.off
def encoding : State :=
  { slicing with
    encs := [(0, ⟨15, oneSlice, 30, 1000⟩)]
    lines := (List.range 20).map fun a => ⟨.feedRef 15, 0, 256 * a, []⟩ }

theorem test_encode_hyps : (let s := encoding
    slicing.encodes 0 && slicing.dueFeed == some 15 && s.openTenant (s.feedTenant 15) == some wallTen
    && s.encs.find? (fun p => p.1 == 0) == some (0, ⟨15, oneSlice, 30, 1000⟩) && (s.feed 15).cur == some 2 && (s.feed 15).nosrc && (s.feed 15).buf == none
    && (s.sliceTiles 15 oneSlice ((s.feedCabs 15 wallTen).map fun c => (c.1, c.2)) []).all fun q => (tileQuads (s.feedTile 15 q.1 q.2)).all fun a =>
        s.lines.any fun d => d.use == .feedRef 15 && d.addr == 256 * a) = true := by decide +kernel

theorem test_sendDeadline : (let s := feeding { Feed.reset with cur := some 2, slices := [oneSlice], buf := some 1 }
    let t := after (.sendDeadline (.feed 15) 2) s
    s.feedJobs 15 == [] && (t.feed 15).cur == none && t.fld (F.FEED_STAT_DROPS 15) == 1 && t.fld (F.DIC_SRC_COUNT 90) == 1
    && t.fld (F.DIC_SRC_COUNT 91) == 1 && t.fld (F.FEED_REF_CUR 15) == 1) = true := by decide +kernel

/-- Two units wait; the bucket holds the bits of the first. -/
def unit1 : SendUnit := ⟨2, [(0, false)], 8 * 85, true, [], []⟩
theorem test_unitSend : (let out : Sender := { Sender.reset with queue := [unit1, unit1], tokens := some (8 * 85 * 65536) }
    let s := (feeding { Feed.reset with cur := some 2, out := out }).setFld (F.FEED_CFG_SHARE 15) 0xFFFF
    let p := out.refill (s.fld (F.FEED_CFG_SHARE 15)) wallTen (max s.tsu.now 0)
    unit1.bits * 65536 ≤ p.tokens.getD 0 && ((after (.unitSend (.feed 15) 0) s).feed 15).out.queue == [unit1]
    && (Sender.reset.refill 0 wallTen 0).leave.isNone) = true := by decide +kernel

/-- Channel 15 of playout. -/
def clip4 : Clip := ⟨4, 0x1000, 0x1000, 10, 64, 2, List.replicate 40 0⟩
def playing (x : Ply) (st : Nat) : State := ((feeder.setPly 15 x).setPlyState 15 st).setFlag F.PLY_CAT_EN true

theorem test_clipAdd : (let c := cmdOf 0x9001 (leBytes 2 4 ++ leBytes 6 0 ++ leBytes 8 0x1000 ++ leBytes 8 0x1000 ++ leBytes 8 0)
    let s := holding c (playing Ply.reset 0)
    due s c 0x9001 && s.role 4 && s.flag F.PLY_CAT_EN && !clipParamsBad c.params && (after (.clipAdd 7) s).clipRuns.map (·.cmd) == [7]
    && clipParamsBad []) = true := by decide +kernel

theorem test_play : (let p := fun (act : Byte) => cmdOf 0x9010 ([15, act, 0, 1] ++ leBytes 2 4 ++ leBytes 2 0 ++ leBytes 4 0 ++ leBytes 4 0xFFFFFFFF ++ leBytes 16 0)
    let s := fun (act : Byte) => holding (p act) (playing { Ply.reset with clip := some clip4 } PlyState.playing)
    let row := Instr.play 7 0
    due (s 0) (p 0) 0x9010 && !playBad ((s 0).atTime 0) (p 0).params && (s 0).hoists && leAt (p 0).params 12 4 == 0xFFFFFFFF
    && (after row (s 0)).clipRuns.map (·.cmd) == [7] && !playBad ((s 1).atTime 0) (p 1).params && ((s 1).ply 15).pend == none
    && (after row (s 1)).flag (F.PLY_STAT_PEND 15) && playBad (s 0) []) = true := by decide +kernel

/-- A PLAY of each action waits for frame 5. -/
def pending (act : Nat) : State :=
  let c : Cmd := { cmdOf 0x9010 [] with phase := .running }
  holding c (playing { Ply.reset with clip := some clip4, pend := some ⟨7, act, 0, 2, 0, some 5, 3, some clip4⟩ } PlyState.playing)
theorem test_playEffect : ((pending 0).cmd? 7).isSome = true ∧ (pending 0).broadcast? 7 = none
    ∧ (let t := after (.playEffect 15 5) (pending 0)
      t.plyState 15 == PlyState.playing && (t.ply 15).i == 3 && (t.ply 15).rept == 2 && t.fld (F.DIC_SRC_COUNT 93) == 1) = true
    ∧ (let t := after (.playEffect 15 5) (pending 3)
      t.plyState 15 == PlyState.playing && (t.ply 15).i == 1 && (t.ply 15).pend == none) = true
    ∧ (let s := (pending 0).setPly 15 { (pending 0).ply 15 with cur := some 4, index := true }
      ((after (.playEffect 15 5) s).ply 15).cur == none && (after (.playEffect 15 5) s).fld (F.PLY_ERR_LATE 15) == 1) = true := by decide +kernel

theorem test_catalogue : (let s := up Mode.standby
    let t := after (.plyCatEnable .host 0) s
    !s.flag F.PLY_CAT_EN && t.flag F.PLY_CAT_EN && t.mpt0.queue == []) = true := by decide +kernel

theorem test_playout : (let base : Ply := { Ply.reset with clip := some clip4, rept := 2, l := some 3, out := { Sender.reset with stream := some 1 } }
    let s := playing base PlyState.playing
    let t := after (.playoutFrame 15 6 91552734) s
    let again := after (.playoutFrame 15 6 91552734) (playing { base with r := 1 } PlyState.playing)
    let held := after (.playoutFrame 15 6 91552734) (playing base PlyState.paused)
    let late := after (.sendDeadline (.ply 15) 6) t
    s.feeds? 4 && (s.atTime 91552734).atFeedTime 6 && (s.ply 15).cur == none && (s.ply 15).pend == none && (t.ply 15).index && (t.ply 15).r == 1 && (again.ply 15).out.queue.length == 1
    && (held.ply 15).out.queue.length == 1 && late.fld (F.PLY_ERR_LATE 15) == 1 && late.fld (F.DIC_SRC_COUNT 95) == 1) = true := by decide +kernel

/-! ### Pulse units, trips and timers -/

/-- Software-mode unit 63 in Display, with PER 4 in force. -/
def pulsing (p : Pu) : State := ((up Mode.display).setFlag (F.PU_CFG_SW 63) true).setPu 63 p
def pu4 : Pu := { Pu.reset with per := 4, dutyU := 9, dutyD := 1 }

theorem test_carrier : (1 ≤ pu4.per && pu4.cnt == 0 && pu4.up && carrierStep { pu4 with cnt := 3 } == (4, false) && carrierStep { pu4 with cnt := 1, up := false } == (0, true)
    && hraw true 0 4 9 1 && !hraw false 3 4 9 1 && hraw false 4 4 9 1) = true := by decide +kernel

theorem test_pulse_edge : (let s := (pulsing { pu4 with cnt := 1, up := false }).setFld (F.PU_PER_PER 63) 7
    let i := (pulsing { pu4 with cnt := 3, imm := true }).setFld (F.PU_PER_PER 63) 3
    let t := after (.puCarrierEdge 63) s
    s.puClocked 63 && s.puSw 63 && (s.pu 63).cfg == none && s.fld (F.PU_FORCE_FH 63) < 3 && s.fld (F.PU_FORCE_FL 63) < 3 && (t.pu 63).per == 7 && (t.pu 63).up
    && carrierStep (s.pu 63) == (0, true) && ((after (.puPeriodBoundary 63) s).pu 63) == t.pu 63
    && (after (.puCarrierEdge 63) i).flag (F.PU_STAT_PSHORT 63) && ((after (.puCarrierEdge 63) i).pu 63).cnt == 2
    && ((after (.puCarrierEdge 63) (pulsing pu4)).pu 63).cnt == 1) = true := by decide +kernel

theorem test_pulse_writes : (let s := pulsing pu4
    let h := { s with ao := { s.ao with heldMode := Mode.display } }.setFld F.AO_MODE_MODE Mode.halt
    ((after (.puImmediatePer .host 63 9) s).pu 63).imm && (after (.puForceWrite .host 63 2 2) s).flag (F.PU_STAT_FERR 63)
    && ((after (.puSync (2 ^ 63)) ((pulsing { pu4 with cnt := 2 }).setFld (F.PU_PER_PHASE 63) 5)).pu 63).cnt == 3
    && h.mode == Mode.halt && !(after (.puForceWrite .host 63 2 2) h).flag (F.PU_STAT_FERR 63)
    && (after (.padReadbackMismatch 63 true true) s).flag (F.PU_STAT_SHORTH 63) && (after (.padReadbackMismatch 63 true true) s).fld (F.DIC_SRC_COUNT 287) == 1)
    = true := by decide +kernel

theorem test_rowMode : (let u := (up Mode.display).setFld (F.CMD_UST_OBS (ustIdx Cls.lane 63)) Obs.on
    let s := (u.setFld (F.CMD_UST_DECL (ustIdx Cls.lane 63)) Obs.on).setFld F.LP_STAT_GDIV 2
    let t := after (.rowModeStart 63) s
    s.puClocked 63 && !s.puSw 63 && s.inService Cls.lane 63 && s.obs Cls.lane 63 == Obs.on && (t.pu 63).running
    && (t.pu 63).dutyU + (t.pu 63).dutyD == rowWindow s) = true := by decide +kernel

/-- PU_CFG of unit 63 for PER 100, at once. -/
def puCfgC : Cmd := cmdOf 0x8001 ([63, 0, 0, 3] ++ leBytes 2 100 ++ leBytes 9 0 ++ [0] ++ leBytes 4 0 ++ leBytes 4 0xFFFFFFFF ++ leBytes 8 0)
theorem test_puCfg : (let s := holding puCfgC (up Mode.standby)
    let m := s.setFlag (F.LP_MOD_GEOM_EN 63) true
    due s puCfgC 0x8001 && byteAt puCfgC.params 0 == 63 && !puCfgBad s.hoists s.frame puCfgC.params && !s.flag (F.LP_MOD_GEOM_EN 63) && (s.pu 63).cfg == none
    && ((after (.puCfg 7) s).pu 63).cfg.isSome && due m puCfgC 0x8001 && m.flag (F.LP_MOD_GEOM_EN 63) && puCfgBad false 0 [64]) = true := by decide +kernel

/-- A row-mode unit that waits stands at its boundary: PU_CFG takes effect at the next edge (R423, R431, R451). PUn_STAT.OFF is live. -/
theorem test_puCfg_waiting : (let s := (holding puCfgC (up Mode.standby)).setPu 63 { Pu.reset with cfg := some ⟨7, none, puCfgC.params⟩ }
    let t := after (.puCarrierEdge 63) s
    s.puClocked 63 && !s.puSw 63 && !(s.pu 63).running && byteAt puCfgC.params 1 == 0 && t.puSw 63 && (t.pu 63).cfg == none && (t.pu 63).per == 100
    && ((pulsing pu4).regView (F.PU_STAT_OFF 63).off).toNat % 512 / 256 == 0 && (s.regView (F.PU_STAT_OFF 63).off).toNat % 512 / 256 == 1
    && ((pulsing { pu4 with per := 2 ^ 20 }).regView (F.PU_PER_PERACT 63).off).toNat / 65536 % 65536 == 0xFFFF) = true := by decide +kernel

/-- Trip 31 in latched mode governs unit 63. -/
def tripping : State :=
  let s := (((pulsing { pu4 with padH := true }).setFlag (F.TRIP_CFG_EN 31) true).setFlag (F.TRIP_CFG_MODE 31) false).setFld (F.TRIP_MAP_MAP 31) (2 ^ 63)
  s.setFld (F.TRIP_CFG_BLKSRC 31) 0

theorem test_trip : (let t := after (.tripAssert 31) tripping
    let b : State := { tripping with trip := { tripping.trip with pins := 2 ^ 31 } }
    tripping.flag (F.TRIP_CFG_EN 31) && !bitOf tripping.trip.asserted 31 && !tripping.blankSource 31 && !(t.pu 63).padH && t.puOff 63
    && bitOf (t.fld F.TRIP_LATCH_LATCH) 31 && bitOf ((after (.blankWindowEnd 31) b).fld F.TRIP_LATCH_LATCH) 31
    && !bitOf (after (.tripDeassert 31) t).trip.asserted 31 && bitOf ((after (.tripDeassert 31) t).fld F.TRIP_LATCH_LATCH) 31
    && !bitOf ((after (.tripLatchClear .host (2 ^ 31)) (after (.tripDeassert 31) t)).fld F.TRIP_LATCH_LATCH) 31
    && bitOf ((after (.tripLatchClear .host (2 ^ 31)) t).fld F.TRIP_LATCH_LATCH) 31) = true := by decide +kernel

theorem test_trip_blanked : (let s := ((tripping.setPu 5 { Pu.reset with sinceRise := 0 }).setFld (F.TRIP_CFG_BLKSRC 31) 0x45).setFld (F.TRIP_CFG_BLKW 31) 3
    s.blankSource 31 && !bitOf s.trip.ended 31 && ((after (.tripAssert 31) s).pu 63).padH && bitOf (after (.tripAssert 31) s).trip.pins 31) = true := by decide +kernel

theorem test_tripSw : (let t := after .tripSwSet tripping
    t.flag F.TRIP_LATCH_SW && !(t.pu 63).padH && t.puOff 0 && t.obs Cls.pu 0 == Obs.failed) = true := by decide +kernel

/-- Timer 31 in a state. -/
def timing (t : Tmr) : State := (((up Mode.standby).setFlag (F.TMR_STAT_SRCLOST 31) false).setFld (F.TMR_CFG_IE 31) 15).setTmr 31 t

theorem test_timerStep : (let r : Tmr := Tmr.reset
    let s := timing { r with cnt := 2 ^ 48 - 2, acc := 0 }
    let z := timing { r with cnt := 1, up := false, topC := 7, cmpC := 5 }
    let d := s.tmrDiv 31
    !s.flag (F.TMR_STAT_SRCLOST 31) && d == 65536 && ((after (.timerStep 31 1) s).tmr 31).cnt == 2 ^ 48 - 1 && !((after (.timerStep 31 1) s).tmr 31).up
    && (after (.timerStep 31 1) s).fld (F.DIC_SRC_COUNT 319) == 1 && ((after (.timerStep 31 1) z).tmr 31).top == 7 && ((after (.timerStep 31 1) z).tmr 31).cmp == 5
    && ((after (.timerStep 31 1) z).tmr 31).up) = true := by decide +kernel

theorem test_timerCapture : (let s := (timing { Tmr.reset with cnt := 0x123456789AB, full := true }).setFld (F.TMR_CFG_CSEL 31) 1
    let t := after (.timerCapture 31) s
    let r := after (.timerCaplRead 31) t
    (t.tmr 31).cap == ⟨0x123456789AB, false, false, true⟩ && t.flag (F.TMR_STAT_FULL 31) && r.fld (F.TMR_CAPL_CAP_LO 31) == 0x456789AB
    && r.fld (F.TMR_CAPH_CAP_HI 31) == 0x123 && r.flag (F.TMR_CAPH_OVR 31) && !r.flag (F.TMR_STAT_FULL 31)) = true := by decide +kernel

theorem test_timerPairs : (let s := (timing Tmr.reset).setFld (F.TMR_TOPL_TOP_LO 31) 9
    ((after (.timerPairCommit 31 .top 1) s).tmr 31).topC == 2 ^ 32 + 9 && ((after (.timerPairCommit 31 .cmp 1) s).tmr 31).cmpC / 2 ^ 32 == 1
    && ((after (.timerPairCommit 31 .phase 0xFFFF) s).tmr 31).phC / 2 ^ 32 == 0xFFFF) = true := by decide +kernel

theorem test_timerSource : (let s := timing { Tmr.reset with acc := 5 }
    let l := after (.timerSourceLost 31) s
    isPrecision .x 31 && !isPrecision .d 31 && ((after (.timerSourceWrite .host 31 (.cfg 7 15)) s).tmr 31).acc == 0
    && ((after (.timerSourceWrite .host 31 (.div 70000)) s).fld (F.TMR_DIV_DIV 31)) == 70000 && l.flag (F.TMR_STAT_SRCLOST 31) && l.obs Cls.tmr 31 == Obs.failed
    && !(after (.timerSourceReturn 31) l).flag (F.TMR_STAT_SRCLOST 31) && (after (.timerStep 31 5) l).tmr 31 == l.tmr 31) = true := by decide +kernel

theorem test_timerSync : (let s := timing { Tmr.reset with top := 4, phC := 5 }
    let c := s.setFld (F.TMR_CFG_CSEL 31) 0xA
    1 ≤ (s.tmr 31).top && ((after (.tmrSync (2 ^ 31)) s).tmr 31).cnt == 3 && !((after (.tmrSync (2 ^ 31)) s).tmr 31).up
    && bitOf (after (.tmrSwcap (2 ^ 31)) c).tmrDue 31 && !bitOf (after (.tmrSwcap 1) c).tmrDue 31) = true := by decide +kernel

/-! ### Test and debug -/

/-- The engine in Halt, from mode m. -/
def halted (m : Nat) : State :=
  let s := ((up Mode.halt).setFlag F.TDU_STAT_HALTED true).setFld F.TDU_STAT_CAUSE 1
  { s with ao := { s.ao with heldMode := m } }

theorem test_halt : (let s := (up Mode.display).setFld (F.ZLL_STAT_STATE 63) LaneSt.up
    let t := after (.tduHalt true) s
    s.aoOn && !s.tduLocked && s.mode != Mode.halt && !s.asleep && s.ccRuns && !s.flag F.AO_MODE_BUSY && t.mode == Mode.halt && t.fld F.TDU_STAT_CAUSE == 2
    && t.ao.heldMode == Mode.display && t.laneSt 63 == LaneSt.quiet
    && (after (.tduHalt false) (s.setFlag F.AO_MODE_BUSY true)).tdu.haltReq == some 1
    && (after (.tduHalt false) ((up Mode.watch))).flag F.TDU_STAT_HALTLOST
    && (after (.tduHalt false) (s.setFlag F.TDU_CFG_LOCK true)).mode == Mode.display) = true := by decide +kernel

theorem test_resume : (halted Mode.display).calm ∧ (let s := ((halted Mode.display).setFld (F.ZLL_STAT_STATE 63) LaneSt.quiet).setLane 63 { Lane.reset with alignOnly := true }
    let t := after .tduResume s
    s.mode == Mode.halt && s.cclkOn && t.mode == Mode.display && !t.flag F.TDU_STAT_HALTED && t.lp.firstFrame == 3 && t.laneSt 63 == LaneSt.align
    && calm s && (after .tduResume (halted Mode.standby)).mode == Mode.standby) = true := ⟨calm_of (by decide), by decide +kernel⟩

/-- A MODE hook at 0x600C00. -/
theorem test_resume_hook : (let s : State := { halted Mode.standby with hb := (halted Mode.standby).hb.writeRange 0x18 (plain (leBytes 4 0x600C01)) }
    let t := after .tduResume s
    let c : State := { s with cc := { s.cc with hook := some ⟨⟨3, 0, none⟩, 0, 0x600800, 1, false⟩ } }
    calm s && calm c && !anyPen (s.codeBytes (hookAddr 3) 8) && s.coreUp && t.cc.pc == 0x600C00 && (t.cc.hook.map (·.due)) == some ⟨3, Mode.standby, none⟩
    && (after .tduResume c).cc.hooks == [⟨3, Mode.standby, none⟩] && (after .tduResume c).flag F.TDU_STAT_HALTED == false) = true := by decide +kernel

theorem test_step : (let s := halted Mode.standby
    let d : State := { s with cc := { s.cc with stepped := true } }
    s.coreUp && !s.tduLocked && (after .tduStep s).cc.step && (after .stepDone d).fld F.TDU_STAT_CAUSE == 6) = true := by decide +kernel

/-- Comparator 7 on the execution of the instruction at 0x600000 at level 1. -/
def comparing (action : Nat) : State :=
  let s := (((core Mode.standby).setFlag (F.TDU_CMP_EN 7) true).setFld (F.TDU_CMP_KIND 7) 0).setFld (F.TDU_CMP_ADDR 7) 0x600000
  (s.setFld (F.TDU_CMP_PLMASK 7) 2).setFld (F.TDU_CMP_ACTION 7) action
theorem test_comparator : (let row := Instr.comparatorMatch 7 0 0x600000 1 false
    (comparing 0).comparatorMatches 7 0 0x600000 1 && (after row (comparing 0)).flag (F.TDU_CMP_HIT 7) && (after row (comparing 1)).mode == Mode.halt
    && (after row (comparing 1)).fld F.TDU_STAT_CAUSE == 3 && (comparing 2).coreRuns && !(comparing 2).flag F.CC_STAT_MCACT
    && !(comparing 0).comparatorMatches 7 0 0x600000 0) = true := by decide +kernel

theorem test_tap : (let s := halted Mode.standby
    let u := up Mode.standby
    s.aoOn && (after .extest s).tdu.ir == 0 && (after .clamp u).mode == Mode.halt && (after .clamp u).fld F.TDU_STAT_CAUSE == 5 && (after .highz u).tdu.ir == 4
    && (after (.samplePreload 5) u).tdu.cells == 5 && (after .tapReset s).tdu.ir == 0x3F && (after .bypass s).tdu.ir == 0x3F
    && (after .extest (u.setFlag F.TDU_CFG_LOCK true)).tdu.ir == 0x3F) = true := by decide +kernel

theorem test_dbgrst : (let s := up Mode.standby
    !s.tduLocked && !s.inReset && s.mode != Mode.off && s.rfWf && (after .dbgrst s).flag F.AO_RSTCAUSE_DBG && (after .dbgrst s).mode == Mode.rigging
    && (after .dbgrst (s.setFlag F.TDU_CTL_HALTONRST true)).mode == Mode.halt) = true := by decide +kernel

/-- DBGACC: a write of 0xAB to the last word of HB, the read of it. -/
def accOf (op : Nat) : BitVec 89 := BitVec.ofNat 89 (op + 16 * (0x63FFF8 / 8) + 2 ^ 25 * 0xAB)
theorem test_dbgacc : (up Mode.standby).calm ∧ (let s := up Mode.standby
    let t := after (.dbgacc (accOf 2)) s
    let r := after (.dbgacc (accOf 1)) t
    s.tdu.acc.wait == none && s.hpt.awake && s.hpt.slots == [] && !s.hptBehind (dbgReq (accOf 1)) && !s.flag F.SCRUB_INJ_ARM
    && bitsOf (accOf 1).toNat 4 21 * 8 == 0x63FFF8 && (t.hb.read 0x3FFF8).1 == 0xAB && t.tdu.acc.done && r.tdu.acc.data == 0xAB) = true :=
  ⟨calm_of (by decide), by decide +kernel⟩

theorem test_ccr : (let s := halted Mode.standby
    let w := fun (r : Nat) => after (.tduCcrWrite r 0xFFFFFFFF) s
    s.flag F.TDU_STAT_HALTED && (w 31).cc.slot (gSlot s.sb 31) == 0xFFFFFFFF && (w 32).cc.pc == 0xFFFFFFFE && (w 33).cc.bit 11 && !(w 33).cc.bit 12
    && (w 34).cc.mql == 0xFFFFFFFF && (w 35).cc.mqh == 0xFFFFFFFF && (w 51).cc.slot (gSlot (!s.sb) 31) == 0xFFFFFFFF && w 52 == s) = true := by decide +kernel

theorem test_stim : (let s := ((up Mode.standby).setFld F.TDU_CFG_STIMEN (2 ^ 31)).setFld F.TDU_CFG_SINK 1
    bitOf (s.fld F.TDU_CFG_STIMEN) 31 && s.tracing && s.tdu.owed == 0 && s.tdu.sinceSync + 6 < 4096
    && (after (.tduStimWrite 31 0x11223344) s).tdu.fifo == [0x35, 31, 0x44, 0x33, 0x22, 0x11]
    && ((after (.tduEchoWrite 0x0F 1) s).reg F.TDU_ECHO_ECHO.off).toNat % 2 ^ 32 == 0xFFFFFFFE) = true := by decide +kernel

/-- LOOPBACK of ring port 1 at depth 0 in Test. -/
def loopC (depth : Byte) : Cmd := cmdOf 0x6001 ([0, depth, 1, 0] ++ leBytes 4 10 ++ leBytes 24 0)
def loop1 : Loop := ⟨0, 0, 1, 7, (loopC 0).params, 0, 0, 0, none, 0, false, false, 0⟩
theorem test_loopback : (let s := holding (loopC 0) (up Mode.test)
    let e := holding (loopC 0xFF) (up Mode.test)
    let el : State := { e with tdu := { e.tdu with loops := [{ loop1 with cmd := 5 }] } }
    due s (loopC 0) 0x6001 && !loopBad s (loopParams (loopC 0).params) && loopRefusal s (loopParams (loopC 0).params) == none && s.tdu.loops == []
    && (after (.loopback 7) s).tdu.loops.map (·.unit) == [1] && due e (loopC 0xFF) 0x6001 && !loopBad e (loopParams (loopC 0xFF).params)
    && (after (.loopback 7) el).tdu.loops.map (·.stopping) == [true] && loopRefusal (up Mode.standby) (loopParams (loopC 0).params) == some Status.denied
    && loopBad s (loopParams [9])) = true := by decide +kernel

theorem test_loopbackDone : (let c : Cmd := { loopC 0 with phase := .running }
    let s : State := holding c { up Mode.test with tdu := { TduSt.reset with loops := [loop1] } }
    let t := after (.loopbackDone 0 1 10 0 0 0 0 5) s
    s.live && calm s && s.ao.modeWait == none && s.loop? 0 1 == some loop1 && s.cmd? 7 == some c && t.tdu.loops == []
    && t.cmd? 7 == some c.ending) = true := by decide +kernel

/-- A planned break of port 1 of cabinet 3, 4 frames from frame 9 on. -/
def breakC (kind : Byte) (src : CmdSrc) : Cmd :=
  { cmdOf 0x6001 ([kind, 0] ++ leBytes 2 3 ++ [1, 0] ++ leBytes 2 4 ++ leBytes 4 9 ++ leBytes 20 0) with src := src }
theorem test_breaks : (let g := breakC 5 (.cab 3)
    let s := scheduled (holding g (onRing Mode.standby))
    let a := breakC 4 (.ring 0)
    let m := ((scheduled (holding a (onRing Mode.relay))).setFlag F.TSU_STAT_GM true).setFlag F.CMD_GWCFG_EN true
    let t := after (.approve 7 0) m
    let e : State := { s with frame := 13, tdu := { TduSt.reset with grants := [⟨3, 1, 9, 4⟩], walls := [⟨3, 1, 9, 4⟩], loops := [loop1] } }
    due s g 0x6001 && !breakBad g.params && g.src == .cab (s.fld F.RING_ID_ENSIGN) && s.hoists && grantTimely s g.params
    && (after (.grant 7) s).tdu.grants == [⟨3, 1, 9, 4⟩] && due m a 0x6001 && m.isGm && m.hoists && !m.wallBusy (breakParams m a.params)
    && m.cabId == some 3 && t.tdu.walls == [⟨3, 1, 9, 4⟩] && t.tdu.grants == [⟨3, 1, 9, 4⟩]
    && (after (.grantEnd 1) e).tdu.grants == [] && (after (.grantEnd 1) e).tdu.loops.map (·.stopping) == [true] && breakBad []) = true := by decide +kernel

/-- SELFTEST of items 2 and 7. -/
def selfC : Cmd := cmdOf 0x6002 (leBytes 4 0x84 ++ leBytes 12 0)
theorem test_selftest : (let s := holding selfC (up Mode.test)
    let t := after (.selftest 7) s
    due s selfC 0x6002 && zeroAt selfC.params 6 10 && s.tdu.selftest == none && t.tdu.selftest == some ⟨7, 0x84, 0, []⟩
    && (let r : Cmd := { selfC with phase := .running }
      let u : State := holding r { up Mode.test with tdu := { TduSt.reset with selftest := some ⟨7, 0x84, 0, []⟩ } }
      u.live && calm u && u.ao.modeWait == none && u.hpt.slots == [] && u.tdu.acc.wait == none && u.cmd? 7 == some r
      && (after (.selftestDone [(0, 0), (0, 0), (0, 0)]) u).tdu.selftest == none)) = true := by decide +kernel

end Sys2Proof.Tests
end

section
/-!
PROOFS. What reset leaves (R22, R94).
-/

namespace Sys2Proof.Machine

/-- Reset lists no register, so each reads its Reset value. -/
theorem reset_reg (off : Nat) : State.reset.reg off = regReset State.reset.build off := rfl

/-- The Reset column of AO_MODE: Rigging, BUSY set. -/
theorem reset_mode : State.reset.mode = Mode.rigging ∧ State.reset.flag F.AO_MODE_BUSY = true := by decide

/-- The Reset column of AO_RSTCAUSE: POR alone. -/
theorem reset_cause : State.reset.flag F.AO_RSTCAUSE_POR = true ∧ State.reset.flag F.AO_RSTCAUSE_ENG = false := by decide

theorem reset_rfWf : State.reset.rfWf = true := rfl

/-- Settles O3: the register file of reset is empty, and every part of the state stands as its reset value is defined. -/
theorem resetLeaves : Obligations.ResetLeaves :=
  ⟨reset_reg, reset_mode.1, reset_mode.2, reset_cause.1, reset_cause.2, rfl, rfl, rfl, rfl, rfl, rfl, rfl, rfl, reset_rfWf, reset_storesWf⟩

end Sys2Proof.Machine
end

section
/-!
PROOFS. The fields of a register write (R18, R19, R21, R50), the register map's well-formedness.
-/

namespace Sys2Proof

theorem getBits_congr {x y : BitVec 64} {lo w : Nat} (h : ∀ k, lo ≤ k → k < lo + w → x.getLsbD k = y.getLsbD k) :
    getBits x lo w = getBits y lo w := by
  apply Nat.eq_of_testBit_eq
  intro i
  rw [getBits_testBit, getBits_testBit]
  by_cases hi : i < w
  · rw [h (lo + i) (by omega) (by omega)]
  · simp [hi]

/-- The mask of a bit field, bit by bit. -/
theorem fieldMask_getLsbD (lo w k : Nat) (hk : k < 64) :
    (BitVec.ofNat 64 ((2 ^ w - 1) * 2 ^ lo)).getLsbD k = decide (lo ≤ k ∧ k < lo + w) := by
  simp only [BitVec.getLsbD_ofNat, Nat.testBit_mul_two_pow, Nat.testBit_two_pow_sub_one, hk, decide_true, Bool.true_and,
    ← Bool.decide_and, decide_eq_decide]
  omega

/-- A word has no bit in common with a field's mask when it reads zero there. -/
theorem fieldMask_and_eq_zero_iff (x : BitVec 64) (lo w : Nat) (h : lo + w ≤ 64) :
    BitVec.ofNat 64 ((2 ^ w - 1) * 2 ^ lo) &&& x = 0 ↔ getBits x lo w = 0 := by
  constructor
  · intro hz
    apply Nat.eq_of_testBit_eq
    intro i
    rw [getBits_testBit, Nat.zero_testBit]
    by_cases hi : i < w
    · have hb := congrArg (·.getLsbD (lo + i)) hz
      simpa [fieldMask_getLsbD lo w (lo + i) (by omega), hi] using hb
    · simp [hi]
  · intro hz
    refine BitVec.eq_of_getLsbD_eq fun k hk => ?_
    rw [BitVec.getLsbD_and, fieldMask_getLsbD lo w k hk]
    by_cases hin : lo ≤ k ∧ k < lo + w
    · have hb := getBits_testBit x lo w (k - lo)
      rw [hz, Nat.zero_testBit, Nat.add_sub_cancel' hin.1] at hb
      simp only [show k - lo < w by omega, decide_true, Bool.true_and] at hb
      simp [← hb]
    · simp [hin]

end Sys2Proof

namespace Sys2Proof.Machine

/-! ### One field of a write (R18, R21) -/

/-- The part of a written word that falls to a field. -/
def FDesc.taken (f : FDesc) (en data old : W64) : Nat := getBits ((old &&& ~~~en) ||| (data &&& en)) f.lo f.w &&& f.mask

theorem FDesc.taken_lt (f : FDesc) (en data old : W64) : f.taken en data old < 2 ^ f.w :=
  Nat.lt_of_le_of_lt Nat.and_le_left (Nat.mod_lt _ (Nat.two_pow_pos _))

/-- A field under its access code, its bits placed by `setBits`. -/
theorem mergeFld_eq (locked : Bool) (i : Nat) (f : FDesc) (en data old acc : W64) (h : f.lo + f.w ≤ 64) :
    mergeFld locked i f en data old acc =
      if getBits en f.lo f.w = 0 then acc
      else match f.acc with
        | .ro => acc
        | .wo => acc
        | .rw => if f.enc i (f.taken en data old) then setBits acc f.lo f.w (f.taken en data old) else acc
        | .rwl => if locked then acc
            else if f.enc i (f.taken en data old) then setBits acc f.lo f.w (f.taken en data old) else acc
        | .w1c => acc &&& ~~~(data &&& en &&& BitVec.ofNat 64 ((2 ^ f.w - 1) * 2 ^ f.lo)) := by
  unfold mergeFld setBits
  simp only [fieldMask_and_eq_zero_iff en f.lo f.w h, Nat.mod_eq_of_lt (f.taken_lt en data old)]
  rfl

/-- A field's write leaves the bits outside the field alone. -/
theorem mergeFld_outside (locked : Bool) (i : Nat) (f : FDesc) (en data old acc : W64) (h : f.lo + f.w ≤ 64) (k : Nat)
    (hk : k < f.lo ∨ f.lo + f.w ≤ k) : (mergeFld locked i f en data old acc).getLsbD k = acc.getLsbD k := by
  by_cases h64 : k < 64
  · have hin : ¬ (f.lo ≤ k ∧ k < f.lo + f.w) := by omega
    have hs : ∀ v, (setBits acc f.lo f.w v).getLsbD k = acc.getLsbD k := fun v => by
      rw [setBits_getLsbD _ _ _ _ _ h64, if_neg hin]
    rw [mergeFld_eq _ _ _ _ _ _ _ h]
    split
    · rfl
    · cases f.acc
      case ro => rfl
      case wo => rfl
      case rw => dsimp only; split <;> simp only [hs]
      case rwl => dsimp only; split <;> [rfl; split] <;> simp only [hs]
      case w1c => simp only [BitVec.getLsbD_and, BitVec.getLsbD_not, fieldMask_getLsbD _ _ _ h64, hin, decide_false, Bool.and_false,
          Bool.not_false, h64, decide_true, Bool.and_true]
  · rw [BitVec.getLsbD_of_ge _ k (by omega), BitVec.getLsbD_of_ge _ k (by omega)]

/-- What a field's write makes of a bit depends on that bit alone. -/
theorem mergeFld_congr (locked : Bool) (i : Nat) (f : FDesc) (en data old acc acc' : W64) (h : f.lo + f.w ≤ 64) (k : Nat)
    (hk : acc.getLsbD k = acc'.getLsbD k) :
    (mergeFld locked i f en data old acc).getLsbD k = (mergeFld locked i f en data old acc').getLsbD k := by
  by_cases h64 : k < 64
  · have hs : ∀ v, (setBits acc f.lo f.w v).getLsbD k = (setBits acc' f.lo f.w v).getLsbD k := fun v => by
      rw [setBits_getLsbD _ _ _ _ _ h64, setBits_getLsbD _ _ _ _ _ h64, hk]
    rw [mergeFld_eq _ _ _ _ _ _ _ h, mergeFld_eq _ _ _ _ _ _ _ h]
    split
    · exact hk
    · cases f.acc
      case ro => exact hk
      case wo => exact hk
      case rw => dsimp only; split <;> simp only [hs, hk]
      case rwl => dsimp only; split <;> [exact hk; split] <;> simp only [hs, hk]
      case w1c => simp only [BitVec.getLsbD_and, hk]
  · rw [BitVec.getLsbD_of_ge _ k (by omega), BitVec.getLsbD_of_ge _ k (by omega)]

/-- A field none of whose bytes is enabled is left alone. -/
theorem mergeFld_disabled (locked : Bool) (i : Nat) (f : FDesc) (en data old acc : W64) (h : f.lo + f.w ≤ 64)
    (hen : getBits en f.lo f.w = 0) : mergeFld locked i f en data old acc = acc := by
  rw [mergeFld_eq _ _ _ _ _ _ _ h, if_pos hen]

/-- RO and WO fields, and RWL fields under a closed lock, are left alone. -/
theorem mergeFld_closed (locked : Bool) (i : Nat) (f : FDesc) (en data old acc : W64) (h : f.lo + f.w ≤ 64)
    (hacc : f.acc = .ro ∨ f.acc = .wo ∨ (f.acc = .rwl ∧ locked = true)) : mergeFld locked i f en data old acc = acc := by
  rw [mergeFld_eq _ _ _ _ _ _ _ h]
  rcases hacc with ha | ha | ⟨ha, rfl⟩ <;> simp [ha]

/-- RW fields, and RWL fields under an open lock, take the written value unless its encoding is reserved. -/
theorem getBits_mergeFld_open (locked : Bool) (i : Nat) (f : FDesc) (en data old acc : W64) (h : f.lo + f.w ≤ 64)
    (hen : getBits en f.lo f.w ≠ 0) (hacc : f.acc = .rw ∨ (f.acc = .rwl ∧ locked = false)) :
    getBits (mergeFld locked i f en data old acc) f.lo f.w
      = if f.enc i (f.taken en data old) = true then f.taken en data old else getBits acc f.lo f.w := by
  have hput : mergeFld locked i f en data old acc
      = if f.enc i (f.taken en data old) = true then setBits acc f.lo f.w (f.taken en data old) else acc := by
    rw [mergeFld_eq _ _ _ _ _ _ _ h, if_neg hen]
    rcases hacc with ha | ⟨ha, rfl⟩ <;> simp [ha]
  rw [hput, apply_ite (getBits · f.lo f.w), getBits_setBits _ _ _ _ h, Nat.mod_eq_of_lt (f.taken_lt en data old)]

/-- A bit of a W1C field falls where 1 is written to it. -/
theorem mergeFld_w1c_getLsbD (locked : Bool) (i : Nat) (f : FDesc) (en data old acc : W64) (h : f.lo + f.w ≤ 64) (hacc : f.acc = .w1c)
    (k : Nat) (h1 : f.lo ≤ k) (h2 : k < f.lo + f.w) :
    (mergeFld locked i f en data old acc).getLsbD k = (acc.getLsbD k && !(data.getLsbD k && en.getLsbD k)) := by
  rw [mergeFld_eq _ _ _ _ _ _ _ h]
  by_cases hen : getBits en f.lo f.w = 0
  · have hb := getBits_testBit en f.lo f.w (k - f.lo)
    rw [hen, Nat.zero_testBit, Nat.add_sub_cancel' h1] at hb
    simp only [show k - f.lo < f.w by omega, decide_true, Bool.true_and] at hb
    simp [hen, ← hb]
  · have hk : k < 64 := by omega
    rw [if_neg hen]
    simp only [hacc, BitVec.getLsbD_and, BitVec.getLsbD_not, hk, fieldMask_getLsbD _ _ _ hk, h1, h2, and_self, decide_true,
      Bool.and_true, Bool.true_and]

/-! ### All fields of a write -/

/-- Two fields of a register share no bit. -/
abbrev FDesc.apart (f g : FDesc) : Prop := f.lo + f.w ≤ g.lo ∨ g.lo + g.w ≤ f.lo

/-- The fields of a register lie in its 64 bits and share none. -/
abbrev FieldsTidy (l : List FDesc) : Prop := (∀ f ∈ l, f.lo + f.w ≤ 64) ∧ l.Pairwise FDesc.apart

theorem foldl_mergeFld_outside (locked : Bool) (i : Nat) (en data old : W64) (l : List FDesc) (hw : ∀ f ∈ l, f.lo + f.w ≤ 64) (k : Nat)
    (hk : ∀ f ∈ l, k < f.lo ∨ f.lo + f.w ≤ k) (acc : W64) :
    (l.foldl (fun a f => mergeFld locked i f en data old a) acc).getLsbD k = acc.getLsbD k := by
  induction l generalizing acc with
  | nil => rfl
  | cons f l ih =>
    rw [List.foldl_cons, ih (fun g hg => hw g (by simp [hg])) (fun g hg => hk g (by simp [hg]))]
    exact mergeFld_outside _ _ _ _ _ _ _ (hw f (by simp)) k (hk f (by simp))

/-- In a write of all fields a bit of a field is what that field's own write makes of it. -/
theorem foldl_mergeFld_inside (locked : Bool) (i : Nat) (en data old : W64) (l : List FDesc) (hl : FieldsTidy l) (f : FDesc) (hf : f ∈ l)
    (k : Nat) (h1 : f.lo ≤ k) (h2 : k < f.lo + f.w) (acc : W64) :
    (l.foldl (fun a f => mergeFld locked i f en data old a) acc).getLsbD k = (mergeFld locked i f en data old acc).getLsbD k := by
  obtain ⟨hw, ha⟩ := hl
  induction l generalizing acc with
  | nil => cases hf
  | cons g l ih =>
    obtain ⟨hg, hl⟩ := List.pairwise_cons.mp ha
    have hwl : ∀ f ∈ l, f.lo + f.w ≤ 64 := fun f hf => hw f (by simp [hf])
    rw [List.foldl_cons]
    rcases List.mem_cons.mp hf with rfl | hf'
    · exact foldl_mergeFld_outside _ _ _ _ _ l hwl k (fun d hd => by have := hg d hd; omega) _
    · rw [ih hf' _ hwl hl]
      have := hg f hf'
      exact mergeFld_congr _ _ _ _ _ _ _ _ (hwl f hf') k (mergeFld_outside _ _ _ _ _ _ _ (hw g (by simp)) k (by omega))

/-! ### The register map -/

/-- The fields of every register of a block are tidy. -/
def blockTidy (l : List RegGrp) : Bool := l.all fun g => decide (FieldsTidy g.flds)

theorem blocks_tidy : [regsEng, regsAo, regsDic, regsCmd, regsMpt, regsSeq, regsCc, regsSe, regsLp, regsPu, regsTmr, regsBa, regsRing,
    regsTdu].map blockTidy = List.replicate 14 true := by decide +kernel

theorem blockOf_tidy (off : Nat) : blockTidy (blockOf off) = true := by
  have h := blocks_tidy
  simp only [List.map_cons, List.map_nil, List.replicate, List.cons.injEq, and_true] at h
  simp only [blockOf, apply_ite blockTidy, h, show blockTidy [] = true from rfl, ite_self]

/-- The map is well formed (R64). -/
theorem regAt_tidy {off i : Nat} {g : RegGrp} (h : regAt off = some (g, i)) : FieldsTidy g.flds := by
  unfold regAt at h
  obtain ⟨g', hfind, heq⟩ := Option.map_eq_some_iff.mp h
  obtain ⟨rfl, -⟩ := Prod.mk.inj heq
  exact of_decide_eq_true (List.all_eq_true.mp (blockOf_tidy off) _ (List.mem_of_find?_eq_some hfind))

/-! ### A register without behaviour of its own -/

section Written
variable {s : State} {w : Writer} {off be i : Nat} {data : W64} {g : RegGrp}

theorem State.written_refused (hr : regAt off = some (g, i)) (hm : mayWrite w g i = false) : s.written w off be data = s.reg off := by
  simp [State.written, hr, hm]

/-- A bit of a field after a write is what the field's own write makes of it. -/
theorem State.written_getLsbD (hr : regAt off = some (g, i)) (ha : absentReg s.build off = false) (hm : mayWrite w g i = true)
    {f : FDesc} (hf : f ∈ g.flds) {k : Nat} (h1 : f.lo ≤ k) (h2 : k < f.lo + f.w) :
    (s.written w off be data).getLsbD k
      = (mergeFld (s.flag (lockOf off)) i f (beMask be) data (s.reg off) (s.reg off)).getLsbD k := by
  simp only [State.written, hr, hm, ha, Bool.not_true, Bool.or_self, Bool.false_eq_true, if_false]
  exact foldl_mergeFld_inside _ _ _ _ _ _ (regAt_tidy hr) f hf k h1 h2 _

/-- What a write makes of a field, by its access code (R18, R21). -/
theorem State.getBits_written (hr : regAt off = some (g, i)) (ha : absentReg s.build off = false) (hm : mayWrite w g i = true)
    {f : FDesc} (hf : f ∈ g.flds) :
    getBits (s.written w off be data) f.lo f.w
      = getBits (mergeFld (s.flag (lockOf off)) i f (beMask be) data (s.reg off) (s.reg off)) f.lo f.w :=
  getBits_congr fun _ h1 h2 => State.written_getLsbD hr ha hm hf h1 h2

end Written

section Plain
variable (w : Writer) (off be : Nat) (data : W64) (s : State)

theorem dicRegWrite_plain (h : off = 0x020008 ∨ off = 0x020010 ∨ (0x020400 ≤ off ∧ off < 0x028000)) :
    dicRegWrite w off be data s = s.plainWrite w off be data := by
  unfold dicRegWrite
  rw [if_neg (by simp only; omega), if_neg (by omega), if_neg (by omega), if_neg (by omega)]

theorem cmdRegWrite_plain (h : 0x030200 ≤ off) : cmdRegWrite w off be data s = s.plainWrite w off be data := by
  unfold cmdRegWrite
  rw [if_neg (by omega)]

theorem seqRegWrite_plain (h : 0x084008 ≤ off) : seqRegWrite w off be data s = s.plainWrite w off be data := by
  unfold seqRegWrite
  rw [if_neg (by simp only; omega), if_neg (by omega), if_neg (by omega)]

/-- Registers without behaviour of their own are written under the access codes alone. -/
theorem regWrite_plain (jtag : Bool) (hp : plainOff off = true) (hb : be % 256 ≠ 0) (ha : absentReg s.build off = false) :
    regWrite w jtag off be data s = s.plainWrite w off be data := by
  simp only [plainOff, Bool.or_eq_true, Bool.and_eq_true, beq_iff_eq, decide_eq_true_eq] at hp
  unfold regWrite
  rw [if_neg (by simp [hb, ha]), if_neg (by omega), if_neg (by simp only; omega), if_neg (by simp only; omega)]
  by_cases hao : off < 0x020000
  · rw [if_pos hao]
  rw [if_neg hao]
  by_cases hdic : off < 0x030000
  · rw [if_pos hdic, dicRegWrite_plain _ _ _ _ _ (by omega)]
  rw [if_neg hdic]
  by_cases hcmd : off < 0x040000
  · rw [if_pos hcmd, cmdRegWrite_plain _ _ _ _ _ (by omega)]
  rw [if_neg hcmd, if_neg (by omega)]
  by_cases hcc : off < 0x100000
  · rw [if_pos hcc, seqRegWrite_plain _ _ _ _ _ (by omega)]
  rw [if_neg hcc, if_neg (by omega), if_neg (by omega), if_neg (by omega), if_neg (by omega), if_neg (by omega), if_pos (by omega)]

end Plain

/-- REGISTER_WRITE of such a register. -/
theorem exec_registerWrite_plain {s : State} (w : Writer) (off : Nat) (be : BitVec 8) (data : W64) (hc : s.cclkOn = true) (hs : s.calm)
    (hp : plainOff off = true) (h8 : off % 8 = 0) (ha : absentReg s.build off = false) (hb : be ≠ 0) :
    exec (.registerWrite w off be data) s = .next (s.plainWrite w off be.toNat data) := by
  have hbe : be.toNat % 256 ≠ 0 := by
    rw [Nat.mod_eq_of_lt be.isLt]
    exact fun h => hb (BitVec.eq_of_toNat_eq h)
  have hoff : off < 0x600000 := by
    simp only [plainOff, Bool.or_eq_true, Bool.and_eq_true, beq_iff_eq, decide_eq_true_eq] at hp
    omega
  have hcalm : (s.plainWrite w off be.toNat data).calm := hs
  show execRegisterWrite w off be data s = _
  simp only [execRegisterWrite, hc, hoff, h8, decide_true, BEq.rfl, Bool.and_self, if_true,
    regWrite_plain w off be.toNat data s false hp hbe ha, settle_calm hcalm]

/-- Settles O13: a register of `plainOff` is written field by field, and a field's write concerns its own bits alone. -/
theorem registerWrites : Obligations.RegisterWrites := by
  intro s w off be data g i hc hs hp h8 hr ha hb en merged
  refine ⟨_, exec_registerWrite_plain w off be data hc hs hp h8 ha hb, rfl, fun o ho => State.reg_setReg_ne _ _ _ _ ho, ?_, ?_⟩
  · intro hm
    rw [State.plainWrite, State.reg_setReg_self, State.written_refused hr hm]
  · intro hm f hf old new v
    have hw : f.lo + f.w ≤ 64 := (regAt_tidy hr).1 f hf
    have hnew : new = getBits (mergeFld (s.flag (lockOf off)) i f en data (s.reg off) (s.reg off)) f.lo f.w := by
      simp only [new, State.plainWrite, State.reg_setReg_self]
      exact State.getBits_written hr ha hm hf
    refine ⟨fun hacc => ?_, fun hen => ?_, fun hen hacc => ?_, fun hacc hlock => ?_, fun hacc k h1 h2 => ?_⟩
    · rw [hnew, mergeFld_closed _ _ _ _ _ _ _ hw (hacc.imp_right .inl)]
    · rw [hnew, mergeFld_disabled _ _ _ _ _ _ _ hw hen]
    · rw [hnew, getBits_mergeFld_open _ _ _ _ _ _ _ hw hen hacc]
      rfl
    · rw [hnew, mergeFld_closed _ _ _ _ _ _ _ hw (.inr (.inr ⟨hacc, hlock⟩))]
    · rw [State.plainWrite, State.reg_setReg_self, State.written_getLsbD hr ha hm hf h1 h2]
      exact mergeFld_w1c_getLsbD _ _ _ _ _ _ _ hw hacc k h1 h2

end Sys2Proof.Machine
end

section
/-!
PROOFS. What HB and SPM read after bytes have been written to them (R107, R108).
-/

namespace Sys2Proof

namespace SMap
variable {α : Type}

/-- A key that is not listed reads as the default. -/
theorem get_of_unlisted (d : Nat → α) (l : List (Nat × α)) (b : Nat) (h : ∀ p ∈ l, p.1 ≠ b) : get d l b = d b := by
  induction l with
  | nil => rfl
  | cons p t ih =>
    rw [get, if_neg (h p (by simp)), ih fun q hq => h q (by simp [hq])]

theorem get_append_of_unlisted_left (d : Nat → α) (l m : List (Nat × α)) (b : Nat) (h : ∀ p ∈ l, p.1 ≠ b) :
    get d (l ++ m) b = get d m b := by
  induction l with
  | nil => rfl
  | cons p t ih =>
    rw [List.cons_append, get, if_neg (h p (by simp)), ih fun q hq => h q (by simp [hq])]

theorem get_append_of_unlisted_right (d : Nat → α) (l m : List (Nat × α)) (b : Nat) (h : ∀ p ∈ m, p.1 ≠ b) :
    get d (l ++ m) b = get d l b := by
  induction l with
  | nil => exact get_of_unlisted d m b h
  | cons p t ih => rw [List.cons_append, get, get, ih]

/-- A filter that keeps every entry of a key leaves its value. -/
theorem get_filter (d : Nat → α) (l : List (Nat × α)) (f : Nat × α → Bool) (b : Nat) (h : ∀ v, f (b, v) = true) :
    get d (l.filter f) b = get d l b := by
  induction l with
  | nil => rfl
  | cons p t ih =>
    obtain ⟨k, v⟩ := p
    by_cases hf : f (k, v) = true
    · rw [List.filter_cons_of_pos hf, get, get, ih]
    · have hk : k ≠ b := fun e => hf (e ▸ h v)
      rw [List.filter_cons_of_neg hf, ih, get, if_neg hk]

/-- Values written one after the other, the defaults among them left out, read as they were written. -/
theorem get_consecutive [DecidableEq α] (d : Nat → α) (a n : Nat) (vs : List α) (b : Nat) (h1 : a + n ≤ b) :
    get d (((vs.zipIdx n).map fun p => (a + p.2, p.1)).filter fun p => decide (p.2 ≠ d p.1)) b = vs.getD (b - (a + n)) (d b) := by
  induction vs generalizing n with
  | nil => rfl
  | cons v vs ih =>
    rw [List.zipIdx_cons, List.map_cons, List.filter_cons]
    by_cases hb : b = a + n
    · subst hb
      have hrest : get d (((vs.zipIdx (n + 1)).map fun p => (a + p.2, p.1)).filter fun p => decide (p.2 ≠ d p.1)) (a + n) = d (a + n) :=
        get_of_unlisted _ _ _ fun p hp => by
          have := ((zipIdx_keys a (n + 1) vs).2 p (List.mem_filter.mp hp).1).1
          omega
      by_cases hv : v = d (a + n)
      · simpa [hv] using hrest
      · simp [hv, get]
    · have hi := ih (n + 1) (by omega)
      have hsub : b - (a + n) = b - (a + (n + 1)) + 1 := by omega
      rw [hsub, List.getD_cons_succ, ← hi]
      split
      · rw [get, if_neg (Ne.symm hb)]
      · rfl

/-- What a read gives after consecutive keys have been written. -/
theorem get_splice [DecidableEq α] (d : Nat → α) (l : List (Nat × α)) (a : Nat) (vs : List α) (b : Nat) :
    get d (splice d l a vs) b = if a ≤ b ∧ b < a + vs.length then vs.getD (b - a) (d b) else get d l b := by
  have hnew := zipIdx_keys a 0 vs
  unfold splice
  split
  · rename_i hb
    rw [get_append_of_unlisted_right, get_append_of_unlisted_left, get_consecutive d a 0 vs b hb.1]
    · rfl
    · intro p hp
      have := of_decide_eq_true (List.mem_filter.mp hp).2
      omega
    · intro p hp
      have := of_decide_eq_true (List.mem_filter.mp hp).2
      omega
  · rename_i hb
    have hmid : ∀ p ∈ (vs.zipIdx.map fun p => (a + p.2, p.1)).filter fun p => decide (p.2 ≠ d p.1), p.1 ≠ b := by
      intro p hp
      have := hnew.2 p (List.mem_filter.mp hp).1
      omega
    by_cases hlt : b < a
    · rw [List.append_assoc, get_append_of_unlisted_right, get_filter]
      · exact fun _ => decide_eq_true hlt
      · intro p hp
        rcases List.mem_append.mp hp with hp | hp
        · exact hmid p hp
        · have := of_decide_eq_true (List.mem_filter.mp hp).2
          omega
    · rw [get_append_of_unlisted_left, get_filter]
      · intro v
        simp only [decide_eq_true_eq]
        omega
      · intro p hp
        rcases List.mem_append.mp hp with hp | hp
        · have := of_decide_eq_true (List.mem_filter.mp hp).2
          omega
        · exact hmid p hp

end SMap

namespace Machine

/-- With the check bits that R105 gives a byte reads as it is stored, and with c0 and c1 inverted it carries a pennant (R106, R107). -/
theorem eccRead_clean (d : Byte) : eccRead d 0 = (.clean, d) := by
  have hp : parity (0 : BitVec 5).toNat 5 = false := by decide
  have hs : (0 : BitVec 5).toNat % 16 = 0 := rfl
  simp only [eccRead, hp, hs, Bool.false_eq_true, if_false, if_true]

theorem eccRead_pennant (d : Byte) : eccRead d pennantMark = (.pennant, d) := by
  have hp : parity pennantMark.toNat 5 = false := by decide
  have hs : pennantMark.toNat % 16 = 3 := by decide
  simp [eccRead, hp, hs]

/-- What a store reads after consecutive bytes have been written. -/
theorem Store.read_writeRange (m : Store) (a : Nat) (l : List PByte) (b : Nat) :
    (m.writeRange a l).read b = if a ≤ b ∧ b < a + l.length then l.getD (b - a) ⟨0, false⟩ else m.read b := by
  unfold Store.read Store.dataAt Store.chkAt Store.writeRange
  simp only [SMap.get_splice, List.length_map]
  split
  · rename_i hb
    have hlen : b - a < l.length := by omega
    simp only [List.getD_eq_getElem?_getD, List.getElem?_map, List.getElem?_eq_getElem hlen, Option.map_some, Option.getD_some]
    cases l[b - a] with
    | mk v pen => cases pen <;> simp only [Bool.false_eq_true, if_false, if_true, eccRead_clean, eccRead_pennant] <;> rfl
  · rfl

/-- Flags are read from the register file alone. -/
theorem State.flag_congr (s t : State) (hb : t.build = s.build) (hr : t.rf = s.rf) (f : FRef) : t.flag f = s.flag f := by
  unfold State.flag State.fld
  rw [State.reg_congr s t hb hr]

@[simp] theorem State.setStore_build (s : State) (x : StoreSel) (m : Store) : (s.setStore x m).build = s.build := by cases x <;> rfl
@[simp] theorem State.setStore_rf (s : State) (x : StoreSel) (m : Store) : (s.setStore x m).rf = s.rf := by cases x <;> rfl

theorem State.store_setStore (s : State) (x y : StoreSel) (m : Store) : (s.setStore x m).store y = if y = x then m else s.store y := by
  cases x <;> cases y <;> rfl

/-- A write of HB or SPM that no injection waits for: the bytes, and the write-backs that it cancels. -/
theorem writeBytes_eq (x : StoreSel) (a : Nat) (l : List PByte) (s : State) (hl : l ≠ []) (hi : s.flag F.SCRUB_INJ_ARM = false) :
    writeBytes x a l s = { s.setStore x ((s.store x).writeRange a l) with
      fixups := s.fixups.filter fun f => !(f.st == x && decide (a ≤ f.addr) && decide (f.addr < a + l.length)) } := by
  have hflag : ∀ m fx, State.flag { s.setStore x m with fixups := fx } F.SCRUB_INJ_ARM = false := fun m fx =>
    (State.flag_congr s _ (s.setStore_build x m) (s.setStore_rf x m) _).trans hi
  unfold writeBytes
  simp only [List.isEmpty_iff, hl, if_false, hflag, Bool.false_and, Bool.false_eq_true]

/-! ### Single bytes of a word -/

/-- Byte k of a word, as a write stores it. -/
def laneByte (d : W64) (k : Nat) : PByte := ⟨BitVec.ofNat 8 (d.toNat / 2 ^ (8 * k)), false⟩

/-- Bytes `l` of a word are written at `o`, one after the other. -/
def writeLanes (x : StoreSel) (o : Nat) (d : W64) (l : List Nat) (s : State) : State :=
  l.foldl (fun t k => writeBytes x (o + k) [laneByte d k] t) s

/-- Bytes `l` of the word at `o` have been written: no other byte of a store differs, and nothing else but the write-backs that wait. -/
structure LanesWritten (x : StoreSel) (o : Nat) (d : W64) (l : List Nat) (s t : State) : Prop where
  rest : t = { s with hb := t.hb, spm := t.spm, fixups := t.fixups }
  written : ∀ k ∈ l, (t.store x).read (o + k) = laneByte d k
  outside : ∀ b, (∀ k ∈ l, b ≠ o + k) → (t.store x).read b = (s.store x).read b
  other : ∀ y, y ≠ x → t.store y = s.store y

theorem writeBytes_lane (x : StoreSel) (o : Nat) (d : W64) (k : Nat) (s : State) (hi : s.flag F.SCRUB_INJ_ARM = false) :
    LanesWritten x o d [k] s (writeBytes x (o + k) [laneByte d k] s) := by
  rw [writeBytes_eq x _ _ s (by simp) hi]
  have hread : ∀ b fx, (State.store { s.setStore x ((s.store x).writeRange (o + k) [laneByte d k]) with fixups := fx } x).read b
      = if b = o + k then laneByte d k else (s.store x).read b := fun b fx => by
    show ((s.setStore x _).store x).read b = _
    rw [State.store_setStore, if_pos rfl, Store.read_writeRange]
    by_cases hb : b = o + k
    · simp [hb]
    · rw [if_neg (by simp only [List.length_singleton]; omega), if_neg hb]
  refine ⟨by cases x <;> rfl, fun j hj => ?_, fun b hb => ?_, fun y hy => ?_⟩
  · rw [hread, List.mem_singleton.mp hj, if_pos rfl]
  · rw [hread, if_neg (hb k (by simp))]
  · show (s.setStore x _).store y = _
    rw [State.store_setStore, if_neg hy]

theorem LanesWritten.trans {x : StoreSel} {o : Nat} {d : W64} {l m : List Nat} {s t u : State} (h : LanesWritten x o d l s t)
    (k : LanesWritten x o d m t u) : LanesWritten x o d (l ++ m) s u := by
  refine ⟨?_, fun j hj => ?_, fun b hb => ?_, fun y hy => (k.other y hy).trans (h.other y hy)⟩
  · have h1 := h.rest
    have k1 := k.rest
    rw [h1] at k1
    exact k1
  · by_cases hm : j ∈ m
    · exact k.written j hm
    · rw [k.outside (o + j) fun i hi => by rintro he; exact hm (Nat.add_left_cancel he ▸ hi)]
      exact h.written j ((List.mem_append.mp hj).resolve_right hm)
  · rw [k.outside b fun i hi => hb i (List.mem_append_right l hi), h.outside b fun i hi => hb i (List.mem_append_left m hi)]

theorem writeLanes_written (x : StoreSel) (o : Nat) (d : W64) (l : List Nat) (s : State) (hi : s.flag F.SCRUB_INJ_ARM = false) :
    LanesWritten x o d l s (writeLanes x o d l s) := by
  induction l generalizing s with
  | nil => exact ⟨rfl, fun _ h => absurd h (by simp), fun _ _ => rfl, fun _ _ => rfl⟩
  | cons k l ih =>
    have h := writeBytes_lane x o d k s hi
    refine h.trans (ih _ ((State.flag_congr s _ ?_ ?_ _).trans hi))
    · rw [h.rest]
    · rw [h.rest]

end Machine
end Sys2Proof
end

section
/-!
PROOFS. HPT's requests and responses (R6, R46 to R51, R66).
-/

namespace Sys2Proof

theorem mem_bitsSet {mask n k : Nat} : k ∈ bitsSet mask n ↔ k < n ∧ bitOf mask k = true := by
  simp [bitsSet]

namespace Machine

theorem mem_bitsSet_toNat {be : BitVec 8} {k : Nat} : k ∈ bitsSet be.toNat 8 ↔ k < 8 ∧ be.getLsbD k = true := by
  rw [mem_bitsSet, bitOf_eq_testBit, BitVec.testBit_toNat]

/-! ### The enabled bytes of a word (R50) -/

section Enabled
variable {x : StoreSel} {o : Nat} {d : W64} {be : BitVec 8} {s t : State} (h : LanesWritten x o d (bitsSet be.toNat 8) s t)
include h

/-- Of a word whose enabled bytes have been written these read as written, the others as before. -/
theorem LanesWritten.read_enabled {k : Nat} (hk : k < 8) :
    (t.store x).read (o + k) = if be.getLsbD k = true then laneByte d k else (s.store x).read (o + k) := by
  split
  · rename_i hb
    exact h.written k (mem_bitsSet_toNat.mpr ⟨hk, hb⟩)
  · rename_i hb
    exact h.outside (o + k) fun j hj e => hb (Nat.add_left_cancel e ▸ (mem_bitsSet_toNat.mp hj).2)

theorem LanesWritten.read_beside {b : Nat} (hb : b < o ∨ o + 8 ≤ b) : (t.store x).read b = (s.store x).read b :=
  h.outside b fun j hj e => by
    have := (mem_bitsSet_toNat.mp hj).1
    omega

end Enabled

/-- What follows a transition depends on the hooks that are due and the Halt that waits alone. -/
theorem State.calm_of {s t : State} (h : s.calm) (hh : t.cc.hooks = s.cc.hooks) (hr : t.tdu.haltReq = s.tdu.haltReq) : t.calm :=
  ⟨hh.trans h.1, hr.trans h.2⟩

theorem Notes.flag {s t : State} (h : Notes s t) (f : FRef) (hf : f.off ≠ 0x048008 ∧ f.off ≠ 0x048010) (hr : reportOff f.off = false) :
    t.flag f = s.flag f := by
  unfold State.flag State.fld
  rw [h.regs _ hf hr]

theorem Notes.hpt {s t : State} (h : Notes s t) : t.hpt = s.hpt := by rw [h.rest]

/-! ### The record of a bus error (R66) -/

/-- HPT_ERR records a bus error: the first one in full, of a later one that it came; nothing else differs. -/
structure HptErrRecorded (cause : Nat) (r : HptReq) (s t : State) : Prop where
  rest : t = { s with rf := t.rf }
  regs : ∀ off, off ≠ F.HPT_ERR_VALID.off → t.reg off = s.reg off
  valid : t.flag F.HPT_ERR_VALID = true
  first : s.flag F.HPT_ERR_VALID = false →
    t.fld F.HPT_ERR_CAUSE = cause ∧ t.fld F.HPT_ERR_TID = r.tid.toNat ∧ t.fld F.HPT_ERR_OFFSET = r.off
  later : s.flag F.HPT_ERR_VALID = true → t.flag F.HPT_ERR_OVF = true ∧ t.fld F.HPT_ERR_CAUSE = s.fld F.HPT_ERR_CAUSE

theorem hptError_recorded (cause : Nat) (r : HptReq) (s : State) (hc : cause < 16) (h8 : r.off % 8 = 0) (ho : r.off < 2 ^ 24) :
    HptErrRecorded cause r s (hptError cause r s) := by
  unfold hptError
  by_cases hv : s.flag F.HPT_ERR_VALID = true
  · rw [if_pos hv]
    refine ⟨rfl, fun off h => State.reg_setFlag_ne _ _ _ _ h, ?_, fun h => absurd h (by simp [hv]), fun _ => ⟨?_, ?_⟩⟩
    · rwa [State.flag_setFlag_other _ _ _ _ (by decide) (by decide)]
    · exact State.flag_setFlag _ _ _ (by decide) (by decide)
    · exact State.fld_setFld_other _ _ _ _ (by decide) (by decide)
  · rw [if_neg hv]
    refine ⟨rfl, fun off h => ?_, ?_, fun _ => ⟨?_, ?_, ?_⟩, fun h => absurd h hv⟩
    · have h : off ≠ 0x000018 := h
      simp [State.reg_setFld_ne, State.reg_setFlag_ne, h]
    · rw [State.flag_setFld_other _ _ _ _ (by decide) (by decide), State.flag_setFld_other _ _ _ _ (by decide) (by decide),
        State.flag_setFld_other _ _ _ _ (by decide) (by decide), State.flag_setFlag _ _ _ (by decide) (by decide)]
    · rw [State.fld_setFld_other _ _ _ _ (by decide) (by decide), State.fld_setFld_other _ _ _ _ (by decide) (by decide),
        State.fld_setFld _ _ _ (by decide)]
      exact Nat.mod_eq_of_lt hc
    · rw [State.fld_setFld_other _ _ _ _ (by decide) (by decide), State.fld_setFld _ _ _ (by decide)]
      exact Nat.mod_eq_of_lt r.tid.isLt
    · rw [State.fld_setFld _ _ _ (by decide), Nat.div_mul_cancel (Nat.dvd_of_mod_eq_zero h8)]
      exact Nat.mod_eq_of_lt ho

theorem HptErrRecorded.cclkOn {cause : Nat} {r : HptReq} {s t : State} (h : HptErrRecorded cause r s t) : t.cclkOn = s.cclkOn := by
  refine State.cclkOn_of _ _ ?_ (by rw [h.rest])
  unfold State.mode State.fld
  rw [h.regs _ (by decide)]

/-! ### The branches of an access -/

section Act
variable (jtag clash : Bool) (r : HptReq) (s : State)

theorem hptAct_absent (h : 0x800000 + spmSize s.build ≤ r.off) : hptAct jtag clash r s = (hptError 1 r s, (0, true)) := by
  simp [hptAct, hptAbsent, h]

theorem hptAct_refused (h : hptAbsent s.build r.off = false) (hb : beAllowed r.off r.be = false) :
    hptAct jtag clash r s = (hptError 3 r s, (0, true)) := by
  simp [hptAct, h, hb]

theorem hptAct_write_none (h : hptAbsent s.build r.off = false) (hb : r.be = 0) (hw : r.wr = true) :
    hptAct jtag clash r s = (s, (0, false)) := by
  simp [hptAct, beAllowed, h, hb, hw]

theorem hptAct_read_none (h : hptAbsent s.build r.off = false) (hb : r.be = 0) (hw : r.wr = false) :
    hptAct jtag clash r s = (s.drew, ((laneData 0 0 s).2, false)) := by
  simp [hptAct, beAllowed, laneData, h, hb, hw]

theorem hptAct_memory (h : hptAbsent s.build r.off = false) (hb : r.be ≠ 0) (hm : hptMemory r.off = true) :
    hptAct jtag clash r s = hptMemAccess clash r s := by
  have hoff : 0x600000 ≤ r.off := by
    simp only [hptMemory, Bool.or_eq_true, Bool.and_eq_true, decide_eq_true_eq] at hm
    omega
  simp [hptAct, beAllowed, h, hb, hm, hoff]

end Act

/-! ### Accesses to HB and SPM -/

/-- The store that an offset lies in, and the place there. -/
def hptStore (off : Nat) : StoreSel := if off < 0x800000 then .hb else .spm
def hptPlace (off : Nat) : Nat := if off < 0x800000 then off - 0x600000 else off - 0x800000

section Access
variable (r : HptReq) (s : State)

theorem hptMemAccess_write (h8 : r.off % 8 = 0) (hw : r.wr = true) :
    hptMemAccess false r s = (writeLanes (hptStore r.off) (hptPlace r.off) r.wdata (bitsSet r.be 8) s, (0, false)) := by
  by_cases h : r.off < 0x800000
  · have hp : (r.off - 0x600000) / 8 * 8 = r.off - 0x600000 := by omega
    simp only [hptMemAccess, hptStore, hptPlace, h, hw, hp, if_true, Bool.false_and, Bool.false_eq_true, if_false]
    rfl
  · have hp : (r.off - 0x800000) / 8 * 8 = r.off - 0x800000 := by omega
    simp only [hptMemAccess, hptStore, hptPlace, h, hw, hp, if_true, Bool.false_and, Bool.false_eq_true, if_false]
    rfl

/-- A read is answered by the word, or by a bus error where an enabled byte carries a pennant. -/
theorem hptMemAccess_read (h8 : r.off % 8 = 0) (hw : r.wr = false) :
    hptMemAccess false r s =
      if (bitsSet r.be 8).any fun k => ((readBytes (hptStore r.off) (hptPlace r.off) 8 s).getD k ⟨0, false⟩).pen then
        (hptError 2 r (noteRead (hptStore r.off) (hptPlace r.off) r.be s), (0, true))
      else
        let p := laneData r.be (BitVec.ofNat 64 (leNat (vals (readBytes (hptStore r.off) (hptPlace r.off) 8 s))))
          (noteRead (hptStore r.off) (hptPlace r.off) r.be s)
        (p.1, (p.2, false)) := by
  by_cases h : r.off < 0x800000
  · have hp : (r.off - 0x600000) / 8 * 8 = r.off - 0x600000 := by omega
    simp only [hptMemAccess, hptStore, hptPlace, h, hw, hp, if_true, Bool.false_eq_true, if_false]
  · have hp : (r.off - 0x800000) / 8 * 8 = r.off - 0x800000 := by omega
    simp only [hptMemAccess, hptStore, hptPlace, h, hw, hp, Bool.false_eq_true, if_false]

theorem readBytes_getD (x : StoreSel) (a n k : Nat) (hk : k < n) : (readBytes x a n s).getD k ⟨0, false⟩ = (s.store x).read (a + k) := by
  simp [readBytes, List.getD_eq_getElem?_getD, hk]

theorem hptMemAccess_read_pennant (h8 : r.off % 8 = 0) (hw : r.wr = false)
    (hp : ∃ k, k < 8 ∧ bitOf r.be k = true ∧ ((s.store (hptStore r.off)).read (hptPlace r.off + k)).pen = true) :
    hptMemAccess false r s = (hptError 2 r (noteRead (hptStore r.off) (hptPlace r.off) r.be s), (0, true)) := by
  obtain ⟨k, hk, hb, hpen⟩ := hp
  rw [hptMemAccess_read r s h8 hw, if_pos]
  exact List.any_eq_true.mpr ⟨k, mem_bitsSet.mpr ⟨hk, hb⟩, by rw [readBytes_getD s _ _ _ _ hk]; exact hpen⟩

theorem hptMemAccess_read_clean (h8 : r.off % 8 = 0) (hw : r.wr = false) (hb : r.be = 0xFF)
    (hp : anyPen (readBytes (hptStore r.off) (hptPlace r.off) 8 s) = false) :
    hptMemAccess false r s = (noteRead (hptStore r.off) (hptPlace r.off) 0xFF s,
      (BitVec.ofNat 64 (leNat (vals (readBytes (hptStore r.off) (hptPlace r.off) 8 s))), false)) := by
  rw [hptMemAccess_read r s h8 hw, if_neg, hb]
  · simp only [laneData, if_true]
  · intro hany
    obtain ⟨k, hk, hpen⟩ := List.any_eq_true.mp hany
    rw [readBytes_getD s _ _ _ _ (mem_bitsSet.mp hk).1] at hpen
    have hmem : (s.store (hptStore r.off)).read (hptPlace r.off + k) ∈ readBytes (hptStore r.off) (hptPlace r.off) 8 s :=
      List.mem_map.mpr ⟨k, List.mem_range.mpr (mem_bitsSet.mp hk).1, rfl⟩
    exact Bool.false_ne_true (hp.symm.trans (List.any_eq_true.mpr ⟨_, hmem, hpen⟩))

end Access

/-! ### Requests -/

/-- An access has been answered: its response waits in its turn, and no store of the core meets it any more. -/
def State.hptAnswered (t : State) (tid : BitVec 8) (x : HptAnswer) : State :=
  { t with hpt := { t.hpt with slots := t.hpt.slots ++ [.ready tid x.1 x.2] }, cc := { t.cc with portA := none } }

theorem State.hptAnswered_of {t : State} {l : List HptSlot} (h : t.hpt.slots = l) (tid : BitVec 8) (x : HptAnswer) :
    t.hptAnswered tid x
      = { t with hpt := { t.hpt with slots := l ++ [.ready tid x.1 x.2] }, cc := { t.cc with portA := none } } := by
  rw [State.hptAnswered, h]

section Request
variable {s : State} (wr : Bool) (a : BitVec 21) (be : BitVec 8) (d : W64) (tid : BitVec 8)

/-- The request that the signals spell. -/
abbrev hptReqOf : HptReq := ⟨wr, a.toNat * 8, be.toNat, d, tid⟩

theorem exec_hptRequest_refused (hs : s.calm) (h : 16 ≤ s.hpt.slots.length ∨ s.hpt.awake = false) :
    Inert (.hptRequest wr a be d tid false) s := by
  have he : hptRequest (hptReqOf wr a be d tid) false s = s := by
    unfold hptRequest
    rw [if_pos (by rcases h with h | h <;> simp [h])]
  show Host.Outcome.next (whileClocked s (settle (hptRequest (hptReqOf wr a be d tid) false s))) = _
  rw [he, settle_calm hs, whileClocked, ite_self]

variable (hc : s.cclkOn = true) (hawake : s.hpt.awake = true) (hlen : s.hpt.slots.length < 16)
include hc hawake hlen

/-- A request that need not wait is acted on and answered. -/
theorem exec_hptRequest_acts {t : State} {x : HptAnswer} (h : s.hptBehind (hptReqOf wr a be d tid) = false)
    (hact : hptAct false false (hptReqOf wr a be d tid) s = (t, x)) (ht : t.cclkOn = true) (hcalm : t.calm) :
    exec (.hptRequest wr a be d tid false) s = .next (t.hptAnswered tid x) := by
  have he : hptRequest (hptReqOf wr a be d tid) false s = t.hptAnswered tid x := by
    unfold hptRequest
    rw [if_neg (by simp [hc, hawake, hlen]), if_neg (by simp [h]), hact]
    simp only [ht, if_true]
    rfl
  show Host.Outcome.next (whileClocked s (settle (hptRequest (hptReqOf wr a be d tid) false s))) = _
  rw [he, whileClocked_on hc]
  exact congrArg Host.Outcome.next (settle_calm (State.calm_of hcalm rfl rfl))

variable (hs : s.calm)
include hs

theorem exec_hptRequest_behind (h : s.hptBehind (hptReqOf wr a be d tid) = true) :
    exec (.hptRequest wr a be d tid false) s
      = .next { s with hpt := { s.hpt with slots := s.hpt.slots ++ [.waiting (hptReqOf wr a be d tid)] } } := by
  have he : hptRequest (hptReqOf wr a be d tid) false s
      = { s with hpt := { s.hpt with slots := s.hpt.slots ++ [.waiting (hptReqOf wr a be d tid)] } } := by
    unfold hptRequest
    rw [if_neg (by simp [hc, hawake, hlen]), if_pos h]
  show Host.Outcome.next (whileClocked s (settle (hptRequest (hptReqOf wr a be d tid) false s))) = _
  rw [he, whileClocked_on hc]
  exact congrArg Host.Outcome.next (settle_calm (State.calm_of hs rfl rfl))

/-- A request that ends in a bus error. -/
theorem exec_hptRequest_fails {cause : Nat} (h : s.hptBehind (hptReqOf wr a be d tid) = false) (hcause : cause < 16)
    (hact : hptAct false false (hptReqOf wr a be d tid) s = (hptError cause (hptReqOf wr a be d tid) s, (0, true))) :
    ∃ u, exec (.hptRequest wr a be d tid false) s = .next (u.hptAnswered tid (0, true))
      ∧ HptErrRecorded cause (hptReqOf wr a be d tid) s u := by
  have hr := hptError_recorded cause (hptReqOf wr a be d tid) s hcause (Nat.mul_mod_left _ _) (by simp only; omega)
  refine ⟨_, exec_hptRequest_acts wr a be d tid hc hawake hlen h hact (hr.cclkOn.trans hc) ?_, hr⟩
  rw [hr.rest]
  exact hs

/-- A write of HB or SPM stores the enabled bytes. -/
theorem exec_hptRequest_write (h : s.hptBehind (hptReqOf true a be d tid) = false) (hm : hptMemory (a.toNat * 8) = true)
    (hin : hptAbsent s.build (a.toNat * 8) = false) (hb : be ≠ 0) (hi : s.flag F.SCRUB_INJ_ARM = false) :
    ∃ u, exec (.hptRequest true a be d tid false) s = .next (u.hptAnswered tid (0, false))
      ∧ LanesWritten (hptStore (a.toNat * 8)) (hptPlace (a.toNat * 8)) d (bitsSet be.toNat 8) s u := by
  have hact := (hptAct_memory false false (hptReqOf true a be d tid) s hin (fun e => hb (BitVec.eq_of_toNat_eq e)) hm).trans
    (hptMemAccess_write _ s (Nat.mul_mod_left _ _) rfl)
  have hw := writeLanes_written (hptStore (a.toNat * 8)) (hptPlace (a.toNat * 8)) d (bitsSet be.toNat 8) s hi
  refine ⟨_, exec_hptRequest_acts true a be d tid hc hawake hlen h hact ?_ ?_, hw⟩
  · rw [← hc, hw.rest]
    exact State.cclkOn_of _ _ (State.mode_congr _ _ rfl rfl) rfl
  · rw [hw.rest]
    exact hs

/-- A read of HB or SPM without a pennant, all bytes enabled, answers the word. -/
theorem exec_hptRequest_read (h : s.hptBehind (hptReqOf false a 0xFF d tid) = false) (hm : hptMemory (a.toNat * 8) = true)
    (hin : hptAbsent s.build (a.toNat * 8) = false)
    (hp : anyPen (readBytes (hptStore (a.toNat * 8)) (hptPlace (a.toNat * 8)) 8 s) = false) :
    exec (.hptRequest false a 0xFF d tid false) s
      = .next ((noteRead (hptStore (a.toNat * 8)) (hptPlace (a.toNat * 8)) 0xFF s).hptAnswered tid
          (BitVec.ofNat 64 (leNat (vals (readBytes (hptStore (a.toNat * 8)) (hptPlace (a.toNat * 8)) 8 s))), false)) := by
  have hact := (hptAct_memory false false (hptReqOf false a 0xFF d tid) s hin (show (0xFF : BitVec 8).toNat ≠ 0 by decide) hm).trans
    (hptMemAccess_read_clean _ s (Nat.mul_mod_left _ _) rfl rfl hp)
  have hn := Notes.read (hptStore (a.toNat * 8)) (hptPlace (a.toNat * 8)) 0xFF s hc
  refine exec_hptRequest_acts false a 0xFF d tid hc hawake hlen h hact (hn.cclkOn.trans hc) ?_
  rw [hn.rest]
  exact hs

/-- A read of HB or SPM that meets a pennant on an enabled byte ends in a bus error, after the notes that the read leaves. -/
theorem exec_hptRequest_read_pennant (h : s.hptBehind (hptReqOf false a be d tid) = false) (hm : hptMemory (a.toNat * 8) = true)
    (hin : hptAbsent s.build (a.toNat * 8) = false) (hb : be ≠ 0)
    (hp : ∃ k, k < 8 ∧ be.getLsbD k = true ∧ ((s.store (hptStore (a.toNat * 8))).read (hptPlace (a.toNat * 8) + k)).pen = true) :
    ∃ n u, exec (.hptRequest false a be d tid false) s = .next (u.hptAnswered tid (0, true))
      ∧ Notes s n ∧ HptErrRecorded 2 (hptReqOf false a be d tid) n u := by
  obtain ⟨k, hk, hbit, hpen⟩ := hp
  have hbit' : bitOf be.toNat k = true := by rw [bitOf_eq_testBit, BitVec.testBit_toNat, hbit]
  have hact := (hptAct_memory false false (hptReqOf false a be d tid) s hin (fun e => hb (BitVec.eq_of_toNat_eq e)) hm).trans
    (hptMemAccess_read_pennant _ s (Nat.mul_mod_left _ _) rfl ⟨k, hk, hbit', hpen⟩)
  have hn := Notes.read (hptStore (a.toNat * 8)) (hptPlace (a.toNat * 8)) be.toNat s hc
  have hr := hptError_recorded 2 (hptReqOf false a be d tid) (noteRead (hptStore (a.toNat * 8)) (hptPlace (a.toNat * 8)) be.toNat s)
    (by decide) (Nat.mul_mod_left _ _) (by simp only; omega)
  refine ⟨_, _, exec_hptRequest_acts false a be d tid hc hawake hlen h hact (hr.cclkOn.trans (hn.cclkOn.trans hc)) ?_, hn, hr⟩
  rw [hr.rest, hn.rest]
  exact hs

end Request

/-! ### Responses -/

/-- The response at the head of the queue leaves. -/
theorem exec_hptResponse_ready {s : State} {tid : BitVec 8} {v : W64} {e : Bool} {rest : List HptSlot} (hc : s.cclkOn = true) (hs : s.calm)
    (hawake : s.hpt.awake = true) (hslots : s.hpt.slots = .ready tid v e :: rest) (hwait : s.tdu.acc.wait = none) :
    exec .hptResponse s = .next { s with hpt := { s.hpt with slots := rest } } := by
  have he : hptResponse s = { s with hpt := { s.hpt with slots := rest } } := by
    simp only [hptResponse, hslots, hc, hawake, Bool.and_self, if_true, dbgRetry, hwait]
  show Host.Outcome.next (whileClocked s (settle (hptResponse s))) = _
  rw [he, whileClocked_on hc]
  exact congrArg Host.Outcome.next (settle_calm (State.calm_of hs rfl rfl))

/-- A request that waits at the head holds the queue. -/
theorem exec_hptResponse_waiting {s : State} {r : HptReq} {rest : List HptSlot} (hs : s.calm) (hslots : s.hpt.slots = .waiting r :: rest) :
    Inert .hptResponse s := by
  have he : hptResponse s = s := by simp only [hptResponse, hslots]
  show Host.Outcome.next (whileClocked s (settle (hptResponse s))) = _
  rw [he, settle_calm hs, whileClocked, ite_self]

/-- Byte enables that a register block does not permit (R49). -/
theorem beAllowed_eq_false {off : Nat} {be : BitVec 8} (h : off < 0x600000) (h0 : be ≠ 0) (hl : be ≠ 0x0F) (hh : be ≠ 0xF0)
    (hf : be ≠ 0xFF) : beAllowed off be.toNat = false := by
  have hne : ∀ c : BitVec 8, be ≠ c → be.toNat ≠ c.toNat := fun c hc e => hc (BitVec.eq_of_toNat_eq e)
  have h0 := hne _ h0
  have hl := hne _ hl
  have hh := hne _ hh
  have hf := hne _ hf
  simp only [beAllowed, Bool.or_eq_false_iff, decide_eq_false_iff_not, beq_eq_false_iff_ne]
  exact ⟨⟨⟨⟨by omega, h0⟩, hl⟩, hh⟩, hf⟩

/-- Settles O14: a request is refused, waits, fails, or is acted on, and each way says what it leaves. -/
theorem hostPort : Obligations.HostPort := by
  intro s wr a be d tid hc hs off row r full x o answered fails
  have hfails : ∀ cause, s.hpt.awake = true → s.hpt.slots.length < 16 → s.hptBehind r = false → cause < 16 →
      hptAct false false r s = (hptError cause r s, (0, true)) → fails cause := by
    intro cause hawake hlen hb hcause hact
    obtain ⟨u, hexec, hr⟩ := exec_hptRequest_fails wr a be d tid hc hawake hlen hs hb hcause hact
    exact ⟨_, hexec, u, State.hptAnswered_of (by rw [hr.rest]) _ _, rfl, hr.rest, hr.regs, hr.valid, hr.first, hr.later⟩
  refine ⟨fun h => exec_hptRequest_refused wr a be d tid hs (h.imp_left fun e => Nat.le_of_eq e.symm), fun hawake hlen => ?_⟩
  refine ⟨exec_hptRequest_behind wr a be d tid hc hawake hlen hs, fun hb hoff => ?_, fun hb hoff h0 hl hh hf => ?_,
    fun hb hin h0 => ?_, fun hm hin h0 hb => ⟨fun hw hi => ?_, fun hw hp hf => ?_, fun hw hp => ?_⟩,
    fun h v e rest hslots hwait => exec_hptResponse_ready hc hs hawake hslots hwait,
    fun r rest hslots => exec_hptResponse_waiting hs hslots⟩
  · exact hfails 1 hawake hlen hb (by decide) (hptAct_absent _ _ r s hoff)
  · refine hfails 3 hawake hlen hb (by decide) (hptAct_refused _ _ r s ?_ (beAllowed_eq_false hoff h0 hl hh hf))
    exact decide_eq_false (p := 0x800000 + spmSize s.build ≤ off) (by omega)
  all_goals have hin' : hptAbsent s.build off = false := decide_eq_false (by omega)
  · cases wr
    · have hact := hptAct_read_none false false r s hin' (by simp [r, h0]) rfl
      exact ⟨_, exec_hptRequest_acts false a be d tid hc hawake hlen hb hact hc hs, fun h => absurd h (by simp), fun _ => ⟨_, rfl⟩⟩
    · have hact := hptAct_write_none false false r s hin' (by simp [r, h0]) rfl
      exact ⟨_, exec_hptRequest_acts true a be d tid hc hawake hlen hb hact hc hs, fun _ => rfl, fun h => absurd h (by simp)⟩
  · subst hw
    obtain ⟨u, hexec, hu⟩ := exec_hptRequest_write a be d tid hc hawake hlen hs hb hm hin' h0 hi
    refine ⟨_, hexec, fun k hk => hu.read_enabled hk, fun b hout => hu.read_beside hout, hu.other, ?_, ?_, ?_⟩
    all_goals
      rw [hu.rest]
      rfl
  · subst hw hf
    refine ⟨_, exec_hptRequest_read a d tid hc hawake hlen hs hb hm hin' hp, State.hptAnswered_of ?_ _ _⟩
    exact congrArg Hpt.slots (Notes.read x o 255 s hc).hpt
  · subst hw
    obtain ⟨n, u, hexec, hn, hr⟩ := exec_hptRequest_read_pennant a be d tid hc hawake hlen hs hb hm hin' h0 hp
    refine ⟨_, hexec, ?_, hr.valid, ?_, ?_, ?_⟩
    · rw [hr.rest, hn.rest]
      rfl
    · intro hv
      obtain ⟨hcause, -, hoff⟩ := hr.first ((hn.flag F.HPT_ERR_VALID (by decide) rfl).trans hv)
      exact ⟨hcause, hoff⟩
    all_goals
      rw [hr.rest, hn.rest]
      rfl

end Machine
end Sys2Proof
end

section
/-!
PROOFS. The frame ledger (R32, R467, R469): whatever floors and requests stand, the leases of a group fit its capacity.
-/

namespace Sys2Proof.Machine

/-! ### The tables of the solver stay through a solve -/

/-- A field that BUDGET_CFG sets and a solve only reads: W, SAFE, GROUP and EN of a cabinet, CAP of a group (R466, R480). -/
def TableFld (f : FRef) : Prop :=
  (∃ c, f = F.BA_CAB_W c ∨ f = F.BA_CAB_SAFE c ∨ f = F.BA_CAB_GROUP c ∨ f = F.BA_CAB_EN c) ∨ ∃ g, g < 64 ∧ f = F.BA_GRP_CAP10 g

/-- The tables and the frame counter of `t` are those of `s`. -/
structure TablesStay (s t : State) : Prop where
  fld : ∀ f, TableFld f → t.fld f = s.fld f
  frame : t.frame = s.frame

theorem TablesStay.refl (s : State) : TablesStay s s := ⟨fun _ _ => rfl, rfl⟩

theorem TablesStay.trans {s t u : State} (h : TablesStay s t) (k : TablesStay t u) : TablesStay s u :=
  ⟨fun f hf => (k.fld f hf).trans (h.fld f hf), k.frame.trans h.frame⟩

theorem TablesStay.foldl {α : Type} (f : State → α → State) (l : List α) (hf : ∀ s, ∀ a ∈ l, TablesStay s (f s a)) (s : State) :
    TablesStay s (l.foldl f s) := by
  induction l generalizing s with
  | nil => exact .refl s
  | cons a l ih => exact .trans (hf s a (by simp)) (ih (fun s b hb => hf s b (by simp [hb])) _)

theorem TablesStay.of_rf {s t : State} (hb : t.build = s.build) (hr : t.rf = s.rf) (hf : t.frame = s.frame) : TablesStay s t :=
  ⟨fun f _ => by unfold State.fld; rw [State.reg_congr s t hb hr], hf⟩

/-- A write beside every field of the tables. -/
theorem TablesStay.setFld (s : State) (f : FRef) (v : Nat)
    (h : ∀ g, TableFld g → g.off ≠ f.off ∨ g.lo + g.w ≤ f.lo ∨ f.lo + f.w ≤ g.lo) : TablesStay s (s.setFld f v) := by
  refine ⟨fun g hg => State.fld_setFld_other s f g v ?_ (h g hg), rfl⟩
  obtain ⟨c, rfl | rfl | rfl | rfl⟩ | ⟨k, -, rfl⟩ := hg <;> simp only <;> omega

/-- The fields in which a solve reports on a cabinet lie beside the tables. -/
theorem TableFld.beside_cab {g : FRef} (hg : TableFld g) {f : FRef} {c : Nat} (hf : f = F.BA_CAB_REC c ∨ f = F.BA_CAB_USED c ∨ f = F.BA_CAB_REJ c) :
    g.off ≠ f.off ∨ g.lo + g.w ≤ f.lo ∨ f.lo + f.w ≤ g.lo := by
  obtain ⟨d, rfl | rfl | rfl | rfl⟩ | ⟨k, hk, rfl⟩ := hg <;> rcases hf with rfl | rfl | rfl <;> simp only <;> omega

/-- Those in which it reports on a group. -/
theorem TableFld.beside_grp {g : FRef} (hg : TableFld g) {f : FRef} {n : Nat} (hn : n < 64) (hf : f = F.BA_GRP_OVC n ∨ f = F.BA_GRP_LAMBDA n) :
    g.off ≠ f.off ∨ g.lo + g.w ≤ f.lo ∨ f.lo + f.w ≤ g.lo := by
  obtain ⟨d, rfl | rfl | rfl | rfl⟩ | ⟨k, hk, rfl⟩ := hg <;> rcases hf with rfl | rfl <;> simp only <;> omega

/-- Those of BA_SOLV. -/
theorem TableFld.beside_solv {g : FRef} (hg : TableFld g) : g.off ≠ 0x301000 := by
  obtain ⟨d, rfl | rfl | rfl | rfl⟩ | ⟨k, hk, rfl⟩ := hg <;> simp only <;> omega

theorem State.ledger_of {s t : State} (h : TablesStay s t) : t.ledger = s.ledger := by
  unfold State.ledger State.flag
  simp only [h.fld _ (.inl ⟨_, .inr (.inr (.inr rfl))⟩)]

/-- The cabinets of the ledger in group g. -/
def State.members (s : State) (g : Nat) : List Nat := s.ledger.filter fun c => s.fld (F.BA_CAB_GROUP c) == g

theorem State.members_of {s t : State} (h : TablesStay s t) (g : Nat) : t.members g = s.members g := by
  unfold State.members
  simp only [State.ledger_of h, h.fld _ (.inl ⟨_, .inr (.inr (.inl rfl))⟩)]

/-! ### One group -/

theorem groupTotal_largestFit_le (l : List (Nat × Nat × Nat × Nat)) (cap : Nat) (h : groupTotal l 0 ≤ cap) :
    groupTotal l (largestFit l cap) ≤ cap := by
  unfold largestFit
  generalize List.range 16 = ks
  generalize 0 = lam at h
  induction ks generalizing lam with
  | nil => exact h
  | cons k ks ih =>
    rw [List.foldl_cons]
    split
    · rename_i hk
      exact ih _ hk
    · exact ih _ h

/-- The lease that a solve of group g in `s` gives cabinet c (R467, R469). -/
def State.leaseOf (s : State) (g c : Nat) : Nat :=
  let cap := s.fld (F.BA_GRP_CAP10 g) * 65536
  let ovc := decide (cap < groupTotal (s.groupOf g) 0)
  if ovc then s.fld (F.BA_CAB_SAFE c)
  else max (s.floorOf c) (min (figure s.ba.reports c) (if ovc then 0 else largestFit (s.groupOf g) cap))

theorem solveGroup_leases (g : Nat) (s : State) : (solveGroup g s).2 = (s.members g).map fun c => (c, s.leaseOf g c) := by
  simp only [solveGroup, State.leaseOf]
  generalize decide (s.fld (F.BA_GRP_CAP10 g) * 65536 < groupTotal (s.groupOf g) 0) = ovc
  simp only [State.groupOf, State.members, List.map_map, Function.comp_def]

theorem solveGroup_tablesStay {g : Nat} (hg : g < 64) (s : State) : TablesStay s (solveGroup g s).1 :=
  .trans (.foldl _ _ (fun t _ _ => .setFld t _ _ fun _ hf => hf.beside_cab (.inl rfl)) s)
    (.trans (.setFld _ _ _ fun _ hf => hf.beside_grp hg (.inl rfl)) (.setFld _ _ _ fun _ hf => hf.beside_grp hg (.inr rfl)))

theorem groupTotal_groupOf (s : State) (g lam : Nat) : groupTotal (s.groupOf g) lam
    = ((s.members g).map fun c => s.fld (F.BA_CAB_W c) * max (s.floorOf c) (min (figure s.ba.reports c) lam)).sum := by
  simp only [groupTotal, State.groupOf, State.members, List.map_map, Function.comp_def]

/-- The weighted leases of a group fit its capacity: by the level found where the floors fit, else because the safe leases do. -/
theorem State.leaseOf_fits (s : State) (g : Nat)
    (hfit : ((s.members g).map fun c => s.fld (F.BA_CAB_W c) * s.fld (F.BA_CAB_SAFE c)).sum ≤ s.fld (F.BA_GRP_CAP10 g) * 65536) :
    ((s.members g).map fun c => s.fld (F.BA_CAB_W c) * s.leaseOf g c).sum ≤ s.fld (F.BA_GRP_CAP10 g) * 65536 := by
  by_cases hovc : s.fld (F.BA_GRP_CAP10 g) * 65536 < groupTotal (s.groupOf g) 0
  · simpa only [State.leaseOf, hovc, decide_true, if_true] using hfit
  · have hle := groupTotal_largestFit_le _ _ (Nat.le_of_not_lt hovc)
    rw [groupTotal_groupOf] at hle
    simpa only [State.leaseOf, hovc, decide_false, Bool.false_eq_true, if_false] using hle

/-! ### All groups -/

/-- Leases `l` have been given in the groups `done`: each member has one, they fit the capacities, and no other cabinet has one. -/
structure LeasesFit (s : State) (done : List Nat) (l : List (Nat × Nat)) : Prop where
  fits : ∀ g ∈ done, ∃ lease : Nat → Nat, (l.filter fun e => s.fld (F.BA_CAB_GROUP e.1) == g) = (s.members g).map (fun c => (c, lease c))
    ∧ ((s.members g).map fun c => s.fld (F.BA_CAB_W c) * lease c).sum ≤ s.fld (F.BA_GRP_CAP10 g) * 65536
  only : ∀ e ∈ l, s.fld (F.BA_CAB_GROUP e.1) ∈ done

theorem State.group_of_mem_members {s : State} {g c : Nat} (h : c ∈ s.members g) : s.fld (F.BA_CAB_GROUP c) = g :=
  beq_iff_eq.mp (List.mem_filter.mp h).2

theorem LeasesFit.append {s : State} {done : List Nat} {l : List (Nat × Nat)} (h : LeasesFit s done l) {g : Nat} (hg : g ∉ done)
    (lease : Nat → Nat)
    (hfit : ((s.members g).map fun c => s.fld (F.BA_CAB_W c) * lease c).sum ≤ s.fld (F.BA_GRP_CAP10 g) * 65536) :
    LeasesFit s (done ++ [g]) (l ++ (s.members g).map fun c => (c, lease c)) := by
  refine ⟨fun k hk => ?_, fun e he => ?_⟩
  · rw [List.filter_append]
    rcases List.mem_append.mp hk with hk | hk
    · obtain ⟨old, hold, hsum⟩ := h.fits k hk
      refine ⟨old, ?_, hsum⟩
      rw [hold, List.filter_eq_nil_iff.mpr, List.append_nil]
      intro e he
      obtain ⟨c, hc, rfl⟩ := List.mem_map.mp he
      rw [State.group_of_mem_members hc, beq_iff_eq]
      exact fun e => hg (e ▸ hk)
    · obtain rfl := List.mem_singleton.mp hk
      refine ⟨lease, ?_, hfit⟩
      rw [List.filter_eq_nil_iff.mpr, List.nil_append, List.filter_eq_self.mpr]
      · intro e he
        obtain ⟨c, hc, rfl⟩ := List.mem_map.mp he
        exact beq_iff_eq.mpr (State.group_of_mem_members hc)
      · intro e he heq
        exact hg (beq_iff_eq.mp heq ▸ h.only e he)
  · rcases List.mem_append.mp he with he | he
    · exact List.mem_append_left _ (h.only e he)
    · obtain ⟨c, hc, rfl⟩ := List.mem_map.mp he
      rw [State.group_of_mem_members hc]
      simp

/-- The groups are solved in turn. -/
def solveGroups (n : Nat) (s : State) : State × List (Nat × Nat) :=
  (List.range n).foldl (fun (acc : State × List (Nat × Nat)) g => ((solveGroup g acc.1).1, acc.2 ++ (solveGroup g acc.1).2)) (s, [])

theorem State.safe_fits {s : State} (h : s.groupsFit = true) {g : Nat} (hg : g < 64) :
    ((s.members g).map fun c => s.fld (F.BA_CAB_W c) * s.fld (F.BA_CAB_SAFE c)).sum ≤ s.fld (F.BA_GRP_CAP10 g) * 65536 :=
  of_decide_eq_true (List.all_eq_true.mp h g (List.mem_range.mpr hg))

theorem State.leaseOf_fits_of {s t : State} (h : TablesStay s t) {g : Nat} (hg : g < 64) (hfit : s.groupsFit = true) :
    ((s.members g).map fun c => s.fld (F.BA_CAB_W c) * t.leaseOf g c).sum ≤ s.fld (F.BA_GRP_CAP10 g) * 65536 := by
  have hW : ∀ c, t.fld (F.BA_CAB_W c) = s.fld (F.BA_CAB_W c) := fun c => h.fld _ (.inl ⟨c, .inl rfl⟩)
  have hS : ∀ c, t.fld (F.BA_CAB_SAFE c) = s.fld (F.BA_CAB_SAFE c) := fun c => h.fld _ (.inl ⟨c, .inr (.inl rfl)⟩)
  have hC : t.fld (F.BA_GRP_CAP10 g) = s.fld (F.BA_GRP_CAP10 g) := h.fld _ (.inr ⟨g, hg, rfl⟩)
  have ht := t.leaseOf_fits g
  simp only [State.members_of h, hW, hS, hC] at ht
  exact ht (State.safe_fits hfit hg)

theorem solveGroups_fit {s u : State} (hu : TablesStay s u) (hfit : s.groupsFit = true) (n : Nat) (hn : n ≤ 64) :
    TablesStay s (solveGroups n u).1 ∧ LeasesFit s (List.range n) (solveGroups n u).2 := by
  induction n with
  | zero => exact ⟨hu, by simp, by simp [solveGroups]⟩
  | succ n ih =>
    obtain ⟨hstay, hl⟩ := ih (by omega)
    have hstep : solveGroups (n + 1) u
        = ((solveGroup n (solveGroups n u).1).1, (solveGroups n u).2 ++ (solveGroup n (solveGroups n u).1).2) := by
      simp only [solveGroups, List.range_succ, List.foldl_append, List.foldl_cons, List.foldl_nil]
    rw [hstep, List.range_succ, solveGroup_leases, State.members_of hstay]
    have hg : n < 64 := by omega
    exact ⟨hstay.trans (solveGroup_tablesStay hg (solveGroups n u).1),
      hl.append (by simp) _ (State.leaseOf_fits_of hstay hg hfit)⟩

/-! ### What the leases say -/

theorem figure_filter (l : List (Nat × Nat)) (p : Nat → Bool) (c : Nat) (h : p c = true) :
    figure (l.filter fun e => p e.1) c = figure l c := by
  unfold figure
  rw [List.find?_filter]
  congr 3
  funext e
  by_cases he : e.1 = c
  · simp [he, h]
  · simp [he]

theorem figure_map (l : List Nat) (f : Nat → Nat) (c : Nat) (h : c ∈ l) : figure (l.map fun x => (x, f x)) c = f c := by
  induction l with
  | nil => cases h
  | cons x l ih =>
    by_cases hx : x = c
    · simp [figure, hx]
    · have := ih ((List.mem_cons.mp h).resolve_left (Ne.symm hx))
      simpa [figure, hx] using this

theorem LeasesFit.figure_sum_le {s : State} {done : List Nat} {l : List (Nat × Nat)} (h : LeasesFit s done l) {g : Nat} (hg : g ∈ done) :
    ((s.members g).map fun c => s.fld (F.BA_CAB_W c) * figure l c).sum ≤ s.fld (F.BA_GRP_CAP10 g) * 65536 := by
  obtain ⟨lease, hl, hsum⟩ := h.fits g hg
  rw [List.map_congr_left (g := fun c => s.fld (F.BA_CAB_W c) * lease c)]
  · exact hsum
  · intro c hc
    have hgrp := beq_iff_eq.mpr (State.group_of_mem_members hc)
    rw [← figure_filter l (fun c => s.fld (F.BA_CAB_GROUP c) == g) c hgrp, hl, figure_map _ _ _ hc]

theorem State.group_lt (s : State) (c : Nat) : s.fld (F.BA_CAB_GROUP c) < 64 := Nat.mod_lt _ (Nat.two_pow_pos 6)

theorem LeasesFit.exists_lease {s : State} {l : List (Nat × Nat)} (h : LeasesFit s (List.range 64) l) {c : Nat} (hc : c ∈ s.ledger) :
    ∃ v, (c, v) ∈ l := by
  obtain ⟨lease, hl, -⟩ := h.fits _ (List.mem_range.mpr (s.group_lt c))
  have hmem : (c, lease c) ∈ (s.members (s.fld (F.BA_CAB_GROUP c))).map fun c => (c, lease c) :=
    List.mem_map.mpr ⟨c, List.mem_filter.mpr ⟨hc, beq_self_eq_true _⟩, rfl⟩
  rw [← hl] at hmem
  exact ⟨lease c, (List.mem_filter.mp hmem).1⟩

/-! ### The solve -/

theorem markReports_tablesStay (s : State) : TablesStay s (markReports s) := by
  refine .foldl _ _ (fun t c _ => ?_) s
  extract_lets used rej t1
  have h1 : TablesStay t t1 := by
    unfold t1
    split
    · exact .refl t
    · exact .setFld t _ _ fun _ hf => hf.beside_cab (.inr (.inl rfl))
  split
  · exact h1
  · exact h1.trans (.setFld _ _ _ fun _ hf => hf.beside_cab (.inr (.inr rfl)))

/-- A source of the arbiter is raised: of the arbiter's state only the record of what was raised changes. -/
theorem baRaise_ba (src : Nat) (s : State) : (baRaise src s).ba = { s.ba with raised := (baRaise src s).ba.raised } := by
  unfold baRaise
  split
  · rfl
  · rw [(Reports.raise _ src).rest]

/-- SLDIFF counts: of the arbiter's state only that it has counted changes. -/
theorem countSlDiff_ba (s : State) : (countSlDiff s).ba = { s.ba with slCounted := (countSlDiff s).ba.slCounted } := by
  unfold countSlDiff
  split
  · split <;> rfl
  · rfl

/-- The end of a solve that leads to the state and the leases `r`: OVC of the ledger, the leases kept as the solver's own, the report
set emptied, source 84, SLDIFF (R467, R484, R485). -/
def closeSolve (r : State × List (Nat × Nat)) : State :=
  let ovc := (List.range 64).any fun g => r.1.flag (F.BA_GRP_OVC g)
  let s2 := r.1.setFlag F.BA_SOLV_OVC ovc
  let s3 := { s2 with ba := { s2.ba with own := some (s2.next, r.2), reports := [], rejs := [] } }
  countSlDiff (if ovc then baRaise 84 s3 else s3)

theorem closeSolve_own (r : State × List (Nat × Nat)) :
    (closeSolve r).ba.reports = [] ∧ (closeSolve r).ba.own = some (r.1.frame + 1, r.2) := by
  unfold closeSolve
  extract_lets ovc s2 s3
  rw [countSlDiff_ba]
  split
  · rw [baRaise_ba]
    exact ⟨rfl, rfl⟩
  · exact ⟨rfl, rfl⟩

theorem applyPending_nil (solver : Bool) {s : State} (h : s.ba.pend = []) : applyPending solver s = s := by
  unfold applyPending
  rw [h]
  show { s with ba := { s.ba with pend := [] } } = s
  rw [← h]

/-- A solve at its cut, no form of BUDGET_CFG waiting. -/
theorem ledgerSolve_eq {s : State} {now : Nat} (hc : s.cclkOn = true) (hh : s.hoists = true) (hsolves : s.solves = true)
    (hown : s.ba.own.map (·.1) ≠ some (s.frame + 1)) (hrep : s.ba.reported = some (s.frame + 1)) (hpend : s.ba.pend = []) :
    ledgerSolve now s = closeSolve (solveGroups 64 (markReports (s.atTime now))) := by
  have hs : (s.atTime now).solves = true := hsolves
  unfold ledgerSolve
  rw [if_neg (by simp [hh, hc, State.next, hown, hrep]), applyPending_nil true (s := s.atTime now) hpend, if_neg (by simp [hs])]
  extract_lets s1 r
  have hr : r = solveGroups 64 s1 := rfl
  clear_value r
  exact congrArg closeSolve hr

/-- Settles O45: each group's leases fit when it is solved, and a cabinet's lease is that of its own group. -/
theorem ledgerNeverOvercommits : Obligations.LedgerNeverOvercommits := by
  intro s now hlive hh hsolves hown hrep hpend hfit
  have hstay : TablesStay s (markReports (s.atTime now)) :=
    .trans (.of_rf rfl rfl rfl : TablesStay s (s.atTime now)) (markReports_tablesStay (s.atTime now))
  have hexec : exec (.ledgerSolve now) s = .next (whileLive s (ledgerSolve now s)) := rfl
  obtain ⟨hsolved, hl⟩ := solveGroups_fit hstay hfit 64 (Nat.le_refl _)
  have hrun := ledgerSolve_eq (now := now) (State.live_clocked hlive) hh hsolves hown hrep hpend
  generalize solveGroups 64 (markReports (s.atTime now)) = r at hsolved hl hrun
  obtain ⟨hreports, hleases⟩ := closeSolve_own r
  rw [hsolved.frame] at hleases
  rw [whileLive_on hlive, hrun] at hexec
  exact ⟨closeSolve r, hexec, hreports, r.2, hleases,
    fun c hc => hl.exists_lease hc, fun g hg => hl.figure_sum_le (g := g) (List.mem_range.mpr hg)⟩

end Sys2Proof.Machine
end

section
/-!
PROOFS. Frames that the engine sends of its own: what joins the egress queues, and all that a sending changes (R490, R503, R514, R517).
-/

namespace Sys2Proof.Machine

theorem State.rport_setRport (s : State) {n m : Nat} (p : RingPort) (hn : n < 2) (hm : m < 2) :
    (s.setRport n p).rport m = if m = n then p else s.rport m := by
  interval_cases n <;> interval_cases m <;> rfl

/-- Frames have joined the egress queues, `q n` at port n, and nothing else has changed beside the ports. -/
structure Queued (q : Nat → List RFrame) (s t : State) : Prop where
  rest : t = { s with ring := { s.ring with p0 := t.ring.p0, p1 := t.ring.p1 } }
  queue : ∀ n, n < 2 → (t.rport n).queue = (s.rport n).queue ++ q n

theorem Queued.refl (s : State) : Queued (fun _ => []) s s := ⟨rfl, fun _ _ => (List.append_nil _).symm⟩

theorem Queued.trans {q r : Nat → List RFrame} {s t u : State} (h : Queued q s t) (k : Queued r t u) :
    Queued (fun n => q n ++ r n) s u := by
  refine ⟨?_, fun n hn => by rw [k.queue n hn, h.queue n hn, List.append_assoc]⟩
  have h1 := h.rest
  have k1 := k.rest
  rw [h1] at k1
  exact k1

/-- A frame of the engine's own joins the queue of a port that is up (R503). -/
theorem Queued.enqueue (s : State) {p : Nat} (hp : p < 2) (f : RFrame) :
    Queued (fun n => if n = p ∧ s.portUp p = true then [f] else []) s (s.enqueue p f) := by
  unfold State.enqueue
  by_cases hup : s.portUp p = true
  · rw [if_pos hup]
    refine ⟨?_, fun n hn => ?_⟩
    · interval_cases p <;> rfl
    · unfold State.pushFrame
      rw [State.rport_setRport s _ hp hn]
      by_cases hnp : n = p
      · simp [hnp, hup]
      · simp [hnp]
  · rw [if_neg hup]
    refine ⟨rfl, fun n _ => ?_⟩
    simp [hup]

theorem Queued.portUp {q : Nat → List RFrame} {s t : State} (h : Queued q s t) (n : Nat) : t.portUp n = s.portUp n := by
  rw [h.rest]
  rfl

/-- One more frame of the engine's own, whatever has been queued since `s`. -/
theorem Queued.then_enqueue {q : Nat → List RFrame} {s t : State} (h : Queued q s t) {p : Nat} (hp : p < 2) (f : RFrame) :
    Queued (fun n => q n ++ if n = p ∧ s.portUp p = true then [f] else []) s (t.enqueue p f) := by
  rw [← h.portUp p]
  exact h.trans (.enqueue t hp f)

/-! ### Sync (R514) -/

theorem sendSync_eq {s : State} {c : Nat} (hc : s.cabId = some c) (dom port : Nat) : sendSync dom port s
    = if s.timeCapable port = true then s.enqueue port ⟨1, false, syncBytes c dom port s.tsu.syncSeq, false⟩ else s := by
  unfold sendSync
  rw [hc]
  cases s.timeCapable port <;> rfl

/-- A Sync of a domain joins the queue of a port that is up and fit for time. -/
theorem Queued.then_sync {q : Nat → List RFrame} {s t : State} (h : Queued q s t) {c : Nat} (hc : s.cabId = some c) (dom : Nat) {p : Nat}
    (hp : p < 2) : Queued (fun n => q n ++ if n = p ∧ s.portUp p = true ∧ s.timeCapable p = true then
      [⟨1, false, syncBytes c dom p s.tsu.syncSeq, false⟩] else []) s (sendSync dom p t) := by
  have hct : t.cabId = some c := by rw [h.rest]; exact hc
  have hcap : t.timeCapable p = s.timeCapable p := by rw [h.rest]; rfl
  have htsu : t.tsu = s.tsu := by rw [h.rest]
  rw [sendSync_eq hct, hcap, htsu]
  by_cases hp1 : s.timeCapable p = true
  · simpa [hp1] using h.then_enqueue hp ⟨1, false, syncBytes c dom p s.tsu.syncSeq, false⟩
  · simpa [hp1] using h

/-- The state in which the next Sync of each domain goes out. -/
def State.nextSync (s : State) : State := { s with tsu := { s.tsu with syncSeq := (s.tsu.syncSeq + 1) % 65536 } }

theorem syncSend_queued {s : State} {c : Nat} (hg : s.gmSends = true) (hc : s.cabId = some c) :
    Queued (fun n => if s.portUp n = true ∧ s.timeCapable n = true then
      [⟨1, false, syncBytes c 0 n ((s.tsu.syncSeq + 1) % 65536), false⟩,
        ⟨1, false, syncBytes c 1 n ((s.tsu.syncSeq + 1) % 65536), false⟩] else []) s.nextSync (syncSend s) := by
  have hsend : syncSend s = sendSync 1 1 (sendSync 1 0 (sendSync 0 1 (sendSync 0 0 s.nextSync))) := by
    unfold syncSend
    rw [if_neg (by simp [hg])]
    rfl
  rw [hsend]
  have hq := ((((Queued.refl s.nextSync).then_sync hc 0 (p := 0) (by decide)).then_sync hc 0 (p := 1) (by decide)).then_sync hc 1
    (p := 0) (by decide)).then_sync hc 1 (p := 1) (by decide)
  refine ⟨hq.rest, fun n hn => ?_⟩
  have hup : s.nextSync.portUp = s.portUp := rfl
  have hcap : s.nextSync.timeCapable = s.timeCapable := rfl
  have hseq : s.nextSync.tsu.syncSeq = (s.tsu.syncSeq + 1) % 65536 := rfl
  rw [hq.queue n hn]
  simp only [hup, hcap, hseq]
  interval_cases n
  · by_cases h : s.portUp 0 = true ∧ s.timeCapable 0 = true <;> simp [h]
  · by_cases h : s.portUp 1 = true ∧ s.timeCapable 1 = true <;> simp [h]

/-! ### Sealed frames (R242, R490) -/

theorem originate_queued {s : State} {c : Nat} (hc : s.cabId = some c) (cls da etype : Nat) (pay : List Byte) :
    Queued (fun n => if s.portUp n = true then
      [⟨cls, false, (HsrFrame.mk da (unicast c) n ((s.ring.seqNo + 1) % 65536) etype pay).bytes, false⟩] else [])
      { s with ring := { s.ring with seqNo := (s.ring.seqNo + 1) % 65536 } } (s.originate cls da etype pay) := by
  unfold State.originate
  simp only [hc, List.foldl_cons, List.foldl_nil]
  have hq := ((Queued.refl { s with ring := { s.ring with seqNo := (s.ring.seqNo + 1) % 65536 } }).then_enqueue (p := 0) (by decide)
    ⟨cls, false, (HsrFrame.mk da (unicast c) 0 ((s.ring.seqNo + 1) % 65536) etype pay).bytes, false⟩).then_enqueue (p := 1) (by decide)
    ⟨cls, false, (HsrFrame.mk da (unicast c) 1 ((s.ring.seqNo + 1) % 65536) etype pay).bytes, false⟩
  refine ⟨hq.rest, fun n hn => ?_⟩
  rw [hq.queue n hn]
  have hup : ∀ m, State.portUp { s with ring := { s.ring with seqNo := (s.ring.seqNo + 1) % 65536 } } m = s.portUp m := fun _ => rfl
  simp only [hup]
  interval_cases n
  · by_cases h : s.portUp 0 = true <;> simp [h]
  · by_cases h : s.portUp 1 = true <;> simp [h]

/-- What sending may change: the counters of frames and keys, the ports. -/
structure Transmits (s t : State) : Prop where
  rest : t = { s with
    keys := t.keys, tsu := { s.tsu with syncSeq := t.tsu.syncSeq }
    ring := { s.ring with seqNo := t.ring.seqNo, p0 := t.ring.p0, p1 := t.ring.p1 } }

theorem Transmits.refl (s : State) : Transmits s s := ⟨rfl⟩

theorem Transmits.trans {s t u : State} (h : Transmits s t) (k : Transmits t u) : Transmits s u := by
  refine ⟨?_⟩
  have h1 := h.rest
  have k1 := k.rest
  rw [h1] at k1
  exact k1

theorem Transmits.of_queued {q : Nat → List RFrame} {s t : State} (h : Queued q s t) : Transmits s t := by
  refine ⟨?_⟩
  have h1 := h.rest
  rw [h1]

theorem Transmits.sendSync (dom : Nat) {port : Nat} (hp : port < 2) (s : State) : Transmits s (sendSync dom port s) := by
  unfold Machine.sendSync
  split
  · exact .refl s
  · exact .refl s
  · exact .of_queued (.enqueue s hp _)

theorem Transmits.syncSend (s : State) : Transmits s (syncSend s) := by
  unfold Machine.syncSend
  split
  · exact .refl s
  · have h0 : Transmits s s.nextSync := ⟨rfl⟩
    exact h0.trans (.trans (.sendSync 0 (by decide) _) (.trans (.sendSync 0 (by decide) _)
      (.trans (.sendSync 1 (by decide) _) (.sendSync 1 (by decide) _))))

/-- A sealed frame under an entry, with the COUNTER drawn for it, joins both queues. -/
theorem sendSealed_queued {s : State} {c : Nat} (hc : s.cabId = some c) (cls da kind mslot : Nat) (e : KeyEntry) (xid : Nat)
    (body : List Byte) (enc : Bool) : ∃ ctr keys,
    Queued (fun n => if s.portUp n = true then [⟨cls, false, (HsrFrame.mk da (unicast c) n ((s.ring.seqNo + 1) % 65536) 0x88B6
        (sealMgmt kind mslot e c xid ctr body enc)).bytes, false⟩] else [])
      { s with keys := keys, ring := { s.ring with seqNo := (s.ring.seqNo + 1) % 65536 } }
      (s.sendSealed cls da kind mslot e xid body enc) := by
  refine ⟨(s.drawCounter (1024 + mslot) e.keyid).2, (s.drawCounter (1024 + mslot) e.keyid).1.keys, ?_⟩
  have hsend : s.sendSealed cls da kind mslot e xid body enc
      = (s.drawCounter (1024 + mslot) e.keyid).1.originate cls da 0x88B6
        (sealMgmt kind mslot e c xid (s.drawCounter (1024 + mslot) e.keyid).2 body enc) := by
    unfold State.sendSealed
    rw [hc]
  rw [hsend]
  exact originate_queued (s := (s.drawCounter (1024 + mslot) e.keyid).1) hc cls da 0x88B6 _

theorem Transmits.sendSealed (s : State) (cls da kind mslot : Nat) (e : KeyEntry) (xid : Nat) (body : List Byte) (enc : Bool) :
    Transmits s (s.sendSealed cls da kind mslot e xid body enc) := by
  match hc : s.cabId with
  | none =>
    have hsend : s.sendSealed cls da kind mslot e xid body enc = s := by
      unfold State.sendSealed
      rw [hc]
    rw [hsend]
    exact .refl s
  | some c =>
    obtain ⟨ctr, keys, hq⟩ := sendSealed_queued hc cls da kind mslot e xid body enc
    exact .trans ⟨rfl⟩ (.of_queued hq)

theorem Transmits.sendSched (gm : Nat) (acting : Bool) (s : State) : Transmits s (sendSched gm acting s) := by
  unfold Machine.sendSched
  split
  · exact .refl s
  · split
    · exact .sendSealed s _ _ _ _ _ _ _ _
    · exact .refl s

theorem Transmits.scheduleFrameSend (s : State) : Transmits s (scheduleFrameSend s) := by
  unfold Machine.scheduleFrameSend
  split
  · exact .sendSched _ _ s
  · exact .refl s

theorem Transmits.rf {s t : State} (h : Transmits s t) : t.rf = s.rf := by rw [h.rest]

theorem Transmits.reg {s t : State} (h : Transmits s t) (off : Nat) : t.reg off = s.reg off := State.reg_congr s t (by rw [h.rest]) h.rf off

theorem Transmits.fld {s t : State} (h : Transmits s t) (f : FRef) : t.fld f = s.fld f := by
  unfold State.fld
  rw [h.reg]

theorem Transmits.flag {s t : State} (h : Transmits s t) (f : FRef) : t.flag f = s.flag f := by
  unfold State.flag
  rw [h.fld]

end Sys2Proof.Machine
end

section
/-!
PROOFS. Wall time: link delays, followers, schedules (R513 to R519).
-/

namespace Sys2Proof.Machine

/-! ### Fields and raisings -/

/-- Fields that share no bit. -/
abbrev FRef.Apart (g f : FRef) : Prop := g.off ≠ f.off ∨ g.lo + g.w ≤ f.lo ∨ f.lo + f.w ≤ g.lo

/-- The count of a source after it has been raised once (R539). -/
theorem State.fld_raise {s : State} {k : Nat} (hc : s.cclkOn = true) (h32 : 32 ≤ k) (hr : reservedSource k = false) :
    (s.raise k).fld (F.DIC_SRC_COUNT k) = min 15 (s.fld (F.DIC_SRC_COUNT k) + 1) := by
  rw [State.raise_eq s k hc h32 hr, State.fld_setFld _ _ _ (by decide : 0 + 4 ≤ 64)]
  simp only [satAdd]
  split <;> omega

theorem State.fld_raise_other {s : State} {k : Nat} (hc : s.cclkOn = true) (h32 : 32 ≤ k) (hr : reservedSource k = false) {g : FRef}
    (hg : g.lo + g.w ≤ 64) (ha : g.Apart (F.DIC_SRC_COUNT k)) : (s.raise k).fld g = s.fld g := by
  rw [State.raise_eq s k hc h32 hr]
  exact State.fld_setFld_other s _ g _ hg ha

/-- A command of the CCLK domain runs while CCLK does. -/
theorem Runs.of_clocked {i : Instr} {s t : State} {P : State → Prop} (he : exec i s = .next (whileClocked s t)) (hc : s.cclkOn = true)
    (hp : P t) : Runs i s P :=
  ⟨t, he.trans (congrArg Host.Outcome.next (whileClocked_on hc t)), hp⟩

theorem Inert.of_clocked {i : Instr} {s t : State} (he : exec i s = .next (whileClocked s t)) (ht : t = s) : Inert i s := by
  rw [Inert, he, ht, whileClocked, ite_self]

/-! ### What the grandmaster sends (R514, R515, R517) -/

theorem scheduleFrameSend_queued {s : State} {c : Nat} {e : KeyEntry} (hg : s.gmSends = true) (hc : s.cabId = some c)
    (hh : s.hoists = true) (he : s.txEntry (s.fld F.RING_ID_MSLOT) [13] = some e) : ∃ ctr keys,
    Queued (fun n => if s.portUp n = true then
      [⟨1, false, (HsrFrame.mk daEvery (unicast c) n ((s.ring.seqNo + 1) % 65536) 0x88B6 (sealMgmt 0x20 (s.fld F.RING_ID_MSLOT) e c 0 ctr
        (schedBody c s.lastSched (s.flag F.TSU_STAT_ACTING)) false)).bytes, false⟩] else [])
      { s with keys := keys, ring := { s.ring with seqNo := (s.ring.seqNo + 1) % 65536 } } (scheduleFrameSend s) := by
  have hsend : scheduleFrameSend s = s.sendSealed 1 daEvery 0x20 (s.fld F.RING_ID_MSLOT) e 0
      (schedBody c s.lastSched (s.flag F.TSU_STAT_ACTING)) false := by
    unfold scheduleFrameSend sendSched
    rw [if_pos hg, he]
    simp only [hh, hc, if_true, Option.getD_some]
  rw [hsend]
  exact sendSealed_queued hc 1 daEvery 0x20 _ e 0 _ false

theorem exec_sends_inert {s : State} (hg : s.gmSends = false) : Inert .syncSend s ∧ Inert .scheduleFrameSend s :=
  ⟨.of_clocked rfl (by simp [syncSend, hg]), .of_clocked rfl (by simp [scheduleFrameSend, hg])⟩

theorem exec_syncSend_runs {s : State} {c : Nat} (hclk : s.cclkOn = true) (hg : s.gmSends = true) (hc : s.cabId = some c) :
    Runs .syncSend s fun t =>
      let seq := (s.tsu.syncSeq + 1) % 65536
      t.tsu = { s.tsu with syncSeq := seq } ∧ t.rf = s.rf ∧ ∀ n, n < 2 → (t.rport n).queue = (s.rport n).queue
        ++ (if s.portUp n = true ∧ s.timeCapable n = true then
          [⟨1, false, syncBytes c 0 n seq, false⟩, ⟨1, false, syncBytes c 1 n seq, false⟩] else []) := by
  have hq := syncSend_queued hg hc
  refine .of_clocked rfl hclk ⟨?_, ?_, hq.queue⟩
  all_goals
    rw [hq.rest]
    rfl

theorem exec_scheduleFrameSend_runs {s : State} {c : Nat} {e : KeyEntry} (hclk : s.cclkOn = true) (hg : s.gmSends = true)
    (hc : s.cabId = some c) (hh : s.hoists = true) (he : s.txEntry (s.fld F.RING_ID_MSLOT) [13] = some e) :
    Runs .scheduleFrameSend s fun t => ∃ ctr,
      let seq := (s.ring.seqNo + 1) % 65536
      let pay := sealMgmt 0x20 (s.fld F.RING_ID_MSLOT) e c 0 ctr (schedBody c s.lastSched (s.flag F.TSU_STAT_ACTING)) false
      t.rf = s.rf ∧ t.tsu = s.tsu ∧ ∀ n, n < 2 → (t.rport n).queue = (s.rport n).queue ++ (if s.portUp n = true then
        [⟨1, false, (HsrFrame.mk daEvery (unicast c) n seq 0x88B6 pay).bytes, false⟩] else []) := by
  obtain ⟨ctr, keys, hq⟩ := scheduleFrameSend_queued hg hc hh he
  refine .of_clocked rfl hclk ⟨ctr, ?_, ?_, hq.queue⟩
  all_goals rw [hq.rest]

/-! ### Link delays (R513) -/

theorem exec_pdelayExchange_inert {s : State} {n : Nat} (partner mld : Nat) (hup : s.portUp n = false) :
    Inert (.pdelayExchange n partner mld) s :=
  .of_clocked rfl (by simp [pdelayExchange, hup])

theorem exec_pdelayExchange_runs {s : State} {n partner mld : Nat} (hclk : s.cclkOn = true) (hn : n < 2) (hup : s.portUp n = true)
    (hp : partner < 2 ^ 16) (hm : mld < 2 ^ 32) : Runs (.pdelayExchange n partner mld) s fun t =>
      t = { s with rf := t.rf } ∧ t.fld (F.RING_PORT_STAT_PARTNER n) = partner ∧ t.fld (F.RING_PORT_STAT_MLD n) = mld ∧ t.portUp n = true
      ∧ ∀ off, off ≠ (F.RING_PORT_STAT_LINK n).off → t.reg off = s.reg off := by
  have hrun : pdelayExchange n partner mld s = (s.setFld (F.RING_PORT_STAT_PARTNER n) partner).setFld (F.RING_PORT_STAT_MLD n) mld := by
    unfold pdelayExchange
    rw [if_neg (by simp [hup, hn])]
  refine .of_clocked rfl hclk ?_
  rw [hrun]
  refine ⟨rfl, ?_, ?_, ?_, fun off ho => ?_⟩
  · rw [State.fld_setFld_other _ _ _ _ (by simp only; omega) (by simp only; omega), State.fld_setFld _ _ _ (by simp only; omega)]
    exact Nat.mod_eq_of_lt hp
  · rw [State.fld_setFld _ _ _ (by simp only; omega)]
    exact Nat.mod_eq_of_lt hm
  · unfold State.portUp at hup ⊢
    rw [State.flag_setFld_other _ _ _ _ (by simp only; omega) (by simp only; omega),
      State.flag_setFld_other _ _ _ _ (by simp only; omega) (by simp only; omega), hup]
  · rw [State.reg_setFld_ne _ (F.RING_PORT_STAT_MLD n) _ _ ho, State.reg_setFld_ne _ (F.RING_PORT_STAT_PARTNER n) _ _ ho]

/-! ### Fields written by the ring unit and the TSU -/

/-- The ring unit and the TSU have worked: of the registers at most the fields of `W` are written; besides them time, the frame counter,
ports, duplicate windows, marks of drops, the counters of frames and keys, the loopbacks, timers that are due, and what reports touch. -/
structure Writes (W : FRef → Prop) (s t : State) : Prop where
  rest : t = { s with
    rf := t.rf, ao := { s.ao with waking := t.ao.waking, wakeHeld := t.ao.wakeHeld }, cmds := { s.cmds with reportDue := t.cmds.reportDue }
    keys := t.keys, tmrs := t.tmrs, tmrDue := t.tmrDue, freeCtr := t.freeCtr, tsu := t.tsu, frame := t.frame
    tdu := { s.tdu with loops := t.tdu.loops, fifo := t.tdu.fifo, owed := t.tdu.owed, sinceSync := t.tdu.sinceSync }
    ring := { s.ring with
      p0 := t.ring.p0, p1 := t.ring.p1, seqNo := t.ring.seqNo, dups := t.ring.dups, polDrop := t.ring.polDrop
      authDrop := t.ring.authDrop } }
  fld : ∀ g : FRef, g.lo + g.w ≤ 64 → (∀ f, W f → g.Apart f) → t.fld g = s.fld g

section Writes
variable {W : FRef → Prop} {s t u : State}

theorem Writes.of_rf (hr : t.rf = s.rf) (h : t = { s with
    keys := t.keys, tmrDue := t.tmrDue, tsu := t.tsu, frame := t.frame, tdu := { s.tdu with loops := t.tdu.loops }
    ring := { s.ring with
      p0 := t.ring.p0, p1 := t.ring.p1, seqNo := t.ring.seqNo, dups := t.ring.dups, polDrop := t.ring.polDrop
      authDrop := t.ring.authDrop } }) : Writes W s t := by
  have hb : t.build = s.build := by rw [h]
  refine ⟨?_, fun g _ _ => by unfold State.fld; rw [State.reg_congr s t hb hr]⟩
  rw [h]

theorem Writes.refl (s : State) : Writes W s s := .of_rf rfl rfl

theorem Writes.putTsu (s : State) (x : Tsu) : Writes W s { s with tsu := x } := .of_rf rfl rfl

theorem Writes.trans (h : Writes W s t) (k : Writes W t u) : Writes W s u := by
  refine ⟨?_, fun g hg ha => (k.fld g hg ha).trans (h.fld g hg ha)⟩
  have h1 := h.rest
  have k1 := k.rest
  rw [h1] at k1
  exact k1

theorem Writes.mono {V : FRef → Prop} (h : Writes W s t) (hV : ∀ f, W f → V f) : Writes V s t :=
  ⟨h.rest, fun g hg ha => h.fld g hg fun f hf => ha f (hV f hf)⟩

theorem Writes.setFld (s : State) {f : FRef} (v : Nat) (hf : W f) : Writes W s (s.setFld f v) :=
  ⟨rfl, fun g hg ha => State.fld_setFld_other s f g v hg (ha f hf)⟩

theorem Writes.setFlag (s : State) {f : FRef} (b : Bool) (hf : W f) : Writes W s (s.setFlag f b) := .setFld s _ hf

theorem Writes.of_transmits (h : Transmits s t) : Writes W s t := by
  refine .of_rf h.rf ?_
  have h1 := h.rest
  rw [h1]

theorem Writes.of_reports (h : Reports s t) (hW : ∀ f : FRef, reportOff f.off = true → W f) : Writes W s t := by
  refine ⟨?_, fun g _ ha => ?_⟩
  · have h1 := h.rest
    rw [h1]
  by_cases hr : reportOff g.off = true
  · have hw : g.w = 0 := by
      have := ha g (hW g hr)
      omega
    simp [State.fld, getBits, bitsOf, hw, Nat.mod_one]
  · exact h.fld g (Bool.eq_false_iff.mpr hr)

theorem Writes.flag (h : Writes W s t) (g : FRef) (hg : g.lo + g.w ≤ 64) (ha : ∀ f, W f → g.Apart f) : t.flag g = s.flag g := by
  unfold State.flag
  rw [h.fld g hg ha]

theorem Writes.cclkOn (h : Writes W s t) (ha : ∀ f, W f → F.AO_MODE_MODE.Apart f) : t.cclkOn = s.cclkOn := by
  have hm : t.mode = s.mode := h.fld F.AO_MODE_MODE (by decide) ha
  unfold State.cclkOn State.inReset State.asleep
  rw [hm, h.rest]

theorem Writes.raise {k : Nat} (hc : s.cclkOn = true) (h32 : 32 ≤ k) (hr : reservedSource k = false) (hk : W (F.DIC_SRC_COUNT k)) :
    Writes W s (s.raise k) := by
  rw [State.raise_eq s k hc h32 hr]
  exact .setFld s _ hk

end Writes

theorem State.raise_tsu {s : State} {k : Nat} (hc : s.cclkOn = true) (h32 : 32 ≤ k) (hr : reservedSource k = false) :
    (s.raise k).tsu = s.tsu := by
  rw [State.raise_eq s k hc h32 hr]
  rfl

/-! ### Followers (R515, R516) -/

theorem setSync_writes {s : State} (hc : s.cclkOn = true) (b : Bool) :
    Writes (· ∈ [F.TSU_STAT_SYNC, F.DIC_SRC_COUNT 100]) s (s.setSync b) := by
  unfold State.setSync
  split
  · exact .refl s
  · exact .trans (.setFlag s _ (by decide))
      (.raise ((State.cclkOn_setFlag _ _ _ (by decide)).trans hc) (by decide) (by decide) (by decide))

theorem setSync_tsu {s : State} (hc : s.cclkOn = true) (b : Bool) : (s.setSync b).tsu = s.tsu := by
  unfold State.setSync
  split
  · rfl
  · rw [State.raise_tsu ((State.cclkOn_setFlag _ _ _ (by decide)).trans hc) (by decide) (by decide)]
    rfl

theorem flag_setSync {s : State} (hc : s.cclkOn = true) (b : Bool) : (s.setSync b).flag F.TSU_STAT_SYNC = b := by
  unfold State.setSync
  split
  · assumption
  · unfold State.flag
    rw [State.fld_raise_other ((State.cclkOn_setFlag _ _ _ (by decide)).trans hc) (by decide) (by decide) (by decide) (by decide)]
    exact State.flag_setFlag _ _ _ (by decide) (by decide)

/-- The loss of SYNC raises source 100. -/
theorem setSync_raises {s : State} (hc : s.cclkOn = true) {b : Bool} (h : s.flag F.TSU_STAT_SYNC ≠ b) :
    (s.setSync b).fld (F.DIC_SRC_COUNT 100) = min 15 (s.fld (F.DIC_SRC_COUNT 100) + 1) := by
  unfold State.setSync
  rw [if_neg h, State.fld_raise ((State.cclkOn_setFlag _ _ _ (by decide)).trans hc) (by decide) (by decide)]
  unfold State.setFlag
  rw [State.fld_setFld_other _ _ _ _ (by decide) (by decide)]

theorem exec_syncTimeout_inert {s : State} (h : s.isGm = true ∨ s.tsu.doms = [] ∧ s.flag F.TSU_STAT_SYNC = false) :
    Inert .syncTimeout s := by
  refine .of_clocked rfl ?_
  unfold syncTimeout
  rcases h with h | ⟨h1, h2⟩
  · simp [h]
  · simp [h1, h2]

/-- Three intervals without Sync: holdover (R516). -/
theorem exec_syncTimeout_runs {s : State} (hclk : s.cclkOn = true) (hgm : s.isGm = false)
    (h : s.tsu.doms ≠ [] ∨ s.flag F.TSU_STAT_SYNC = true) : Runs .syncTimeout s fun t => t.flag F.TSU_STAT_DVALID = false
      ∧ t.flag F.TSU_STAT_HOLDOVER = true ∧ t.flag F.TSU_STAT_SYNC = false ∧ t.tsu = { s.tsu with doms := [], good := 0 }
      ∧ (s.flag F.TSU_STAT_SYNC = true → t.fld (F.DIC_SRC_COUNT 100) = min 15 (s.fld (F.DIC_SRC_COUNT 100) + 1)) := by
  have hrun : syncTimeout s = ((({ s with tsu := { s.tsu with doms := [], good := 0 } }.setFlag F.TSU_STAT_DVALID false).setFlag
      F.TSU_STAT_HOLDOVER true).setSync false) := by
    unfold syncTimeout
    rw [if_neg]
    rcases h with h | h <;> simp [hgm, h]
  refine .of_clocked rfl hclk ?_
  rw [hrun]
  have hc : ((({ s with tsu := { s.tsu with doms := [], good := 0 } } : State).setFlag F.TSU_STAT_DVALID false).setFlag
      F.TSU_STAT_HOLDOVER true).cclkOn = true := by
    rw [State.cclkOn_setFlag _ _ _ (by decide), State.cclkOn_setFlag _ _ _ (by decide)]
    exact hclk
  have hw := setSync_writes hc false
  refine ⟨?_, ?_, flag_setSync hc false, setSync_tsu hc false, fun hs => ?_⟩
  · rw [hw.flag _ (by decide) (by decide), State.flag_setFlag_other _ _ _ _ (by decide) (by decide)]
    exact State.flag_setFlag _ _ _ (by decide) (by decide)
  · rw [hw.flag _ (by decide) (by decide)]
    exact State.flag_setFlag _ _ _ (by decide) (by decide)
  · rw [setSync_raises hc]
    · simp (disch := decide) only [State.setFlag, State.fld_setFld_other]
      rfl
    · simp (disch := decide) only [State.flag_setFlag_other]
      exact fun hn => absurd (hs.symm.trans hn) (by decide)

/-- A domain taken in use (R515). -/
theorem useDomain_took {s : State} {d : Nat} (hc : s.cclkOn = true) (hd : d < 2) :
    (useDomain d s).flag F.TSU_STAT_DVALID = true ∧ (useDomain d s).fld F.TSU_STAT_DOM = d
      ∧ (useDomain d s).fld (F.DIC_SRC_COUNT 100) = min 15 (s.fld (F.DIC_SRC_COUNT 100) + 1) := by
  have hc1 : ((s.setFlag F.TSU_STAT_DVALID true).setFld F.TSU_STAT_DOM d).cclkOn = true := by
    rw [State.cclkOn_setFld _ _ _ (by decide), State.cclkOn_setFlag _ _ _ (by decide), hc]
  unfold useDomain
  refine ⟨?_, ?_, ?_⟩
  · unfold State.flag
    rw [State.fld_raise_other hc1 (by decide) (by decide) (by decide) (by decide), State.fld_setFld_other _ _ _ _ (by decide) (by decide)]
    exact State.flag_setFlag _ _ _ (by decide) (by decide)
  · rw [State.fld_raise_other hc1 (by decide) (by decide) (by decide) (by decide), State.fld_setFld _ _ _ (by decide)]
    exact Nat.mod_eq_of_lt hd
  · rw [State.fld_raise hc1 (by decide) (by decide)]
    simp (disch := decide) only [State.setFlag, State.fld_setFld_other]

theorem exec_domainChoice_inert {s : State} {missed : Bool} (h : s.isGm = true ∨ s.flag F.TSU_STAT_DVALID = !missed) :
    Inert (.domainChoice missed) s := by
  refine .of_clocked rfl ?_
  unfold domainChoice
  rcases h with h | h
  · simp [h]
  · cases missed <;> simp [h]

/-- A follower without a domain takes one it hears. -/
theorem exec_domainChoice_first {s : State} {d : Nat} (hclk : s.cclkOn = true) (hgm : s.isGm = false)
    (hv : s.flag F.TSU_STAT_DVALID = false) (hd : d < 2) (hp : pickDomain s.tsu.doms = some d) :
    Runs (.domainChoice false) s fun t => t.flag F.TSU_STAT_DVALID = true ∧ t.fld F.TSU_STAT_DOM = d
      ∧ t.fld (F.DIC_SRC_COUNT 100) = min 15 (s.fld (F.DIC_SRC_COUNT 100) + 1) := by
  have hrun : domainChoice false s = useDomain d s := by
    unfold domainChoice
    simp only [hgm, hv, hp, Bool.false_eq_true, if_false]
  refine .of_clocked rfl hclk ?_
  rw [hrun]
  exact useDomain_took hclk hd

/-- A follower whose domain is lost takes the other one if it hears it. -/
theorem domainChoice_missed {s : State} (hgm : s.isGm = false) (hv : s.flag F.TSU_STAT_DVALID = true) :
    domainChoice true s = match pickDomain (s.tsu.doms.filter fun p => p.1 != s.fld F.TSU_STAT_DOM) with
      | some e => useDomain e { s with tsu := { s.tsu with doms := s.tsu.doms.filter fun p => p.1 != s.fld F.TSU_STAT_DOM } }
      | none => s := by
  unfold domainChoice
  simp only [hgm, hv, Bool.not_true, Bool.false_eq_true, if_true, if_false] <;> rfl

theorem exec_domainChoice_other {s : State} {a b : Nat} (hclk : s.cclkOn = true) (hgm : s.isGm = false)
    (hv : s.flag F.TSU_STAT_DVALID = true) (hd : s.tsu.doms = [(0, a), (1, b)]) :
    Runs (.domainChoice true) s fun t => t.flag F.TSU_STAT_DVALID = true ∧ t.fld F.TSU_STAT_DOM = 1 - s.fld F.TSU_STAT_DOM
      ∧ t.fld (F.DIC_SRC_COUNT 100) = min 15 (s.fld (F.DIC_SRC_COUNT 100) + 1) := by
  have hlt : s.fld F.TSU_STAT_DOM < 2 := Nat.mod_lt _ (Nat.two_pow_pos 1)
  have hpick : pickDomain (s.tsu.doms.filter fun p => p.1 != s.fld F.TSU_STAT_DOM) = some (1 - s.fld F.TSU_STAT_DOM) := by
    rw [hd]
    interval_cases s.fld F.TSU_STAT_DOM <;> rfl
  have hrun := domainChoice_missed hgm hv
  rw [hpick] at hrun
  refine .of_clocked rfl hclk ?_
  rw [hrun]
  exact useDomain_took (s := { s with tsu := { s.tsu with doms := s.tsu.doms.filter fun p => p.1 != s.fld F.TSU_STAT_DOM } }) hclk (by omega)

theorem exec_domainChoice_alone {s : State} {d a : Nat} (hgm : s.isGm = false) (hv : s.flag F.TSU_STAT_DVALID = true)
    (hdoms : s.tsu.doms = [(d, a)]) (hd : s.fld F.TSU_STAT_DOM = d) : Inert (.domainChoice true) s := by
  refine .of_clocked rfl ?_
  rw [domainChoice_missed hgm hv, hdoms]
  simp [hd, pickDomain]

/-! ### Schedules (R517, R518) -/

/-- The fields that a schedule coming into force writes. -/
def schedFlds : List FRef :=
  [F.TSU_SCHED0_EPOCH, F.TSU_SCHED1_PERIOD, F.TSU_SCHED1_SSEQ, F.TSU_SCHED2_LATENCY, F.TSU_SCHED2_N0, F.RING_ID_GCLTRUNC,
    F.DIC_SRC_COUNT 102, F.DIC_SRC_COUNT 104]

theorem gclCut_writes {s : State} (hc : s.cclkOn = true) : Writes (· ∈ [F.RING_ID_GCLTRUNC, F.DIC_SRC_COUNT 104]) s (gclCut s) := by
  unfold gclCut
  extract_lets cycle
  split
  · exact .trans (.setFlag s _ (by decide))
      (.raise ((State.cclkOn_setFlag _ _ _ (by decide)).trans hc) (by decide) (by decide) (by decide))
  · exact .refl s

theorem gclCut_tsu {s : State} (hc : s.cclkOn = true) : (gclCut s).tsu = s.tsu := by
  unfold gclCut
  extract_lets cycle
  split
  · rw [State.raise_tsu ((State.cclkOn_setFlag _ _ _ (by decide)).trans hc) (by decide) (by decide)]
    rfl
  · rfl

/-- The registers of a schedule that comes into force (R535). -/
def State.schedRegs (s : State) (c : Sched) : State :=
  ((((s.setFld F.TSU_SCHED0_EPOCH c.epoch).setFld F.TSU_SCHED1_PERIOD c.period).setFld F.TSU_SCHED1_SSEQ c.sseq).setFld
    F.TSU_SCHED2_LATENCY c.latency).setFld F.TSU_SCHED2_N0 (c.n0 % 2 ^ 32)

/-- The same with what the TSU keeps of the schedule beside its registers. -/
def State.schedShown (s : State) (c : Sched) : State :=
  { s.schedRegs c with tsu := { s.tsu with n0 := c.n0, suml := c.suml } }

theorem putSched_eq (c : Sched) (s : State) : putSched c s = gclCut (s.schedShown c) := rfl

theorem State.fld_schedShown (s : State) (c : Sched) {f : FRef} (hf : f.lo + f.w ≤ 64) :
    (s.schedShown c).fld f = (s.schedRegs c).fld f :=
  (Writes.putTsu (W := fun _ => False) (s.schedRegs c) _).fld f hf fun _ h => h.elim

theorem State.schedRegs_writes (s : State) (c : Sched) : Writes (· ∈ schedFlds) s (s.schedRegs c) :=
  .trans (.setFld s _ (by decide)) (.trans (.setFld _ _ (by decide)) (.trans (.setFld _ _ (by decide))
    (.trans (.setFld _ _ (by decide)) (.setFld _ _ (by decide)))))

theorem State.schedShown_writes (s : State) (c : Sched) : Writes (· ∈ schedFlds) s (s.schedShown c) :=
  .trans (s.schedRegs_writes c) (.putTsu _ _)

theorem schedFlds_mode : ∀ f ∈ schedFlds, F.AO_MODE_MODE.Apart f := by decide

theorem State.schedShown_cclkOn {s : State} (hc : s.cclkOn = true) (c : Sched) : (s.schedShown c).cclkOn = true :=
  ((s.schedShown_writes c).cclkOn schedFlds_mode).trans hc

/-- The registers show a schedule (R535). -/
structure Shows (c : Sched) (t : State) : Prop where
  epoch : t.fld F.TSU_SCHED0_EPOCH = c.epoch % 2 ^ 64
  period : t.fld F.TSU_SCHED1_PERIOD = c.period % 2 ^ 48
  sseq : t.fld F.TSU_SCHED1_SSEQ = c.sseq % 2 ^ 16
  latency : t.fld F.TSU_SCHED2_LATENCY = c.latency % 2 ^ 32
  first : t.fld F.TSU_SCHED2_N0 = c.n0 % 2 ^ 32

/-- The five fields that show it. -/
def shownFlds : List FRef :=
  [F.TSU_SCHED0_EPOCH, F.TSU_SCHED1_PERIOD, F.TSU_SCHED1_SSEQ, F.TSU_SCHED2_LATENCY, F.TSU_SCHED2_N0]

theorem Shows.congr {c : Sched} {s t : State} (h : Shows c s) (hf : ∀ f ∈ shownFlds, t.fld f = s.fld f) : Shows c t where
  epoch := (hf _ (by decide)).trans h.epoch
  period := (hf _ (by decide)).trans h.period
  sseq := (hf _ (by decide)).trans h.sseq
  latency := (hf _ (by decide)).trans h.latency
  first := (hf _ (by decide)).trans h.first

/-- A report leaves them. -/
theorem shownFlds_quiet : ∀ f ∈ shownFlds, reportOff f.off = false := by decide

theorem Shows.raise {c : Sched} {s : State} (h : Shows c s) (k : Nat) : Shows c (s.raise k) :=
  h.congr fun f hf => (Reports.raise s k).fld f (shownFlds_quiet f hf)

/-- A schedule has come into force: the registers and the TSU show it. -/
structure InForce (c : Sched) (s t : State) : Prop extends Shows c t where
  tsu : t.tsu = { s.tsu with n0 := c.n0, suml := c.suml }
  writes : Writes (· ∈ schedFlds) s t
  governs : t.fld (F.DIC_SRC_COUNT 102) = s.fld (F.DIC_SRC_COUNT 102)

theorem putSched_inForce {s : State} (hc : s.cclkOn = true) (c : Sched) : InForce c s (putSched c s) := by
  have hc1 := s.schedShown_cclkOn hc c
  have hw := gclCut_writes hc1
  have hall : Writes (· ∈ schedFlds) (s.schedShown c) (gclCut (s.schedShown c)) := hw.mono (by decide)
  rw [putSched_eq]
  refine ⟨⟨?_, ?_, ?_, ?_, ?_⟩, gclCut_tsu hc1, .trans (s.schedShown_writes c) hall, ?_⟩
  all_goals
    rw [hw.fld _ (by decide) (by decide), State.fld_schedShown _ _ (by decide), State.schedRegs]
    simp (disch := decide) only [State.fld_setFld_other, State.fld_setFld, Nat.mod_mod]

theorem InForce.cclkOn {c : Sched} {s t : State} (h : InForce c s t) (hc : s.cclkOn = true) : t.cclkOn = true :=
  (h.writes.cclkOn schedFlds_mode).trans hc

theorem exec_scheduleGovern_inert {s : State}
    (h : s.tsu.next = [] ∧ (s.tsu.fresh = false ∨ s.frame + 1 < s.tsu.n0) ∨ ∃ c rest, s.tsu.next = c :: rest ∧ s.frame + 1 < c.n0) :
    Inert .scheduleGovern s := by
  refine .of_clocked rfl ?_
  unfold scheduleGovern
  rcases h with ⟨hn, h⟩ | ⟨c, rest, hn, h⟩
  · rw [hn]
    refine if_neg fun hgo => ?_
    simp only [Bool.and_eq_true, decide_eq_true_eq] at hgo
    rcases h with h | h
    · exact absurd (h.symm.trans hgo.1) (by decide)
    · omega
  · rw [hn]
    exact if_neg (by omega)

/-- The schedule that the engine began with starts to govern (R518, R598). -/
theorem exec_scheduleGovern_fresh {s : State} (hclk : s.cclkOn = true) (hn : s.tsu.next = []) (hf : s.tsu.fresh = true)
    (h : s.tsu.n0 ≤ s.frame + 1) : Runs .scheduleGovern s fun t =>
      Touches [(F.DIC_SRC_COUNT 102).off] { s with tsu := { s.tsu with fresh := false } } t
      ∧ t.fld (F.DIC_SRC_COUNT 102) = min 15 (s.fld (F.DIC_SRC_COUNT 102) + 1) := by
  have hrun : scheduleGovern s = ({ s with tsu := { s.tsu with fresh := false } } : State).raise 102 := by
    unfold scheduleGovern
    rw [hn]
    exact if_pos (by simp [hf, h])
  refine .of_clocked rfl hclk ?_
  rw [hrun]
  refine ⟨?_, State.fld_raise (s := { s with tsu := { s.tsu with fresh := false } }) hclk (by decide) (by decide)⟩
  rw [State.raise_eq _ 102 (by exact hclk) (by decide) (by decide)]
  exact ⟨rfl, fun off ho _ => State.reg_setFld_ne _ (F.DIC_SRC_COUNT 102) _ _ (by simpa using ho)⟩

/-- The next schedule starts to govern. -/
theorem exec_scheduleGovern_next {s : State} {c : Sched} {rest : List Sched} (hclk : s.cclkOn = true) (hn : s.tsu.next = c :: rest)
    (h : c.n0 ≤ s.frame + 1) : Runs .scheduleGovern s fun t => t.fld F.TSU_SCHED0_EPOCH = c.epoch % 2 ^ 64
      ∧ t.fld F.TSU_SCHED1_PERIOD = c.period % 2 ^ 48 ∧ t.fld F.TSU_SCHED1_SSEQ = c.sseq % 2 ^ 16
      ∧ t.fld F.TSU_SCHED2_LATENCY = c.latency % 2 ^ 32 ∧ t.fld F.TSU_SCHED2_N0 = c.n0 % 2 ^ 32 ∧ t.tsu.next = rest ∧ t.tsu.n0 = c.n0
      ∧ t.fld (F.DIC_SRC_COUNT 102) = min 15 (s.fld (F.DIC_SRC_COUNT 102) + 1) := by
  have hf := putSched_inForce (s := { s with tsu := { s.tsu with next := rest, fresh := false } }) hclk c
  have hrun : scheduleGovern s = (putSched c { s with tsu := { s.tsu with next := rest, fresh := false } }).raise 102 := by
    unfold scheduleGovern governNext
    rw [hn]
    exact if_pos h
  have hc := hf.cclkOn hclk
  have hs := hf.toShows.raise 102
  refine .of_clocked rfl hclk ?_
  rw [hrun]
  refine ⟨hs.epoch, hs.period, hs.sseq, hs.latency, hs.first, ?_, ?_, ?_⟩
  · rw [State.raise_tsu hc (by decide) (by decide), hf.tsu]
  · rw [State.raise_tsu hc (by decide) (by decide), hf.tsu]
  · rw [State.fld_raise hc (by decide) (by decide), hf.governs]
    rfl

/-! ### LATENCY (R31, R519) -/

/-- The frame found is one whose hoist, where no instant wraps, is not before `t`. -/
theorem Sched.le_hoistAt_firstAt (c : Sched) {t : Nat} (hp : 0 < c.period) (he : c.epoch < t)
    (hw : c.epoch + c.firstAt t * c.period / 65536 < 2 ^ 64) : t ≤ c.hoistAt (c.firstAt t) := by
  unfold Sched.hoistAt
  rw [Nat.mod_eq_of_lt hw]
  have hfirst : c.firstAt t = ((t - c.epoch) * 65536 + c.period - 1) / c.period := by
    unfold Sched.firstAt
    rw [if_neg (by simp; omega)]
  have hceil : (t - c.epoch) * 65536 ≤ c.firstAt t * c.period := by
    have hdiv := Nat.div_add_mod ((t - c.epoch) * 65536 + c.period - 1) c.period
    have hlt := Nat.mod_lt ((t - c.epoch) * 65536 + c.period - 1) hp
    rw [hfirst, Nat.mul_comm _ c.period]
    omega
  have := Nat.div_le_div_right (c := 65536) hceil
  rw [Nat.mul_div_cancel _ (by decide)] at this
  omega

/-- The epoch that a change computes keeps H(N0). -/
theorem hoistAt_kept (h d : Nat) (hh : h < 2 ^ 64) : ((h + 2 ^ 64 - d % 2 ^ 64) % 2 ^ 64 + d) % 2 ^ 64 = h := by
  omega

theorem Sched.hoistAt_lt (c : Sched) (n : Nat) : c.hoistAt n < 2 ^ 64 := Nat.mod_lt _ (Nat.two_pow_pos 64)

/-- The schedule that a change makes while another is in force: the first frame at least 250 ms ahead, whose hoist does not move. -/
def State.changed (s : State) (period latency suml : Nat) : Sched :=
  let old := s.lastSched
  let n0 := old.firstAt (s.tsu.now + 250000000)
  ⟨(old.sseq + 1) % 65536, (old.hoistAt n0 + 2 ^ 64 - n0 * period / 65536 % 2 ^ 64) % 2 ^ 64, period, latency, n0, suml⟩

theorem changeSched_hoists {s : State} (hh : s.hoists = true) (period latency suml : Nat) : (changeSched period latency suml s).1
    = { s with tsu := { s.tsu with next := s.tsu.next ++ [s.changed period latency suml] } } := by
  unfold changeSched
  simp only [hh, Bool.not_true, Bool.false_eq_true, if_false]
  rfl

theorem State.hoistAt_changed (s : State) (period latency suml : Nat) :
    (s.changed period latency suml).hoistAt (s.changed period latency suml).n0 = s.lastSched.hoistAt (s.changed period latency suml).n0 :=
  hoistAt_kept _ _ (Sched.hoistAt_lt _ _)

/-- LATENCY that the ring asks for (R519). -/
def State.latencyNeed (s : State) : Nat :=
  s.tRing (max (s.fld F.RING_AREA_NENG) s.ring.nodes.length) s.lastSched.suml + (2 * s.lastSched.period + 65535) / 65536

theorem exec_latencyRaise_inert {s : State} (now : Nat) (h : s.role 1 = false ∨ s.hoists = false) : Inert (.latencyRaise now) s := by
  refine .of_clocked rfl ?_
  unfold latencyRaise
  rcases h with h | h <;> simp [h]

theorem latencyRaise_eq {s : State} (now : Nat) (hclk : s.cclkOn = true) (hr : s.role 1 = true) (hh : s.hoists = true) :
    latencyRaise now s = if (s.atTime now).latencyNeed ≤ (s.atTime now).lastSched.latency then s.atTime now
      else scheduleFrameSend ((changeSched (s.atTime now).lastSched.period (s.atTime now).latencyNeed (s.atTime now).lastSched.suml
        (s.atTime now)).1.raise 106) := by
  unfold latencyRaise
  rw [if_neg (by simp [hclk, hr, hh])]
  rfl

theorem exec_latencyRaise_enough {s : State} (now : Nat) (hclk : s.cclkOn = true) (hr : s.role 1 = true) (hh : s.hoists = true)
    (h : (s.atTime now).latencyNeed ≤ (s.atTime now).lastSched.latency) : exec (.latencyRaise now) s = .next (s.atTime now) := by
  show Host.Outcome.next (whileClocked s (latencyRaise now s)) = _
  rw [whileClocked_on hclk, latencyRaise_eq now hclk hr hh, if_pos h]

theorem exec_latencyRaise_runs {s : State} (now : Nat) (hclk : s.cclkOn = true) (hr : s.role 1 = true) (hh : s.hoists = true)
    (h : (s.atTime now).lastSched.latency < (s.atTime now).latencyNeed) : Runs (.latencyRaise now) s fun t => ∃ c,
      t.tsu.next = s.tsu.next ++ [c] ∧ c.latency = (s.atTime now).latencyNeed ∧ c.period = (s.atTime now).lastSched.period
      ∧ c.suml = (s.atTime now).lastSched.suml ∧ c.sseq = ((s.atTime now).lastSched.sseq + 1) % 65536
      ∧ c.hoistAt c.n0 = (s.atTime now).lastSched.hoistAt c.n0
      ∧ (0 < (s.atTime now).lastSched.period →
          (s.atTime now).lastSched.epoch + c.n0 * (s.atTime now).lastSched.period / 65536 < 2 ^ 64 →
          (s.atTime now).lastSched.epoch < (s.atTime now).tsu.now + 250000000 → (s.atTime now).tsu.now + 250000000 ≤ c.hoistAt c.n0)
      ∧ t.fld (F.DIC_SRC_COUNT 106) = min 15 (s.fld (F.DIC_SRC_COUNT 106) + 1) := by
  have hrun := latencyRaise_eq now hclk hr hh
  rw [if_neg (Nat.not_le_of_lt h)] at hrun
  generalize hs0 : s.atTime now = s0 at hrun h
  have hnext : s0.tsu.next = s.tsu.next := by rw [← hs0]; rfl
  have hcount : s0.fld (F.DIC_SRC_COUNT 106) = s.fld (F.DIC_SRC_COUNT 106) := by rw [← hs0]; rfl
  have hc0 : s0.cclkOn = true := by rw [← hs0]; exact hclk
  rw [changeSched_hoists (by rw [← hs0]; exact hh)] at hrun
  generalize hc : s0.changed s0.lastSched.period s0.latencyNeed s0.lastSched.suml = c at hrun
  have hkept : c.hoistAt c.n0 = s0.lastSched.hoistAt c.n0 := by rw [← hc]; exact s0.hoistAt_changed _ _ _
  have hsent := Transmits.scheduleFrameSend (State.raise { s0 with tsu := { s0.tsu with next := s0.tsu.next ++ [c] } } 106)
  refine .of_clocked rfl hclk ⟨c, ?_, ?_, ?_, ?_, ?_, hkept, fun hp hw he => ?_, ?_⟩
  · rw [hrun, hsent.rest, State.raise_tsu (by exact hc0) (by decide) (by decide), ← hnext]
  · rw [← hc]
    rfl
  · rw [← hc]
    rfl
  · rw [← hc]
    rfl
  · rw [← hc]
    rfl
  · rw [hkept]
    subst hc
    exact Sched.le_hoistAt_firstAt _ hp he hw
  · rw [hrun, hsent.fld, State.fld_raise (by exact hc0) (by decide) (by decide), ← hcount]
    rfl

end Sys2Proof.Machine
end

section
/-!
PROOFS. Wall time: the first schedule, the grandmaster, takeover (R518, R527 to R529, R598).
-/

namespace Sys2Proof.Machine

/-! ### Fields of a list, and reports -/

/-- A field of the list, or a report. -/
def Listed (l : List FRef) (f : FRef) : Prop := f ∈ l ∨ reportOff f.off = true

section Listed
variable {l : List FRef} {s t : State}

theorem Writes.bump {W : FRef → Prop} (s : State) {f : FRef} (d : Nat) (hf : W f) : Writes W s (s.bump f d) := .setFld s _ hf

theorem Writes.reported (h : Reports s t) : Writes (Listed l) s t := .of_reports h fun _ h => .inr h

theorem Writes.listed (h : Writes (· ∈ l) s t) : Writes (Listed l) s t := h.mono fun _ h => .inl h

theorem Writes.longer (h : Writes (Listed l) s t) {m : List FRef} (hm : ∀ f ∈ l, f ∈ m) : Writes (Listed m) s t :=
  h.mono fun f hf => hf.imp (hm f) id

theorem Listed.apart {g : FRef} (ha : ∀ f ∈ l, g.Apart f) (hr : reportOff g.off = false) (f : FRef) (hf : Listed l f) : g.Apart f := by
  rcases hf with hf | hf
  · exact ha f hf
  · exact .inl fun h => absurd (hr.symm.trans (h ▸ hf)) (by decide)

theorem Writes.fld_listed (h : Writes (Listed l) s t) (g : FRef) (hg : g.lo + g.w ≤ 64) (ha : ∀ f ∈ l, g.Apart f)
    (hr : reportOff g.off = false) : t.fld g = s.fld g := h.fld g hg (Listed.apart ha hr)

theorem Writes.flag_listed (h : Writes (Listed l) s t) (g : FRef) (hg : g.lo + g.w ≤ 64) (ha : ∀ f ∈ l, g.Apart f)
    (hr : reportOff g.off = false) : t.flag g = s.flag g := h.flag g hg (Listed.apart ha hr)

end Listed

/-! ### The first schedule (R518, R598) -/

/-- A schedule is in force that no other preceded: the registers show it, the TSU's other duties stand. -/
structure FirstSched (c : Sched) (s t : State) : Prop extends Shows c t where
  held : t.tsu.held = s.tsu.held
  doms : t.tsu.doms = s.tsu.doms
  writes : Writes (Listed schedFlds) s t

theorem firstSched_inForce {s : State} (hc : s.cclkOn = true) (c : Sched) : FirstSched c s (firstSched c s) := by
  have hf := putSched_inForce hc c
  unfold firstSched
  extract_lets s1 cur governs tsu2 s2
  have htsu : s1.tsu = { s.tsu with n0 := c.n0, suml := c.suml } := hf.tsu
  have h2 : FirstSched c s s2 := by
    refine ⟨hf.toShows.congr fun f _ => rfl, ?_, ?_, .trans hf.writes.listed (.of_rf rfl rfl)⟩
    · show s1.tsu.held = _
      rw [htsu]
    · show s1.tsu.doms = _
      rw [htsu]
  split
  · have hr := Reports.raise s2 102
    refine ⟨h2.toShows.raise 102, ?_, ?_, h2.writes.trans (.reported hr)⟩
    · rw [hr.rest]
      exact h2.held
    · rw [hr.rest]
      exact h2.doms
  · exact h2

/-- Time is held; beside the first schedule, if one has waited for that, nothing else is new (R598). -/
theorem holdTime_holds {s : State} (hc : s.cclkOn = true) :
    (holdTime s).tsu.held = true ∧ (holdTime s).tsu.doms = s.tsu.doms ∧ Writes (Listed schedFlds) s (holdTime s) := by
  unfold holdTime
  extract_lets tsu1 s1
  split
  · exact ⟨rfl, rfl, .putTsu s _⟩
  · next c _ =>
    have h := firstSched_inForce (s := { s1 with tsu := { s1.tsu with waiting := none } }) hc
      { c with n0 := (resolveFrame (c.frameAt s1.tsu.now) (c.n0 % 2 ^ 32)).toNat }
    exact ⟨h.held, h.doms, .trans (.putTsu s _) h.writes⟩

/-! ### The grandmaster (R527 to R529) -/

theorem setGm_tsu (id : Nat) (s : State) : (setGm id s).tsu.held = s.tsu.held ∧ (setGm id s).tsu.doms = s.tsu.doms := by
  unfold setGm
  split
  · exact ⟨rfl, rfl⟩
  · have hr := Reports.raise (s.setFld F.TSU_STAT_GMID id) 101
    constructor
    all_goals
      rw [hr.rest]
      rfl

theorem fld_setGm {id : Nat} (h : id < 2 ^ 16) (s : State) : (setGm id s).fld F.TSU_STAT_GMID = id := by
  unfold setGm
  split
  · assumption
  · rw [(Reports.raise _ 101).fld _ (by decide), State.fld_setFld _ _ _ (by decide)]
    exact Nat.mod_eq_of_lt h

theorem setGm_writes (id : Nat) (s : State) : Writes (Listed [F.TSU_STAT_GMID]) s (setGm id s) := by
  unfold setGm
  split
  · exact .refl s
  · exact .trans (.setFld s _ (.inl (by decide))) (.reported (.raise _ 101))

/-- The fields that a new grandmaster writes. -/
def gmFlds : List FRef :=
  schedFlds ++ [F.TSU_STAT_GM, F.TSU_STAT_ACTING, F.TSU_STAT_DVALID, F.TSU_STAT_HOLDOVER, F.TSU_STAT_GMID]

/-- The engine has become grandmaster of both domains. -/
structure MadeGm (acting : Bool) (s t : State) : Prop where
  gm : t.isGm = true
  acting : t.flag F.TSU_STAT_ACTING = acting
  dvalid : t.flag F.TSU_STAT_DVALID = false
  holdover : t.flag F.TSU_STAT_HOLDOVER = false
  gmid : ∀ c, s.cabId = some c → t.fld F.TSU_STAT_GMID = c
  held : t.tsu.held = true
  doms : t.tsu.doms = []
  writes : Writes (Listed gmFlds) s t

theorem State.cabId_lt {s : State} {c : Nat} (h : s.cabId = some c) : c < 2 ^ 16 := by
  unfold State.cabId at h
  split at h
  · exact absurd h (by simp)
  · rw [← Option.some.inj h]
    exact Nat.mod_lt _ (by decide)

theorem Writes.cabId {W : FRef → Prop} {s t : State} (h : Writes W s t) (ha : ∀ f, W f → F.RING_ID_CABID.Apart f) :
    t.cabId = s.cabId := by
  unfold State.cabId
  rw [h.fld _ (by decide) ha]

/-- The flags of a new grandmaster. -/
def State.gmFlags (acting : Bool) (s : State) : State :=
  (((s.setFlag F.TSU_STAT_GM true).setFlag F.TSU_STAT_ACTING acting).setFlag F.TSU_STAT_DVALID false).setFlag F.TSU_STAT_HOLDOVER false

theorem State.gmFlags_writes (acting : Bool) (s : State) :
    Writes (· ∈ [F.TSU_STAT_GM, F.TSU_STAT_ACTING, F.TSU_STAT_DVALID, F.TSU_STAT_HOLDOVER]) s (s.gmFlags acting) :=
  .trans (.setFlag _ _ (by decide)) (.trans (.setFlag _ _ (by decide)) (.trans (.setFlag _ _ (by decide)) (.setFlag _ _ (by decide))))

theorem State.flag_gmFlags (acting : Bool) (s : State) :
    (s.gmFlags acting).flag F.TSU_STAT_GM = true ∧ (s.gmFlags acting).flag F.TSU_STAT_ACTING = acting
      ∧ (s.gmFlags acting).flag F.TSU_STAT_DVALID = false ∧ (s.gmFlags acting).flag F.TSU_STAT_HOLDOVER = false := by
  unfold State.gmFlags
  simp (disch := decide) only [State.flag_setFlag_other, State.flag_setFlag, and_self]

/-- Time held by a follower that hears no domain any more. -/
theorem holdTime_alone {u : State} (hc : u.cclkOn = true) (x : Tsu) : (holdTime { u with tsu := x }).tsu.held = true
    ∧ (holdTime { u with tsu := x }).tsu.doms = x.doms ∧ Writes (Listed schedFlds) u (holdTime { u with tsu := x }) := by
  obtain ⟨h1, h2, h3⟩ := holdTime_holds (s := { u with tsu := x }) hc
  exact ⟨h1, h2, .trans (.putTsu u x) h3⟩

theorem becomeGm_made {s : State} (hc : s.cclkOn = true) (acting : Bool) : MadeGm acting s (becomeGm acting s) := by
  have hw1 := s.gmFlags_writes acting
  have hc1 : (s.gmFlags acting).cclkOn = true := (hw1.cclkOn (by decide)).trans hc
  have hid : (s.gmFlags acting).cabId = s.cabId := hw1.cabId (by decide)
  obtain ⟨hgm, hact, hdv, hho⟩ := s.flag_gmFlags acting
  have hrun : becomeGm acting s = setGm (s.cabId.getD 0xFFFF)
      (holdTime { s.gmFlags acting with tsu := { (s.gmFlags acting).tsu with doms := [], good := 0 } }) := by
    rw [← hid]
    rfl
  generalize s.gmFlags acting = u at *
  obtain ⟨hheld, hdoms, hside⟩ := holdTime_alone hc1 { u.tsu with doms := [], good := 0 }
  generalize holdTime { u with tsu := { u.tsu with doms := [], good := 0 } } = v at *
  have hw3 := setGm_writes (s.cabId.getD 0xFFFF) v
  obtain ⟨hk1, hk2⟩ := setGm_tsu (s.cabId.getD 0xFFFF) v
  rw [hrun]
  refine ⟨?_, ?_, ?_, ?_, fun c hcab => ?_, hk1.trans hheld, hk2.trans hdoms, ?_⟩
  · exact ((hw3.flag_listed F.TSU_STAT_GM (by decide) (by decide) (by decide)).trans
      (hside.flag_listed _ (by decide) (by decide) (by decide))).trans hgm
  · exact ((hw3.flag_listed _ (by decide) (by decide) (by decide)).trans
      (hside.flag_listed _ (by decide) (by decide) (by decide))).trans hact
  · exact ((hw3.flag_listed _ (by decide) (by decide) (by decide)).trans
      (hside.flag_listed _ (by decide) (by decide) (by decide))).trans hdv
  · exact ((hw3.flag_listed _ (by decide) (by decide) (by decide)).trans
      (hside.flag_listed _ (by decide) (by decide) (by decide))).trans hho
  · rw [hcab]
    exact fld_setGm (State.cabId_lt hcab) _
  · exact .trans (hw1.listed.longer (by decide)) (.trans (hside.longer (by decide)) (hw3.longer (by decide)))

/-! ### Takeover (R527, R528) -/

theorem exec_ensignLost_inert {s : State} (h : s.role 2 = false ∨ ensignModes s.mode = false ∨ s.isGm = true) : Inert .ensignLost s := by
  refine .of_clocked rfl ?_
  unfold ensignLost
  rcases h with h | h | h <;> simp [h]

theorem exec_ensignLost_runs {s : State} {c : Nat} (hclk : s.cclkOn = true) (hr : s.role 2 = true) (hm : ensignModes s.mode = true)
    (hgm : s.isGm = false) (hcab : s.cabId = some c) : Runs .ensignLost s fun t =>
      t.isGm = true ∧ t.flag F.TSU_STAT_ACTING = true ∧ t.flag F.TSU_STAT_DVALID = false ∧ t.flag F.TSU_STAT_HOLDOVER = false
      ∧ t.fld F.TSU_STAT_GMID = c ∧ t.tsu.held = true ∧ t.tsu.doms = [] ∧ t.mode = s.mode := by
  have hrun : ensignLost s = scheduleFrameSend (syncSend (becomeGm true s)) := by
    unfold ensignLost
    rw [if_neg (by simp [hclk, hr, hm, hgm])]
  have hb := becomeGm_made hclk true
  have hsent := (Transmits.syncSend (becomeGm true s)).trans (.scheduleFrameSend _)
  have htsu := hsent.rest
  refine .of_clocked rfl hclk ?_
  rw [hrun]
  generalize scheduleFrameSend (syncSend (becomeGm true s)) = t at *
  refine ⟨(hsent.flag _).trans hb.gm, (hsent.flag _).trans hb.acting, (hsent.flag _).trans hb.dvalid, (hsent.flag _).trans hb.holdover,
    (hsent.fld _).trans (hb.gmid c hcab), ?_, ?_, ?_⟩
  · rw [htsu]
    exact hb.held
  · rw [htsu]
    exact hb.doms
  · exact (hsent.fld _).trans (hb.writes.fld_listed F.AO_MODE_MODE (by decide) (by decide) (by decide))

end Sys2Proof.Machine
end

section
/-!
PROOFS. RING_CFG: identity and ports, the wall map, the first schedule (R523 to R526, R529).
-/

namespace Sys2Proof.Machine

/-! ### Ports (R263, R488, R503) -/

/-- The fields of a ring port that SUB 0 writes or that a port going down writes. -/
def portFlds (n : Nat) : List FRef :=
  [F.RING_PORT_CFG_EN n, F.RING_PORT_CFG_FEC n, F.RING_PORT_CFG_DASYM n, F.RING_PORT_STAT_LINK n, F.RING_PORT_STAT_PREEMPT n,
    F.RING_PORT_STAT_PARTNER n, F.RING_PORT_CNT1_LINKDOWNS n]

/-- Those of them that a port going down writes. -/
def linkFlds (n : Nat) : List FRef :=
  [F.RING_PORT_STAT_LINK n, F.RING_PORT_STAT_PREEMPT n, F.RING_PORT_STAT_PARTNER n, F.RING_PORT_CNT1_LINKDOWNS n]

theorem Writes.setRport {W : FRef → Prop} (s : State) (n : Nat) (p : RingPort) : Writes W s (s.setRport n p) := by
  unfold State.setRport
  split <;> exact .of_rf rfl rfl

/-- The registers of a port that goes down. -/
def State.linkLost (s : State) (n : Nat) : State :=
  (((s.setFlag (F.RING_PORT_STAT_LINK n) false).setFlag (F.RING_PORT_STAT_PREEMPT n) false).setFld (F.RING_PORT_STAT_PARTNER n)
    0xFFFF).bump (F.RING_PORT_CNT1_LINKDOWNS n) 1

theorem State.linkLost_writes (s : State) (n : Nat) : Writes (Listed (linkFlds n)) s (s.linkLost n) :=
  .trans (.setFlag _ _ (.inl (by simp [linkFlds]))) (.trans (.setFlag _ _ (.inl (by simp [linkFlds])))
    (.trans (.setFld _ _ (.inl (by simp [linkFlds]))) (.bump _ _ (.inl (by simp [linkFlds])))))

theorem State.portUp_linkLost (s : State) {n : Nat} (hn : n < 2) : (s.linkLost n).portUp n = false := by
  unfold State.linkLost State.portUp State.bump
  interval_cases n <;> simp (disch := decide) only [State.flag_setFld_other, State.flag_setFlag_other, State.flag_setFlag]

theorem portDown_down {n : Nat} (hn : n < 2) (s : State) : (portDown n s).portUp n = false := by
  unfold portDown
  split
  · next h => simpa using h
  · extract_lets tdu0 s0 s1 port2 s2 ring3 s3
    have hlost : s1.portUp n = false := s0.portUp_linkLost hn
    have hw : Writes (Listed []) s1 (s3.raise (96 + n)) :=
      .trans (.setRport s1 n _) (.trans (.of_rf (t := s3) rfl rfl) (.reported (.raise s3 _)))
    rw [← hlost]
    exact hw.flag_listed _ (by simp only; omega) (by simp) (by interval_cases n <;> decide)

theorem portDown_writes (n : Nat) (s : State) : Writes (Listed (linkFlds n)) s (portDown n s) := by
  unfold portDown
  split
  · exact .refl s
  · extract_lets tdu0 s0 s1 port2 s2 ring3 s3
    have h0 : Writes (Listed (linkFlds n)) s s0 := .of_rf rfl rfl
    exact h0.trans (.trans (s0.linkLost_writes n) (.trans (.setRport s1 n _) (.trans (.of_rf (t := s3) rfl rfl)
      (.reported (.raise s3 _)))))

theorem observePort_reports (n : Nat) (s : State) : Reports s (observePort n s) := by
  unfold observePort
  split
  · exact .observe _ _ _ _ s
  · split
    · exact .observe _ _ _ _ s
    · exact .observe _ _ _ _ s

/-- A port has taken its enable, FEC and delay asymmetry. -/
structure PortSet (n : Nat) (b : List Byte) (s t : State) : Prop where
  en : t.flag (F.RING_PORT_CFG_EN n) = bitOf (byteAt b 8) n
  fec : t.flag (F.RING_PORT_CFG_FEC n) = bitOf (byteAt b 9) n
  dasym : t.fld (F.RING_PORT_CFG_DASYM n) = leAt b (20 + 2 * n) 2
  down : bitOf (byteAt b 8) n = false → t.portUp n = false
  writes : Writes (Listed (portFlds n)) s t

theorem leNat_lt (l : List Byte) : leNat l < 256 ^ l.length := by
  induction l with
  | nil => decide
  | cons x xs ih =>
    have hx := x.isLt
    rw [leNat, List.length_cons, Nat.pow_succ]
    omega

theorem leAt_lt (l : List Byte) (lo n : Nat) : leAt l lo n < 256 ^ n :=
  Nat.lt_of_lt_of_le (leNat_lt _) (Nat.pow_le_pow_right (by decide) (List.length_take_le _ _))

/-- The configuration of a port as SUB 0 gives it. -/
def State.portCfg (s : State) (n : Nat) (b : List Byte) : State :=
  ((s.setFlag (F.RING_PORT_CFG_EN n) (bitOf (byteAt b 8) n)).setFlag (F.RING_PORT_CFG_FEC n) (bitOf (byteAt b 9) n)).setFld
    (F.RING_PORT_CFG_DASYM n) (leAt b (20 + 2 * n) 2)

theorem State.portCfg_shows (s : State) {n : Nat} (hn : n < 2) (b : List Byte) :
    (s.portCfg n b).flag (F.RING_PORT_CFG_EN n) = bitOf (byteAt b 8) n
      ∧ (s.portCfg n b).flag (F.RING_PORT_CFG_FEC n) = bitOf (byteAt b 9) n
      ∧ (s.portCfg n b).fld (F.RING_PORT_CFG_DASYM n) = leAt b (20 + 2 * n) 2 := by
  unfold State.portCfg
  refine ⟨?_, ?_, ?_⟩
  · interval_cases n <;> simp (disch := decide) only [State.flag_setFld_other, State.flag_setFlag_other, State.flag_setFlag]
  · interval_cases n <;> simp (disch := decide) only [State.flag_setFld_other, State.flag_setFlag]
  · rw [State.fld_setFld _ _ _ (by simp only; omega)]
    exact Nat.mod_eq_of_lt (leAt_lt b _ 2)

theorem State.portCfg_writes (s : State) (n : Nat) (b : List Byte) : Writes (Listed (portFlds n)) s (s.portCfg n b) :=
  .trans (.setFlag _ _ (.inl (by simp [portFlds]))) (.trans (.setFlag _ _ (.inl (by simp [portFlds])))
    (.setFld _ _ (.inl (by simp [portFlds]))))

theorem ringPortSet_set {n : Nat} (hn : n < 2) (b : List Byte) (s : State) : PortSet n b s (ringPortSet n b s) := by
  have hrun : ringPortSet n b s
      = observePort n (if bitOf (byteAt b 8) n = true then s.portCfg n b else portDown n (s.portCfg n b)) := rfl
  rw [hrun]
  generalize hv : (if bitOf (byteAt b 8) n = true then s.portCfg n b else portDown n (s.portCfg n b)) = v
  have hlink : Writes (Listed (linkFlds n)) (s.portCfg n b) v := by
    rw [← hv]
    split
    · exact .refl _
    · exact portDown_writes n _
  have hw : Writes (Listed (linkFlds n)) (s.portCfg n b) (observePort n v) := hlink.trans (.reported (observePort_reports n v))
  obtain ⟨hen, hfec, hdasym⟩ := s.portCfg_shows hn b
  refine ⟨?_, ?_, ?_, fun hoff => ?_, .trans (s.portCfg_writes n b) (hw.longer (by simp [linkFlds, portFlds]))⟩
  · rw [← hen]
    exact hw.flag_listed _ (by simp only; omega) (by interval_cases n <;> decide) (by interval_cases n <;> decide)
  · rw [← hfec]
    exact hw.flag_listed _ (by simp only; omega) (by interval_cases n <;> decide) (by interval_cases n <;> decide)
  · rw [← hdasym]
    exact hw.fld_listed _ (by simp only; omega) (by interval_cases n <;> decide) (by interval_cases n <;> decide)
  · rw [if_neg (by simp [hoff])] at hv
    have hdown := portDown_down hn (s.portCfg n b)
    rw [hv] at hdown
    rw [← hdown]
    exact (observePort_reports n v).flag _ (by interval_cases n <;> decide)

/-! ### Identity (R523, R529) -/

/-- The fields of identity and area. -/
def idFlds : List FRef :=
  [F.RING_ID_CABID, F.RING_ID_ROLES, F.RING_ID_ENSIGN, F.RING_ID_STANDBY, F.RING_ID_MSLOT, F.RING_AREA_X0C, F.RING_AREA_Y0C,
    F.RING_AREA_WC, F.RING_AREA_HC, F.RING_AREA_NENG]

/-- Identity and area as SUB 0 gives them. -/
def State.idRegs (s : State) (b : List Byte) : State :=
  (((((((((s.setFld F.RING_ID_STANDBY (leAt b 6 2)).setFld F.RING_ID_ENSIGN (leAt b 4 2)).setFld F.RING_ID_CABID
    (leAt b 2 2)).setFld F.RING_ID_ROLES (byteAt b 1)).setFld F.RING_ID_MSLOT (byteAt b 10)).setFld F.RING_AREA_NENG
      (leAt b 18 2)).setFld F.RING_AREA_HC (byteAt b 17)).setFld F.RING_AREA_WC (byteAt b 16)).setFld F.RING_AREA_Y0C
        (leAt b 14 2)).setFld F.RING_AREA_X0C (leAt b 12 2)

theorem State.idRegs_writes (s : State) (b : List Byte) : Writes (Listed idFlds) s (s.idRegs b) :=
  .trans (.setFld _ _ (.inl (by decide))) (.trans (.setFld _ _ (.inl (by decide))) (.trans (.setFld _ _ (.inl (by decide)))
    (.trans (.setFld _ _ (.inl (by decide))) (.trans (.setFld _ _ (.inl (by decide))) (.trans (.setFld _ _ (.inl (by decide)))
      (.trans (.setFld _ _ (.inl (by decide))) (.trans (.setFld _ _ (.inl (by decide))) (.trans (.setFld _ _ (.inl (by decide)))
        (.setFld _ _ (.inl (by decide)))))))))))

/-- The engine shows the identity and the area of the command. -/
structure HasId (b : List Byte) (t : State) : Prop where
  cab : t.fld F.RING_ID_CABID = leAt b 2 2
  roles : t.fld F.RING_ID_ROLES = byteAt b 1
  ensign : t.fld F.RING_ID_ENSIGN = leAt b 4 2
  standby : t.fld F.RING_ID_STANDBY = leAt b 6 2
  mslot : t.fld F.RING_ID_MSLOT = byteAt b 10
  x0c : t.fld F.RING_AREA_X0C = leAt b 12 2
  y0c : t.fld F.RING_AREA_Y0C = leAt b 14 2
  wc : t.fld F.RING_AREA_WC = byteAt b 16
  hc : t.fld F.RING_AREA_HC = byteAt b 17
  neng : t.fld F.RING_AREA_NENG = leAt b 18 2

theorem HasId.congr {b : List Byte} {s t : State} (h : HasId b s) (hf : ∀ f ∈ idFlds, t.fld f = s.fld f) : HasId b t where
  cab := (hf _ (by decide)).trans h.cab
  roles := (hf _ (by decide)).trans h.roles
  ensign := (hf _ (by decide)).trans h.ensign
  standby := (hf _ (by decide)).trans h.standby
  mslot := (hf _ (by decide)).trans h.mslot
  x0c := (hf _ (by decide)).trans h.x0c
  y0c := (hf _ (by decide)).trans h.y0c
  wc := (hf _ (by decide)).trans h.wc
  hc := (hf _ (by decide)).trans h.hc
  neng := (hf _ (by decide)).trans h.neng

/-- What R523 and R526 bound. -/
structure IdBounds (b : List Byte) : Prop where
  roles : byteAt b 1 < 32
  cab : leAt b 2 2 < 1024
  mslot : byteAt b 10 < 16
  x0c : leAt b 12 2 < 32768
  y0c : leAt b 14 2 < 32768
  wc : byteAt b 16 ≤ 32
  hc : byteAt b 17 ≤ 32

theorem ringIdBad_bounds {b : List Byte} (h : ringIdBad b = false) : IdBounds b := by
  simp only [ringIdBad, Bool.or_eq_false_iff, decide_eq_false_iff_not] at h
  constructor
  all_goals omega

theorem State.idRegs_has (s : State) {b : List Byte} (h : IdBounds b) : HasId b (s.idRegs b) := by
  obtain ⟨h1, h2, h3, h4, h5, h6, h7⟩ := h
  have k1 := leAt_lt b 4 2
  have k2 := leAt_lt b 6 2
  have k3 := leAt_lt b 18 2
  unfold State.idRegs
  constructor
  all_goals
    simp (disch := decide) only [State.fld_setFld_other, State.fld_setFld]
    exact Nat.mod_eq_of_lt (by omega)

/-- The fields that a change of ROLES writes beside ROLES: those of a grandmaster, and REC. -/
def RoleFld (f : FRef) : Prop := Listed gmFlds f ∨ ∃ c, c < 1024 ∧ f = F.BA_CAB_REC c

theorem RoleFld.apart {g : FRef} (ha : ∀ f ∈ gmFlds, g.Apart f) (hr : reportOff g.off = false) (hrec : g.off < 0x310000 ∨ 0x312000 ≤ g.off)
    (f : FRef) (hf : RoleFld f) : g.Apart f := by
  rcases hf with hf | ⟨c, hc, rfl⟩
  · exact Listed.apart ha hr f hf
  · exact .inl (by simp only; omega)

theorem recTakeAll_writes (s : State) : Writes RoleFld s (recTakeAll s) := by
  unfold recTakeAll
  have hall : ∀ (l : List Nat) (t : State), (∀ c ∈ l, c < 1024) → Writes RoleFld t (l.foldl (fun u c => recTake c u) t) := by
    intro l
    induction l with
    | nil => exact fun t _ => .refl t
    | cons c l ih =>
      intro t hl
      exact .trans (.setFld t _ (.inr ⟨c, hl c (by simp), rfl⟩)) (ih _ fun d hd => hl d (by simp [hd]))
  exact hall _ s fun c hc => List.mem_range.mp hc

theorem stopGm_writes (s : State) : Writes RoleFld s (stopGm s) :=
  .trans (.setFlag _ _ (.inl (.inl (by decide)))) (.setFlag _ _ (.inl (.inl (by decide))))

theorem handBack_writes (s : State) : Writes RoleFld s (handBack s) :=
  .trans (.of_transmits (.sendSched _ _ s)) (stopGm_writes _)

/-- What a change of ROLES brings about once identity, area and ports are set. -/
def State.roleDuties (s : State) (old roles : Nat) : State :=
  let s4 := if (bitOf roles 1 && !bitOf old 1) || (bitOf roles 2 && !bitOf old 2) then recTakeAll s else s
  if bitOf roles 1 then (if bitOf old 1 || s4.tsu.acting then s4 else becomeGm false s4)
  else if s4.isGm then
    if s4.flag F.TSU_STAT_ACTING && bitOf roles 2 then handBack s4
    else if bitOf old 1 || !bitOf roles 2 then stopGm s4
    else s4
  else s4

theorem State.roleDuties_writes {s : State} (hc : s.cclkOn = true) (old roles : Nat) : Writes RoleFld s (s.roleDuties old roles) := by
  unfold State.roleDuties
  extract_lets s4
  have h4 : Writes RoleFld s s4 := by
    unfold s4
    split
    · exact recTakeAll_writes s
    · exact .refl s
  clear_value s4
  have hc4 : s4.cclkOn = true := (h4.cclkOn (RoleFld.apart (by decide) (by decide) (by decide))).trans hc
  refine h4.trans ?_
  split
  · split
    · exact .refl _
    · exact (becomeGm_made hc4 false).writes.mono fun _ h => .inl h
  · split
    · split
      · exact handBack_writes _
      · split
        · exact stopGm_writes _
        · exact .refl _
    · exact .refl _

theorem ringIdSet_eq (b : List Byte) (s : State) :
    ringIdSet b s = (ringPortSet 1 b (ringPortSet 0 b (s.idRegs b))).roleDuties (s.fld F.RING_ID_ROLES) (byteAt b 1) := rfl

/-- The fields that SUB 0 may write. -/
def IdFld (f : FRef) : Prop := Listed (idFlds ++ portFlds 0 ++ portFlds 1) f ∨ RoleFld f

theorem idFld_mode (f : FRef) (hf : IdFld f) : F.AO_MODE_MODE.Apart f :=
  hf.elim (Listed.apart (by decide) (by decide) f) (RoleFld.apart (by decide) (by decide) (by decide) f)

/-- SUB 0 up to the duties of its roles. -/
def State.idAndPorts (s : State) (b : List Byte) : State := ringPortSet 1 b (ringPortSet 0 b (s.idRegs b))

theorem State.idAndPorts_writes (s : State) (b : List Byte) : Writes (Listed (idFlds ++ portFlds 0 ++ portFlds 1)) s (s.idAndPorts b) :=
  .trans ((s.idRegs_writes b).longer (by decide)) (.trans ((ringPortSet_set (by decide) b _).writes.longer (by decide))
    ((ringPortSet_set (by decide) b _).writes.longer (by decide)))

theorem State.idAndPorts_clocked {s : State} (hc : s.cclkOn = true) (b : List Byte) : (s.idAndPorts b).cclkOn = true :=
  ((s.idAndPorts_writes b).cclkOn (Listed.apart (by decide) (by decide))).trans hc

theorem ringIdSet_writes {s : State} (hc : s.cclkOn = true) (b : List Byte) : Writes IdFld s (ringIdSet b s) :=
  .trans ((s.idAndPorts_writes b).mono fun _ h => .inl h)
    ((State.roleDuties_writes (State.idAndPorts_clocked hc b) _ _).mono fun _ h => .inr h)

/-- A port shows what SUB 0 gives it. -/
structure PortTaken (n : Nat) (b : List Byte) (t : State) : Prop where
  en : t.flag (F.RING_PORT_CFG_EN n) = bitOf (byteAt b 8) n
  fec : t.flag (F.RING_PORT_CFG_FEC n) = bitOf (byteAt b 9) n
  dasym : t.fld (F.RING_PORT_CFG_DASYM n) = leAt b (20 + 2 * n) 2
  down : bitOf (byteAt b 8) n = false → t.portUp n = false

/-- A port keeps what it has taken while other fields are written. -/
theorem PortSet.later {n : Nat} {b : List Byte} {s t u : State} {W : FRef → Prop} (h : PortSet n b s t) (hw : Writes W t u)
    (hW : ∀ g ∈ portFlds n, ∀ f, W f → g.Apart f) : PortTaken n b u := by
  refine ⟨?_, ?_, ?_, fun hoff => ?_⟩
  · rw [← h.en]
    exact hw.flag _ (by simp only; omega) (hW _ (by simp [portFlds]))
  · rw [← h.fec]
    exact hw.flag _ (by simp only; omega) (hW _ (by simp [portFlds]))
  · rw [← h.dasym]
    exact hw.fld _ (by simp only; omega) (hW _ (by simp [portFlds]))
  · rw [← h.down hoff]
    exact hw.flag _ (by simp only; omega) (hW _ (by simp [portFlds]))

/-- The duties of the roles leave a port's fields. -/
theorem roleFld_port {n : Nat} (hn : n < 2) : ∀ g ∈ portFlds n, ∀ f, RoleFld f → g.Apart f := fun g hg =>
  RoleFld.apart (by revert g; interval_cases n <;> decide) (by revert g; interval_cases n <;> decide)
    (by revert g; interval_cases n <;> decide)

/-- The other port leaves them. -/
theorem portFlds_apart : ∀ g ∈ portFlds 0, ∀ f, Listed (portFlds 1) f → g.Apart f := fun g hg =>
  Listed.apart (by revert g; decide) (by revert g; decide)

/-- Neither ports nor duties touch identity and area. -/
theorem idFlds_apart {g : FRef} (hg : g ∈ idFlds) : (∀ f, Listed (portFlds 0) f → g.Apart f) ∧ (∀ f, Listed (portFlds 1) f → g.Apart f)
    ∧ (∀ f, RoleFld f → g.Apart f) ∧ g.lo + g.w ≤ 64 :=
  ⟨Listed.apart (by revert g; decide) (by revert g; decide), Listed.apart (by revert g; decide) (by revert g; decide),
    RoleFld.apart (by revert g; decide) (by revert g; decide) (by revert g; decide), by revert g; decide⟩

/-- SUB 0 has taken effect: identity, area, ports. -/
structure IdTaken (b : List Byte) (t : State) : Prop extends HasId b t where
  ports : ∀ n, n < 2 → PortTaken n b t

theorem ringIdSet_taken {b : List Byte} (hb : IdBounds b) {s : State} (hc : s.cclkOn = true) : IdTaken b (ringIdSet b s) := by
  have h0 := ringPortSet_set (n := 0) (by decide) b (s.idRegs b)
  have h1 := ringPortSet_set (n := 1) (by decide) b (ringPortSet 0 b (s.idRegs b))
  have hid := s.idRegs_has hb
  have hw := State.roleDuties_writes (State.idAndPorts_clocked hc b) (s.fld F.RING_ID_ROLES) (byteAt b 1)
  rw [ringIdSet_eq]
  unfold State.idAndPorts at hw
  generalize s.idRegs b = s2 at *
  generalize ringPortSet 0 b s2 = t0 at *
  generalize ringPortSet 1 b t0 = t1 at *
  generalize t1.roleDuties (s.fld F.RING_ID_ROLES) (byteAt b 1) = u at *
  refine ⟨hid.congr fun f hf => ?_, fun n hn => ?_⟩
  · obtain ⟨ha0, ha1, har, h64⟩ := idFlds_apart hf
    rw [hw.fld f h64 har, h1.writes.fld f h64 ha1, h0.writes.fld f h64 ha0]
  · interval_cases n
    · exact h0.later (W := fun f => Listed (portFlds 1) f ∨ RoleFld f)
        (.trans (h1.writes.mono fun _ h => .inl h) (hw.mono fun _ h => .inr h))
        fun g hg f hf => hf.elim (portFlds_apart g hg f) (roleFld_port (by decide) g hg f)
    · exact h1.later hw (roleFld_port (by decide))

end Sys2Proof.Machine
end

section
/-!
PROOFS. Wall time: the three forms of RING_CFG (R523 to R526).
-/

namespace Sys2Proof.Machine

section RingCfg
variable {s : State} {c : Cmd} {now : Nat}

/-- A command that the ring unit or the TSU carries out still stands when it completes. -/
theorem Writes.finished {W : FRef → Prop} {u : State} (hw : Writes W s u) {opc : Nat} (h : s.Due c opc) (st : Nat) (ps : List Byte) :
    Replied c st ps u (finish c.id st ps u) := by
  have hcmds : u.cmds = { s.cmds with reportDue := u.cmds.reportDue } := by rw [hw.rest]
  refine Answers.of_finish h st ps ?_ ?_ ?_ ?_
  all_goals rw [hcmds]

theorem State.Due.atTime {opc : Nat} (h : s.Due c opc) : (s.atTime now).Due c opc :=
  ⟨⟨h.found, h.own, h.unsent⟩, h.opcode, h.started, h.live⟩

variable (h : s.Due c 0x4001)
include h

/-- RING_CFG of a form answers what that form does. -/
theorem exec_ringCfg {st : Nat} {ps : List Byte} {u : State} {W : FRef → Prop} (hw : Writes W (s.atTime now) u)
    (hrun : ringCfg c.id now s = finish c.id st ps u) : Answers (.ringCfg c.id now) s c st ps u := by
  refine .of_clocked rfl (State.live_clocked h.live) ?_
  rw [hrun]
  exact hw.finished h.atTime st ps

theorem exec_ringCfg_refused {st : Nat} (hrun : ringCfg c.id now s = finish c.id st [] (s.atTime now)) :
    Answers (.ringCfg c.id now) s c st [] (s.atTime now) :=
  exec_ringCfg h (.refl (W := fun _ => True) _) hrun

theorem ringCfg_id (hf : byteAt c.params 0 = 0) : ringCfg c.id now s = if ringIdBad c.params = true then
    finish c.id Status.badParam [] (s.atTime now) else if (s.atTime now).ringIdDenied c.params = true then
      finish c.id Status.denied [] (s.atTime now) else
        finish c.id Status.ok (leBytes 8 (leAt c.params 2 2)) (ringCfgApply c.params (s.atTime now)) := by
  unfold ringCfg
  rw [withStarted_due h.atTime]
  simp only [hf]

theorem ringCfg_map (hf : byteAt c.params 0 = 1) : ringCfg c.id now s = if mapBad c.params s.mapDue = true then
    finish c.id Status.badParam [] (s.atTime now) else
      finish c.id Status.ok (leBytes 8 (mapCrc (mapAfter c.params s.mapDue))) (ringCfgApply c.params (s.atTime now)) := by
  unfold ringCfg
  rw [withStarted_due h.atTime]
  simp only [hf]
  rfl

theorem ringCfg_sched (hf : byteAt c.params 0 = 2) : ringCfg c.id now s = if (s.atTime now).schedBad c.params = true then
    finish c.id Status.badParam [] (s.atTime now) else if (!s.role 1) = true then finish c.id Status.denied [] (s.atTime now) else
      finish c.id Status.ok (leBytes 4 (changeSched (leAt c.params 8 6) (leAt c.params 16 4) (leAt c.params 20 4) (s.atTime now)).2
        ++ leBytes 4 0)
        (scheduleFrameSend (changeSched (leAt c.params 8 6) (leAt c.params 16 4) (leAt c.params 20 4) (s.atTime now)).1) := by
  unfold ringCfg
  rw [withStarted_due h.atTime]
  simp only [hf]
  rfl

theorem exec_ringCfg_none (hf : 2 < byteAt c.params 0) : Answers (.ringCfg c.id now) s c Status.badParam [] (s.atTime now) := by
  refine exec_ringCfg_refused h ?_
  unfold ringCfg
  rw [withStarted_due h.atTime]
  obtain ⟨k, hk⟩ : ∃ k, byteAt c.params 0 = k + 3 := ⟨byteAt c.params 0 - 3, by omega⟩
  simp only [hk]

/-! ### SUB 0 -/

theorem exec_ringCfg_id_bad (hf : byteAt c.params 0 = 0) (hb : ringIdBad c.params = true) :
    Answers (.ringCfg c.id now) s c Status.badParam [] (s.atTime now) :=
  exec_ringCfg_refused h ((ringCfg_id h hf).trans (if_pos hb))

theorem exec_ringCfg_id_denied (hf : byteAt c.params 0 = 0) (hb : ringIdBad c.params = false)
    (hd : (s.atTime now).ringIdDenied c.params = true) : Answers (.ringCfg c.id now) s c Status.denied [] (s.atTime now) :=
  exec_ringCfg_refused h (by rw [ringCfg_id h hf, if_neg (by simp [hb]), if_pos hd])

omit h in
theorem State.cfgWaits_atTime : (s.atTime now).cfgWaits = s.cfgWaits := rfl

theorem exec_ringCfg_id_waits (hf : byteAt c.params 0 = 0) (hb : ringIdBad c.params = false)
    (hd : (s.atTime now).ringIdDenied c.params = false) (hw : s.cfgWaits = true) :
    Answers (.ringCfg c.id now) s c Status.ok (leBytes 8 (leAt c.params 2 2))
      { s.atTime now with ring := { (s.atTime now).ring with cfgDue := s.ring.cfgDue ++ [c.params] } } := by
  have hrun := ringCfg_id (now := now) h hf
  rw [if_neg (by simp [hb]), if_neg (by simp [hd]), ringCfgApply, if_pos (State.cfgWaits_atTime.trans hw)] at hrun
  refine .of_clocked rfl (State.live_clocked h.live) ?_
  rw [hrun]
  exact Answers.of_finish h _ _ rfl rfl rfl rfl

theorem exec_ringCfg_id_now (hf : byteAt c.params 0 = 0) (hb : ringIdBad c.params = false)
    (hd : (s.atTime now).ringIdDenied c.params = false) (hw : s.cfgWaits = false) :
    Answers (.ringCfg c.id now) s c Status.ok (leBytes 8 (leAt c.params 2 2)) (ringIdSet c.params (s.atTime now)) := by
  have hrun := ringCfg_id (now := now) h hf
  rw [if_neg (by simp [hb]), if_neg (by simp [hd]), ringCfgApply, if_neg (by simp [State.cfgWaits_atTime, hw]), ringCfgEffect,
    if_pos hf] at hrun
  exact exec_ringCfg h (ringIdSet_writes (State.live_clocked h.atTime.live) _) hrun

/-! ### SUB 1 -/

theorem exec_ringCfg_map_bad (hf : byteAt c.params 0 = 1) (hb : mapBad c.params s.mapDue = true) :
    Answers (.ringCfg c.id now) s c Status.badParam [] (s.atTime now) :=
  exec_ringCfg_refused h ((ringCfg_map h hf).trans (if_pos hb))

theorem exec_ringCfg_map (hf : byteAt c.params 0 = 1) (hb : mapBad c.params s.mapDue = false) :
    Answers (.ringCfg c.id now) s c Status.ok (leBytes 8 (mapCrc (mapAfter c.params s.mapDue))) { s.atTime now with
      ring := { (s.atTime now).ring with
        cfgDue := if s.cfgWaits = true then s.ring.cfgDue ++ [c.params] else s.ring.cfgDue
        map := if s.cfgWaits = true then s.ring.map else mapAfter c.params s.ring.map } } := by
  have hrun := ringCfg_map (now := now) h hf
  rw [if_neg (by simp [hb]), ringCfgApply, State.cfgWaits_atTime] at hrun
  refine .of_clocked rfl (State.live_clocked h.live) ?_
  rw [hrun]
  by_cases hw : s.cfgWaits = true
  · simp only [if_pos hw]
    exact Answers.of_finish h _ _ rfl rfl rfl rfl
  · rw [ringCfgEffect, if_neg (show ¬ byteAt c.params 0 = 0 by omega)]
    simp only [if_neg hw]
    exact Answers.of_finish h _ _ rfl rfl rfl rfl

/-! ### SUB 2 -/

theorem exec_ringCfg_sched_bad (hf : byteAt c.params 0 = 2) (hb : (s.atTime now).schedBad c.params = true) :
    Answers (.ringCfg c.id now) s c Status.badParam [] (s.atTime now) :=
  exec_ringCfg_refused h ((ringCfg_sched h hf).trans (if_pos hb))

theorem exec_ringCfg_sched_denied (hf : byteAt c.params 0 = 2) (hb : (s.atTime now).schedBad c.params = false)
    (hr : s.role 1 = false) : Answers (.ringCfg c.id now) s c Status.denied [] (s.atTime now) :=
  exec_ringCfg_refused h (by rw [ringCfg_sched h hf, if_neg (by simp [hb]), if_pos (by simp [hr])])

omit h in
theorem changeSched_first (hh : s.hoists = false) (period latency suml : Nat) : changeSched period latency suml s
    = (firstSched ⟨0, s.tsu.now + 250000000, period, latency, 0, suml⟩ { s with tsu := { s.tsu with held := true } }, 0) := by
  unfold changeSched
  rw [if_pos (by simp [hh])]

omit h in
/-- The first schedule of an engine that holds its own time from now on. -/
theorem changeSched_held (hclk : s.cclkOn = true) (hh : s.hoists = false) (period latency suml : Nat) : ∃ w,
    changeSched period latency suml s = (w, 0) ∧ Shows ⟨0, s.tsu.now + 250000000, period, latency, 0, suml⟩ w
      ∧ w.tsu.held = true ∧ Writes (Listed schedFlds) s w := by
  have hfs := firstSched_inForce (s := { s with tsu := { s.tsu with held := true } }) hclk
    ⟨0, s.tsu.now + 250000000, period, latency, 0, suml⟩
  exact ⟨_, changeSched_first hh period latency suml, hfs.toShows, hfs.held, .trans (.putTsu s _) hfs.writes⟩

/-- The first schedule of the ring begins 250 ms after the command (R518, R525). -/
theorem exec_ringCfg_sched (hf : byteAt c.params 0 = 2) (hb : (s.atTime now).schedBad c.params = false) (hr : s.role 1 = true)
    (hh : s.hoists = false) : ∃ u, Answers (.ringCfg c.id now) s c Status.ok (leBytes 8 0) u
      ∧ u.fld F.TSU_SCHED0_EPOCH = ((s.atTime now).tsu.now + 250000000) % 2 ^ 64 ∧ u.fld F.TSU_SCHED1_PERIOD = leAt c.params 8 6
      ∧ u.fld F.TSU_SCHED1_SSEQ = 0 ∧ u.fld F.TSU_SCHED2_LATENCY = leAt c.params 16 4 ∧ u.fld F.TSU_SCHED2_N0 = 0
      ∧ u.tsu.held = true := by
  have hrun := ringCfg_sched (now := now) h hf
  rw [if_neg (by simp [hb]), if_neg (by simp [hr])] at hrun
  obtain ⟨w, hchange, hshows, hheld, hw⟩ := changeSched_held (s := s.atTime now) (State.live_clocked h.atTime.live) hh
    (leAt c.params 8 6) (leAt c.params 16 4) (leAt c.params 20 4)
  rw [hchange] at hrun
  have hsent := Transmits.scheduleFrameSend w
  have hs := hshows.congr fun f _ => hsent.fld f
  refine ⟨scheduleFrameSend w, exec_ringCfg h (hw.trans (.of_transmits hsent)) hrun, hs.epoch,
    hs.period.trans (Nat.mod_eq_of_lt ((leAt_lt _ _ 6).trans_eq (by norm_num))), hs.sseq,
    hs.latency.trans (Nat.mod_eq_of_lt ((leAt_lt _ _ 4).trans_eq (by norm_num))), hs.first, ?_⟩
  rw [hsent.rest]
  exact hheld

end RingCfg

end Sys2Proof.Machine
end

section
/-!
PROOFS. What the works of a hoist leave as it was: the wall clock, the ring unit, the command core, the mode.
-/

namespace Sys2Proof.Machine

/-! ### Replies, folds, reports -/

/-- Completing a command changes the commands and the requests of port 0 alone. -/
theorem finish_rest (id st : Nat) (ps : List Byte) (s : State) :
    finish id st ps s = { s with mpt0 := (finish id st ps s).mpt0, cmds := { s.cmds with
      list := (finish id st ps s).cmds.list, after := (finish id st ps s).cmds.after, gw := (finish id st ps s).cmds.gw
      cq := (finish id st ps s).cmds.cq, tx := (finish id st ps s).cmds.tx } } := by
  unfold finish
  split
  · rfl
  · split
    · rfl
    · split
      · rfl
      · unfold sendReply
        split
        · next k _ =>
          rw [(cqPush_writes k _ _).rest]
          rfl
        · split <;> rfl

/-- What every step of a fold keeps, the fold keeps. -/
theorem foldl_keeps {α β : Type} (g : State → β) {f : State → α → State} (h : ∀ s a, g (f s a) = g s) (l : List α) (s : State) :
    g (l.foldl f s) = g s := by
  induction l generalizing s with
  | nil => rfl
  | cons a l ih => rw [List.foldl_cons, ih, h]

/-- The TSU's and the TDU's own state. -/
def State.timed (s : State) : Tsu × TduSt := (s.tsu, s.tdu)

theorem State.timed_setFld (s : State) (f : FRef) (v : Nat) : (s.setFld f v).timed = s.timed := rfl

theorem State.timed_wakeEvent (s : State) : s.wakeEvent.timed = s.timed := by
  unfold State.wakeEvent
  split
  · rfl
  · split <;> rfl

theorem State.timed_watchHit (s : State) (k : Nat) : (s.watchHit k).timed = s.timed := by
  unfold State.watchHit
  split
  · extract_lets first s1 s2
    have h1 : s1.timed = s.timed := foldl_keeps State.timed (fun _ _ => State.timed_setFld _ _ _) (s.watchers k) s
    have h2 : s2.timed = s.timed := by
      rw [← h1]
      unfold s2
      split <;> rfl
    split
    · rw [State.timed_wakeEvent, ← h2]
      rfl
    · exact h2
  · rfl

theorem State.timed_raise (s : State) (k : Nat) : (s.raise k).timed = s.timed := by
  unfold State.raise State.raiseN
  split
  · exact s.timed_watchHit k
  · split
    · rfl
    · split <;> rfl

theorem State.timed_cmds (s : State) (x : Cmds) : ({ s with cmds := x } : State).timed = s.timed := rfl

/-- A report that becomes due, with the source that tells it. -/
theorem timed_judged (s : State) (div : Bool) (f : FRef) (v : Nat) :
    (if div then (({ s with cmds := { s.cmds with reportDue := true } } : State).raise 159).setFld f v
      else ({ s with cmds := { s.cmds with reportDue := true } } : State).raise 159).timed = s.timed := by
  split
  · rw [State.timed_setFld, State.timed_raise, State.timed_cmds]
  · rw [State.timed_raise, State.timed_cmds]

theorem timed_judgeUnit (cls idx cause : Nat) (s : State) : (judgeUnit cls idx cause s).timed = s.timed := by
  unfold judgeUnit
  simp only
  split
  · rfl
  · rw [timed_judged, State.timed_setFld, State.setFlag, State.timed_setFld]

theorem timed_observe (cls idx obs cause : Nat) (s : State) : (observe cls idx obs cause s).timed = s.timed := by
  unfold observe
  split
  · rw [timed_judgeUnit, State.timed_setFld]
  · rfl

/-! ### Steadiness -/

/-- Time, frames, the ring unit, the core, the mode, what waits for a hoist and FRAME_N stand. -/
structure Still (s t : State) : Prop where
  build : t.build = s.build
  ring : t.ring = s.ring
  tsu : t.tsu = s.tsu
  tdu : t.tdu = s.tdu
  frame : t.frame = s.frame
  cc : t.cc = s.cc
  ao : t.ao = { s.ao with waking := t.ao.waking, wakeHeld := t.ao.wakeHeld }
  atHoist : t.cmds.atHoist = s.cmds.atHoist
  modeReg : t.reg F.AO_MODE_MODE.off = s.reg F.AO_MODE_MODE.off
  frameReg : t.reg F.TSU_FRAME_N.off = s.reg F.TSU_FRAME_N.off

/-- A work of a hoist that leaves all that, and the sequencers' event latches. -/
structure Steady (s t : State) : Prop extends Still s t where
  latch : ∀ q, (t.seq q).latch = (s.seq q).latch

section Steady
variable {s t u : State}

theorem Still.refl (s : State) : Still s s := ⟨rfl, rfl, rfl, rfl, rfl, rfl, rfl, rfl, rfl, rfl⟩

theorem Still.trans (h : Still s t) (k : Still t u) : Still s u where
  build := k.build.trans h.build
  ring := k.ring.trans h.ring
  tsu := k.tsu.trans h.tsu
  tdu := k.tdu.trans h.tdu
  frame := k.frame.trans h.frame
  cc := k.cc.trans h.cc
  ao := by
    have h1 := h.ao
    have k1 := k.ao
    rw [h1] at k1
    exact k1
  atHoist := k.atHoist.trans h.atHoist
  modeReg := k.modeReg.trans h.modeReg
  frameReg := k.frameReg.trans h.frameReg

theorem Steady.refl (s : State) : Steady s s := ⟨.refl s, fun _ => rfl⟩

theorem Steady.trans (h : Steady s t) (k : Steady t u) : Steady s u :=
  ⟨h.toStill.trans k.toStill, fun q => (k.latch q).trans (h.latch q)⟩

theorem Steady.foldl {α : Type} {f : State → α → State} (l : List α) (hf : ∀ s, ∀ a ∈ l, Steady s (f s a)) (s : State) :
    Steady s (l.foldl f s) := by
  induction l generalizing s with
  | nil => exact .refl s
  | cons a l ih => exact .trans (hf s a (by simp)) (ih (fun s b hb => hf s b (by simp [hb])) _)

theorem Steady.setReg (s : State) (off : Nat) (v : W64) (h1 : off ≠ F.AO_MODE_MODE.off) (h2 : off ≠ F.TSU_FRAME_N.off) :
    Steady s (s.setReg off v) :=
  ⟨⟨rfl, rfl, rfl, rfl, rfl, rfl, rfl, rfl, State.reg_setReg_ne s off _ v h1.symm, State.reg_setReg_ne s off _ v h2.symm⟩, fun _ => rfl⟩

theorem Steady.setFld (s : State) (f : FRef) (v : Nat) (h1 : f.off ≠ F.AO_MODE_MODE.off) (h2 : f.off ≠ F.TSU_FRAME_N.off) :
    Steady s (s.setFld f v) := .setReg s _ _ h1 h2

theorem Steady.setFlag (s : State) (f : FRef) (b : Bool) (h1 : f.off ≠ F.AO_MODE_MODE.off) (h2 : f.off ≠ F.TSU_FRAME_N.off) :
    Steady s (s.setFlag f b) := .setFld s _ _ h1 h2

/-- Other units, the ports and the commands in hand may do anything. -/
theorem Steady.of_units (h : t = { s with
    mpt0 := t.mpt0, mpt1 := t.mpt1, lines := t.lines, cmds := { t.cmds with atHoist := s.cmds.atHoist }, tenants := t.tenants
    pus := t.pus, dec := t.dec, lp := t.lp, ba := t.ba, freeCtr := t.freeCtr }) : Steady s t := by
  rw [h]
  exact ⟨⟨rfl, rfl, rfl, rfl, rfl, rfl, rfl, rfl, rfl, rfl⟩, fun _ => rfl⟩

theorem Steady.of_reports (h : Reports s t) (ht : t.timed = s.timed) : Steady s t where
  build := h.build
  ring := by rw [h.rest]
  tsu := congrArg Prod.fst ht
  tdu := congrArg Prod.snd ht
  frame := by rw [h.rest]
  cc := h.cc
  ao := by rw [h.rest]
  atHoist := by rw [h.rest]
  modeReg := h.regs _ (by decide)
  frameReg := h.regs _ (by decide)
  latch q := by rw [h.rest]; rfl

theorem Steady.raise (s : State) (k : Nat) : Steady s (s.raise k) := .of_reports (.raise s k) (s.timed_raise k)

theorem Steady.observe (cls idx obs cause : Nat) (s : State) : Steady s (observe cls idx obs cause s) :=
  .of_reports (.observe cls idx obs cause s) (timed_observe cls idx obs cause s)

theorem Steady.finish (id st : Nat) (ps : List Byte) (s : State) : Steady s (finish id st ps s) :=
  .of_units (by rw [finish_rest])

theorem Steady.dec (s : State) (x : DecSt) : Steady s { s with dec := x } := .of_units rfl

theorem Steady.lp (s : State) (x : LpSt) : Steady s { s with lp := x } := .of_units rfl
theorem Steady.ba (s : State) (x : BaSt) : Steady s { s with ba := x } := .of_units rfl
theorem Steady.tenants (s : State) (x : List (Nat × Tenant)) : Steady s { s with tenants := x } := .of_units rfl

theorem Still.mode (h : Still s t) : t.mode = s.mode := by
  unfold State.mode State.fld
  rw [h.modeReg]

theorem Still.cclkOn (h : Still s t) : t.cclkOn = s.cclkOn := by
  unfold State.cclkOn State.inReset State.asleep
  rw [h.mode, h.ao]

theorem Still.modeWait (h : Still s t) : t.ao.modeWait = s.ao.modeWait := by rw [h.ao]

theorem Still.calm (h : Still s t) (hs : s.calm) : t.calm := State.calm_of hs (by rw [h.cc]) (by rw [h.tdu])

end Steady

/-! ### Slice engines (R332) -/

theorem seBusy_steady (n : Nat) (s : State) : Steady s (seBusy n s) := by
  unfold seBusy
  split
  · exact .refl s
  · exact .observe _ _ _ _ s

theorem seBusyAll_steady (s : State) : Steady s (seBusyAll s) := .foldl _ (fun t n _ => seBusy_steady n t) s

theorem setRows_steady (s : State) (n : Nat) (l : List RowJob) : Steady s (s.setRows n l) :=
  .trans (.dec s _) (seBusy_steady n _)

theorem State.seq_setSeq (s : State) (q r : Nat) (x : Seq) : (s.setSeq q x).seq r = if r = q then x else s.seq r :=
  SMap.get_put _ _ _ _ _

theorem setStage_steady (s : State) (q k : Nat) (g : Stage) : Steady s (s.setStage q k g) where
  build := rfl
  ring := rfl
  tsu := rfl
  tdu := rfl
  frame := rfl
  cc := rfl
  ao := rfl
  atHoist := rfl
  modeReg := rfl
  frameReg := rfl
  latch r := by
    unfold State.setStage
    rw [State.seq_setSeq]
    split
    · next h => rw [h]
    · rfl

theorem idleStages_steady (n : Nat) (s : State) : Steady s (idleStages n s) := by
  refine .foldl _ (fun t k _ => ?_) s
  split
  · exact setStage_steady ..
  · exact .refl t

theorem emptyEngines_steady (keep : Nat → Bool) (s : State) : Steady s (emptyEngines keep s) := by
  refine .foldl _ (fun t e _ => ?_) s
  split
  · exact .refl t
  · exact .trans (setRows_steady t _ _) (idleStages_steady _ _)

theorem forget_steady (s : State) (p : MptUse → Bool) : Steady s (s.forget p) := .of_units rfl

theorem setWin_steady (s : State) (k : Nat) (w : Win) : Steady s (s.setWin k w) := .of_units rfl

theorem openFrame_steady (n : Option Nat) (s : State) : Steady s (openFrame n s) := by
  unfold openFrame
  extract_lets s1 s2
  have h1 : Steady s s1 := by
    refine .foldl _ (fun t k _ => ?_) s
    extract_lets w v
    split
    · exact .refl t
    · split
      · exact setWin_steady t k v
      · exact .trans (setWin_steady t k v) (forget_steady _ _)
  exact h1.trans (.trans (emptyEngines_steady _ s1) (.trans (.dec _ _) (seBusyAll_steady _)))

theorem stopDecode_steady (s : State) : Steady s (stopDecode s) := by
  unfold stopDecode
  extract_lets s1
  have h1 : Steady s s1 := .trans (forget_steady s _) (emptyEngines_steady _ _)
  exact h1.trans (.trans (.dec _ _) (seBusyAll_steady _))

/-! ### Pulse units (R451) -/

/-- A register of one of many units, 64 bytes apart, that does not lie where FRAME_N would. -/
theorem Steady.unitFld (s : State) {b n lo w : Nat} (v : Nat) (hb : 0x10000 < b ∧ b % 0x40 ≠ 0x28) :
    Steady s (s.setFld ⟨b + 0x40 * n, lo, w⟩ v) := .setFld s _ v (by simp only; omega) (by simp only; omega)

theorem Steady.unitReg (s : State) {b n : Nat} (v : W64) (hb : 0x10000 < b ∧ b % 0x40 ≠ 0x28) : Steady s (s.setReg (b + 0x40 * n) v) :=
  .setReg s _ v (by simp only; omega) (by simp only; omega)

theorem puCfgApply_steady (n : Nat) (c : PuCfgReq) (s : State) : Steady s (puCfgApply n c s) := by
  unfold puCfgApply
  extract_lets b s1 s2 s3
  have h1 : Steady s s1 := .trans (.unitFld _ _ (by decide)) (.unitFld _ _ (by decide))
  have h2 : Steady s1 s2 := .trans (.unitFld _ _ (by decide)) (.trans (.unitFld _ _ (by decide)) (.trans (.unitFld _ _ (by decide))
    (.unitFld _ _ (by decide))))
  have h3 : Steady s2 s3 := .trans (.unitFld _ _ (by decide)) (.trans (.unitFld _ _ (by decide)) (.unitFld _ _ (by decide)))
  refine h1.trans ?_
  split
  · exact h2.trans (h3.trans (.trans (.unitFld _ _ (by decide)) (.trans (.unitFld _ _ (by decide)) (.unitFld _ _ (by decide)))))
  · exact .unitFld _ _ (by decide)
  · exact .refl _

theorem puForceErr_steady (n : Nat) (s : State) : Steady s (puForceErr n s) := by
  unfold puForceErr
  split
  · exact .trans (.unitFld _ _ (by decide)) (.raise _ _)
  · exact .refl s

theorem setPu_steady (s : State) (n : Nat) (x : Pu) : Steady s (s.setPu n x) := .of_units rfl

theorem puCfgEffect_steady (n : Nat) (h : Bool) (s : State) : Steady s (puCfgEffect n h s) := by
  unfold puCfgEffect
  extract_lets p
  split
  · exact .refl s
  · extract_lets due s1 p1 p2 s2
    split
    · have h1 : Steady s s1 := .trans (setPu_steady s n _) (.trans (puCfgApply_steady n _ _) (puForceErr_steady n _))
      have h2 : Steady s1 s2 := by
        unfold s2
        split
        · exact setPu_steady _ n _
        · split
          · exact setPu_steady _ n _
          · exact .refl _
      exact h1.trans (h2.trans (.finish _ _ _ _))
    · exact .refl s

/-! ### The light path (R404, R405) -/

theorem calSwitch_steady (r : CalRun) (n : Nat) (s : State) : Steady s (calSwitch r n s) := by
  unfold calSwitch
  extract_lets b m csel s1 s2 s3 s4 lp5 s5
  have h1 : Steady s s1 := .trans (.unitFld _ _ (by decide)) (.unitFld _ _ (by decide))
  have h2 : Steady s1 s2 := .trans (.unitReg _ _ (by decide)) (.trans (.unitReg _ _ (by decide)) (.unitFld _ _ (by decide)))
  have h3 : Steady s2 s3 := .trans (.unitFld _ _ (by decide)) (.trans (.unitFld _ _ (by decide)) (.trans (.unitFld _ _ (by decide))
    (.unitFld _ _ (by decide))))
  have h4 : Steady s3 s4 := by
    unfold s4
    split
    · exact .refl _
    · exact .unitFld _ _ (by decide)
  exact h1.trans (h2.trans (h3.trans (h4.trans (.trans (.lp s4 _) (.finish _ _ _ _)))))

theorem lightPathHoist_steady (s : State) : Steady s (lightPathHoist s) := by
  unfold lightPathHoist
  extract_lets s0 lanes lp1 s1 g s2
  have h0 : Steady s s0 := .foldl _ (fun t r _ => calSwitch_steady r _ t) s
  have h2 : Steady s1 s2 := .trans (.setFld _ _ _ (by decide) (by decide)) (.setFlag _ _ _ (by decide) (by decide))
  have h : Steady s s2 := h0.trans (.trans (.lp s0 _) h2)
  split
  · refine h.trans (.foldl _ (fun t n _ => ?_) s2)
    split
    · exact .raise t _
    · exact .refl t
  · exact h

/-! ### The budget arbiter (R476) -/

theorem byteAt_lt (l : List Byte) (k : Nat) : byteAt l k < 256 := (l.getD k 0).isLt

theorem senseFrame_steady (s : State) : Steady s (senseFrame s) := by
  unfold senseFrame
  split
  · exact .setFld _ _ _ (by decide) (by decide)
  · extract_lets chen have_ tot meas s1 model r trim
    split
    · exact .setFld _ _ _ (by decide) (by decide)
    · have h1 : Steady s s1 := .trans (.setFld _ _ _ (by decide) (by decide)) (.setFld _ _ _ (by decide) (by decide))
      split
      · exact h1
      · exact h1.trans (.setFld _ _ _ (by decide) (by decide))

/-- A register of the arbiter. -/
theorem Steady.baFld (s : State) {f : FRef} (v : Nat) (h1 : 0x300000 ≤ f.off) (h2 : f.off < 0x400000) : Steady s (s.setFld f v) :=
  .setFld s _ v (by simp only; omega) (by simp only; omega)

/-- The forms of BUDGET_CFG that a hoist brings into effect. -/
theorem applyCfg_steady {p : List Byte} (hp : solverForm p = false) (s : State) : Steady s (applyCfg p s) := by
  have hlt : byteAt p 0 < 3 := by simpa [solverForm] using hp
  have h012 : byteAt p 0 = 0 ∨ byteAt p 0 = 1 ∨ byteAt p 0 = 2 := by omega
  unfold applyCfg
  rcases h012 with h | h | h
  · simp only [h]
    repeat' refine .trans ?_ (.baFld _ _ (by decide) (by decide))
    exact .refl s
  · simp only [h]
    have hb1 := byteAt_lt p 1
    have hb2 := byteAt_lt p 2
    refine .foldl _ (fun t j hj => ?_) s
    have hj := List.mem_range.mp hj
    repeat' refine .trans ?_ (.baFld _ _ (by simp only; omega) (by simp only; omega))
    exact .refl t
  · simp only [h]
    repeat' refine .trans ?_ (.baFld _ _ (by decide) (by decide))
    exact .refl s

theorem applyPending_steady (s : State) : Steady s (applyPending false s) := by
  unfold applyPending
  simp only [List.partition_eq_filter_filter]
  refine .trans (.ba s _) (.foldl _ (fun t p hp => applyCfg_steady ?_ t) _)
  simpa using (List.mem_filter.mp hp).2

theorem budgetHoist_steady (n : Nat) (s : State) : Steady s (budgetHoist n s) := by
  unfold budgetHoist
  extract_lets s1 shows ba2 s2
  exact .trans (senseFrame_steady s) (.trans (.ba s1 _) (applyPending_steady s2))

/-! ### Tenants, commands, the change to Half-Mast -/

theorem tenantsOpened_steady (s : State) : Steady s (tenantsOpened s) := .tenants s _

/-- Outside Display and Half-Mast a hoist leaves the mode. -/
theorem halfMastAtHoist_steady {s : State} (h1 : s.mode ≠ Mode.display) (h2 : s.mode ≠ Mode.halfMast) :
    Steady s (halfMastAtHoist s) := by
  unfold halfMastAtHoist
  simp only [h1, h2, decide_false, Bool.false_and, Bool.false_eq_true, if_false]
  exact .ba s _

theorem commandsAtHoist_none {s : State} (h : s.cmds.atHoist = []) : commandsAtHoist s = s := by
  unfold commandsAtHoist
  simp only [h, List.foldl_nil]
  rw [← h]

theorem modeAtHoist_none {s : State} (h : s.ao.modeWait = none) (n : Nat) : modeAtHoist n s = s := by
  unfold modeAtHoist State.modeDue
  simp only [h]

theorem ringCfgAtHoist_none {s : State} (h : s.ring.cfgDue = []) : ringCfgAtHoist s = s := by
  unfold ringCfgAtHoist
  rw [h, List.foldl_nil, ← h]

/-! ### Sequencer events (R146) -/

/-- What an event of code `c` does to sequencer q. -/
def State.seqTick (c : Nat) (s : State) (q : Nat) : State :=
  if !seqPresent s.build q then s
  else
    let x := s.seq q
    let t1 := if bitOf x.latch (c - 48) then (s.setFlag (F.SQ_STAT_EVOVR q) true).raise (51 + q) else s
    t1.setSeq q { x with latch := setBit x.latch (c - 48) }

theorem Still.setSeq (s : State) (q : Nat) (x : Seq) : Still s (s.setSeq q x) := ⟨rfl, rfl, rfl, rfl, rfl, rfl, rfl, rfl, rfl, rfl⟩

/-- The state in which an event comes to sequencer q: an event that is there already has been counted as overrun. -/
theorem seqTick_before {c q : Nat} {s : State} (hq : q < 19) :
    Steady s (if bitOf (s.seq q).latch (c - 48) then (s.setFlag (F.SQ_STAT_EVOVR q) true).raise (51 + q) else s) := by
  split
  · have hmode : (F.SQ_STAT_EVOVR q).off ≠ F.AO_MODE_MODE.off := by interval_cases q <;> decide
    have hframe : (F.SQ_STAT_EVOVR q).off ≠ F.TSU_FRAME_N.off := by interval_cases q <;> decide
    exact .trans (.setFlag _ _ _ hmode hframe) (.raise _ _)
  · exact .refl s

theorem State.seqTick_still (c : Nat) {q : Nat} (hq : q < 19) (s : State) : Still s (s.seqTick c q) := by
  unfold State.seqTick
  split
  · exact .refl s
  · exact (seqTick_before hq).toStill.trans (.setSeq _ q _)

theorem State.latch_seqTick (c : Nat) {q : Nat} (hq : q < 19) (s : State) (r : Nat) : ((s.seqTick c q).seq r).latch
    = if r = q ∧ seqPresent s.build q = true then setBit (s.seq r).latch (c - 48) else (s.seq r).latch := by
  have hb := seqTick_before (c := c) (s := s) hq
  unfold State.seqTick
  by_cases hp : seqPresent s.build q = true
  · simp only [hp, Bool.not_true, Bool.false_eq_true, if_false, and_true, State.seq_setSeq]
    by_cases hr : r = q
    · simp [hr]
    · simp only [hr, if_false]
      exact hb.latch r
  · simp [hp]

theorem bitOf_setBit_self (x k : Nat) : bitOf (setBit x k) k = true := by
  unfold setBit
  split
  · assumption
  · next h => rw [Nat.add_comm, bitOf_eq_testBit, Nat.testBit_two_pow_add_eq, ← bitOf_eq_testBit, Bool.eq_false_iff.mpr h]; rfl

/-- Setting a bit leaves a bit that is set below it. -/
theorem bitOf_setBit_of {x k j : Nat} (hj : j ≤ k) (h : bitOf x j = true) : bitOf (setBit x k) j = true := by
  rcases Nat.lt_or_eq_of_le hj with hlt | rfl
  · unfold setBit
    split
    · exact h
    · rw [Nat.add_comm, bitOf_eq_testBit, Nat.testBit_two_pow_add_gt hlt, ← bitOf_eq_testBit, h]
  · exact bitOf_setBit_self x j

theorem seqTicks_still (c : Nat) (l : List Nat) (hl : ∀ q ∈ l, q < 19) (s : State) : Still s (l.foldl (State.seqTick c) s) := by
  induction l generalizing s with
  | nil => exact .refl s
  | cons q l ih => exact (s.seqTick_still c (hl q (by simp))).trans (ih (fun r hr => hl r (by simp [hr])) _)

theorem seqTicks_keep {c j : Nat} (hj : j ≤ c - 48) (l : List Nat) (hl : ∀ q ∈ l, q < 19) (s : State) (r : Nat)
    (h : bitOf (s.seq r).latch j = true) : bitOf ((l.foldl (State.seqTick c) s).seq r).latch j = true := by
  induction l generalizing s with
  | nil => exact h
  | cons q l ih =>
    refine ih (fun r hr => hl r (by simp [hr])) _ ?_
    rw [s.latch_seqTick c (hl q (by simp))]
    split
    · exact bitOf_setBit_of hj h
    · exact h

theorem seqTicks_set (c : Nat) (l : List Nat) (hl : ∀ q ∈ l, q < 19) (s : State) {r : Nat} (hr : r ∈ l)
    (hp : seqPresent s.build r = true) : bitOf ((l.foldl (State.seqTick c) s).seq r).latch (c - 48) = true := by
  induction l generalizing s with
  | nil => exact absurd hr (by simp)
  | cons q l ih =>
    have hl' : ∀ q ∈ l, q < 19 := fun r hr => hl r (by simp [hr])
    rcases List.mem_cons.mp hr with rfl | hmem
    · refine seqTicks_keep (Nat.le_refl _) l hl' _ r ?_
      rw [s.latch_seqTick c (hl r (by simp)), if_pos ⟨rfl, hp⟩]
      exact bitOf_setBit_self _ _
    · exact ih hl' _ hmem (by rw [(s.seqTick_still c (hl q (by simp))).build]; exact hp)

/-- The hoist has come to every sequencer, with the events of its two codes (R146, R520). -/
theorem seqEvents_hoist (s : State) : Still s (seqEvent 49 (seqEvent 48 s))
    ∧ ∀ q, q < 19 → seqPresent s.build q = true →
      bitOf ((seqEvent 49 (seqEvent 48 s)).seq q).latch 0 = true ∧ bitOf ((seqEvent 49 (seqEvent 48 s)).seq q).latch 1 = true := by
  have hl : ∀ q ∈ List.range 19, q < 19 := fun q => List.mem_range.mp
  have h48 := seqTicks_still 48 _ hl s
  refine ⟨h48.trans (seqTicks_still 49 _ hl _), fun q hq hp => ⟨?_, ?_⟩⟩
  · exact seqTicks_keep (by decide) _ hl _ q (seqTicks_set 48 _ hl s (List.mem_range.mpr hq) hp)
  · exact seqTicks_set 49 _ hl _ (List.mem_range.mpr hq) (by rw [← hp, ← h48.build]; rfl)

end Sys2Proof.Machine
end

section
/-!
PROOFS. Wall time: the TSU's part of a hoist, and a hoist at which nothing waits (R146, R518 to R520).
-/

namespace Sys2Proof.Machine

/-! ### The TSU's part (R518, R519) -/

/-- The fields that the TSU and the ring unit write at a hoist. -/
def hoistFlds : List FRef := F.TSU_FRAME_N :: schedFlds

theorem hoistFlds_mode (f : FRef) (hf : Listed hoistFlds f) : F.AO_MODE_MODE.Apart f := Listed.apart (by decide) (by decide) f hf

theorem Writes.foldl_clocked {α : Type} {W : FRef → Prop} {f : State → α → State} (hW : ∀ f, W f → F.AO_MODE_MODE.Apart f)
    (hf : ∀ s a, s.cclkOn = true → Writes W s (f s a)) (l : List α) (s : State) (hc : s.cclkOn = true) : Writes W s (l.foldl f s) := by
  induction l generalizing s with
  | nil => exact .refl s
  | cons a l ih =>
    have h := hf s a hc
    exact h.trans (ih _ ((h.cclkOn hW).trans hc))

theorem governNext_writes {s : State} (hc : s.cclkOn = true) : Writes (Listed hoistFlds) s (governNext s) := by
  unfold governNext
  split
  · exact .refl s
  · next c rest _ =>
    have h := putSched_inForce (s := { s with tsu := { s.tsu with next := rest, fresh := false } }) hc c
    exact .trans (.putTsu s _) (.trans (h.writes.listed.longer (by decide)) (.reported (.raise _ 102)))

theorem Writes.putFrame {W : FRef → Prop} (s : State) (n : Nat) (x : Tsu) : Writes W s { s with frame := n, tsu := x } := .of_rf rfl rfl

/-- The schedule that the engine began with governs from this hoist on. -/
def State.freshened (s : State) (n : Nat) : State :=
  if s.tsu.fresh && decide (s.tsu.n0 ≤ n) then ({ s with tsu := { s.tsu with fresh := false } }).raise 102 else s

theorem State.freshened_writes (s : State) (n : Nat) : Writes (Listed hoistFlds) s (s.freshened n) := by
  unfold State.freshened
  split
  · exact .trans (.putTsu s _) (.reported (.raise _ 102))
  · exact .refl s

/-- The TSU counts frame n and moves the LATENCY in use. -/
def State.hoisted (s : State) (n : Nat) : State :=
  let goal := s.fld F.TSU_SCHED2_LATENCY
  let d := s.fld F.TSU_SCHED1_PERIOD / 65536 / 1000
  let lat := if s.tsu.lat < goal then min goal (s.tsu.lat + d) else max goal (s.tsu.lat - d)
  ({ s with frame := n, tsu := { s.tsu with ran := true, lat := lat, now := max s.tsu.now (s.hoistTime n) } }).setFld
    F.TSU_FRAME_N (n % 2 ^ 32)

theorem tsuHoist_eq (n : Nat) (s : State) :
    tsuHoist n s = (((s.tsu.next.filter fun c => decide (c.n0 ≤ n)).foldl (fun t _ => governNext t) s).freshened n).hoisted n := rfl

theorem State.hoisted_writes (s : State) (n : Nat) : Writes (Listed hoistFlds) s (s.hoisted n) :=
  .trans (.putFrame s n _) (.setFld _ _ (.inl (by decide)))

theorem tsuHoist_writes {s : State} (hc : s.cclkOn = true) (n : Nat) : Writes (Listed hoistFlds) s (tsuHoist n s) := by
  rw [tsuHoist_eq]
  exact .trans (.foldl_clocked hoistFlds_mode (fun t _ ht => governNext_writes ht) _ s hc)
    (.trans (State.freshened_writes _ n) (State.hoisted_writes _ n))

/-- What the TSU shows after hoist n. -/
structure Hoisted (n : Nat) (s t : State) : Prop where
  frame : t.frame = n
  frameN : t.fld F.TSU_FRAME_N = n % 2 ^ 32
  ran : t.tsu.ran = true
  time : s.hoistTime n ≤ t.tsu.now
  lat : t.tsu.lat = (if s.tsu.lat < s.fld F.TSU_SCHED2_LATENCY then
      min (s.fld F.TSU_SCHED2_LATENCY) (s.tsu.lat + s.fld F.TSU_SCHED1_PERIOD / 65536 / 1000)
    else max (s.fld F.TSU_SCHED2_LATENCY) (s.tsu.lat - s.fld F.TSU_SCHED1_PERIOD / 65536 / 1000))

theorem State.hoisted_shows (s : State) (n : Nat) : Hoisted n s (s.hoisted n) where
  frame := rfl
  frameN := (State.fld_setFld _ _ _ (by decide)).trans (Nat.mod_mod _ _)
  ran := rfl
  time := Nat.le_max_right _ _
  lat := rfl

/-- Where no schedule waits, the TSU goes on under the one in force. -/
theorem tsuHoist_shows {s : State} (hn : s.tsu.next = []) (n : Nat) : Hoisted n s (tsuHoist n s) := by
  rw [tsuHoist_eq, hn, List.filter_nil, List.foldl_nil]
  have hlat : (s.freshened n).tsu.lat = s.tsu.lat := by
    unfold State.freshened
    split
    · rw [(Reports.raise _ 102).rest]
    · rfl
  have hw : ∀ f ∈ shownFlds, (s.freshened n).fld f = s.fld f := by
    unfold State.freshened
    split
    · exact fun f hf => (Reports.raise _ 102).fld f (shownFlds_quiet f hf)
    · exact fun f _ => rfl
  have hgoal := hw F.TSU_SCHED2_LATENCY (by decide)
  have hperiod := hw F.TSU_SCHED1_PERIOD (by decide)
  have htime : (s.freshened n).hoistTime n = s.hoistTime n := by
    unfold State.hoistTime
    rw [hw F.TSU_SCHED0_EPOCH (by decide), hperiod]
  obtain ⟨h1, h2, h3, h4, h5⟩ := (s.freshened n).hoisted_shows n
  rw [htime] at h4
  rw [hlat, hgoal, hperiod] at h5
  exact ⟨h1, h2, h3, h4, h5⟩

/-! ### Gates and timers (R449, R507, R509) -/

/-- The gate lists that have waited are in force. -/
def State.gclTaken (s : State) : State :=
  [0, 1].foldl (fun t n =>
    let p := t.rport n
    match p.gclNext with
    | none => t
    | some g => t.setRport n { p with gcl := g, entry := 0, gclNext := none }) s

/-- The ring unit's part of a hoist: only ports, marks and timers that are due change. -/
structure Gated (s t : State) : Prop where
  rest : t = { s with tmrDue := t.tmrDue, ring := { s.ring with
    p0 := t.ring.p0, p1 := t.ring.p1, polDrop := t.ring.polDrop, authDrop := t.ring.authDrop } }

theorem Gated.refl (s : State) : Gated s s := ⟨rfl⟩

theorem Gated.trans {s t u : State} (h : Gated s t) (k : Gated t u) : Gated s u := by
  refine ⟨?_⟩
  have h1 := h.rest
  have k1 := k.rest
  rw [h1] at k1
  exact k1

theorem Gated.setRport (s : State) (n : Nat) (p : RingPort) : Gated s (s.setRport n p) := by
  unfold State.setRport
  split <;> exact ⟨rfl⟩

theorem State.gclTaken_gated (s : State) : Gated s s.gclTaken := by
  have step : ∀ (t : State) (n : Nat), Gated t (match (t.rport n).gclNext with
      | none => t
      | some g => t.setRport n { t.rport n with gcl := g, entry := 0, gclNext := none }) := fun t n => by
    split
    · exact .refl t
    · exact .setRport t n _
  exact (step s 0).trans (step _ 1)

/-- Both gate lists at their first entry; the timers and the marks of drops see the hoist. -/
def State.gatesReset (s : State) : State :=
  let s2 := s.setRport 0 { s.rport 0 with entry := 0 }
  let s3 := s2.setRport 1 { s2.rport 1 with entry := 0 }
  tmrEvent 0x09 true false { s3 with ring := { s3.ring with polDrop := false, authDrop := false } }

theorem State.gatesReset_gated (s : State) : Gated s s.gatesReset := ⟨rfl⟩

theorem State.gatesReset_entry (s : State) : s.gatesReset.ring.p0.entry = 0 ∧ s.gatesReset.ring.p1.entry = 0 := ⟨rfl, rfl⟩

theorem hoistTimeSide_eq (n : Nat) (s : State) : hoistTimeSide n s
    = (if ([0, 1].any fun k => ((tsuHoist n s).rport k).gclNext.isSome) then (tsuHoist n s).gclTaken.raise 104
      else (tsuHoist n s).gclTaken).gatesReset := rfl

/-- Gates and reports aside, a hoist's time side is the TSU's. -/
theorem hoistTimeSide_gates (n : Nat) (s : State) : ∃ u, (u = (tsuHoist n s).gclTaken ∨ u = (tsuHoist n s).gclTaken.raise 104)
    ∧ hoistTimeSide n s = u.gatesReset := by
  rw [hoistTimeSide_eq]
  split
  · exact ⟨_, .inr rfl, rfl⟩
  · exact ⟨_, .inl rfl, rfl⟩

theorem Gated.writes {W : FRef → Prop} {s t : State} (h : Gated s t) : Writes W s t := by
  have h1 := h.rest
  refine .of_rf ?_ ?_
  · rw [h1]
  · rw [h1]

theorem hoistTimeSide_writes {s : State} (hc : s.cclkOn = true) (n : Nat) : Writes (Listed hoistFlds) s (hoistTimeSide n s) := by
  obtain ⟨u, hu, hside⟩ := hoistTimeSide_gates n s
  have h1 := (tsuHoist_writes hc n).trans (State.gclTaken_gated _).writes
  rw [hside]
  refine .trans ?_ u.gatesReset_gated.writes
  rcases hu with rfl | rfl
  · exact h1
  · exact h1.trans (.reported (.raise _ 104))

/-- The time side of a hoist with no schedule waiting. -/
theorem hoistTimeSide_shows {s : State} (hn : s.tsu.next = []) (n : Nat) : Hoisted n s (hoistTimeSide n s)
    ∧ (hoistTimeSide n s).ring.p0.entry = 0 ∧ (hoistTimeSide n s).ring.p1.entry = 0 := by
  obtain ⟨u, hu, hside⟩ := hoistTimeSide_gates n s
  obtain ⟨h1, h2, h3, h4, h5⟩ := tsuHoist_shows hn n
  have hg := (tsuHoist n s).gclTaken_gated
  have hgw : Writes (Listed []) (tsuHoist n s) (tsuHoist n s).gclTaken := hg.writes
  have htsu : (tsuHoist n s).gclTaken.tsu = (tsuHoist n s).tsu := by rw [hg.rest]
  have hframe : (tsuHoist n s).gclTaken.frame = (tsuHoist n s).frame := by rw [hg.rest]
  have hu' : u.tsu = (tsuHoist n s).tsu ∧ u.frame = (tsuHoist n s).frame ∧ u.fld F.TSU_FRAME_N = (tsuHoist n s).fld F.TSU_FRAME_N := by
    have hfld := hgw.fld_listed F.TSU_FRAME_N (by decide) (by simp) (by decide)
    rcases hu with rfl | rfl
    · exact ⟨htsu, hframe, hfld⟩
    · have hr := Steady.raise (tsuHoist n s).gclTaken 104
      exact ⟨hr.tsu.trans htsu, hr.frame.trans hframe, ((Reports.raise _ 104).fld _ (by decide)).trans hfld⟩
  obtain ⟨k1, k2, k3⟩ := hu'
  have hr := u.gatesReset_gated
  have hrw : Writes (Listed []) u u.gatesReset := hr.writes
  have ktsu : u.gatesReset.tsu = u.tsu := by rw [hr.rest]
  have kframe : u.gatesReset.frame = u.frame := by rw [hr.rest]
  have kfld := hrw.fld_listed F.TSU_FRAME_N (by decide) (by simp) (by decide)
  rw [hside]
  refine ⟨⟨?_, ?_, ?_, ?_, ?_⟩, u.gatesReset_entry⟩
  · rw [kframe, k2, h1]
  · rw [kfld, k3, h2]
  · rw [ktsu, k1, h3]
  · rw [ktsu, k1]
    exact h4
  · rw [ktsu, k1, h5]

/-! ### The hoist (R520) -/

theorem Writes.calm {W : FRef → Prop} {s t : State} (h : Writes W s t) (hs : s.calm) : t.calm :=
  State.calm_of hs (by rw [h.rest]) (by rw [h.rest])

theorem Writes.mode {W : FRef → Prop} {s t : State} (h : Writes W s t) (ha : ∀ f, W f → F.AO_MODE_MODE.Apart f) : t.mode = s.mode :=
  h.fld F.AO_MODE_MODE (by decide) ha

theorem Writes.live {W : FRef → Prop} {s t : State} (h : Writes W s t) (ha : ∀ f, W f → F.AO_MODE_MODE.Apart f) : t.live = s.live := by
  unfold State.live
  rw [h.cclkOn ha, h.mode ha]

/-- At a hoist at which nothing waits, outside Display and Half-Mast, the units that Halt stops leave the wall clock as the TSU has it. -/
theorem hoistWork_steady {s : State} (hw : s.ao.modeWait = none) (ha : s.cmds.atHoist = []) (hd : s.ring.cfgDue = [])
    (h1 : s.mode ≠ Mode.display) (h2 : s.mode ≠ Mode.halfMast) (n : Nat) :
    Steady (seqEvent 49 (seqEvent 48 s)) (hoistWork n s) := by
  have he := (seqEvents_hoist s).1
  unfold hoistWork
  generalize seqEvent 49 (seqEvent 48 s) = u at *
  have hl : Steady u (lightPathHoist (budgetHoist n u)) := (budgetHoist_steady n u).trans (lightPathHoist_steady _)
  have hul := he.trans hl.toStill
  have hcfg : ringCfgAtHoist u = u := ringCfgAtHoist_none (by rw [he.ring, hd])
  have hmode := modeAtHoist_none (s := lightPathHoist (budgetHoist n u)) (by rw [hul.modeWait, hw]) n
  have hm := halfMastAtHoist_steady (s := lightPathHoist (budgetHoist n u)) (by rw [hul.mode]; exact h1) (by rw [hul.mode]; exact h2)
  have hut := hl.trans (hm.trans (tenantsOpened_steady _))
  have hcmd := commandsAtHoist_none (s := tenantsOpened (halfMastAtHoist (lightPathHoist (budgetHoist n u))))
    (by rw [(he.trans hut.toStill).atHoist, ha])
  simp only [hcfg, hmode, hcmd]
  exact hut.trans (.trans (.foldl _ (fun t k _ => puCfgEffect_steady k true t) _) (openFrame_steady _ _))

theorem hoist_eq {s : State} {n : Nat} (h : s.hoistOk n = true) :
    hoist n s = settle (if (hoistTimeSide n s).live then hoistWork n (hoistTimeSide n s) else hoistTimeSide n s) := by
  unfold hoist
  rw [if_neg (by simp [h])]

theorem State.hoistOk_clocked {s : State} {n : Nat} (h : s.hoistOk n = true) : s.cclkOn = true := by
  simp only [State.hoistOk, Bool.and_eq_true] at h
  exact h.1.1

theorem exec_hoist_inert {s : State} {n : Nat} (h : s.hoistOk n = false) : Inert (.hoist n) s :=
  congrArg Host.Outcome.next (if_pos (by simp [h]))

/-- What Hoisted says of a state, a steady work leaves. -/
theorem Hoisted.still {n : Nat} {s t u : State} (h : Hoisted n s t) (k : Still t u) : Hoisted n s u where
  frame := k.frame.trans h.frame
  frameN := by
    rw [← h.frameN, State.fld, State.fld, k.frameReg]
  ran := by rw [k.tsu, h.ran]
  time := by rw [k.tsu]; exact h.time
  lat := by rw [k.tsu, h.lat]

/-- A hoist at which nothing waits (R520). -/
theorem exec_hoist_calm {s : State} {n : Nat} (hok : s.hoistOk n = true) (hcalm : s.calm) (hw : s.ao.modeWait = none)
    (ha : s.cmds.atHoist = []) (hn : s.tsu.next = []) (hd : s.ring.cfgDue = []) (h1 : s.mode ≠ Mode.display)
    (h2 : s.mode ≠ Mode.halfMast) : Runs (.hoist n) s fun t =>
      Hoisted n s t ∧ t.mode = s.mode ∧ t.ring.p0.entry = 0 ∧ t.ring.p1.entry = 0
      ∧ (s.live = true → ∀ q, q < 19 → seqPresent s.build q = true →
        bitOf (t.seq q).latch 0 = true ∧ bitOf (t.seq q).latch 1 = true) := by
  have hside := hoistTimeSide_writes (State.hoistOk_clocked hok) n
  obtain ⟨hshow, he0, he1⟩ := hoistTimeSide_shows hn n
  have hrun := hoist_eq hok
  have hmode := hside.mode hoistFlds_mode
  have hlive := hside.live hoistFlds_mode
  have hcalm1 := hside.calm hcalm
  have hrest := hside.rest
  generalize hoistTimeSide n s = u at *
  by_cases hl : s.live = true
  · rw [if_pos (hlive.trans hl)] at hrun
    have hs := hoistWork_steady (s := u) (by rw [hrest]; exact hw) (by rw [hrest]; exact ha) (by rw [hrest]; exact hd)
      (by rw [hmode]; exact h1) (by rw [hmode]; exact h2) n
    obtain ⟨hev, hset⟩ := seqEvents_hoist u
    have hall := hev.trans hs.toStill
    rw [settle_calm (hall.calm hcalm1)] at hrun
    refine ⟨hoistWork n u, congrArg Host.Outcome.next hrun, hshow.still hall, hall.mode.trans hmode, ?_, ?_, fun _ q hq hp => ?_⟩
    · rw [hall.ring, he0]
    · rw [hall.ring, he1]
    · rw [hs.latch]
      exact hset q hq (by rw [hrest]; exact hp)
  · rw [if_neg (by rw [hlive]; exact hl), settle_calm hcalm1] at hrun
    exact ⟨u, congrArg Host.Outcome.next hrun, hshow, hmode, he0, he1, fun h => absurd h hl⟩

end Sys2Proof.Machine
end

section
/-!
PROOFS. What transitions, hooks and the commands of a hoist leave in the ring unit: changes that wait and the wall map (R526).
-/

namespace Sys2Proof.Machine

/-! ### Modes: the ring unit is left alone (R80, R81, R84) -/

theorem Reports.ring {s t : State} (h : Reports s t) : t.ring = s.ring := by rw [h.rest]

@[simp] theorem State.raiseN_ring (s : State) (k n : Nat) : (s.raiseN k n).ring = s.ring := (Reports.raiseN s k n).ring
@[simp] theorem State.raise_ring (s : State) (k : Nat) : (s.raise k).ring = s.ring := (Reports.raise s k).ring
@[simp] theorem State.assertWatch_ring (s : State) (k : Nat) : (s.assertWatch k).ring = s.ring := (Reports.assertWatch s k).ring
@[simp] theorem observe_ring (cls idx obs cause : Nat) (s : State) : (observe cls idx obs cause s).ring = s.ring :=
  (Reports.observe cls idx obs cause s).ring
@[simp] theorem observePu_ring (n : Nat) (s : State) : (observePu n s).ring = s.ring := (Reports.observePu n s).ring
@[simp] theorem observePus_ring (m : Nat) (s : State) : (observePus m s).ring = s.ring := (Reports.observePus m s).ring
@[simp] theorem traceEmit_ring (ty : Nat) (l : List Byte) (s : State) : (traceEmit ty l s).ring = s.ring := (Reports.traceEmit ty l s).ring
@[simp] theorem finish_ring (id st : Nat) (ps : List Byte) (s : State) : (finish id st ps s).ring = s.ring := (Steady.finish id st ps s).ring
@[simp] theorem stopDecode_ring (s : State) : (stopDecode s).ring = s.ring := (stopDecode_steady s).ring

@[simp] theorem observeLane_ring (m : Nat) (s : State) : (observeLane m s).ring = s.ring := by
  unfold observeLane
  repeat' split
  all_goals simp

@[simp] theorem observeGroup_ring (k : Nat) (s : State) : (observeGroup k s).ring = s.ring :=
  foldl_keeps State.ring (fun _ _ => observeLane_ring _ _) _ s

@[simp] theorem observeGclk_ring (g : Nat) (s : State) : (observeGclk g s).ring = s.ring := by
  unfold observeGclk
  repeat' split
  all_goals simp

@[simp] theorem observeGclks_ring (s : State) : (observeGclks s).ring = s.ring :=
  foldl_keeps State.ring (fun _ _ => observeGclk_ring _ _) _ s

@[simp] theorem observeHalves_ring (on : Bool) (s : State) : (observeHalves on s).ring = s.ring := by
  refine foldl_keeps State.ring (fun t m => ?_) _ s
  split
  · rfl
  · exact observe_ring ..

@[simp] theorem trainAll_ring (s : State) : (trainAll s).ring = s.ring := by
  refine foldl_keeps State.ring (fun t n => ?_) _ s
  split <;> rfl

theorem State.laneDraw_ring (s : State) : (if s.laneSent then s.drew else s).ring = s.ring := by
  split <;> rfl

@[simp] theorem lanesQuiet_ring (s : State) : (lanesQuiet s).ring = s.ring := by
  unfold lanesQuiet
  extract_lets s1 lp2 s2
  have h1 : s1.ring = s.ring := by
    refine (foldl_keeps State.ring (fun t n => ?_) _ _).trans s.laneDraw_ring
    split <;> rfl
  clear_value s1
  exact (foldl_keeps State.ring (fun _ _ => observeGroup_ring _ _) _ s2).trans h1

@[simp] theorem lanesHush_ring (s : State) : (lanesHush s).ring = s.ring := by
  unfold lanesHush
  extract_lets s1 lp2 s2
  have h1 : s1.ring = s.ring := by
    refine (foldl_keeps State.ring (fun t n => ?_) _ _).trans s.laneDraw_ring
    simp only
    repeat' split
    all_goals rfl
  clear_value s1
  exact (foldl_keeps State.ring (fun _ _ => observeGroup_ring _ _) _ s2).trans h1

@[simp] theorem enterMode_ring (m : Nat) (s : State) : (enterMode m s).ring = s.ring := by
  unfold enterMode
  extract_lets old s1 shown s2 ba3
  have h1 : s1.ring = s.ring := by simp [s1, traceMode]
  have h2 : s2.ring = s.ring := by
    unfold s2
    split
    · rw [stopDecode_ring, h1]
    · exact h1
  clear_value s2
  split
  · simp [lightPathOff, h2]
  · split
    · simp [lightPathOn, h2]
    · exact h2

@[simp] theorem modeDone_ring (s : State) : (modeDone s).ring = s.ring := rfl

@[simp] theorem endSleep_ring (s : State) : (endSleep s).ring = s.ring := by
  unfold endSleep
  simp only
  repeat' split
  all_goals rfl

@[simp] theorem endModeSets_ring (s : State) : (endModeSets s).ring = s.ring := by
  unfold endModeSets
  simp only [endSleep_ring]
  exact foldl_keeps State.ring (fun _ _ => finish_ring ..) _ s

@[simp] theorem enterDark_ring (cause : Nat) (s : State) : (enterDark cause s).ring = s.ring := by
  unfold enterDark
  split
  · rfl
  · simp [puHoldAll, puHold]

@[simp] theorem modeSetEffect_ring (id t : Nat) (s : State) : (modeSetEffect id t s).ring = s.ring := by
  unfold modeSetEffect
  simp only [finish_ring, State.setFlag_ring]
  split <;> simp

@[simp] theorem modeAtHoist_ring (n : Nat) (s : State) : (modeAtHoist n s).ring = s.ring := by
  unfold modeAtHoist
  split
  · simp
  · rfl

@[simp] theorem halfMastAtHoist_ring (s : State) : (halfMastAtHoist s).ring = s.ring := by
  unfold halfMastAtHoist halfMastChange
  simp only
  repeat' split
  all_goals simp

/-! ### Units and tenants (R240, R265) -/

/-- The changes that wait for a hoist and the wall map stand. -/
structure SameMap (s t : State) : Prop where
  due : t.ring.cfgDue = s.ring.cfgDue
  map : t.ring.map = s.ring.map

section SameMap
variable {s t u : State}

theorem SameMap.of_ring (h : t.ring = s.ring) : SameMap s t := ⟨by rw [h], by rw [h]⟩

theorem SameMap.refl (s : State) : SameMap s s := ⟨rfl, rfl⟩

theorem SameMap.trans (h : SameMap s t) (k : SameMap t u) : SameMap s u := ⟨k.due.trans h.due, k.map.trans h.map⟩

theorem SameMap.foldl {α : Type} {f : State → α → State} (hf : ∀ s a, SameMap s (f s a)) (l : List α) (s : State) :
    SameMap s (l.foldl f s) :=
  ⟨foldl_keeps (fun s => s.ring.cfgDue) (fun s a => (hf s a).due) l s, foldl_keeps (fun s => s.ring.map) (fun s a => (hf s a).map) l s⟩

theorem Writes.sameMap {W : FRef → Prop} (h : Writes W s t) : SameMap s t := ⟨by rw [h.rest], by rw [h.rest]⟩

end SameMap

theorem quietLane_ring (n : Nat) (s : State) : (quietLane n s).ring = s.ring := by
  unfold quietLane
  simp only [State.setLane_ring]
  split <;> rfl

theorem quietModule_ring (m : Nat) (s : State) : (quietModule m s).ring = s.ring := by
  unfold quietModule
  split
  · exact quietLane_ring _ s
  · split
    · rfl
    · extract_lets s1 s2
      have h1 : s1.ring = s.ring := by
        unfold s1
        split
        · split <;> rfl
        · rfl
      have h2 : s2.ring = s.ring := (quietLane_ring m s1).trans h1
      clear_value s2
      split
      · exact h2
      · simp [h2]

theorem unitEffect_sameMap (cls idx : Nat) (s : State) : SameMap s (unitEffect cls idx s) := by
  unfold unitEffect
  extract_lets u off s1
  have h1 : SameMap s s1 := ⟨rfl, rfl⟩
  clear_value s1
  refine h1.trans ?_
  split
  · refine .of_ring ?_
    rw [observeLane_ring]
    split
    · exact quietModule_ring _ s1
    · rfl
  · refine .of_ring ?_
    rw [observePu_ring]
    split <;> rfl
  · refine .trans ?_ (.of_ring (observePort_reports idx _).ring)
    split
    · exact (portDown_writes idx s1).sameMap
    · exact .refl s1
  · exact .of_ring (observeGclk_ring idx s1)
  · exact .refl s1

theorem unitSetDone_sameMap (id : Nat) (s : State) : SameMap s (unitSetDone id s) := by
  unfold unitSetDone
  split
  · exact .refl s
  · split
    · exact .refl s
    · exact (unitEffect_sameMap _ _ s).trans (.of_ring (finish_ring ..))

theorem plyTenantClosed_ring (tn : Nat) (s : State) : (plyTenantClosed tn s).ring = s.ring := by
  refine foldl_keeps State.ring (fun t c => ?_) _ s
  extract_lets x t1 y
  have h1 : t1.ring = t.ring := by
    unfold t1
    split
    · split
      · rw [State.setFlag_ring, finish_ring]
        rfl
      · rfl
    · rfl
  clear_value t1
  split
  · exact h1
  · exact h1

theorem closeTenant_sameMap (tn : Nat) (s : State) : SameMap s (closeTenant tn s) := by
  unfold closeTenant
  extract_lets src1 s1 ring2 s2 s3
  have h2 : SameMap s s2 := ⟨rfl, rfl⟩
  have h3 : SameMap s2 s3 := by
    unfold s3
    split
    · split <;> exact ⟨rfl, rfl⟩
    · exact .refl _
  exact h2.trans (h3.trans (.of_ring (plyTenantClosed_ring tn _)))

theorem commandsAtHoist_sameMap (s : State) : SameMap s (commandsAtHoist s) := by
  unfold commandsAtHoist
  have h0 : SameMap s { s with cmds := { s.cmds with atHoist := [] } } := ⟨rfl, rfl⟩
  refine h0.trans (.foldl (fun t id => ?_) _ _)
  split
  · split
    · exact unitSetDone_sameMap id t
    · unfold tenantCloseDone
      split
      · exact .refl t
      · exact (closeTenant_sameMap _ t).trans (.of_ring (finish_ring ..))
  · exact .refl t

/-! ### Memory and traps (R106 to R109, R199 to R204) -/

@[simp] theorem State.setStore_ring (s : State) (x : StoreSel) (m : Store) : (s.setStore x m).ring = s.ring := by
  cases x <;> rfl

theorem noteCorrected_ring (x : StoreSel) (a : Nat) (s : State) : (noteCorrected x a s).ring = s.ring := by
  unfold noteCorrected
  extract_lets s1
  have h1 : s1.ring = s.ring := by cases x <;> rfl
  clear_value s1
  split
  · exact h1
  · exact h1

theorem noteUncorrectable_ring (x : StoreSel) (w b : Nat) (s : State) : (noteUncorrectable x w b s).ring = s.ring := by
  unfold noteUncorrectable
  split
  · rfl
  · extract_lets s1
    have h1 : s1.ring = s.ring := by
      unfold s1
      split <;> simp only [State.setFld_ring, State.setFlag_ring]
    rw [State.raiseN_ring, h1]

theorem noteRead_ring (x : StoreSel) (w m : Nat) (s : State) : (noteRead x w m s).ring = s.ring := by
  unfold noteRead
  extract_lets outcome s1
  have h1 : s1.ring = s.ring := foldl_keeps State.ring (fun u k => noteCorrected_ring x _ u) _ s
  rw [noteUncorrectable_ring, h1]

@[simp] theorem noteCode_ring (a n : Nat) (s : State) : (noteCode a n s).ring = s.ring := by
  unfold noteCode noteReads
  split
  · refine foldl_keeps State.ring ?_ _ s
    exact fun t p => noteRead_ring .hb p.1 p.2 t
  · rfl

@[simp] theorem writeBytes_ring (x : StoreSel) (a : Nat) (l : List PByte) (s : State) : (writeBytes x a l s).ring = s.ring := by
  unfold writeBytes
  split
  · rfl
  · extract_lets m src1 s1 tgt
    have h1 : s1.ring = s.ring := State.setStore_ring s x m
    clear_value s1
    split
    · rw [State.setFlag_ring, State.setStore_ring, h1]
    · exact h1

@[simp] theorem doubleCheck_ring (s : State) : (doubleCheck s).ring = s.ring := rfl

theorem customAbandon_ring (s : State) : (customAbandon s).ring = s.ring := by
  unfold customAbandon
  extract_lets s1 seq2 s2
  have h1 : s1.ring = s.ring := by
    unfold s1
    split <;> rfl
  have h2 : s2.ring = s.ring := h1
  clear_value s2
  split
  · exact h2
  · exact h2

@[simp] theorem ccInterrupt_ring (s : State) : (ccInterrupt s).ring = s.ring := by
  unfold ccInterrupt
  extract_lets s1
  show s1.ring = s.ring
  unfold s1
  split
  · exact customAbandon_ring s
  · rfl

@[simp] theorem coreMachineCheck_ring (sub : Nat) (pc tval : W32) (s : State) : (coreMachineCheck sub pc tval s).ring = s.ring := by
  unfold coreMachineCheck
  extract_lets s0 base s1 s2 core2
  have h0 : s0.ring = s.ring := ccInterrupt_ring _
  have h1 : s1.ring = s.ring := by simp [s1, h0]
  have h2 : s2.ring = s.ring := by simp only [s2, State.setFlag_ring, writeBytes_ring, h1]
  clear_value s0 s1 s2
  split
  · rw [doubleCheck_ring, h0]
  · split
    · rw [doubleCheck_ring, h1]
    · exact h2

theorem trapEnter_ring (vec sub : Nat) (pc tval : W32) (s : State) : (trapEnter vec sub pc tval s).ring = s.ring := by
  unfold trapEnter
  extract_lets s0 tsbp fast base s1 entry s2 s3
  have h0 : s0.ring = s.ring := ccInterrupt_ring _
  have h2 : s2.ring = s.ring := by simp [s2, s1, h0]
  have h3 : s3.ring = s.ring := by
    unfold s3
    split
    · exact h2
    · rw [writeBytes_ring, h2]
  clear_value s0 s2 s3
  split
  · rw [coreMachineCheck_ring, h0]
  · split
    · rw [coreMachineCheck_ring, h2]
    · exact h3

/-! ### Hooks and Halt (R215, R216, R573, R574) -/

theorem State.setG_ring (s : State) (k : Nat) (v : W32) : (s.setG k v).ring = s.ring := by
  unfold State.setG
  split <;> rfl

theorem callHook_ring (h : HookDue) (s : State) : (callHook h s).1.ring = s.ring := by
  unfold callHook
  extract_lets b s1 ret pl run s2
  have h1 : s1.ring = s.ring := noteCode_ring _ _ s
  have h2 : s2.ring = s.ring := by simp only [s2, State.setG_ring, State.drew_ring, h1]
  clear_value s2 s1
  split
  · simp only [trapEnter_ring, h1]
  · split
    · exact h1
    · exact h2

theorem watcherReplay_ring (s : State) : (watcherReplay s).ring = s.ring := by
  refine foldl_keeps State.ring (fun t w => ?_) _ s
  split
  · simp
  · rfl

theorem heldFrameForward_sameMap (s : State) : SameMap s (heldFrameForward s) := by
  unfold heldFrameForward
  split
  · next b h _ _ =>
    extract_lets q
    split
    · have h1 : SameMap s (s.mark q h.sa h.seq) := ⟨rfl, rfl⟩
      exact h1.trans (Writes.setRport (W := fun _ => True) _ _ _).sameMap
    · exact .refl s
  · exact .refl s

theorem checkMgmt_ring (ok : Nat → Bool) (need : List Nat) (enc : Bool) (p : List Byte) (s : State) :
    (checkMgmt ok need enc p s).1.ring = s.ring := by
  have bad : ∀ f, ((s.bump f 1).raise 157).ring = s.ring := fun f => by rw [State.raise_ring, State.bump_ring]
  unfold checkMgmt
  extract_lets mslot keyid sender ctr bad'
  split
  · exact bad _
  · split
    · exact bad _
    · split
      · exact bad _
      · split
        · exact bad _
        · rfl

theorem mgmtCommand_ring (p body : List Byte) (s : State) : (mgmtCommand p body s).ring = s.ring := by
  unfold mgmtCommand
  extract_lets
  repeat' split
  all_goals simp

theorem freeBytes_ring (n : Nat) (s : State) : (freeBytes n s).2.ring = s.ring := by
  induction n generalizing s with
  | zero => rfl
  | succ n ih => exact ih s.drew

theorem saveSettings_ring (s : State) : (saveSettings s).ring = s.ring := by
  show (settingsToHb s).ring = s.ring
  unfold settingsToHb
  extract_lets n a r s1
  show s1.ring = s.ring
  simp only [s1, writeBytes_ring, r, freeBytes_ring, State.drew_ring]

theorem heldFrameAuth_ring (s : State) : (heldFrameAuth s).ring = s.ring := by
  unfold heldFrameAuth
  split
  · rfl
  · extract_lets ao0 s0
    have h0 : s0.ring = s.ring := rfl
    clear_value s0
    split
    · exact h0
    · next b _ h _ =>
      have hc := checkMgmt_ring (fun _ => true) [13] (mgmtEnc h.payload) h.payload s0
      split
      · next s1 body hm =>
        rw [hm] at hc
        rw [mgmtCommand_ring, hc, h0]
      · next s1 hm =>
        rw [hm] at hc
        extract_lets s2
        have h2 : s2.ring = s.ring := by
          simp only [s2, State.setFlag_ring]
          exact hc.trans h0
        clear_value s2
        split
        · rw [saveSettings_ring, State.setFlag_ring, h2]
        · exact h2

theorem wakeDone_sameMap (s : State) : SameMap s (wakeDone s) := by
  have h1 : SameMap s (modeDone (watcherReplay (s.setFlag F.AO_MODE_BUSY false))) :=
    .of_ring (by rw [modeDone_ring, watcherReplay_ring, State.setFlag_ring])
  exact h1.trans (.trans (heldFrameForward_sameMap _) (.of_ring (heldFrameAuth_ring _)))

theorem hookDone_sameMap (h : HookDue) (st : Nat) (s : State) : SameMap s (hookDone h st s) := by
  unfold hookDone
  split
  · unfold startHandshake
    split
    · exact .refl s
    · exact ⟨rfl, rfl⟩
  · exact wakeDone_sameMap s
  · split
    · exact .of_ring (finish_ring ..)
    · exact .refl s
  · exact ⟨rfl, rfl⟩
  · exact .refl s

theorem pumpHooks_sameMap (n : Nat) (s : State) : SameMap s (pumpHooks n s) := by
  induction n generalizing s with
  | zero => exact .refl s
  | succ n ih =>
    unfold pumpHooks
    split
    · exact .refl s
    · split
      · exact .refl s
      · next h rest _ =>
        have hc : SameMap s (callHook h { s with cc := { s.cc with hooks := rest } }).1 := .of_ring (callHook_ring h _)
        split
        · next t hcall =>
          rw [hcall] at hc
          exact hc
        · next t hcall =>
          rw [hcall] at hc
          exact hc.trans (.trans (hookDone_sameMap _ _ t) (ih _))
        · next t hcall =>
          rw [hcall] at hc
          exact hc.trans (.trans (hookDone_sameMap _ _ t) (ih _))

theorem haltEnter_ring (cause : Nat) (s : State) : (haltEnter cause s).ring = s.ring := by
  simp [haltEnter, traceMode, traceHalt]

theorem haltSettle_ring (s : State) : (haltSettle s).ring = s.ring := by
  unfold haltSettle
  split
  · rfl
  · split
    · rfl
    · unfold haltRequest
      repeat' split
      all_goals simp [haltEnter_ring]

theorem settle_sameMap (s : State) : SameMap s (settle s) := (pumpHooks_sameMap 16 s).trans (.of_ring (haltSettle_ring _))

/-! ### Changes that take effect at a hoist (R28, R526) -/

theorem ringCfgEffect_map {b : List Byte} (h : byteAt b 0 = 1) (s : State) :
    ringCfgEffect b s = { s with ring := { s.ring with map := mapAfter b s.ring.map } } := by
  unfold ringCfgEffect
  rw [if_neg (by omega)]

/-- One change keeps CCLK and the list of those that wait. -/
theorem ringCfgEffect_keeps {s : State} (hc : s.cclkOn = true) (b : List Byte) :
    (ringCfgEffect b s).cclkOn = true ∧ (ringCfgEffect b s).ring.cfgDue = s.ring.cfgDue := by
  unfold ringCfgEffect
  split
  · have hw := ringIdSet_writes hc b
    exact ⟨(hw.cclkOn idFld_mode).trans hc, hw.sameMap.due⟩
  · exact ⟨hc, rfl⟩

theorem ringCfgEffects_due (l : List (List Byte)) {s : State} (hc : s.cclkOn = true) :
    (l.foldl (fun t b => ringCfgEffect b t) s).ring.cfgDue = s.ring.cfgDue := by
  induction l generalizing s with
  | nil => rfl
  | cons b l ih =>
    obtain ⟨h1, h2⟩ := ringCfgEffect_keeps hc b
    exact (ih h1).trans h2

theorem ringCfgEffects_map {l : List (List Byte)} (hl : ∀ b ∈ l, byteAt b 0 = 1) (s : State) :
    (l.foldl (fun t b => ringCfgEffect b t) s).ring.map = l.foldl (fun m b => mapAfter b m) s.ring.map := by
  induction l generalizing s with
  | nil => rfl
  | cons b l ih =>
    rw [List.foldl_cons, ih (fun c hb => hl c (by simp [hb])), ringCfgEffect_map (hl b (by simp))]
    rfl

theorem State.mapDue_of_maps {s : State} (h : ∀ b ∈ s.ring.cfgDue, byteAt b 0 = 1) :
    s.mapDue = s.ring.cfgDue.foldl (fun m b => mapAfter b m) s.ring.map := by
  unfold State.mapDue
  rw [List.filter_eq_self.mpr fun b hb => by simp [h b hb]]

/-- Every change that has waited takes effect, and none waits any more. -/
theorem ringCfgAtHoist_taken {s : State} (hc : s.cclkOn = true) : (ringCfgAtHoist s).ring.cfgDue = []
    ∧ ((∀ b ∈ s.ring.cfgDue, byteAt b 0 = 1) → (ringCfgAtHoist s).ring.map = s.mapDue) :=
  ⟨ringCfgEffects_due s.ring.cfgDue (s := { s with ring := { s.ring with cfgDue := [] } }) hc,
    fun h => (ringCfgEffects_map h _).trans (State.mapDue_of_maps h).symm⟩

theorem hoistWork_sameMap (n : Nat) (s : State) : SameMap (ringCfgAtHoist (seqEvent 49 (seqEvent 48 s))) (hoistWork n s) := by
  unfold hoistWork
  extract_lets s1 s2 s3 s4
  have h2 : s2.ring = s1.ring := by
    rw [halfMastAtHoist_ring, modeAtHoist_ring, (lightPathHoist_steady _).ring, (budgetHoist_steady n s1).ring]
  have h3 : SameMap s2 s3 := .trans (.of_ring (tenantsOpened_steady s2).ring) (commandsAtHoist_sameMap _)
  have h4 : s4.ring = s3.ring := foldl_keeps State.ring (fun t k => (puCfgEffect_steady k true t).ring) _ s3
  exact .trans (.of_ring h2) (h3.trans (.trans (.of_ring h4) (.of_ring (openFrame_steady _ s4).ring)))

/-- At a hoist the changes of identity and map that have waited take effect (R28, R526). -/
theorem exec_hoist_live {s : State} {n : Nat} (hok : s.hoistOk n = true) (hl : s.live = true) : Runs (.hoist n) s fun t =>
    t.ring.cfgDue = [] ∧ ((∀ b ∈ s.ring.cfgDue, byteAt b 0 = 1) → t.ring.map = s.mapDue) := by
  have hclk := State.hoistOk_clocked hok
  have hside := hoistTimeSide_writes hclk n
  have hlive := (hside.live hoistFlds_mode).trans hl
  have hrun := hoist_eq hok
  rw [if_pos hlive] at hrun
  have hsame := hside.sameMap
  generalize hoistTimeSide n s = u at *
  have hev := (seqEvents_hoist u).1
  have hall := (hoistWork_sameMap n u).trans (settle_sameMap _)
  generalize seqEvent 49 (seqEvent 48 u) = v at *
  have hsv : SameMap s v := hsame.trans (.of_ring hev.ring)
  obtain ⟨hdue, hmap⟩ := ringCfgAtHoist_taken (hev.cclkOn.trans (State.live_clocked hlive))
  refine ⟨_, congrArg Host.Outcome.next hrun, hall.due.trans hdue, fun h => ?_⟩
  have hmapDue : v.mapDue = s.mapDue := by
    unfold State.mapDue
    rw [hsv.due, hsv.map]
  exact (hall.map.trans (hmap (by rw [hsv.due]; exact h))).trans hmapDue

end Sys2Proof.Machine
end

section
/-!
PROOFS. Wall time (R28, R513 to R520, R523 to R528).
-/

namespace Sys2Proof.Machine

/-- Of two domains the follower takes the one with fewer steps, and domain 0 when they are equal (R515). -/
theorem pickDomain_two (a b : Nat) : pickDomain [(0, a), (1, b)] = some (if b < a then 1 else 0) := rfl

theorem pickDomain_one {d : Nat} (hd : d < 2) (a : Nat) : pickDomain [(d, a)] = some d := by
  interval_cases d <;> rfl

/-- Identity, area and ports as SUB 0 gives them, where no hoist is awaited (R28, R523). -/
theorem exec_ringCfg_id_taken {s : State} {c : Cmd} {now : Nat} (h : s.Due c 0x4001) (hf : byteAt c.params 0 = 0)
    (hb : ringIdBad c.params = false) (hd : (s.atTime now).ringIdDenied c.params = false) (hw : s.cfgWaits = false) :
    ∃ u, Answers (.ringCfg c.id now) s c Status.ok (leBytes 8 (leAt c.params 2 2)) u ∧ u.cabId = some (leAt c.params 2 2)
      ∧ IdTaken c.params u := by
  have hbounds := ringIdBad_bounds hb
  have htaken := ringIdSet_taken hbounds (State.live_clocked (h.atTime (now := now)).live)
  refine ⟨_, exec_ringCfg_id_now h hf hb hd hw, ?_, htaken⟩
  have hcab := hbounds.cab
  unfold State.cabId
  rw [htaken.cab, if_neg (by omega)]

/-- Settles O49: each event's meaning, as the lemmas about the TSU, RING_CFG and the hoist state it. -/
theorem wallTime : Obligations.WallTime := by
  unfold Obligations.WallTime
  intro s now hclk
  refine ⟨exec_sends_inert, fun c hg hc => ⟨exec_syncSend_runs hclk hg hc, fun e hh he => exec_scheduleFrameSend_runs hclk hg hc hh he⟩,
    fun n partner mld hn => ⟨exec_pdelayExchange_inert partner mld, exec_pdelayExchange_runs hclk hn⟩,
    fun hgm => ⟨exec_syncTimeout_inert (.inl hgm), fun x => exec_domainChoice_inert (.inl hgm)⟩, fun hgm => ?follower, fun hn => ?alone,
    fun c rest hn => ?next, exec_latencyRaise_inert now, fun hr hh => ?latency, exec_ensignLost_inert,
    fun c hr hm hgm hcab => exec_ensignLost_runs hclk hr hm hgm hcab, fun c hdue => ⟨exec_ringCfg_none hdue, ?identity, ?map, ?schedule⟩,
    fun n => exec_hoist_inert, fun n => exec_hoist_live, fun n hok hcalm hw ha hn hd h1 h2 => ?hoist⟩
  case follower =>
    refine ⟨fun hd hs => exec_syncTimeout_inert (.inr ⟨hd, hs⟩), exec_syncTimeout_runs hclk hgm, fun hv => exec_domainChoice_inert (.inr hv),
      fun hv => exec_domainChoice_inert (.inr hv), fun a b hd => ⟨fun hv => ?_, fun hv => exec_domainChoice_other hclk hgm hv hd⟩,
      fun d a hlt hd => ⟨fun hv => ?_, fun hv hdom => exec_domainChoice_alone hgm hv hd hdom⟩⟩
    · exact exec_domainChoice_first hclk hgm hv (by split <;> decide) (by rw [hd, pickDomain_two])
    · exact exec_domainChoice_first hclk hgm hv hlt (by rw [hd, pickDomain_one hlt])
  case alone => exact ⟨fun h => exec_scheduleGovern_inert (.inl ⟨hn, h⟩), exec_scheduleGovern_fresh hclk hn⟩
  case next => exact ⟨fun h => exec_scheduleGovern_inert (.inr ⟨c, rest, hn, h⟩), exec_scheduleGovern_next hclk hn⟩
  case latency => exact ⟨exec_latencyRaise_enough now hclk hr hh, exec_latencyRaise_runs now hclk hr hh⟩
  case identity =>
    intro hf
    refine ⟨exec_ringCfg_id_bad hdue hf, exec_ringCfg_id_denied hdue hf, exec_ringCfg_id_waits hdue hf, fun hb hd hw => ?_⟩
    obtain ⟨u, hans, hcab, hid⟩ := exec_ringCfg_id_taken hdue hf hb hd hw
    exact ⟨u, hans, hcab, hid.roles, hid.ensign, hid.standby, hid.mslot, hid.x0c, hid.y0c, hid.wc, hid.hc, hid.neng,
      fun n hn => ⟨(hid.ports n hn).en, (hid.ports n hn).fec, (hid.ports n hn).dasym, (hid.ports n hn).down⟩⟩
  case map => exact fun hf => ⟨exec_ringCfg_map_bad hdue hf, exec_ringCfg_map hdue hf⟩
  case schedule => exact fun hf => ⟨exec_ringCfg_sched_bad hdue hf, exec_ringCfg_sched_denied hdue hf, exec_ringCfg_sched hdue hf⟩
  case hoist =>
    obtain ⟨t, hrun, hshow, hmode, he0, he1, hlatch⟩ := exec_hoist_calm hok hcalm hw ha hn hd h1 h2
    exact ⟨t, hrun, hshow.frame, hshow.frameN, hshow.ran, hmode, he0, he1, hshow.time, hshow.lat, hlatch⟩

end Sys2Proof.Machine
end

section
/-!
PROOFS. What commands do while CCLK stands still (R60, R61, R68), and in an engine that ENG_DIS disables (R61).
-/

namespace Sys2Proof.Machine

/-! ### The CCLK domain at rest -/

section Off
variable {s : State}

theorem inert_clocked (h : s.cclkOn = false) (t : State) : (.next (whileClocked s t) : Answer) = .next s :=
  congrArg _ (whileClocked_off h t)

theorem inert_live (h : s.cclkOn = false) (t : State) : (.next (whileLive s t) : Answer) = .next s :=
  congrArg _ (whileLive_off h t)

theorem inert_powered (h : s.aoOn = false) (t : State) : (.next (whilePowered s t) : Answer) = .next s :=
  congrArg _ (whilePowered_off h t)

theorem inert_start (h : s.cclkOn = false) (len : Nat) (wt : Option CcWait) (op : State → State) :
    (.next (ccStart len wt s op) : Answer) = .next s := congrArg _ (ccStart_off h len wt op)

/-- A meaning whose own guard does not hold. -/
theorem inert_guard {p : Bool} (h : p = false) (t : State) : (.next (if p then t else s) : Answer) = .next s :=
  congrArg _ (if_neg (by simp [h]))

theorem aluForm_off (h : s.cclkOn = false) (f : AluFlags → W32 → W32 → AluOut) (x : AluForm) : aluForm f x s = s := by
  cases x
  case short rd rs => exact (ccStart_off h 2 none _ : aluRegs 2 f rd rd rs s = s)
  case long rd ra rb => exact (ccStart_off h 4 none _ : aluRegs 4 f rd ra rb s = s)

theorem flightLands_off (h : s.cclkOn = false) (dv : Bool) : flightLands dv s = s := by
  simp [flightLands, h]

theorem interruptTaken_off (h : s.cclkOn = false) : interruptTaken s = s := by
  simp [interruptTaken, State.takesInt, State.coreRuns_off h]

theorem machineCheckTrap_off (h : s.cclkOn = false) : machineCheckTrap s = s := by
  have hd : dicMachineCheck s = s := by simp [dicMachineCheck, h]
  simp only [machineCheckTrap, hd, State.coreRuns_off h, Bool.not_false, if_true]
  split <;> rfl

theorem hoist_off (h : s.cclkOn = false) (n : Nat) : hoist n s = s := by
  simp [hoist, State.hoistOk, h]

/-- The one command of the CCLK domain that acts without CCLK: a word of the SENSE port carries the level of SNS_ALERT_N, which
ENG_BUMPST reports (R65, R474). -/
theorem exec_senseRead_off (h : s.cclkOn = false) (word : Nat) (alert : Bool) :
    exec (.senseRead word alert) s = .next (snsLevel alert s) :=
  inert_live (s := snsLevel alert s) h _

/-- Every other command of the CCLK domain does nothing while CCLK stands still. -/
theorem inert_off {c : Instr} (hc : needsCclk c = true) (hs : ∀ word alert, c ≠ .senseRead word alert) (h : s.cclkOn = false) :
    Inert c s := by
  cases c
  case puImmediatePer | puForceWrite | puSync | tripLatchClear | tripSwSet | puCfg | scrub | correctionWriteBack | scrubOwnWrite |
    scrubInjArm | mptCwinWrite | ucodeLoad | lightPathBandStart | subperiodStart | lpModGeomWrite | calLoad | bandLoadSend |
    setCurrentSend | latchSend | rawCommandInsert | readStatusRound | laneReply | laneReplyTimeout | laneTrainStart | laneStateTimer
    | laneReprobe | returnLaneShort | linkUp | linkDown | portHoldExpiry | preemptVerifySend | preemptRespond | preemptVerifyTimeout
    | supervisionSend | nodeForget | dupWindowClear | replayRecordExpiry | reassemblyForget | gateEntryChange | gclTakeEffect |
    syncSend | pdelayExchange | syncTimeout | domainChoice | scheduleFrameSend | scheduleGovern | latencyRaise | ensignLost |
    budgetReportSend | emergClear | budgetCfg | ceilSet | feedArm | feedStop | feedPost | frameReceive | gatewayReplyTimeout |
    aggregateReply | unitStateReport | wallStatus | clipAdd | play | plyCatEnable | playoutFrame | timerCaplRead | timerPairCommit |
    timerSourceWrite | tmrSync | tmrSwcap | softReset | softResetEffect | modeSet | hookTimeout | egressStart | loopback | approve |
    grant | grantEnd | selftest | mptRequestIssue | mptReadResponse | mptWriteResponse | mptEnWrite | mptRequestOverdue |
    doorbellWrite | dicSelect | dicLand | holdoffExpiry | dicClaim | dicComplete | dicTargetDisable | dicSourceMask | dicSourceClear
    | synBarrierComplete | hangLimit | seqMemReadLand | stageOperationDone | packetAccept | commandStart | nop | cancel | unitQuery
    | unitSet | unitReset | tenantOpen | tenantClose | keyLoad | keyInfo | custopDef | customerCommand | tduResume | tduStep |
    stepDone | comparatorMatch | tduCcrWrite | tduStimWrite | microwordExecute | customTimeout | hptRequest | spmBankReleaseDone |
    hptResponse | ringCfg | gclLoad => exact inert_clocked h _
  case scrubDone | ucodeLoadDone | sliceRowDispatch | rowPublish | bandClose | ledgerSolve | leaseBlockSend | leaseDeadline | senseLost
    | feedBind | sliceEncodeDispatch | sliceQueued | playEffect | sendDeadline | unitSend | loopbackDone | selftestDone => exact inert_live h _
  case mov | adc | sbc | rol | min | max | slt | sltu | cmp | movi | andi | ori | xori | shli | shri | sari | cmpi | tstb | lui | mul |
    mulu | div | divu | mfstat | mtstat | lh | lhu | lb | lbu | sh | sb | ldd | std | jr | jalr | jmp | call | br | beq | bne | blt
    | bge | bltu | bgeu | bndv | sys | brk | rtt | wfi | fence | rels | lmov | custom => exact inert_start h _ _ _
  case add | sub | and | or | xor | shl | shr | sar => exact congrArg _ (aluForm_off h _ _)
  case watchdogKick | cclkMulWrite | pnMulWrite | lmovComplete | retire | tduEchoWrite => exact inert_guard h _
  case seqStop | seqStart | registerWrite => exact inert_guard (by simp [h]) _
  case synfWrite | holdExpiry | submissionDoorbell | cqHeadWrite | cmdCfgEnWrite => exact inert_guard (by simp [h]) _
  case multiplyLand | divideLand => exact congrArg _ (flightLands_off h _)
  case interruptTaken => exact congrArg _ (interruptTaken_off h)
  case machineCheckTrap => exact congrArg _ (machineCheckTrap_off h)
  case hoist => exact congrArg _ (hoist_off h _)
  case displayEntry n | leaveDisplayAtHoist n =>
    show Host.Outcome.next _ = Host.Outcome.next s
    rw [hoist_off h]
    split <;> [rw [ite_self]; rfl]
  case addi f | lw f | sw f => cases f <;> exact inert_start h _ _ _
  case clz | mfq | bc => refine congrArg _ (ite_eq_iff'.mpr ⟨fun _ => ?_, fun _ => ?_⟩) <;> exact ccStart_off h _ _ _
  case hold => exact congrArg _ (ite_eq_iff'.mpr ⟨fun _ => interruptTaken_off h, fun _ => ccStart_off h _ _ _⟩)
  case illegalInstruction =>
    refine congrArg _ (ite_eq_iff'.mpr ⟨fun _ => ite_eq_iff'.mpr ⟨fun _ => ?_, fun _ => rfl⟩, fun _ => ite_eq_iff'.mpr ⟨fun _ => ?_, fun _ => rfl⟩⟩)
      <;> exact ccStart_off h _ _ _
  case senseRead word alert => exact absurd rfl (hs word alert)
  all_goals exact absurd hc Bool.false_ne_true

end Off

/-- Refutes O5: before PWRGOOD rises CCLK stands still, and yet SENSE_READ with SNS_ALERT_N low sets the level that ENG_BUMPST reports;
`inert_off` says that no other command of the domain does anything. -/
theorem not_nothingHappensWithoutCclk : ¬ Obligations.NothingHappensWithoutCclk := by
  unfold Obligations.NothingHappensWithoutCclk
  intro h
  have hoff : State.reset.cclkOn = false := rfl
  have he : snsLevel true State.reset = State.reset :=
    Host.Outcome.next.inj ((exec_senseRead_off hoff 0 true).symm.trans (h (.senseRead 0 true) State.reset rfl hoff))
  exact absurd (congrArg (·.ao.snsAlert) he) (by decide)

/-! ### The engine that ENG_DIS disables -/

/-- Whether an engine is disabled is read from the pins, the register file, HB and SPM alone. -/
theorem State.disabled_congr {s t : State} (h : s.disabled = true) (he : t.ao.engDis = s.ao.engDis) (hs : t.ao.supplies = s.ao.supplies)
    (hp : t.ao.porHeld = s.ao.porHeld) (hr : t.rf = s.rf) (hb : t.hb = s.hb) (hm : t.spm = s.spm) : t.disabled = true := by
  unfold State.disabled at h ⊢
  rw [he, hs, hp, hr, hb, hm]
  exact h

section Disabled
variable {s : State}

theorem powerOnReset_disabled (h : s.ao.engDis = true) : (powerOnReset s).disabled = true := by
  have he : (powerOnReset s).ao.engDis = true := h
  simp only [State.disabled, he, Bool.true_and]
  rfl

theorem suppliesRemoved_disabled (h : s.ao.engDis = true) : (suppliesRemoved s).disabled = true := by
  have he : (suppliesRemoved s).ao.engDis = true := h
  simp only [State.disabled, he, Bool.true_and]
  rfl

theorem powerOnRelease_disabled (h : s.ao.engDis = true) : powerOnRelease s = s := by
  simp [powerOnRelease, h]

theorem pwrgoodRise_disabled (h : s.disabled = true) : (pwrgoodRise s).disabled = true := by
  have hd := State.disabled_engDis h
  unfold pwrgoodRise
  split
  · exact h
  · dsimp only
    rw [if_pos (by simp [hd])]
    exact State.disabled_congr h rfl rfl rfl rfl rfl rfl

theorem pwrgoodFall_disabled (h : s.disabled = true) : (pwrgoodFall s).disabled = true := by
  have hd := State.disabled_engDis h
  unfold pwrgoodFall
  split
  · exact h
  · dsimp only
    rw [if_pos (by simp [hd])]
    exact State.disabled_congr h rfl rfl rfl rfl rfl rfl

theorem engineReset_disabled (h : s.disabled = true) : (engineReset s).disabled = true := by
  have hd := State.disabled_engDis h
  unfold engineReset
  split
  · exact h
  · dsimp only
    rw [if_pos (by simp [hd])]
    exact State.disabled_congr h rfl rfl rfl rfl rfl rfl

theorem engineResetRelease_disabled (h : s.disabled = true) : (engineResetRelease s).disabled = true := by
  have ht : ({ s with ao := { s.ao with engHeld := false } } : State).disabled = true :=
    State.disabled_congr h rfl rfl rfl rfl rfl rfl
  unfold engineResetRelease hptWakes
  rw [State.disabled_cclkOff ht]
  split
  · exact ht
  · exact h

/-- A command that goes on while CCLK stands still: the AO island is held too, and what still happens is what the pins of power and of
resets do (R61, R94). -/
theorem exec_disabled {c : Instr} {t : State} (hc : needsCclk c = false) (h : s.disabled = true) (ht : exec c s = .next t) :
    t.disabled = true := by
  have hd := State.disabled_engDis h
  have inert : Inert c s → t.disabled = true := fun hi => Host.Outcome.next.inj (hi.symm.trans ht) ▸ h
  have trips : s.tripsDead = true := by simp [State.tripsDead, hd]
  cases c
  case rowModeStart | padReadbackMismatch | gclkPadShort | lanePadShort | timerStep | timerCapture | timerSourceLost |
    timerSourceReturn | coreRelease | watchdogWarning | watchdogReset | synthLockLost | releaseTestWindow | pnclkRelockTimeout |
    refclkLost | refclkReturn | sleepEntry | hptSlpAck | hptSleepTimeout | hptWakeEdge | wakeFrameMatch | watcherHit | wakeSequence
    | tduHalt | tapReset | extest | samplePreload | clamp | highz | dbgrst | bypass | fillComplete | dbgacc => exact inert (inert_powered (State.disabled_aoOff h) _)
  case puCarrierEdge | puPeriodBoundary => exact inert (inert_guard (by simp [State.puClocked, State.disabled_inReset h]) _)
  case tripAssert | blankWindowEnd | tripDeassert => exact inert (congrArg _ (if_pos (by simp [trips])))
  case wakePinEdge => exact inert (congrArg _ (if_pos (by simp [hd])))
  case powerOnReset => exact Host.Outcome.next.inj ht ▸ powerOnReset_disabled hd
  case powerOnResetRelease => exact inert (congrArg _ (powerOnRelease_disabled hd))
  case pwrgoodRise => exact Host.Outcome.next.inj ht ▸ pwrgoodRise_disabled h
  case pwrgoodFall => exact Host.Outcome.next.inj ht ▸ pwrgoodFall_disabled h
  case suppliesRemoved => exact Host.Outcome.next.inj ht ▸ suppliesRemoved_disabled hd
  case engineReset => exact Host.Outcome.next.inj ht ▸ engineReset_disabled h
  case engineResetRelease => exact Host.Outcome.next.inj ht ▸ engineResetRelease_disabled h
  all_goals exact absurd hc.symm Bool.false_ne_true

/-- Of the commands of the CCLK domain only SENSE_READ acts, and it changes a pin's level alone. -/
theorem exec_disabled_clocked {c : Instr} {t : State} (hc : needsCclk c = true) (h : s.disabled = true) (ht : exec c s = .next t) :
    t.disabled = true := by
  have hoff := State.disabled_cclkOff h
  by_cases hs : ∃ word alert, c = .senseRead word alert
  · obtain ⟨word, alert, rfl⟩ := hs
    rw [← Host.Outcome.next.inj ((exec_senseRead_off hoff word alert).symm.trans ht)]
    exact State.disabled_congr h rfl rfl rfl rfl rfl rfl
  · have hi := inert_off hc (fun word alert he => hs ⟨word, alert, he⟩) hoff
    exact Host.Outcome.next.inj (hi.symm.trans ht) ▸ h

theorem traceDrain_off (h : s.cclkOn = false) : traceDrain s = s := by
  simp [traceDrain, h]

end Disabled

/-- Settles O4: a disabled engine's CCLK stands still and its AO island is held, so a step changes pin levels, or resets it anew. -/
theorem nothingReleasesADisabledEngine : Obligations.NothingReleasesADisabledEngine := by
  unfold Obligations.NothingReleasesADisabledEngine
  intro s t h ht
  unfold step at ht
  split at ht
  · rw [traceDrain_off (State.disabled_cclkOff h)] at ht
    exact Host.Outcome.next.inj ht ▸ h
  · rename_i c rest _
    have hr : ({ s with pending := rest } : State).disabled = true := h
    cases hc : needsCclk c
    · exact exec_disabled hc hr ht
    · exact exec_disabled_clocked hc hr ht

end Sys2Proof.Machine
end

section
/-!
PROOFS. Loads and stores of the register window by the command core (R50, R185, R186, R197).
-/

namespace Sys2Proof.Machine

/-! ### Where an access goes, and what it does there -/

section Access
variable {s : State} {n off : Nat} {a : W32}

/-- Above Task level every register block can be read. -/
theorem State.ccPlace_load_reg (hpl : s.cc.pl ≠ 0) {x : Nat} (hx : x < 0x600000) : s.ccPlace false x = .reg (x / 8 * 8) := by
  simp [State.ccPlace, hx, hpl]

/-- And written, a Machine-only register by Machine level (R186). -/
theorem State.ccPlace_store_reg (hpl : s.cc.pl ≠ 0) {x : Nat} (hx : x < 0x600000)
    (hm : ¬ (s.cc.pl = 1 ∧ machineOnlyAt (x / 8 * 8) = true)) : s.ccPlace true x = .reg (x / 8 * 8) := by
  simp only [State.ccPlace, hx, if_true, hpl, true_and, false_or, if_neg hm]

/-- A load of a register gives the bytes at the address of what the read of its slot gives. -/
theorem ccLoad_reg (use : Nat → State → State) (hal : a.toNat % n = 0) (hn : 4 ≤ n) (hp : s.ccPlace false a.toNat = .reg off) :
    ccLoad n a use s = (let r := regRead (.core s.cc.pl) off (slotBe a.toNat n) s
      use (bitsOf r.2.toNat (8 * (a.toNat - off)) (8 * n)) r.1) := by
  simp only [ccLoad, hal, hp, ne_eq, not_true_eq_false, if_false, Nat.not_lt.mpr hn]

/-- A store to a register writes its slot with the enables of the access, after the instruction. -/
theorem ccStore_reg (len v : Nat) (hal : a.toNat % n = 0) (hn : 4 ≤ n) (hp : s.ccPlace true a.toNat = .reg off) :
    ccStore len n a v s = settle (regWrite (.core s.cc.pl) false off (slotBe a.toNat n)
      (BitVec.ofNat 64 (v % 2 ^ (8 * n) * 2 ^ (8 * (a.toNat - off)))) (ccNext len s)) := by
  simp only [ccStore, hal, hp, ne_eq, not_true_eq_false, if_false, Nat.not_lt.mpr hn]

end Access

/-! ### The instructions -/

section Instructions
variable {s : State} {rd ra : BitVec 5} {imm : BitVec 14} {a : W32}

theorem State.fetched_pl (h : s.coreRuns = true) (len : Nat) : (s.fetched len).cc.pl = s.cc.pl := by
  rw [State.fetched_cc h]
  rfl

theorem State.fetched_memAddr (h : s.coreRuns = true) (len : Nat) : (s.fetched len).memAddr ra imm = s.memAddr ra imm := by
  rw [State.memAddr, State.fetched_g h]
  rfl

variable (h : s.ccReady 4) (hpl : s.cc.pl ≠ 0) (hm : s.memAddr ra imm = a) (ha : a.toNat < 0x600000)
include h hpl hm ha

/-- A load of `n` bytes by an instruction of four bytes. -/
theorem ccLoad_fetched_reg {n : Nat} (hn : 4 ≤ n) (hal : a.toNat % n = 0) (use : Nat → State → State) :
    ccStart 4 none s (fun t => ccLoad n (t.memAddr ra imm) use t)
      = use (bitsOf (regRead (.core s.cc.pl) (a.toNat / 8 * 8) (slotBe a.toNat n) (s.fetched 4)).2.toNat
            (8 * (a.toNat - a.toNat / 8 * 8)) (8 * n))
          (regRead (.core s.cc.pl) (a.toNat / 8 * 8) (slotBe a.toNat n) (s.fetched 4)).1 := by
  have hf := State.fetched_pl h.1 4
  rw [ccStart_ready h, State.fetched_memAddr h.1, hm, ccLoad_reg use hal hn (State.ccPlace_load_reg (by rwa [hf]) ha), hf]

/-- A store of `n` bytes of `v` by such an instruction. -/
theorem ccStore_fetched_reg {n : Nat} (hn : 4 ≤ n) (hal : a.toNat % n = 0) (hw : ¬ (s.cc.pl = 1 ∧ machineOnlyAt (a.toNat / 8 * 8) = true))
    (v : State → Nat) (hv : v (s.fetched 4) < 2 ^ (8 * n)) :
    ccStart 4 none s (fun t => ccStore 4 n (t.memAddr ra imm) (v t) t)
      = settle (regWrite (.core s.cc.pl) false (a.toNat / 8 * 8) (slotBe a.toNat n)
          (BitVec.ofNat 64 (v (s.fetched 4) * 2 ^ (8 * (a.toNat - a.toNat / 8 * 8)))) (ccNext 4 (s.fetched 4))) := by
  have hf := State.fetched_pl h.1 4
  rw [ccStart_ready h, State.fetched_memAddr h.1, hm,
    ccStore_reg 4 _ hal hn (State.ccPlace_store_reg (by rwa [hf]) ha (by rwa [hf])), hf, Nat.mod_eq_of_lt hv]

/-- LW of a register. -/
theorem exec_lw_reg (hal : a.toNat % 4 = 0) :
    let r := regRead (.core s.cc.pl) (a.toNat / 8 * 8) (slotBe a.toNat 4) (s.fetched 4)
    exec (.lw (.long rd ra imm)) s = .next (settle (ccNext 4
      (r.1.setG rd.toNat (BitVec.ofNat 32 (r.2.toNat / 2 ^ (8 * (a.toNat - a.toNat / 8 * 8)) % 2 ^ 32))))) := by
  show Host.Outcome.next (loadTo 4 zext rd ra imm s) = _
  rw [loadTo, ccLoad_fetched_reg h hpl hm ha (by decide) hal]
  rfl

/-- SW of a register. -/
theorem exec_sw_reg (hal : a.toNat % 4 = 0) (hw : ¬ (s.cc.pl = 1 ∧ machineOnlyAt (a.toNat / 8 * 8) = true)) :
    exec (.sw (.long rd ra imm)) s = .next (settle (regWrite (.core s.cc.pl) false (a.toNat / 8 * 8) (slotBe a.toNat 4)
      (BitVec.ofNat 64 ((s.g rd.toNat).toNat * 2 ^ (8 * (a.toNat - a.toNat / 8 * 8)))) (ccNext 4 (s.fetched 4)))) := by
  have hst := ccStore_fetched_reg h hpl hm ha (by decide) hal hw (fun t => (t.g rd.toNat).toNat) (BitVec.isLt _)
  show Host.Outcome.next (ccStart 4 none s fun t => ccStore 4 4 (t.memAddr ra imm) (t.g rd.toNat).toNat t) = _
  rw [hst, State.fetched_g h.1]

omit h hpl hm ha in
/-- An aligned access of eight bytes begins at its slot. -/
theorem slot_of_aligned (hal : a.toNat % 8 = 0) : a.toNat - a.toNat / 8 * 8 = 0 := by omega

omit h hpl hm ha in
theorem pairOk_of {r : BitVec 5} (h2 : r.toNat % 2 = 0) (h0 : r.toNat ≠ 0) : pairOk r = true := by
  have hne : r ≠ 0#5 := fun e => h0 (congrArg BitVec.toNat e)
  simp [pairOk, h2, hne]

/-- LDD of a register: both halves of its slot. -/
theorem exec_ldd_reg (hal : a.toNat % 8 = 0) (h2 : rd.toNat % 2 = 0) (h0 : rd.toNat ≠ 0) :
    let r := regRead (.core s.cc.pl) (a.toNat / 8 * 8) 0xFF (s.fetched 4)
    exec (.ldd rd ra imm) s = .next (settle (ccNext 4
      ((r.1.setG rd.toNat (r.2.setWidth 32)).setG (rd.toNat + 1) (BitVec.ofNat 32 (r.2.toNat / 2 ^ 32))))) := by
  intro r
  have hld := ccLoad_fetched_reg h hpl hm ha (n := 8) (by decide) hal
    (fun v u => settle (ccNext 4 ((u.setG rd.toNat (zext v)).setG (rd.toNat + 1) (zext (v / 2 ^ 32)))))
  have hv : bitsOf r.2.toNat (8 * (a.toNat - a.toNat / 8 * 8)) (8 * 8) = r.2.toNat := by
    rw [slot_of_aligned hal, bitsOf, Nat.pow_zero, Nat.div_one]
    exact Nat.mod_eq_of_lt r.2.isLt
  show Host.Outcome.next (ccStart 4 none s fun t => if !pairOk rd then _ else ccLoad 8 (t.memAddr ra imm) _ t) = _
  simp only [pairOk_of h2 h0, Bool.not_true, Bool.false_eq_true, if_false]
  rw [hld]
  show Host.Outcome.next (settle (ccNext 4 ((r.1.setG rd.toNat (zext (bitsOf r.2.toNat _ (8 * 8)))).setG _ (zext (bitsOf r.2.toNat _ (8 * 8) / _))))) = _
  rw [hv]
  rfl

/-- STD of a register. -/
theorem exec_std_reg (hal : a.toNat % 8 = 0) (h2 : rd.toNat % 2 = 0) (h0 : rd.toNat ≠ 0)
    (hw : ¬ (s.cc.pl = 1 ∧ machineOnlyAt (a.toNat / 8 * 8) = true)) :
    exec (.std rd ra imm) s = .next (settle (regWrite (.core s.cc.pl) false (a.toNat / 8 * 8) 0xFF
      (BitVec.ofNat 64 ((s.g rd.toNat).toNat + 2 ^ 32 * (s.g (rd.toNat + 1)).toNat)) (ccNext 4 (s.fetched 4)))) := by
  have hlt : ∀ x y : W32, x.toNat + 2 ^ 32 * y.toNat < 2 ^ (8 * 8) := fun x y => by omega
  have hst := ccStore_fetched_reg h hpl hm ha (n := 8) (by decide) hal hw
    (fun t => (t.g rd.toNat).toNat + 2 ^ 32 * (t.g (rd.toNat + 1)).toNat) (hlt _ _)
  show Host.Outcome.next (ccStart 4 none s fun t => if !pairOk rd then _ else ccStore 4 8 (t.memAddr ra imm) _ t) = _
  simp only [pairOk_of h2 h0, Bool.not_true, Bool.false_eq_true, if_false]
  rw [hst, slot_of_aligned hal]
  simp only [State.fetched_g h.1, Nat.mul_zero, Nat.pow_zero, Nat.mul_one]
  rfl

end Instructions

/-- Settles O32: an aligned access of the window above Task level goes to the register's slot. -/
theorem registerLoadsAndStores : Obligations.RegisterLoadsAndStores := by
  unfold Obligations.RegisterLoadsAndStores
  intro s rd ra imm off a v f h hpl ha hoff
  subst hoff
  exact ⟨fun hal => ⟨⟨_, exec_lw_reg h hpl rfl ha hal, rfl⟩, exec_sw_reg h hpl rfl ha hal⟩,
    fun hal h2 h0 => ⟨⟨_, exec_ldd_reg h hpl rfl ha hal h2 h0, rfl⟩, exec_std_reg h hpl rfl ha hal h2 h0⟩⟩

end Sys2Proof.Machine
end

section
/-!
PROOFS. A memory port that fails while a command's reply is to be written through it (R84, R128, R226, R597).
-/

namespace Sys2Proof.Machine

/-- A read of one line whose unit keeps it. -/
def imageRead (quad : Nat) : MptReq := { write := false, quad := quad, mask := 1, raw := [], use := .ucode 0 }

/-- MODE_SET to Display from command ring 0, accepted and not completed. -/
def pendingModeSet : Cmd :=
  { id := 0, src := .ring 0, hdr := [1, 0, 0, 0, 0, 0, 0, 0, 8, 0, 0xFF, 0xFF, 0, 0, 0, 0], params := [6, 0, 0, 0, 0, 0, 0, 0]
    parPen := false, resv := 0, phase := .started, mgmt := none, early := none, frame := 0 }

/-- The read that is overdue last. -/
def lastRead : MptOut := ⟨31, imageRead 31, [], false⟩

/-- AVLIN-X in Standby with that command in hand, 31 reads of port 0 overdue and one more outstanding, nothing queued. -/
def failingPort : State :=
  { State.reset with
    build := .x, ao := { Ao.reset with pwrgood := true }, cmds := { Cmds.reset with list := [pendingModeSet] }
    mpt0 := { MptPort.idle with out := (List.range 31).map (fun i => MptOut.mk i (imageRead i) [] true) ++ [lastRead] } }.setMode Mode.standby

theorem failingPort_clocked : failingPort.cclkOn = true ∧ failingPort.mode ≠ Mode.halt := by decide +kernel

theorem failingPort_out : (failingPort.port 0).out.find? (fun (o : MptOut) => o.aid == 31 && !o.overdue) = some lastRead := by
  decide +kernel

theorem failingPort_overdue : 31 ≤ failingPort.overdue 0 ∧ failingPort.flag (F.MPT_STAT_FAILED 0) = false := by decide +kernel

/-- The 32nd overdue request leads to Dark, which ends the MODE_SET with FAULT; the port, failed now, answers the write of that reply
as lost, and the completion ring queues it once more (R128, R226). -/
theorem failingPort_retries : (mptOverdue 0 31 failingPort).mpt0.queue.map (·.use) = [.cqWrite 0] := by decide +kernel

/-- Refutes O18: the queue of a port that has just failed is not empty where a completion ring has queued its write again. -/
theorem not_memoryPortIssueAndSetup : ¬ Obligations.MemoryPortIssueAndSetup := by
  unfold Obligations.MemoryPortIssueAndSetup
  intro h
  obtain ⟨hclk, hmode⟩ := failingPort_clocked
  obtain ⟨hdue, hfailed⟩ := failingPort_overdue
  obtain ⟨hoverdue, -⟩ := h.2 failingPort 0 (by decide) hclk
  obtain ⟨-, hfails⟩ := hoverdue 31 lastRead failingPort_out hmode ⟨⟨rfl, rfl⟩, by decide⟩ rfl rfl
    fun _ hr => absurd hr List.not_mem_nil
  obtain ⟨t, ht, -, hqueue, -⟩ := hfails hdue hfailed
  have hrun : exec (.mptRequestOverdue 0 31) failingPort = .next (mptOverdue 0 31 failingPort) :=
    congrArg Host.Outcome.next (whileClocked_on hclk _)
  have hempty : (mptOverdue 0 31 failingPort).mpt0.queue = [] := by
    rw [Host.Outcome.next.inj (hrun.symm.trans ht)]
    exact hqueue
  exact absurd (hempty ▸ failingPort_retries) (by decide)

end Sys2Proof.Machine
end

section
/-!
PROOFS. The responses of a memory port: what is noted of them, what reaches the unit that asked (R59, R118, R122, R127 to R130).
-/

namespace Sys2Proof.Machine

/-! ### Steps that change registers alone -/

/-- `t` differs from `s` in registers alone, in none but those of `P`. -/
structure SetsRegs (P : Nat → Prop) (s t : State) : Prop where
  rest : t = { s with rf := t.rf }
  regs : ∀ off, ¬ P off → t.reg off = s.reg off

namespace SetsRegs
variable {P : Nat → Prop} {s t u : State}

theorem refl (s : State) : SetsRegs P s s := ⟨rfl, fun _ _ => rfl⟩

theorem trans (h : SetsRegs P s t) (k : SetsRegs P t u) : SetsRegs P s u := by
  refine ⟨?_, fun off ho => (k.regs off ho).trans (h.regs off ho)⟩
  have h1 := h.rest
  have k1 := k.rest
  rw [h1] at k1
  exact k1

theorem mono {Q : Nat → Prop} (h : SetsRegs P s t) (hq : ∀ off, P off → Q off) : SetsRegs Q s t :=
  ⟨h.rest, fun off ho => h.regs off fun hp => ho (hq off hp)⟩

theorem setFld (s : State) {f : FRef} (v : Nat) (hf : P f.off) : SetsRegs P s (s.setFld f v) :=
  ⟨rfl, fun off ho => s.reg_setFld_ne f v off fun e => ho (e ▸ hf)⟩

theorem setFlag (s : State) {f : FRef} (b : Bool) (hf : P f.off) : SetsRegs P s (s.setFlag f b) := .setFld s _ hf

theorem fld (h : SetsRegs P s t) {f : FRef} (hf : ¬ P f.off) : t.fld f = s.fld f := by
  unfold State.fld
  rw [h.regs f.off hf]

theorem flag (h : SetsRegs P s t) {f : FRef} (hf : ¬ P f.off) : t.flag f = s.flag f := by
  unfold State.flag
  rw [h.fld hf]

theorem cclkOn (h : SetsRegs P s t) (hm : ¬ P F.AO_MODE_MODE.off) : t.cclkOn = s.cclkOn :=
  State.cclkOn_of s t (h.fld hm) (by rw [h.rest])

theorem raise {src : Nat} (hc : s.cclkOn = true) (h32 : 32 ≤ src) (hr : reservedSource src = false)
    (hp : P (F.DIC_SRC_COUNT src).off) : SetsRegs P s (s.raise src) := by
  rw [State.raise_eq s src hc h32 hr]
  exact .setFld s _ hp

theorem foldl {α : Type} {f : State → α → State} (hf : ∀ s a, s.cclkOn = true → SetsRegs P s (f s a)) (hm : ¬ P F.AO_MODE_MODE.off)
    (l : List α) (hc : s.cclkOn = true) : SetsRegs P s (l.foldl f s) := by
  induction l generalizing s with
  | nil => exact .refl s
  | cons a l ih =>
    have h1 := hf s a hc
    exact h1.trans (ih ((h1.cclkOn hm).trans hc))

theorem portCalm (h : SetsRegs P s t) (hs : s.portCalm) : t.portCalm :=
  ⟨State.calm_of hs.1 (by rw [h.rest]) (by rw [h.rest]), by rw [h.rest]; exact hs.2⟩

/-- What a unit keeps does not depend on registers. -/
theorem keepsLines (h : SetsRegs P s t) (n : Nat) (r : MptReq) (ls : List Line) :
    SetsRegs P (s.keepsLines n r ls) (t.keepsLines n r ls) := by
  have hl : t.lines = s.lines := by rw [h.rest]
  refine ⟨?_, h.regs⟩
  unfold State.keepsLines
  rw [hl]
  generalize (s.lines.filter fun x => !(x.use == r.use && x.port == n && x.addr == 256 * r.quad)) ++ [⟨r.use, n, 256 * r.quad, ls⟩] = kept
  exact congrArg (fun u : State => { u with lines := kept }) h.rest

end SetsRegs

/-! ### Taking a request out of the outstanding ones -/

theorem State.reg_setPort (s : State) (n : Nat) (p : MptPort) (off : Nat) : (s.setPort n p).reg off = s.reg off := by
  unfold State.setPort
  split <;> rfl

theorem State.fld_setPort (s : State) (n : Nat) (p : MptPort) (f : FRef) : (s.setPort n p).fld f = s.fld f := by
  unfold State.fld
  rw [s.reg_setPort]

theorem State.flag_setPort (s : State) (n : Nat) (p : MptPort) (f : FRef) : (s.setPort n p).flag f = s.flag f := by
  unfold State.flag
  rw [s.fld_setPort]

theorem State.cclkOn_setPort (s : State) (n : Nat) (p : MptPort) : (s.setPort n p).cclkOn = s.cclkOn :=
  State.cclkOn_of _ _ (s.fld_setPort n p _) (by unfold State.setPort; split <;> rfl)

theorem State.portCalm.setPort {s : State} (h : s.portCalm) (n : Nat) (p : MptPort) : (s.setPort n p).portCalm := by
  unfold State.setPort
  split <;> exact h

/-- With nothing due, nothing follows the end of a memory access. -/
theorem mptSettle_calm {s : State} (h : s.portCalm) : mptSettle s = s := by
  have hs : sleepSettle s = s := by
    unfold sleepSettle
    rw [if_neg]
    simp [h.2]
  unfold mptSettle
  rw [hs, settle_calm h.1]

/-! ### The error register (R129) -/

/-- `t` notes an error of port n after `s`: the first one with its cause and identifier, a later one as an overflow. -/
def NotesError (n cause aid : Nat) (s t : State) : Prop :=
  t.flag (F.MPT_ERR_VALID n) = true
  ∧ (s.flag (F.MPT_ERR_VALID n) = false → t.fld (F.MPT_ERR_CAUSE n) = cause ∧ t.fld (F.MPT_ERR_AID n) = aid % 64)
  ∧ (s.flag (F.MPT_ERR_VALID n) = true → t.flag (F.MPT_ERR_OVF n) = true ∧ t.fld (F.MPT_ERR_CAUSE n) = s.fld (F.MPT_ERR_CAUSE n))

theorem NotesError.congr {n cause aid : Nat} {s s' t t' : State} (h : NotesError n cause aid s t)
    (hs : s'.reg (F.MPT_ERR_VALID n).off = s.reg (F.MPT_ERR_VALID n).off)
    (ht : t'.reg (F.MPT_ERR_VALID n).off = t.reg (F.MPT_ERR_VALID n).off) : NotesError n cause aid s' t' := by
  unfold NotesError State.flag State.fld at h ⊢
  change s'.reg (0x040010 + 0x1000 * n) = s.reg (0x040010 + 0x1000 * n) at hs
  change t'.reg (0x040010 + 0x1000 * n) = t.reg (0x040010 + 0x1000 * n) at ht
  rw [hs, ht]
  exact h

theorem mptErr_setsRegs (n cause aid line : Nat) (s : State) :
    SetsRegs (· = (F.MPT_ERR_VALID n).off) s (mptErr n cause aid line s) := by
  unfold mptErr
  split
  · exact .setFlag s _ rfl
  · exact .trans (.trans (.trans (.setFlag s _ rfl) (.setFld (f := F.MPT_ERR_CAUSE n) _ cause rfl))
      (.setFld (f := F.MPT_ERR_AID n) _ aid rfl)) (.setFld (f := F.MPT_ERR_LINE n) _ line rfl)

theorem mptErr_notes (n cause aid line : Nat) (s : State) (hcause : cause < 16) : NotesError n cause aid s (mptErr n cause aid line s) := by
  unfold NotesError mptErr
  by_cases hv : s.flag (F.MPT_ERR_VALID n) = true
  · rw [if_pos hv]
    refine ⟨?_, fun h => absurd (hv.symm.trans h) (by decide), fun _ => ⟨State.flag_setFlag _ _ _ (by simp) (by simp), ?_⟩⟩
    · rw [State.flag_setFlag_other _ _ _ _ (by simp) (.inr (.inr (by simp)))]
      exact hv
    · exact State.fld_setFld_other _ _ _ _ (by simp) (.inr (.inl (by simp)))
  · rw [if_neg hv]
    refine ⟨?_, fun _ => ?_, fun h => absurd h hv⟩ <;>
      simp [State.flag, State.fld, State.setFlag, State.setFld, getBits_setBits, getBits_setBits_other, b2n, Nat.mod_eq_of_lt hcause]

/-- An error that is noted and raised (R127). -/
theorem mptErr_raise {n src : Nat} (cause aid line : Nat) {s : State} (hc : s.cclkOn = true) (hn : n < 2) (h32 : 32 ≤ src) (hs : src < 384) :
    SetsRegs (fun off => off = (F.MPT_ERR_VALID n).off ∨ off = (F.DIC_SRC_COUNT src).off) s ((mptErr n cause aid line s).raise src)
    ∧ (cause < 16 → NotesError n cause aid s ((mptErr n cause aid line s).raise src))
    ∧ ((mptErr n cause aid line s).raise src).fld (F.DIC_SRC_COUNT src) = min 15 (s.fld (F.DIC_SRC_COUNT src) + 1) := by
  have hm := mptErr_setsRegs n cause aid line s
  have hmode : F.AO_MODE_MODE.off ≠ (F.MPT_ERR_VALID n).off := by
    change 0x10000 ≠ 0x040010 + 0x1000 * n
    omega
  have hsrc : (F.DIC_SRC_COUNT src).off ≠ (F.MPT_ERR_VALID n).off := by
    change 0x028000 + 0x8 * src ≠ 0x040010 + 0x1000 * n
    omega
  have hc1 := (hm.cclkOn hmode).trans hc
  have hr : reservedSource src = false := by
    simp only [reservedSource, Bool.or_eq_false_iff, Bool.and_eq_false_iff, beq_eq_false_iff_ne, decide_eq_false_iff_not]
    omega
  have hraise : SetsRegs (· = (F.DIC_SRC_COUNT src).off) (mptErr n cause aid line s) ((mptErr n cause aid line s).raise src) :=
    .raise hc1 h32 hr rfl
  refine ⟨(hm.mono fun _ => .inl).trans (hraise.mono fun _ => .inr), fun h => ?_, ?_⟩
  · exact (mptErr_notes n cause aid line s h).congr rfl (hraise.regs _ hsrc.symm)
  · rw [State.fld_raise hc1 h32 hr, hm.fld hsrc]

/-! ### Lines decoded -/

theorem setBits_getBits_self (x : W64) (lo w : Nat) : setBits x lo w (getBits x lo w) = x := by
  refine BitVec.eq_of_getLsbD_eq fun i hi => ?_
  rw [setBits_getLsbD _ _ _ _ _ hi]
  split
  · rw [getBits_testBit, show lo + (i - lo) = i by omega, decide_eq_true (by omega), Bool.true_and]
  · rfl

/-- A count that nothing is added to keeps its value. -/
theorem State.reg_bump_zero (s : State) (f : FRef) (off : Nat) : (s.bump f 0).reg off = s.reg off := by
  have hlt : s.fld f < 2 ^ f.w := Nat.mod_lt _ (Nat.two_pow_pos _)
  have hsat : satAdd (s.fld f) 0 (2 ^ f.w - 1) = s.fld f := by
    unfold satAdd
    rw [if_neg (by omega)]
    rfl
  unfold State.bump State.setFld
  rw [hsat, State.reg_setReg]
  split
  · rename_i h
    rw [h]
    exact setBits_getBits_self _ _ _
  · rfl

/-- A register beside the mode's. -/
abbrev besideMode (off : Nat) : Prop := off ≠ F.AO_MODE_MODE.off

theorem besideMode_mpt (n k : Nat) : besideMode (0x040000 + k + 0x1000 * n) := by
  change 0x040000 + k + 0x1000 * n ≠ 0x10000
  omega

theorem mptErr_besideMode (n cause aid line : Nat) (s : State) : SetsRegs besideMode s (mptErr n cause aid line s) :=
  (mptErr_setsRegs n cause aid line s).mono fun _ ho => ho ▸ besideMode_mpt n 0x10

theorem mptErr_raise_besideMode {n src : Nat} (cause aid line : Nat) {s : State} (hc : s.cclkOn = true) (hn : n < 2) (h32 : 32 ≤ src)
    (hs : src < 384) : SetsRegs besideMode s ((mptErr n cause aid line s).raise src) :=
  (mptErr_raise cause aid line hc hn h32 hs).1.mono fun off ho => by
    rcases ho with rfl | rfl
    · exact besideMode_mpt n 0x10
    · change 0x028000 + 0x8 * src ≠ 0x10000
      omega

theorem SetsRegs.clocked {s t : State} (h : SetsRegs besideMode s t) (hc : s.cclkOn = true) : t.cclkOn = true :=
  (h.cclkOn fun hm => hm rfl).trans hc

theorem noteLine_besideMode {n : Nat} (aid line : Nat) (dp : Bool) (o : LineOutcome) {s : State} (hn : n < 2) (hc : s.cclkOn = true) :
    SetsRegs besideMode s (noteLine n aid line dp o s) := by
  have hcount : SetsRegs besideMode s
      (if dp then (List.range 10).foldl (fun t d => t.bump (F.MPT_DEVCNT_COUNT n d) (onDevice o.fixes d)) s else s) := by
    split
    · refine .foldl (f := fun t d => t.bump (F.MPT_DEVCNT_COUNT n d) (onDevice o.fixes d)) (fun s d _ => .setFld s _ ?_)
        (fun hm => hm rfl) _ hc
      change 0x040040 + 0x1000 * n + 8 * d ≠ 0x10000
      omega
    · exact .refl s
  have hraise {t : State} (ht : SetsRegs besideMode s t) (b : Bool) : SetsRegs besideMode s (if b then t.raise 326 else t) := by
    cases b
    · exact ht
    · exact ht.trans (.raise (ht.clocked hc) (by decide) (by decide) (by decide))
  have hnoted := hraise hcount ((List.range 10).any fun d => decide (5 ≤ onDevice o.fixes d))
  cases o with
  | valid p => exact hnoted
  | pennant p => exact hnoted.trans (mptErr_besideMode n 6 aid line _)
  | uncorrectable => exact hnoted.trans (mptErr_raise_besideMode 1 aid line (hnoted.clocked hc) hn (by omega) (by omega))

/-- A line that needs no correction leaves every register as it was. -/
theorem reg_noteLine_valid (n aid line : Nat) (dp : Bool) (s : State) (off : Nat) :
    (noteLine n aid line dp (.valid []) s).reg off = s.reg off := by
  have hfold (l : List Nat) : (l.foldl (fun (t : State) d => t.bump (F.MPT_DEVCNT_COUNT n d) (onDevice [] d)) s).reg off = s.reg off :=
    foldl_keeps (fun t => t.reg off) (fun t d => State.reg_bump_zero t _ off) l s
  cases dp
  · rfl
  · exact hfold _

theorem decodeLine_valid {raw : List Byte} (h : ∀ j, j < 16 → syndrome raw j = 0) : decodeLine raw = .valid [] := by
  unfold decodeLine
  refine if_pos ?_
  simpa [syndromes] using h

theorem applyPattern_nil (raw : List Byte) : applyPattern raw [] = raw := by
  simp [applyPattern]

/-- A line in the host's format, or a coded one whose syndromes are zero, reads as it is stored (R118, R122). -/
theorem readLine_clean {coded : Bool} {raw : List Byte} (h : coded = false ∨ ∀ j, j < 16 → syndrome raw j = 0) :
    readLine coded raw = ⟨⟨raw.take 64, false⟩, .valid []⟩ := by
  cases coded
  · rfl
  · simp [readLine, decodeLine_valid (h.resolve_left (by decide)), LineOutcome.fixes, applyPattern_nil]

theorem readLine_clean_out {coded : Bool} {raw : List Byte} (h : coded = false ∨ ∀ j, j < 16 → syndrome raw j = 0) :
    (readLine coded raw).out = .valid [] := by
  rw [readLine_clean h]

/-- The four lines of a read's answer, decoded under the format of their address. -/
def State.readLines (s : State) (n quad : Nat) (raw : List Byte) : List LineRead :=
  (List.range 4).map fun i => readLine (s.coded n quad) (rawOf raw i)

theorem State.readLines_line (s : State) (n quad : Nat) (raw : List Byte) :
    (s.readLines n quad raw).map (·.line) = (List.range 4).map fun i => (readLine (s.coded n quad) (rawOf raw i)).line := by
  simp [State.readLines, Function.comp_def]

/-- What is noted of the lines of a read. -/
def noteLines (n aid : Nat) (r : MptReq) (ls : List LineRead) (s : State) : State :=
  ls.zipIdx.foldl (fun t p => noteLine n aid (4 * r.quad + p.2) r.use.dataPath p.1.out t) s

theorem noteLines_besideMode {n : Nat} (aid : Nat) (r : MptReq) (ls : List LineRead) {s : State} (hn : n < 2) (hc : s.cclkOn = true) :
    SetsRegs besideMode s (noteLines n aid r ls s) :=
  .foldl (f := fun t (p : LineRead × Nat) => noteLine n aid (4 * r.quad + p.2) r.use.dataPath p.1.out t)
    (fun _ _ hs => noteLine_besideMode aid _ _ _ hn hs) (fun hm => hm rfl) _ hc

/-- Nothing is noted of lines that need no correction. -/
theorem reg_noteLines_clean (n aid : Nat) (r : MptReq) {ls : List LineRead} (h : ∀ l ∈ ls, l.out = .valid []) (s : State) (off : Nat) :
    (noteLines n aid r ls s).reg off = s.reg off := by
  unfold noteLines
  generalize hk : ls.zipIdx = l
  have hl : ∀ p ∈ l, p.1.out = .valid [] := fun p hp => h p.1 (List.fst_mem_of_mem_zipIdx (hk ▸ hp))
  clear hk
  induction l generalizing s with
  | nil => rfl
  | cons p l ih =>
    rw [List.foldl_cons, ih _ fun q hq => hl q (List.mem_cons_of_mem _ hq), hl p List.mem_cons_self]
    exact reg_noteLine_valid ..

/-! ### A response and what it answers (R59, R127, R128) -/

/-- The outstanding request that a response answers. -/
def State.responded (s : State) (n aid : Nat) (wr : Bool) : Option MptOut :=
  (s.port n).out.find? fun o => o.aid == aid && o.req.write == wr

section Response
variable {s : State} {n aid : Nat} {bad : Bool} {raw : List Byte} {o : MptOut}

theorem State.responded_read : (s.port n).out.find? (fun o => o.aid == aid && !o.req.write) = s.responded n aid false := by
  simp only [State.responded, beq_false]

theorem State.responded_write : (s.port n).out.find? (fun o => o.aid == aid && o.req.write) = s.responded n aid true := by
  simp only [State.responded, beq_true]

theorem State.responded_aid {wr : Bool} (h : s.responded n aid wr = some o) : o.aid = aid := by
  have := List.find?_some h
  simp only [Bool.and_eq_true, beq_iff_eq] at this
  exact this.1

theorem mptRead_none (h : s.responded n aid false = none) : mptRead n aid bad raw s = s := by
  unfold mptRead
  rw [State.responded_read, h]

theorem mptWritten_none (h : s.responded n aid true = none) : mptWritten n aid bad s = s := by
  unfold mptWritten
  rw [State.responded_write, h]

variable (hn : n < 2) (hc : s.cclkOn = true)
include hn hc

theorem mptRead_late (h : s.responded n aid false = some o) (ho : o.overdue = true) : mptRead n aid bad raw s = lateResponse n o s := by
  unfold mptRead
  rw [State.responded_read, h]
  simp [Nat.not_le.mpr hn, hc, ho]

theorem mptWritten_late (h : s.responded n aid true = some o) (ho : o.overdue = true) : mptWritten n aid bad s = lateResponse n o s := by
  unfold mptWritten
  rw [State.responded_write, h]
  simp [Nat.not_le.mpr hn, hc, ho]

theorem mptRead_bad (h : s.responded n aid false = some o) (ho : o.overdue = false) :
    mptRead n aid true raw s = mptSettle (deliverRead n o.req true (List.replicate 4 lostLine)
      ((mptErr n 2 aid o.req.firstLine (s.dropOut n o)).raise (320 + n))) := by
  unfold mptRead
  rw [State.responded_read, h]
  simp [Nat.not_le.mpr hn, hc, ho]

theorem mptRead_good (h : s.responded n aid false = some o) (ho : o.overdue = false) :
    mptRead n aid false raw s = mptSettle (deliverRead n o.req false (s.readLines n o.req.quad raw)
      (noteLines n aid o.req (s.readLines n o.req.quad raw) (s.dropOut n o))) := by
  unfold mptRead
  rw [State.responded_read, h]
  simp [Nat.not_le.mpr hn, hc, ho, noteLines, State.readLines, rawOf]

theorem mptWritten_bad (h : s.responded n aid true = some o) (ho : o.overdue = false) :
    mptWritten n aid true s = mptSettle (deliverWrite o.req true
      ((mptErr n 3 aid o.req.firstLine (s.dropOut n o)).raise (324 + n))) := by
  unfold mptWritten
  rw [State.responded_write, h]
  simp [Nat.not_le.mpr hn, hc, ho]

theorem mptWritten_good (h : s.responded n aid true = some o) (ho : o.overdue = false) :
    mptWritten n aid false s = mptSettle (deliverWrite o.req false (s.dropOut n o)) := by
  unfold mptWritten
  rw [State.responded_write, h]
  simp [Nat.not_le.mpr hn, hc, ho]

end Response

/-- The unit of a kept read finds its lines. -/
theorem deliverRead_kept {r : MptReq} (h : r.use.kept = true) (n : Nat) (failed : Bool) (ls : List LineRead) (s : State) :
    deliverRead n r failed ls s = s.keepsLines n r (ls.map (·.line)) := by
  unfold MptUse.kept at h
  split at h
  case h_6 => cases h
  all_goals
    rename_i hu
    simp only [deliverRead, hu]
    rfl

/-- The scrubber takes no notice of a failed write (R127). -/
theorem deliverWrite_scrub {r : MptReq} (h : ∃ sp, r.use = .scrubWrite sp) (failed : Bool) (s : State) : deliverWrite r failed s = s := by
  obtain ⟨sp, hu⟩ := h
  simp only [deliverWrite, hu]

/-! ### What a response does -/

section Effects
variable {s : State} {n aid : Nat} {raw : List Byte} {o : MptOut} (hn : n < 2) (hc : s.cclkOn = true) (hs : s.portCalm)

/-- The request leaves the outstanding ones before anything is noted of it. -/
theorem NotesError.dropOut {cause : Nat} {t : State} (h : NotesError n cause aid (s.dropOut n o) t) : NotesError n cause aid s t :=
  h.congr (s.reg_setPort n _ _).symm rfl

/-- A late response is discarded and noted with CAUSE 5 (R128). -/
theorem lateResponse_notes (ha : o.aid = aid) : lateResponse n o s = { s.dropOut n o with rf := (lateResponse n o s).rf }
    ∧ NotesError n 5 aid s (lateResponse n o s)
    ∧ ∀ off, off ≠ (F.MPT_ERR_VALID n).off → (lateResponse n o s).reg off = s.reg off := by
  have h := mptErr_setsRegs n 5 o.aid o.req.firstLine (s.dropOut n o)
  refine ⟨h.rest, ?_, fun off ho => (h.regs off ho).trans (s.reg_setPort n _ off)⟩
  rw [← ha]
  exact (mptErr_notes n 5 o.aid _ _ (by decide)).dropOut

include hn hc hs

/-- The lines of a read reach the unit that keeps them (R59, R118). -/
theorem mptRead_keeps (h : s.responded n aid false = some o) (ho : o.overdue = false) (hk : o.req.use.kept = true) :
    ∃ t, mptRead n aid false raw s = t.keepsLines n o.req
        ((List.range 4).map fun i => (readLine (s.coded n o.req.quad) (rawOf raw i)).line)
      ∧ t = noteLines n aid o.req (s.readLines n o.req.quad raw) (s.dropOut n o) ∧ SetsRegs besideMode (s.dropOut n o) t := by
  have hsets := noteLines_besideMode aid o.req (s.readLines n o.req.quad raw) (s := s.dropOut n o) hn
    ((s.cclkOn_setPort n _).trans hc)
  refine ⟨_, ?_, rfl, hsets⟩
  rw [mptRead_good hn hc h ho, deliverRead_kept hk, State.readLines_line]
  exact mptSettle_calm (hsets.portCalm (hs.setPort n _))

/-- Of a read that fails, pennanted lines of zeros reach that unit (R59, R127). -/
theorem mptRead_lost (h : s.responded n aid false = some o) (ho : o.overdue = false) (hk : o.req.use.kept = true) :
    mptRead n aid true raw s = { (s.dropOut n o).keepsLines n o.req noLines with rf := (mptRead n aid true raw s).rf }
    ∧ NotesError n 2 aid s (mptRead n aid true raw s)
    ∧ (mptRead n aid true raw s).fld (F.DIC_SRC_COUNT (320 + n)) = min 15 (s.fld (F.DIC_SRC_COUNT (320 + n)) + 1) := by
  obtain ⟨hsets, hnotes, hraised⟩ := mptErr_raise (src := 320 + n) 2 aid o.req.firstLine (s := s.dropOut n o)
    ((s.cclkOn_setPort n _).trans hc) hn (by omega) (by omega)
  have hrun : mptRead n aid true raw s
      = ((mptErr n 2 aid o.req.firstLine (s.dropOut n o)).raise (320 + n)).keepsLines n o.req noLines := by
    rw [mptRead_bad hn hc h ho, deliverRead_kept hk]
    exact mptSettle_calm (hsets.portCalm (hs.setPort n _))
  rw [hrun]
  refine ⟨(hsets.keepsLines n o.req noLines).rest, (hnotes (by decide)).dropOut, hraised.trans ?_⟩
  rw [State.dropOut, State.fld_setPort]

/-- The scrubber's write, answered (R127). -/
theorem mptWritten_scrub (h : s.responded n aid true = some o) (ho : o.overdue = false) (hu : ∃ sp, o.req.use = .scrubWrite sp) :
    mptWritten n aid false s = s.dropOut n o := by
  rw [mptWritten_good hn hc h ho, deliverWrite_scrub hu]
  exact mptSettle_calm (hs.setPort n _)

/-- A write of the scrubber that fails is noted with CAUSE 3 and raised (R127). -/
theorem mptWritten_fails (h : s.responded n aid true = some o) (ho : o.overdue = false) (hu : ∃ sp, o.req.use = .scrubWrite sp) :
    mptWritten n aid true s = { s.dropOut n o with rf := (mptWritten n aid true s).rf }
    ∧ NotesError n 3 aid s (mptWritten n aid true s)
    ∧ (mptWritten n aid true s).fld (F.DIC_SRC_COUNT (324 + n)) = min 15 (s.fld (F.DIC_SRC_COUNT (324 + n)) + 1)
    ∧ ∀ off, off ≠ (F.MPT_ERR_VALID n).off → off ≠ (F.DIC_SRC_COUNT (324 + n)).off → (mptWritten n aid true s).reg off = s.reg off := by
  obtain ⟨hsets, hnotes, hraised⟩ := mptErr_raise (src := 324 + n) 3 aid o.req.firstLine (s := s.dropOut n o)
    ((s.cclkOn_setPort n _).trans hc) hn (by omega) (by omega)
  have hrun : mptWritten n aid true s = (mptErr n 3 aid o.req.firstLine (s.dropOut n o)).raise (324 + n) := by
    rw [mptWritten_bad hn hc h ho, deliverWrite_scrub hu]
    exact mptSettle_calm (hsets.portCalm (hs.setPort n _))
  rw [hrun]
  refine ⟨hsets.rest, (hnotes (by decide)).dropOut, hraised.trans ?_, fun off h1 h2 => ?_⟩
  · rw [State.dropOut, State.fld_setPort]
  · exact (hsets.regs off fun h => h.elim h1 h2).trans (s.reg_setPort n _ off)

end Effects

/-! ### The responses as commands -/

/-- Settles O19, by what each kind of response does to the outstanding request that it answers. -/
theorem memoryPortResponses : Obligations.MemoryPortResponses := by
  unfold Obligations.MemoryPortResponses
  intro s n aid bad raw o wr hn hc hs
  have hread (P : State → Prop) (h : P (mptRead n aid bad raw s)) : Runs (.mptReadResponse n aid bad raw) s P := .of_clocked rfl hc h
  have hwrite (P : State → Prop) (h : P (mptWritten n aid bad s)) : Runs (.mptWriteResponse n aid bad) s P := .of_clocked rfl hc h
  refine ⟨fun h => ?_, fun h ho => ?_, fun h ho => ⟨?_, ?_⟩⟩
  · cases wr
    · exact .of_clocked rfl (mptRead_none h)
    · exact .of_clocked rfl (mptWritten_none h)
  · have hlate := lateResponse_notes (s := s) (n := n) (State.responded_aid h)
    cases wr
    · exact hread _ (by rw [mptRead_late hn hc h ho]; exact hlate)
    · exact hwrite _ (by rw [mptWritten_late hn hc h ho]; exact hlate)
  · rintro rfl hk
    refine ⟨?_, ?_, ?_⟩
    · rintro rfl
      obtain ⟨t, hrun, -, hsets⟩ := mptRead_keeps (raw := raw) hn hc hs h ho hk
      refine hread _ ?_
      rw [hrun]
      exact (hsets.keepsLines n o.req _).rest
    · rintro rfl hclean
      obtain ⟨t, hrun, ht, hsets⟩ := mptRead_keeps (raw := raw) hn hc hs h ho hk
      have hlines (i : Nat) (hi : i ∈ List.range 4) :
          readLine (s.coded n o.req.quad) (rawOf raw i) = ⟨⟨(rawOf raw i).take 64, false⟩, .valid []⟩ :=
        readLine_clean (hclean.imp_right fun h => h i (List.mem_range.mp hi))
      have hout : ∀ l ∈ s.readLines n o.req.quad raw, l.out = .valid [] := by
        simp only [State.readLines, List.mem_map]
        rintro _ ⟨i, hi, rfl⟩
        rw [hlines i hi]
      have hline : ((List.range 4).map fun i => (readLine (s.coded n o.req.quad) (rawOf raw i)).line)
          = (List.range 4).map fun i => ⟨(rawOf raw i).take 64, false⟩ :=
        List.map_congr_left fun i hi => by rw [hlines i hi]
      refine hread _ ?_
      rw [hrun, hline]
      refine ⟨(hsets.keepsLines n o.req _).rest, fun off => ?_⟩
      calc t.reg off = (s.dropOut n o).reg off := by rw [ht]; exact reg_noteLines_clean n aid o.req hout _ off
        _ = s.reg off := s.reg_setPort n _ off
    · rintro rfl
      exact hread _ (mptRead_lost hn hc hs h ho hk)
  · rintro rfl hu
    refine ⟨?_, ?_⟩
    · rintro rfl
      exact congrArg Host.Outcome.next ((whileClocked_on hc _).trans (mptWritten_scrub hn hc hs h ho hu))
    · rintro rfl
      exact hwrite _ (mptWritten_fails hn hc hs h ho hu)

end Sys2Proof.Machine
end

section
/-!
PROOFS. The wake: what keeps the mode, the clocks and HPT as they are, up to its last hook (R54, R89, R90, R216).
-/

namespace Sys2Proof.Machine

/-! ### Registers that hold no setting -/

/-- A register that holds no saved setting is restored as it is. -/
theorem foldl_saved_none {l : List FDesc} (h : l.any (·.surv.saved) = false) (v old : W64) :
    l.foldl (fun acc f => if f.surv.saved && f.acc != .rwl then setBits acc f.lo f.w (getBits v f.lo f.w) else acc) old = old := by
  induction l generalizing old with
  | nil => rfl
  | cons f l ih =>
    simp only [List.any_cons, Bool.or_eq_false_iff] at h
    simp only [List.foldl_cons, h.1, Bool.false_and, Bool.false_eq_true, if_false]
    exact ih h.2 old

theorem reg_restoreReg {s : State} {p : Nat × W64} {off : Nat} (h : savedReg off = false) :
    (restoreReg s p).reg off = s.reg off := by
  unfold restoreReg
  split
  · rfl
  · rename_i g i hg
    rw [State.reg_setReg]
    split
    · rename_i he
      subst he
      unfold savedReg at h
      rw [hg] at h
      exact foldl_saved_none h _ _
    · rfl

/-! ### What a wake leads to, and what keeps it -/

/-- What the end of a wake is judged by: the mode and the one before it, CCLK, the resets, HPT awake, a Halt that waits. -/
structure WakeView where
  mode : Nat
  last : Nat
  ccOk : Nat
  ccSafe : Nat
  waking : Bool
  coreHeld : Bool
  inReset : Bool
  awake : Bool
  haltReq : Option Nat

def State.wakeView (s : State) : WakeView where
  mode := s.mode
  last := s.fld F.AO_MODE_LAST
  ccOk := s.fld F.AO_CLKST_CC_OK
  ccSafe := s.fld F.AO_CLKST_CC_SAFE
  waking := s.ao.waking
  coreHeld := s.ao.coreHeld
  inReset := s.inReset
  awake := s.hpt.awake
  haltReq := s.tdu.haltReq

/-- While CCLK runs, `t` has the mode, the clocks and the wake of `s`. -/
structure SameWake (s t : State) : Prop where
  view : s.cclkOn = true → t.wakeView = s.wakeView

theorem State.cclkOn_wakeView {s t : State} (h : t.wakeView = s.wakeView) : t.cclkOn = s.cclkOn := by
  have hm : t.mode = s.mode := congrArg WakeView.mode h
  have hr : t.inReset = s.inReset := congrArg WakeView.inReset h
  unfold State.cclkOn State.asleep
  rw [hm, hr]

namespace SameWake
variable {s t u : State}

theorem refl (s : State) : SameWake s s := ⟨fun _ => rfl⟩

theorem clocked (h : SameWake s t) (hc : s.cclkOn = true) : t.cclkOn = true := (State.cclkOn_wakeView (h.view hc)).trans hc

theorem trans (h : SameWake s t) (k : SameWake t u) : SameWake s u := ⟨fun hc => (k.view (h.clocked hc)).trans (h.view hc)⟩

/-- A step that is known to behave while CCLK runs. -/
theorem of_clocked (h : s.cclkOn = true → SameWake s t) : SameWake s t := ⟨fun hc => (h hc).view hc⟩

theorem of_rf (hb : t.build = s.build) (hr : t.rf = s.rf) (ha : t.ao = s.ao) (hp : t.hpt = s.hpt) (hq : t.tdu = s.tdu) : SameWake s t := by
  refine ⟨fun _ => ?_⟩
  have hreg : t.reg = s.reg := funext (State.reg_congr s t hb hr)
  simp only [State.wakeView, State.mode, State.fld, State.inReset, hreg, ha, hp, hq]

theorem putCmds (s : State) (x : Cmds) : SameWake s { s with cmds := x } := .of_rf rfl rfl rfl rfl rfl
theorem putCc (s : State) (x : CcSt) : SameWake s { s with cc := x } := .of_rf rfl rfl rfl rfl rfl
theorem setTmr (s : State) (n : Nat) (x : Tmr) : SameWake s (s.setTmr n x) := .of_rf rfl rfl rfl rfl rfl
theorem setPu (s : State) (n : Nat) (x : Pu) : SameWake s (s.setPu n x) := .of_rf rfl rfl rfl rfl rfl
theorem putSaved (s : State) (x : Option (List (Nat × W64))) : SameWake s { s with ao := { s.ao with saved := x } } :=
  ⟨fun _ => rfl⟩
theorem drew (s : State) : SameWake s s.drew := .of_rf rfl rfl rfl rfl rfl

theorem setStore (s : State) (x : StoreSel) (m : Store) : SameWake s (s.setStore x m) := by
  cases x <;> exact .of_rf rfl rfl rfl rfl rfl

/-- Registers above AO_CLKST are no part of it. -/
theorem setReg (s : State) {off : Nat} (v : W64) (h : 0x10010 < off) : SameWake s (s.setReg off v) := by
  refine ⟨fun _ => ?_⟩
  have hreg {f : FRef} (hf : f.off ≤ 0x10010) : (s.setReg off v).fld f = s.fld f := by
    unfold State.fld
    rw [State.reg_setReg_ne _ _ _ _ (by omega)]
  simp only [State.wakeView, State.mode]
  rw [hreg (by decide), hreg (by decide), hreg (by decide), hreg (by decide)]
  rfl

theorem setFld (s : State) {f : FRef} (v : Nat) (h : 0x10010 < f.off) : SameWake s (s.setFld f v) := setReg s _ h

theorem setFlag (s : State) {f : FRef} (b : Bool) (h : 0x10010 < f.off) : SameWake s (s.setFlag f b) := setReg s _ h

theorem busy (s : State) (b : Bool) : SameWake s (s.setFlag F.AO_MODE_BUSY b) := by
  refine ⟨fun _ => ?_⟩
  have hfld {f : FRef} (hw : f.lo + f.w ≤ 64) (hf : f.Apart F.AO_MODE_BUSY) : (s.setFlag F.AO_MODE_BUSY b).fld f = s.fld f :=
    State.fld_setFld_other _ _ _ _ hw hf
  simp only [State.wakeView, State.mode]
  rw [hfld (by decide) (by decide), hfld (by decide) (by decide), hfld (by decide) (by decide), hfld (by decide) (by decide)]
  rfl

theorem ite {c : Prop} [Decidable c] (h : SameWake s t) (k : SameWake s u) : SameWake s (if c then t else u) := by
  split
  · exact h
  · exact k

theorem foldl {α : Type} {f : State → α → State} (l : List α) (hf : ∀ s, ∀ a ∈ l, SameWake s (f s a)) (s : State) :
    SameWake s (l.foldl f s) := by
  induction l generalizing s with
  | nil => exact .refl s
  | cons a l ih => exact (hf s a List.mem_cons_self).trans (ih (fun s b hb => hf s b (List.mem_cons_of_mem _ hb)) _)

/-! ### Sources and unit states -/

/-- Nothing is watched while CCLK runs. -/
theorem watchHit (s : State) (src : Nat) : SameWake s (s.watchHit src) := by
  refine .of_clocked fun hc => ?_
  simp only [State.cclkOn, Bool.and_eq_true, Bool.not_eq_true'] at hc
  unfold State.watchHit
  rw [if_neg (by simp [hc.1.2])]
  exact .refl s

theorem raise (s : State) (src : Nat) : SameWake s (s.raise src) := by
  unfold State.raise State.raiseN
  refine .ite (watchHit s src) (.ite (.refl s) (.ite (.refl s) (.setFld s _ ?_)))
  change 0x10010 < 0x028000 + 0x8 * src
  omega

theorem judgeUnit (cls idx cause : Nat) (s : State) : SameWake s (judgeUnit cls idx cause s) := by
  have hust {f : FRef} (hf : f.off = 0x038000 + 0x8 * ustIdx cls idx) : 0x10010 < f.off := by omega
  have hdue (u : State) : SameWake u ({ u with cmds := { u.cmds with reportDue := true } }.raise 159) :=
    .trans (.putCmds u { u.cmds with reportDue := true }) (.raise _ 159)
  have hnoted (v w : Nat) := (SameWake.setFld s (f := F.CMD_UST_DIV (ustIdx cls idx)) v (hust rfl)).trans
    ((SameWake.setFld _ (f := F.CMD_UST_FRAME (ustIdx cls idx)) w (hust rfl)).trans (hdue _))
  unfold Machine.judgeUnit
  exact .ite (.refl s) (.ite ((hnoted _ _).trans (.setFld _ _ (hust rfl))) (hnoted _ _))

theorem observe (cls idx obs cause : Nat) (s : State) : SameWake s (observe cls idx obs cause s) := by
  unfold Machine.observe
  refine .ite (.trans (.setFld s _ ?_) (.judgeUnit ..)) (.refl s)
  change 0x10010 < 0x038000 + 0x8 * ustIdx cls idx
  omega

theorem observePu (n : Nat) (s : State) : SameWake s (observePu n s) := by
  unfold Machine.observePu
  exact .ite (.observe ..) (.ite (.observe ..) (.ite (.observe ..) (.ite (.observe ..) (.observe ..))))

theorem observePus (mask : Nat) (s : State) : SameWake s (observePus mask s) := .foldl _ (fun _ _ _ => .observePu ..) s

theorem observePort (n : Nat) (s : State) : SameWake s (observePort n s) := by
  unfold Machine.observePort
  exact .ite (.observe ..) (.ite (.observe ..) (.observe ..))

theorem tmrReturn (n : Nat) (s : State) : SameWake s (tmrReturn n s) := by
  unfold Machine.tmrReturn tmrRaise
  extract_lets old s1
  have h1 : SameWake s s1 := .trans (.setFlag s _ (by change 0x10010 < 0x2C0060 + 0x80 * n; omega)) (.setTmr ..)
  exact .ite (.refl s) ((h1.trans (.ite (.raise ..) (.refl s1))).trans (.observe ..))

theorem tmrsReturn (src : Nat) (s : State) : SameWake s (tmrsReturn src s) := .foldl _ (fun _ _ _ => .tmrReturn ..) s

theorem puHoldAll (s : State) : SameWake s (puHoldAll s) := .of_rf rfl rfl rfl rfl rfl

theorem puWakeReport (s : State) : SameWake s (puWakeReport s) := by
  refine .foldl _ (fun s n _ => ?_) s
  exact .ite (.trans (.trans (.setPu ..) (.raise ..)) (.observePu ..)) (.refl s)

theorem watcherReplay (s : State) : SameWake s (watcherReplay s) := by
  refine .foldl _ (fun s w _ => .ite (.trans (.setFlag s _ ?_) (.raise ..)) (.refl s)) s
  change 0x10010 < 0x020800 + 0x8 * w
  omega

/-! ### Settings -/

theorem restoreReg (s : State) (p : Nat × W64) : SameWake s (restoreReg s p) := by
  refine ⟨fun _ => ?_⟩
  have hfld {f : FRef} (h : savedReg f.off = false) : (Machine.restoreReg s p).fld f = s.fld f := by
    unfold State.fld
    rw [reg_restoreReg h]
  have hrest : Machine.restoreReg s p = { s with rf := (Machine.restoreReg s p).rf } := by
    unfold Machine.restoreReg
    split <;> rfl
  simp only [State.wakeView, State.mode, State.inReset]
  rw [hfld (by decide +kernel), hfld (by decide +kernel), hfld (by decide +kernel), hfld (by decide +kernel), hrest]

theorem freeSettings (l : List (Nat × W64)) (s : State) : SameWake s (freeSettings l s).2 := by
  induction l generalizing s with
  | nil => exact .refl s
  | cons p l ih => exact .trans (.drew s) (ih s.drew)

theorem restoreSettings (s : State) : SameWake s (restoreSettings s) := by
  unfold Machine.restoreSettings
  split
  · exact .refl s
  · extract_lets r s1
    have hr : SameWake s r.2 := by
      unfold r
      split
      · exact .refl s
      · exact .freeSettings ..
    exact (hr.trans (.foldl _ (fun _ _ _ => .restoreReg ..) _)).trans (.putSaved s1 none)

theorem freeBytes (n : Nat) (s : State) : SameWake s (freeBytes n s).2 := by
  induction n generalizing s with
  | zero => exact .refl s
  | succ n ih => exact .trans (.drew s) (ih s.drew)

theorem writeBytes (x : StoreSel) (a : Nat) (l : List PByte) (s : State) : SameWake s (writeBytes x a l s) := by
  unfold Machine.writeBytes
  extract_lets m src1 s1 tgt
  have h1 : SameWake s s1 := (setStore s x m).trans (.of_rf rfl rfl rfl rfl rfl)
  exact .ite (.refl s) (.ite (h1.trans (.trans (.setStore ..) (.setFlag _ _ (by decide)))) h1)

theorem of_notes (h : s.cclkOn = true → Notes s t) : SameWake s t := by
  refine ⟨fun hc => ?_⟩
  have hfld {f : FRef} (ho : f.off ≠ 0x048008 ∧ f.off ≠ 0x048010) (hr : reportOff f.off = false) : t.fld f = s.fld f := by
    unfold State.fld
    rw [(h hc).regs _ ho hr]
  simp only [State.wakeView, State.mode, State.inReset]
  rw [hfld (by decide) (by decide), hfld (by decide) (by decide), hfld (by decide) (by decide), hfld (by decide) (by decide), (h hc).rest]

theorem noteCode (a n : Nat) (s : State) : SameWake s (noteCode a n s) := .of_notes (.code a n s)

/-! ### The command core -/

theorem setSeqState (s : State) (q v : Nat) : SameWake s (s.setSeqState q v) := .setFld s _ (by
  change 0x10010 < seqBase q + 0x0
  unfold seqBase
  split
  · omega
  · split <;> omega)

theorem customAbandon (s : State) : SameWake s (customAbandon s) := by
  unfold Machine.customAbandon
  extract_lets s1 sq s2
  have h1 : SameWake s s1 := by
    unfold s1
    split
    · rename_i f _
      exact .setFld s _ (by change 0x10010 < 0x083000 + 0x8 * f; omega)
    · exact .refl s
  have h2 : SameWake s s2 := h1.trans (.of_rf rfl rfl rfl rfl rfl)
  exact .ite (h2.trans (.setSeqState ..)) h2

theorem ccInterrupt (s : State) : SameWake s (ccInterrupt s) := by
  unfold Machine.ccInterrupt
  exact .trans (.ite (.customAbandon s) (.refl s)) (.putCc ..)

theorem doubleCheck (s : State) : SameWake s (doubleCheck s) := .trans (.setFlag s _ (by decide)) (.setSeqState ..)

theorem coreMachineCheck (sub : Nat) (pc tval : W32) (s : State) : SameWake s (coreMachineCheck sub pc tval s) := by
  unfold Machine.coreMachineCheck
  extract_lets s0 base s1 s2 core2
  have h0 : SameWake s s0 := .trans (.putCc s s.cc.landAll) (.ccInterrupt _)
  have h1 : SameWake s s1 := h0.trans (.trans (.writeBytes ..) (.noteCode ..))
  have h2 : SameWake s s2 := h1.trans (.trans (.writeBytes ..) (.setFlag _ _ (by decide)))
  refine .ite (h0.trans (.doubleCheck s0)) ?_
  split
  · exact h1.trans (.doubleCheck s1)
  · exact h2.trans (.putCc ..)

theorem trapEnter (vec sub : Nat) (pc tval : W32) (s : State) : SameWake s (trapEnter vec sub pc tval s) := by
  unfold Machine.trapEnter
  extract_lets s0 tsbp fast base s1 entry s2 s3
  have h0 : SameWake s s0 := .trans (.putCc s s.cc.landAll) (.ccInterrupt _)
  have h2 : SameWake s s2 := h0.trans (.trans (.setFld _ _ (by decide)) (.trans (.writeBytes ..) (.noteCode ..)))
  have h3 : SameWake s s3 := h2.trans (.ite (.refl s2) (.writeBytes ..))
  refine .ite (h0.trans (.coreMachineCheck ..)) ?_
  split
  · exact h2.trans (.coreMachineCheck ..)
  · exact h3.trans (.putCc ..)

theorem setG (s : State) (k : Nat) (v : W32) : SameWake s (s.setG k v) := .ite (.refl s) (.putCc ..)

theorem callHook (h : HookDue) (s : State) : SameWake s (callHook h s).1 := by
  unfold Machine.callHook
  extract_lets b s1 ret pl run s2
  have h1 : SameWake s s1 := .noteCode ..
  have h2 : SameWake s s2 := h1.trans (.trans (.drew s1) (.trans (.setG ..) (.trans (.setG ..) (.setG ..))))
  split
  · exact h1.trans (.trapEnter ..)
  · split
    · exact h1
    · exact h2.trans (.putCc ..)

theorem queueHook (k arg : Nat) (cmd : Option Nat) (s : State) : SameWake s (queueHook k arg cmd s) := .putCc ..

theorem finish (id st : Nat) (ps : List Byte) (s : State) : SameWake s (finish id st ps s) := by
  rw [finish_rest]
  exact .of_rf rfl rfl rfl rfl rfl

/-! ### The held frame and what follows a hook -/

theorem settingsToHb (s : State) : SameWake s (settingsToHb s) := by
  unfold Machine.settingsToHb
  extract_lets n a r s1
  have h1 : SameWake s s1 := .trans (.trans (.drew s) (.freeBytes ..)) (.writeBytes ..)
  exact h1.trans ⟨fun _ => rfl⟩

theorem saveSettings (s : State) : SameWake s (saveSettings s) :=
  .trans (.trans (.settingsToHb s) (.putSaved _ (some s.rf))) (.queueHook ..)

theorem startHandshake (s : State) : SameWake s (startHandshake s) := .ite (.refl s) ⟨fun _ => rfl⟩

theorem setRport (s : State) (n : Nat) (p : RingPort) : SameWake s (s.setRport n p) :=
  .ite (.of_rf rfl rfl rfl rfl rfl) (.of_rf rfl rfl rfl rfl rfl)

theorem heldFrameForward (s : State) : SameWake s (heldFrameForward s) := by
  unfold Machine.heldFrameForward
  split
  · rename_i b f _ _
    have hmark : SameWake s (s.mark (min 1 f.path) f.sa f.seq) := .of_rf rfl rfl rfl rfl rfl
    exact .ite (hmark.trans (.setRport ..)) (.refl s)
  · exact .refl s

theorem checkMgmt (slotOk : Nat → Bool) (need : List Nat) (enc : Bool) (p : List Byte) (s : State) :
    SameWake s (checkMgmt slotOk need enc p s).1 := by
  have hbad (f : FRef) (hf : 0x10010 < f.off) : SameWake s ((s.bump f 1).raise 157) := .trans (.setFld s _ hf) (.raise ..)
  unfold Machine.checkMgmt
  extract_lets mslot keyid sender ctr bad
  split
  · exact hbad _ (by decide)
  · split
    · exact hbad _ (by decide)
    · split
      · exact hbad _ (by decide)
      · split
        · exact hbad _ (by decide)
        · exact .of_rf rfl rfl rfl rfl rfl

theorem mgmtCommand (p body : List Byte) (s : State) : SameWake s (mgmtCommand p body s) := by
  unfold Machine.mgmtCommand
  extract_lets hdr params mslot keyid sender xid target use
  exact .ite (.refl s) (.ite (.putCmds ..) (.ite (.setFld s _ (by decide))
    (.ite (.trans (.setFld s _ (by decide)) (.raise ..)) (.putCmds ..))))

theorem heldFrameAuth (s : State) : SameWake s (heldFrameAuth s) := by
  unfold Machine.heldFrameAuth
  split
  · exact .refl s
  · extract_lets a s0
    have h0 : SameWake s s0 := ⟨fun _ => rfl⟩
    split
    · exact h0
    · rename_i f _
      have hm := h0.trans (.checkMgmt (fun _ => true) [13] (mgmtEnc f.payload) f.payload s0)
      split
      · rename_i s1 body he
        rw [he] at hm
        exact hm.trans (.mgmtCommand ..)
      · rename_i s1 he
        rw [he] at hm
        extract_lets s2
        have h2 : SameWake s s2 := hm.trans (.setFlag s1 _ (by decide))
        refine .ite (h2.trans (.trans (t := { s2 with ao := { s2.ao with sleepTo := Mode.watch } }) ⟨fun _ => rfl⟩ ?_)) h2
        exact .trans (.busy ..) (.saveSettings _)

theorem wakeDone (s : State) : SameWake s (wakeDone s) :=
  .trans (.trans (.trans (.trans (.busy s false) (.watcherReplay _)) (.queueHook ..)) (.heldFrameForward _)) (.heldFrameAuth _)

theorem hookDone (h : HookDue) (status : Nat) (s : State) : SameWake s (hookDone h status s) := by
  unfold Machine.hookDone
  split
  · exact .startHandshake s
  · exact .wakeDone s
  · split
    · exact .finish ..
    · exact .refl s
  · exact .putCc ..
  · exact .refl s

theorem pumpHooks (n : Nat) (s : State) : SameWake s (pumpHooks n s) := by
  induction n generalizing s with
  | zero => exact .refl s
  | succ n ih =>
    unfold Machine.pumpHooks
    refine .ite (.refl s) ?_
    split
    · exact .refl s
    · rename_i h rest _
      have hcall : SameWake s (Machine.callHook h { s with cc := { s.cc with hooks := rest } }).1 := .trans (.putCc ..) (.callHook ..)
      split <;> rename_i t he <;> rw [he] at hcall
      · exact hcall
      · exact hcall.trans (.trans (.hookDone ..) (ih _))
      · exact hcall.trans (.trans (.hookDone ..) (ih _))

/-- With no Halt waiting, the hooks that follow keep it too. -/
theorem settle {s : State} (h : s.tdu.haltReq = none) : SameWake s (settle s) := by
  refine .of_clocked fun hc => ?_
  have hp := SameWake.pumpHooks 16 s
  have hq : (Machine.pumpHooks 16 s).tdu.haltReq = none := (congrArg WakeView.haltReq (hp.view hc)).trans h
  unfold Machine.settle
  rw [haltSettle_none _ hq]
  exact hp

end SameWake

/-! ### The wake (R89) -/

/-- The AO part replaced: no register changes. -/
def State.putAo (s : State) (x : Ao) : State := { s with ao := x }

theorem State.reg_putAo (s : State) (x : Ao) (off : Nat) : (s.putAo x).reg off = s.reg off := rfl

/-- A woken engine with its islands powered, in Standby with BUSY; CCLK is still to be released. -/
def State.poweredUp (s : State) : State :=
  let s1 := (s.setMode Mode.standby).setFlag F.AO_MODE_BUSY true
  ((s1.putAo { s1.ao with waking := false, coreHeld := false, refAbsent := false }).setFlag F.AO_CLKST_PN_SAFE true).setFlag
    F.AO_CLKST_PN_OK false

/-- The same engine on its CCLK. -/
def State.repowered (s : State) : State :=
  let s1 := (s.poweredUp.setFlag F.AO_CLKST_CC_OK true).setFlag F.AO_CLKST_CC_SAFE false
  s1.putAo { s1.ao with cclk := ⟨false, 0, false, false⟩ }

theorem State.wakeView_repowered {s : State} (hr : s.inReset = false) (hq : s.tdu.haltReq = none) :
    s.repowered.wakeView = ⟨Mode.standby, s.mode, 1, 0, false, false, false, s.hpt.awake, none⟩ := by
  have hlast : s.mode % 2 ^ 4 = s.mode := Nat.mod_eq_of_lt (Nat.mod_lt _ (by decide))
  have hreset : s.repowered.inReset = false := hr
  simp only [State.wakeView, hreset]
  rw [WakeView.mk.injEq]
  refine ⟨?_, hlast ▸ ?_, ?_, ?_, rfl, rfl, rfl, rfl, hq⟩
  all_goals simp [State.repowered, State.poweredUp, State.reg_putAo, State.mode, State.setMode, State.fld, State.setFlag, State.setFld,
    State.reg_setReg, getBits_setBits, getBits_setBits_other, b2n, Mode.standby]

/-- The view that a wake ends in, taken apart. -/
theorem State.of_wakeView {t : State} {m : Nat} (h : t.wakeView = ⟨Mode.standby, m, 1, 0, false, false, false, true, none⟩) :
    t.mode = Mode.standby ∧ t.fld F.AO_MODE_LAST = m ∧ t.flag F.AO_CLKST_CC_OK = true ∧ t.flag F.AO_CLKST_CC_SAFE = false
    ∧ t.hpt.awake = true ∧ t.ao.waking = false ∧ t.ao.coreHeld = false :=
  ⟨congrArg WakeView.mode h, congrArg WakeView.last h, congrArg (· != 0) (congrArg WakeView.ccOk h),
    congrArg (· != 0) (congrArg WakeView.ccSafe h), congrArg WakeView.awake h, congrArg WakeView.waking h, congrArg WakeView.coreHeld h⟩

theorem State.haltReq_of_wakeView {t : State} {v : WakeView} (h : t.wakeView = v) : t.tdu.haltReq = v.haltReq :=
  congrArg WakeView.haltReq h

theorem State.clocked_of_wakeView {t : State} {v : WakeView} (h : t.wakeView = v) (hm : v.mode = Mode.standby) (hi : v.inReset = false) :
    t.cclkOn = true := by
  have htm : t.mode = Mode.standby := (congrArg WakeView.mode h).trans hm
  have hti : t.inReset = false := (congrArg WakeView.inReset h).trans hi
  simp [State.cclkOn, State.asleep, htm, hti]

theorem State.wakeView_awake {s : State} {v : WakeView} (h : s.wakeView = v) :
    ({ s with hpt := { s.hpt with awake := true } } : State).wakeView = { v with awake := true } := h ▸ rfl

/-- CCLK has been released: HPT is awake again (R54). -/
theorem hptWakes_repowered {s : State} (hr : s.inReset = false) (hq : s.tdu.haltReq = none) (hs : s.ao.sleep = .none) :
    (hptWakes s.repowered).wakeView = ⟨Mode.standby, s.mode, 1, 0, false, false, false, true, none⟩ := by
  have hv := State.wakeView_repowered hr hq
  have hc : s.repowered.cclkOn = true := State.clocked_of_wakeView hv rfl rfl
  have hok : s.repowered.fld F.AO_CLKST_CC_OK = 1 := congrArg WakeView.ccOk hv
  have hs' : s.repowered.ao.sleep = .none := hs
  unfold hptWakes
  rw [if_pos (by simp [hc, State.ccOk, State.flag, hok, hs'])]
  exact State.wakeView_awake hv

/-- Steps 4 and 5 of a wake: the settings and what the islands report, up to the RESTORE hook. -/
def wakeRest (u : State) : State :=
  let s4 := tmrsReturn 1 (tmrsReturn 2 (restoreSettings u))
  let s5 := observePort 0 (observePort 1 (puWakeReport (observePus (2 ^ 64 - 1) (puHoldAll s4))))
  queueHook 1 (getBits (s5.reg F.AO_WAKEST_PIN.off) 0 13) none s5

theorem wakeRest_same (u : State) : SameWake u (wakeRest u) := by
  have h4 : SameWake u (tmrsReturn 1 (tmrsReturn 2 (restoreSettings u))) :=
    .trans (.trans (.restoreSettings u) (.tmrsReturn ..)) (.tmrsReturn ..)
  have h5 (v : State) : SameWake v (observePort 0 (observePort 1 (puWakeReport (observePus (2 ^ 64 - 1) (puHoldAll v))))) :=
    .trans (.trans (.trans (.trans (.puHoldAll v) (.observePus ..)) (.puWakeReport _)) (.observePort ..)) (.observePort ..)
  exact (h4.trans (h5 _)).trans (.queueHook ..)

/-- CCLK is released and HPT with it (R54). -/
theorem releaseClk_poweredUp (s : State) : releaseClk .cclk s.poweredUp = hptWakes s.repowered := rfl

theorem wakeSequence_eq {s : State} (ha : s.asleep = true) (hw : s.ao.waking = true) (hr : s.inReset = false) :
    wakeSequence s = wakeRest (hptWakes s.repowered) := by
  unfold wakeSequence
  rw [if_neg (by simp [ha, hw, hr])]
  extract_lets s1 a s2 s3 s4 s5
  have h3 : s3 = hptWakes s.repowered := releaseClk_poweredUp s
  clear_value s3
  rw [← h3]
  unfold wakeRest
  rfl

theorem aoOn_of_inReset {s : State} (h : s.inReset = false) : s.aoOn = true := by
  simp only [State.inReset, Bool.or_eq_false_iff, Bool.not_eq_false'] at h
  simp [State.aoOn, h]

/-- A wake leads to Standby, with CCLK released and HPT awake (R54, R89). -/
theorem exec_wakeSequence {s : State} (ha : s.asleep = true) (hw : s.ao.waking = true) (hr : s.inReset = false) (hs : s.ao.sleep = .none)
    (hq : s.tdu.haltReq = none) : Runs .wakeSequence s fun t => t.mode = Mode.standby ∧ t.fld F.AO_MODE_LAST = s.mode
      ∧ t.flag F.AO_CLKST_CC_OK = true ∧ t.flag F.AO_CLKST_CC_SAFE = false ∧ t.hpt.awake = true ∧ t.ao.waking = false
      ∧ t.ao.coreHeld = false := by
  have hu := hptWakes_repowered hr hq hs
  have hc : (hptWakes s.repowered).cclkOn = true := State.clocked_of_wakeView hu rfl rfl
  have hseq : SameWake (hptWakes s.repowered) (wakeSequence s) := wakeSequence_eq ha hw hr ▸ wakeRest_same _
  have hnone := State.haltReq_of_wakeView ((hseq.view hc).trans hu)
  exact ⟨_, congrArg Host.Outcome.next (whilePowered_on (aoOn_of_inReset hr) _),
    State.of_wakeView (((hseq.trans (.settle hnone)).view hc).trans hu)⟩

end Sys2Proof.Machine
end

section
/-!
PROOFS. What wakes the engine (R54, R87, R88, R530, R551, R552).
-/

namespace Sys2Proof.Machine

/-! ### One bit of a mask -/

/-- Setting a bit changes no other. -/
theorem bitOf_setBit_ne {x k j : Nat} (hj : j ≠ k) : bitOf (setBit x k) j = bitOf x j := by
  unfold setBit
  split
  · rfl
  · next h =>
    rcases Nat.lt_or_gt_of_ne hj with hlt | hgt
    · rw [Nat.add_comm, bitOf_eq_testBit, Nat.testBit_two_pow_add_gt hlt, ← bitOf_eq_testBit]
    · obtain ⟨i, rfl⟩ := Nat.exists_eq_add_of_lt hgt
      have hhalf : (x + 2 ^ k) / 2 ^ k / 2 = x / 2 ^ k / 2 := by
        have heven : x / 2 ^ k % 2 ≠ 1 := by simpa [bitOf] using h
        rw [Nat.add_div_right _ (Nat.two_pow_pos k)]
        omega
      have hbit (y : Nat) : bitOf y (k + i + 1) = (y / 2 ^ k / 2).testBit i := by
        rw [bitOf_eq_testBit, Nat.div_div_eq_div_mul, ← Nat.pow_succ, Nat.testBit_div_two_pow]
        congr 1
        omega
      rw [hbit, hbit, hhalf]

theorem bitOf_clrBit_self (x k : Nat) : bitOf (clrBit x k) k = false := by
  unfold clrBit
  split
  · next h =>
    have hodd : x / 2 ^ k % 2 = 1 := by simpa [bitOf] using h
    have hle : 2 ^ k ≤ x := Nat.le_of_not_lt fun hlt => by simp [Nat.div_eq_of_lt hlt] at hodd
    have hdiv : (x - 2 ^ k) / 2 ^ k = x / 2 ^ k - 1 := by
      have := Nat.sub_mul_div x (2 ^ k) 1
      rwa [Nat.mul_one] at this
    simp only [bitOf, hdiv, beq_eq_false_iff_ne]
    omega
  · next h => exact Bool.eq_false_iff.mpr h

theorem setBit_lt {x k w : Nat} (hx : x < 2 ^ w) (hk : k < w) : setBit x k < 2 ^ w := by
  refine Nat.lt_pow_two_of_testBit _ fun j hj => ?_
  rw [← bitOf_eq_testBit, bitOf_setBit_ne (by omega), bitOf_eq_testBit]
  exact Nat.testBit_lt_two_pow (Nat.lt_of_lt_of_le hx (Nat.pow_le_pow_right (by decide) hj))

/-! ### Wake events (R54, R87, R88, R530, R551, R552) -/

theorem State.wakeEvent_asleep {s : State} (h : s.asleep = true) : s.wakeEvent = { s with ao := { s.ao with waking := true } } := by
  unfold State.wakeEvent
  rw [if_pos h]

theorem State.fld_wakeEvent (s : State) (f : FRef) : s.wakeEvent.fld f = s.fld f := by
  unfold State.wakeEvent
  split
  · rfl
  · split <;> rfl

theorem State.wakeLvl_wakeEvent (s : State) : s.wakeEvent.ao.wakeLvl = s.ao.wakeLvl := by
  unfold State.wakeEvent
  split
  · rfl
  · split <;> rfl

theorem State.wakeRecorded_asleep {s : State} (h : s.asleep = true) : s.wakeRecorded = true := by
  simp [State.wakeRecorded, h]

theorem Reports.asleep {s t : State} (h : Reports s t) : t.asleep = s.asleep := by
  unfold State.asleep
  rw [h.mode]

theorem State.fld_lt (s : State) (f : FRef) : s.fld f < 2 ^ f.w := Nat.mod_lt _ (Nat.two_pow_pos _)

/-- One more edge, in DIC_EDGE as in AO_WAKEST. -/
theorem State.fld_setFld_setBit (s : State) {f : FRef} {k : Nat} (hk : k < f.w) (hf : f.lo + f.w ≤ 64) :
    (s.setFld f (setBit (s.fld f) k)).fld f = setBit (s.fld f) k := by
  rw [State.fld_setFld _ _ _ hf]
  exact Nat.mod_eq_of_lt (setBit_lt (s.fld_lt f) hk)

/-- An edge of a WAKE pin as DIC_EDGE latches it, with its watched source. -/
def State.pinLatched (s : State) (k : Nat) (rising : Bool) : State :=
  let s1 : State := { s with ao := { s.ao with wakeLvl := if rising then setBit s.ao.wakeLvl k else clrBit s.ao.wakeLvl k } }
  (s1.setFld F.DIC_EDGE_EDGE (setBit (s1.fld F.DIC_EDGE_EDGE) k)).assertWatch (8 + k)

/-- The pin is recorded as what wakes the engine. -/
def State.pinWakes (s : State) (k : Nat) : State := (s.setFld F.AO_WAKEST_PIN (setBit (s.fld F.AO_WAKEST_PIN) k)).wakeEvent

section Pin
variable {s : State} {k : Nat} {rising : Bool}

theorem wakePinEdge_eq (hk : k < 8) (hs : s.ao.supplies = true) (hd : s.ao.engDis = false) (hp : s.ao.porHeld = false)
    (hr : rising ≠ bitOf (s.fld F.AO_WAKEEN_PIN_POL) k) : wakePinEdge k rising s =
      if bitOf ((s.pinLatched k rising).fld F.AO_WAKEEN_PIN_EN) k && (s.pinLatched k rising).wakeRecorded then
        (s.pinLatched k rising).pinWakes k else s.pinLatched k rising := by
  unfold wakePinEdge
  rw [if_neg (by simp [hk, hs, hd])]
  exact if_neg (by simp only [hp, Bool.false_or, beq_iff_eq]; exact hr)

/-- Latching an edge reports, beside the edge and the level of the pin. -/
theorem State.pinLatched_reports (s : State) (k : Nat) (rising : Bool) : Reports
    (({ s with ao := { s.ao with wakeLvl := if rising then setBit s.ao.wakeLvl k else clrBit s.ao.wakeLvl k } } : State).setFld
      F.DIC_EDGE_EDGE (setBit (s.fld F.DIC_EDGE_EDGE) k)) (s.pinLatched k rising) := .assertWatch _ _

theorem State.edge_pinLatched (hk : k < 8) : (s.pinLatched k rising).fld F.DIC_EDGE_EDGE = setBit (s.fld F.DIC_EDGE_EDGE) k := by
  rw [(s.pinLatched_reports k rising).fld _ (by decide)]
  exact State.fld_setFld_setBit _ hk (by decide)

theorem State.fld_pinLatched {f : FRef} (hr : reportOff f.off = false) (hf : f.off ≠ F.DIC_EDGE_EDGE.off) :
    (s.pinLatched k rising).fld f = s.fld f := by
  rw [(s.pinLatched_reports k rising).fld _ hr]
  unfold State.fld
  rw [State.reg_setFld_ne _ _ _ _ hf]
  rfl

theorem State.wakeLvl_pinLatched : bitOf (s.pinLatched k rising).ao.wakeLvl k = rising := by
  rw [(s.pinLatched_reports k rising).rest]
  cases rising
  · exact bitOf_clrBit_self _ _
  · exact bitOf_setBit_self _ _

theorem State.asleep_pinLatched : (s.pinLatched k rising).asleep = s.asleep := by
  unfold State.asleep State.mode
  rw [State.fld_pinLatched (by decide) (by decide)]

/-- What wakes the engine is recorded in AO_WAKEST alone. -/
theorem State.fld_pinWakes (s : State) {f : FRef} (hf : f.off ≠ F.AO_WAKEST_PIN.off) : (s.pinWakes k).fld f = s.fld f := by
  unfold State.pinWakes
  rw [State.fld_wakeEvent]
  unfold State.fld
  rw [State.reg_setFld_ne _ _ _ _ hf]

theorem State.pinWakes_asleep (hk : k < 8) (ha : s.asleep = true) :
    bitOf ((s.pinWakes k).fld F.AO_WAKEST_PIN) k = true ∧ (s.pinWakes k).ao.waking = true := by
  have hs : (s.setFld F.AO_WAKEST_PIN (setBit (s.fld F.AO_WAKEST_PIN) k)).asleep = true := by
    unfold State.asleep
    rw [State.mode_setFld _ _ _ (by decide)]
    exact ha
  unfold State.pinWakes
  refine ⟨?_, ?_⟩
  · rw [State.fld_wakeEvent, State.fld_setFld_setBit _ hk (by decide)]
    exact bitOf_setBit_self _ _
  · rw [State.wakeEvent_asleep hs]

/-- An edge of a WAKE pin at its polarity is latched; an enabled pin wakes a sleeping engine (R88, R552). -/
theorem exec_wakePinEdge (hk : k < 8) (hs : s.ao.supplies = true) (hd : s.ao.engDis = false) (hp : s.ao.porHeld = false)
    (hr : rising ≠ bitOf (s.fld F.AO_WAKEEN_PIN_POL) k) : Runs (.wakePinEdge k rising) s fun t =>
      bitOf (t.fld F.DIC_EDGE_EDGE) k = true ∧ (∀ j, j < 8 → j ≠ k → bitOf (t.fld F.DIC_EDGE_EDGE) j = bitOf (s.fld F.DIC_EDGE_EDGE) j)
      ∧ bitOf t.ao.wakeLvl k = rising ∧ t.mode = s.mode
      ∧ (s.asleep = true → bitOf (s.fld F.AO_WAKEEN_PIN_EN) k = true → bitOf (t.fld F.AO_WAKEST_PIN) k = true ∧ t.ao.waking = true) := by
  have hedge : (s.pinLatched k rising).fld F.DIC_EDGE_EDGE = setBit (s.fld F.DIC_EDGE_EDGE) k := State.edge_pinLatched hk
  have hmode : (s.pinLatched k rising).mode = s.mode := State.fld_pinLatched (by decide) (by decide)
  have hen : (s.pinLatched k rising).fld F.AO_WAKEEN_PIN_EN = s.fld F.AO_WAKEEN_PIN_EN := State.fld_pinLatched (by decide) (by decide)
  refine ⟨_, rfl, ?_⟩
  rw [wakePinEdge_eq hk hs hd hp hr]
  split
  · rw [State.fld_pinWakes _ (by decide), hedge]
    refine ⟨bitOf_setBit_self _ _, fun j _ hj => bitOf_setBit_ne hj, ?_, (State.fld_pinWakes _ (by decide)).trans hmode, fun ha _ => ?_⟩
    · unfold State.pinWakes
      rw [State.wakeLvl_wakeEvent]
      exact State.wakeLvl_pinLatched
    · exact State.pinWakes_asleep hk (State.asleep_pinLatched.trans ha)
  · rename_i hno
    rw [hedge]
    refine ⟨bitOf_setBit_self _ _, fun j _ hj => bitOf_setBit_ne hj, State.wakeLvl_pinLatched, hmode, fun ha hpin => absurd ?_ hno⟩
    rw [hen, hpin, State.wakeRecorded_asleep (State.asleep_pinLatched.trans ha)]
    rfl

end Pin

/-- What watchers record of a raising. -/
def State.hits (s : State) (l : List Nat) : State := l.foldl (fun t w => t.setFlag (F.DIC_WATCH_HIT w) true) s

theorem State.flag_setHit {v w : Nat} {s : State} (h : s.flag (F.DIC_WATCH_HIT w) = true ∨ v = w) :
    (s.setFlag (F.DIC_WATCH_HIT v) true).flag (F.DIC_WATCH_HIT w) = true := by
  by_cases hv : v = w
  · subst hv
    exact State.flag_setFlag _ _ _ (by simp) (by simp)
  · rw [State.flag_setFlag_other _ _ _ _ (by simp) (.inl (by simp; omega))]
    exact h.resolve_right hv

theorem State.flag_hits {l : List Nat} {w : Nat} {s : State} (h : s.flag (F.DIC_WATCH_HIT w) = true ∨ w ∈ l) :
    (s.hits l).flag (F.DIC_WATCH_HIT w) = true := by
  induction l generalizing s with
  | nil => exact h.resolve_right List.not_mem_nil
  | cons v l ih =>
    refine ih ?_
    rcases h with h | h
    · exact .inl (State.flag_setHit (.inl h))
    · exact (List.mem_cons.mp h).imp (fun e => State.flag_setHit (.inr e.symm)) id

theorem State.fld_hits (s : State) (l : List Nat) {f : FRef} (hf : f.off < 0x020800) : (s.hits l).fld f = s.fld f :=
  foldl_keeps (fun t => t.fld f) (fun t w => by
    unfold State.fld State.setFlag
    rw [State.reg_setFld_ne _ _ _ _ (by change f.off ≠ 0x020800 + 0x8 * w; omega)]) l s

theorem State.asleep_setFlag {s : State} (ha : s.asleep = true) {f : FRef} (b : Bool) (hf : f.off ≠ 0x10000) :
    (s.setFlag f b).asleep = true := by
  unfold State.asleep
  rw [State.mode_setFlag _ _ _ hf]
  exact ha

section Asleep
variable {s : State} (hp : s.aoOn = true) (ha : s.asleep = true)

include ha in
/-- A wake event that AO_WAKEST records wakes a sleeping engine. -/
theorem wakeEvent_records {f : FRef} (ho : f.off = F.AO_WAKEST_PIN.off) (hf : f.lo + f.w ≤ 64) (hw : 0 < f.w) :
    Reports s (s.setFlag f true).wakeEvent ∧ (s.setFlag f true).wakeEvent.flag f = true ∧ (s.setFlag f true).wakeEvent.ao.waking = true := by
  refine ⟨.trans (.setFlag s f true (by rw [ho]; decide)) (.wakeEvent _), ?_, ?_⟩
  · unfold State.flag
    rw [State.fld_wakeEvent]
    exact State.flag_setFlag _ _ _ hf hw
  · rw [State.wakeEvent_asleep (State.asleep_setFlag ha true (by rw [ho]; decide))]

include hp ha

theorem exec_hptWakeEdge (he : s.flag F.AO_WAKEEN_HPT = true) : Runs .hptWakeEdge s fun t =>
    Reports s t ∧ t.flag F.AO_WAKEST_HPT = true ∧ t.ao.waking = true := by
  refine ⟨_, congrArg Host.Outcome.next (whilePowered_on hp _), ?_⟩
  have hon := hp
  simp only [State.aoOn, Bool.and_eq_true, Bool.not_eq_true'] at hon
  unfold hptWakeEdge
  rw [if_pos (by simp [he, State.wakeRecorded_asleep ha, hon])]
  exact wakeEvent_records ha rfl (by decide) (by decide)

theorem exec_wakeFrameMatch {b : List Byte} (hm : s.mode = Mode.watch) (he : s.flag F.AO_WAKEEN_RING = true) (hb : wakeMatches s b = true) :
    Runs (.wakeFrameMatch b) s fun t => t.ao.heldFrame = some (s.ao.heldFrame.getD b) ∧ t.flag F.AO_WAKEST_RING = true
      ∧ t.ao.waking = true ∧ t.mode = s.mode := by
  refine ⟨_, congrArg Host.Outcome.next (whilePowered_on hp _), ?_⟩
  obtain ⟨hrep, hflag, hwaking⟩ := wakeEvent_records (s := { s with ao := { s.ao with heldFrame := some (s.ao.heldFrame.getD b) } })
    (f := F.AO_WAKEST_RING) ha rfl (by decide) (by decide)
  unfold wakeFrameMatch
  rw [if_pos (by simp [hm, he, hb])]
  exact ⟨by rw [hrep.rest], hflag, hwaking, hrep.mode⟩

theorem exec_watcherHit {src w : Nat} (hsrc : watchable src = true) (hw : w < 64)
    (he : s.flag (F.DIC_WATCH_EN w) = true) (hs : s.fld (F.DIC_WATCH_SRC w) = src) : Runs (.watcherHit src) s fun t =>
      Reports s t ∧ t.flag (F.DIC_WATCH_HIT w) = true
      ∧ ((∀ v, v < 64 → s.flag (F.DIC_WATCH_HIT v) = false) → t.fld F.AO_WAKEST_WSRC = src)
      ∧ (s.flag F.AO_WAKEEN_WATCHER = true → t.flag F.AO_WAKEST_WATCHER = true ∧ t.ao.waking = true) := by
  have hmem : w ∈ s.watchers src := by simp [State.watchers, hw, he, hs]
  have hlt : src < 2 ^ 12 := hs ▸ s.fld_lt _
  refine ⟨_, congrArg Host.Outcome.next (whilePowered_on hp _), .watchHit s src, ?_⟩
  have hguard : (s.asleep && watchable src && !(s.watchers src).isEmpty) = true := by
    simp only [ha, hsrc, Bool.true_and, Bool.not_eq_true', List.isEmpty_eq_false_iff]
    exact List.ne_nil_of_mem hmem
  unfold watcherHit State.watchHit
  rw [if_pos hguard]
  extract_lets first s1 s2
  have hs1 : s1 = s.hits (s.watchers src) := rfl
  clear_value s1
  have hs2 {f : FRef} (hn : f.off ≠ F.AO_WAKEST_WSRC.off) : s2.fld f = s1.fld f := by
    unfold s2 State.fld
    split
    · rw [State.reg_setFld_ne _ _ _ _ hn]
    · rfl
  have hhit : s2.flag (F.DIC_WATCH_HIT w) = true := by
    unfold State.flag
    rw [hs2 (by change 0x020800 + 0x8 * w ≠ 0x010020; omega), hs1]
    exact State.flag_hits (.inr hmem)
  have hwsrc : (∀ v, v < 64 → s.flag (F.DIC_WATCH_HIT v) = false) → s2.fld F.AO_WAKEST_WSRC = src := fun h => by
    have hfirst : first = true := List.all_eq_true.mpr fun v hv => by rw [h v (List.mem_range.mp hv)]; rfl
    unfold s2
    rw [if_pos hfirst, State.fld_setFld _ _ _ (by decide)]
    exact Nat.mod_eq_of_lt hlt
  have hen : s2.flag F.AO_WAKEEN_WATCHER = s.flag F.AO_WAKEEN_WATCHER := by
    unfold State.flag
    rw [hs2 (by decide), hs1, State.fld_hits _ _ (by decide)]
  have hasleep : s2.asleep = true := by
    unfold State.asleep State.mode
    rw [hs2 (by decide), hs1, State.fld_hits _ _ (by decide)]
    exact ha
  clear_value s2
  split
  · obtain ⟨-, hflag, hwaking⟩ := wakeEvent_records (f := F.AO_WAKEST_WATCHER) hasleep rfl (by decide) (by decide)
    refine ⟨?_, fun h => ?_, fun _ => ⟨hflag, hwaking⟩⟩
    · unfold State.flag
      rw [State.fld_wakeEvent, ← hhit]
      exact State.flag_setFlag_other _ _ _ _ (by simp) (.inl (by change 0x020800 + 0x8 * w ≠ 0x010020; omega))
    · rw [State.fld_wakeEvent, ← hwsrc h]
      exact State.fld_setFld_other _ _ _ _ (by decide) (by decide)
  · rename_i hno
    exact ⟨hhit, hwsrc, fun h => absurd (hen.trans h) hno⟩

end Asleep

end Sys2Proof.Machine
end

section
/-!
PROOFS. Registers that a sleep keeps, and the settings that firmware saves (R85, R100, R102).
-/

namespace Sys2Proof.Machine

/-! ### Registers that a sleep keeps (R100) -/

/-- Every entry of a map at one place has one value. -/
def ListedAs {α : Type} (l : List (Nat × α)) (a : Nat) (v : α) : Prop := ∀ p ∈ l, p.1 = a → p.2 = v

theorem get_listedAs {α : Type} {d : Nat → α} {l : List (Nat × α)} {a : Nat} {v : α} (h : ListedAs l a v) (hd : v = d a ∨ ∃ p ∈ l, p.1 = a) :
    SMap.get d l a = v := by
  induction l with
  | nil => exact (hd.resolve_right fun ⟨_, hp, _⟩ => List.not_mem_nil hp).symm
  | cons p l ih =>
    obtain ⟨k, x⟩ := p
    unfold SMap.get
    split
    · rename_i hk
      exact h (k, x) List.mem_cons_self hk
    · rename_i hk
      refine ih (fun q hq => h q (List.mem_cons_of_mem _ hq)) (hd.imp_right fun ⟨q, hq, he⟩ => ?_)
      rcases List.mem_cons.mp hq with rfl | hq
      · exact absurd he hk
      · exact ⟨q, hq, he⟩

/-- A write leaves one entry at most at its place. -/
theorem listedAs_put {α : Type} [DecidableEq α] (d : Nat → α) (l : List (Nat × α)) (a : Nat) (v : α) : ListedAs (SMap.put d l a v) a v := by
  intro p hp ha
  unfold SMap.put at hp
  split at hp
  · exact absurd ha (SMap.mem_erase_ne l a p hp)
  · rcases SMap.mem_insert a v _ p hp with rfl | hp
    · rfl
    · exact absurd ha (SMap.mem_erase_ne l a p hp)

theorem ListedAs.put {α : Type} [DecidableEq α] {d : Nat → α} {l : List (Nat × α)} {a b : Nat} {v w : α} (h : ListedAs l a v) (hb : b ≠ a) :
    ListedAs (SMap.put d l b w) a v := by
  intro p hp ha
  have hmem {q : Nat × α} (hq : q ∈ SMap.erase l b) : q ∈ l := (List.mem_filter.mp hq).1
  unfold SMap.put at hp
  split at hp
  · exact h p (hmem hp) ha
  · rcases SMap.mem_insert b w _ p hp with rfl | hp
    · exact absurd ha hb
    · exact h p (hmem hp) ha

/-- The fields that a reset keeps, put into the Reset value. -/
def keptFlds (keep : FDesc → Bool) (v : W64) (l : List FDesc) (acc : W64) : W64 :=
  l.foldl (fun acc f => if keep f then setBits acc f.lo f.w (getBits v f.lo f.w) else acc) acc

theorem keptFlds_self (keep : FDesc → Bool) (v : W64) (l : List FDesc) : keptFlds keep v l v = v := by
  induction l with
  | nil => rfl
  | cons f l ih =>
    unfold keptFlds at ih ⊢
    rw [List.foldl_cons, setBits_getBits_self, ite_self]
    exact ih

/-- A field that is kept, among fields beside it. -/
theorem getBits_keptFlds {keep : FDesc → Bool} {v : W64} {lo w : Nat} {l : List FDesc} {acc : W64} (hw : lo + w ≤ 64)
    (hb : ∀ f ∈ l, (f.lo = lo ∧ f.w = w) ∨ lo + w ≤ f.lo ∨ f.lo + f.w ≤ lo)
    (hk : getBits acc lo w = getBits v lo w ∨ ∃ f ∈ l, keep f = true ∧ f.lo = lo ∧ f.w = w) :
    getBits (keptFlds keep v l acc) lo w = getBits v lo w := by
  induction l generalizing acc with
  | nil => exact hk.resolve_right fun ⟨_, hf, _⟩ => List.not_mem_nil hf
  | cons f l ih =>
    refine ih (fun g hg => hb g (List.mem_cons_of_mem _ hg)) ?_
    have hset : getBits (setBits acc f.lo f.w (getBits v f.lo f.w)) lo w = if f.lo = lo ∧ f.w = w then getBits v lo w else getBits acc lo w := by
      split
      · rename_i he
        rw [he.1, he.2, getBits_setBits _ _ _ _ hw]
        exact Nat.mod_eq_of_lt (Nat.mod_lt _ (Nat.two_pow_pos _))
      · rename_i hne
        exact getBits_setBits_other _ _ _ _ _ _ hw ((hb f List.mem_cons_self).resolve_left hne)
    rcases hk with hk | ⟨g, hg, hkeep, hlo, hwg⟩
    · left
      beta_reduce
      split
      · rw [hset, hk, ite_self]
      · exact hk
    · rcases List.mem_cons.mp hg with rfl | hg
      · left
        beta_reduce
        rw [if_pos hkeep, hset, if_pos ⟨hlo, hwg⟩]
      · exact .inr ⟨g, hg, hkeep, hlo, hwg⟩

/-- Does a reset keep a field of a register? -/
def keepsFld (keep : FDesc → Bool) (r : FRef) : Bool :=
  match regAt r.off with
  | none => true
  | some (g, _) => decide (r.lo + r.w ≤ 64) && (g.flds.all fun f => (f.lo == r.lo && f.w == r.w) || decide (r.lo + r.w ≤ f.lo)
      || decide (f.lo + f.w ≤ r.lo)) && g.flds.any fun f => keep f && f.lo == r.lo && f.w == r.w

theorem keptReg_eq {b : Build} {keep : FDesc → Bool} {off : Nat} {v : W64} {g : RegGrp} {i : Nat} (h : regAt off = some (g, i)) :
    keptReg b keep off v = keptFlds keep v g.flds (regReset b off) := by
  unfold keptReg
  rw [h]
  rfl

theorem keptReg_reset (b : Build) (keep : FDesc → Bool) (off : Nat) : keptReg b keep off (regReset b off) = regReset b off := by
  rcases h : regAt off with _ | ⟨g, i⟩
  · unfold keptReg
    rw [h]
  · rw [keptReg_eq h, keptFlds_self]

theorem getBits_keptReg {b : Build} {keep : FDesc → Bool} {r : FRef} {v : W64} (h : keepsFld keep r = true) :
    getBits (keptReg b keep r.off v) r.lo r.w = getBits v r.lo r.w := by
  unfold keepsFld at h
  rcases hr : regAt r.off with _ | ⟨g, i⟩
  · unfold keptReg
    rw [hr]
  · rw [hr] at h
    simp only [Bool.and_eq_true, decide_eq_true_eq, List.all_eq_true, Bool.or_eq_true, beq_iff_eq, List.any_eq_true] at h
    obtain ⟨⟨hw, hb⟩, f, hf, ⟨hk, hlo⟩, hfw⟩ := h
    rw [keptReg_eq hr]
    exact getBits_keptFlds hw (fun f hf => or_assoc.mp (hb f hf)) (.inr ⟨f, hf, hk, hlo, hfw⟩)

theorem get_keptRegs {b : Build} {keep : FDesc → Bool} {rf : List (Nat × W64)} {a : Nat} (h : ListedAs rf a (SMap.get (regReset b) rf a)) :
    SMap.get (regReset b) (keptRegs b keep rf) a = keptReg b keep a (SMap.get (regReset b) rf a) := by
  unfold keptRegs
  refine get_listedAs (fun p hp ha => ?_) ?_
  · obtain ⟨q, hq, he⟩ := List.mem_filterMap.mp hp
    dsimp only at he
    split at he
    · cases he
    · cases he
      rw [h q hq ha, ha]
  · by_cases hex : ∃ q ∈ rf, q.1 = a
    · obtain ⟨q, hq, ha⟩ := hex
      refine or_iff_not_imp_left.mpr fun hne => ⟨(a, keptReg b keep a (SMap.get (regReset b) rf a)), List.mem_filterMap.mpr ⟨q, hq, ?_⟩, rfl⟩
      rw [ha, h q hq ha]
      exact if_neg hne
    · left
      have hget : SMap.get (regReset b) rf a = regReset b a :=
        get_listedAs (fun p hp ha => absurd ⟨p, hp, ha⟩ hex) (.inl rfl)
      rw [hget]
      exact keptReg_reset b keep a

/-- A field that a sleep keeps, of a register that is listed once. -/
theorem fld_keptRegs {s t : State} {keep : FDesc → Bool} {r : FRef} (hb : t.build = s.build) (hrf : t.rf = keptRegs s.build keep s.rf)
    (h : ListedAs s.rf r.off (s.reg r.off)) (hk : keepsFld keep r = true) : t.fld r = s.fld r := by
  have hreg : t.reg r.off = keptReg s.build keep r.off (s.reg r.off) := by
    unfold State.reg
    rw [hb, hrf]
    exact get_keptRegs h
  unfold State.fld
  rw [hreg]
  exact getBits_keptReg hk


/-! ### Settings saved in HB (R85, R102) -/

theorem freeBytes_length (n : Nat) (s : State) : (freeBytes n s).1.length = n := by
  induction n generalizing s with
  | zero => rfl
  | succ n ih => exact congrArg (· + 1) (ih s.drew)

theorem freeBytes_rest (n : Nat) (s : State) : (freeBytes n s).2 = { s with freeCtr := (freeBytes n s).2.freeCtr } := by
  induction n generalizing s with
  | zero => rfl
  | succ n ih => exact ih s.drew

/-- Bytes `l` stand in `t` from address `a` on, and beside them what `m` holds. -/
structure Holds (a : Nat) (l : List Byte) (m t : Store) : Prop where
  inside : ∀ k, k < l.length → t.read (a + k) = ⟨l.getD k 0, false⟩
  data : ∀ b, b < a ∨ a + l.length ≤ b → t.dataAt b = m.dataAt b
  chk : ∀ b, b < a ∨ a + l.length ≤ b → t.chkAt b = m.chkAt b

theorem Holds.outside {a b : Nat} {l : List Byte} {m t : Store} (h : Holds a l m t) (hb : b < a ∨ a + l.length ≤ b) :
    t.read b = m.read b := by
  unfold Store.read
  rw [h.data b hb, h.chk b hb]

theorem writeRange_holds (a : Nat) (l : List Byte) (m : Store) : Holds a l m (m.writeRange a (plain l)) := by
  have hlen : (plain l).length = l.length := List.length_map _
  refine ⟨fun k hk => ?_, fun b hb => ?_, fun b hb => ?_⟩
  · rw [Store.read_writeRange, if_pos (by omega)]
    simp [plain, hk]
  · simp only [Store.dataAt, Store.writeRange, SMap.get_splice, List.length_map, hlen]
    rw [if_neg (by omega)]
  · simp only [Store.chkAt, Store.writeRange, SMap.get_splice, List.length_map, hlen]
    rw [if_neg (by omega)]

/-- Bytes written without pennants into HB. -/
theorem writeBytes_holds (a : Nat) (l : List Byte) {s : State} (hi : s.flag F.SCRUB_INJ_ARM = false) :
    writeBytes .hb a (plain l) s = { s with hb := (writeBytes .hb a (plain l) s).hb, fixups := (writeBytes .hb a (plain l) s).fixups }
    ∧ Holds a l s.hb (writeBytes .hb a (plain l) s).hb := by
  by_cases hl : plain l = []
  · have hnil : l = [] := List.map_eq_nil_iff.mp hl
    subst hnil
    exact ⟨rfl, fun k hk => absurd hk (Nat.not_lt_zero k), fun _ _ => rfl, fun _ _ => rfl⟩
  · rw [writeBytes_eq _ _ _ _ hl hi]
    exact ⟨rfl, writeRange_holds a l s.hb⟩

/-- The settings saved: free bytes at a free place clear of the hook table. -/
theorem settingsToHb_holds {s : State} (hi : s.flag F.SCRUB_INJ_ARM = false) : let t := settingsToHb s
    t = { s with ao := { s.ao with savedAt := t.ao.savedAt, savedHb := t.ao.savedHb }, hb := t.hb, fixups := t.fixups, freeCtr := t.freeCtr }
    ∧ t.ao.savedHb.length = min (8 * (s.rf.filter fun p => savedReg p.1).length) (hbSize - 64)
    ∧ 64 ≤ t.ao.savedAt ∧ Holds t.ao.savedAt t.ao.savedHb s.hb t.hb := by
  unfold settingsToHb
  extract_lets n a r s1 t
  have hr : r.2 = { s with freeCtr := r.2.freeCtr } := freeBytes_rest n s.drew
  have hri : r.2.flag F.SCRUB_INJ_ARM = false := by rw [hr]; exact hi
  have hrh : r.2.hb = s.hb := by rw [hr]
  obtain ⟨hw, hh⟩ := writeBytes_holds a r.1 hri
  rw [hrh] at hh
  refine ⟨?_, freeBytes_length n s.drew, Nat.le_add_right _ _, hh⟩
  have h1 : s1 = { s with hb := s1.hb, fixups := s1.fixups, freeCtr := s1.freeCtr } := by
    have hf : s1.freeCtr = r.2.freeCtr := (congrArg State.freeCtr hw :)
    rw [hf]
    exact hw.trans (congrArg (fun u : State => { u with hb := s1.hb, fixups := s1.fixups }) hr)
  exact congrArg (fun u : State => { u with ao := { u.ao with savedAt := a, savedHb := r.1 } }) h1

/-! ### A hook of an empty table -/

/-- Nothing is noted of bytes that need no correction. -/
theorem noteRead_clean (x : StoreSel) (w m : Nat) {s : State} (h : ∀ k, k < 8 → (s.store x).chkAt (w + k) = 0) : noteRead x w m s = s := by
  have hnone {o : EccOutcome} (ho : o ≠ .clean) : (bitsSet m 8).filter (fun k =>
      (eccRead ((s.store x).dataAt (w + k)) ((s.store x).chkAt (w + k))).1 == o) = [] := by
    refine List.filter_eq_nil_iff.mpr fun k hk => ?_
    have hk8 : k < 8 := List.mem_range.mp (List.mem_filter.mp hk).1
    rw [h k hk8, eccRead_clean]
    simpa using ho.symm
  unfold noteRead
  simp only [hnone (o := .corrected) (by decide), hnone (o := .uncorrectable) (by decide), List.foldl_nil]
  rfl

theorem noteCode_clean {s : State} (h : ∀ k, k < 8 → s.hb.chkAt k = 0) : noteCode (hookAddr 0) 8 s = s := by
  have hread : noteReads .hb (hookAddr 0 - 0x600000) 8 s = noteRead .hb 0 255 s := rfl
  unfold noteCode
  rw [if_pos (by decide), hread]
  exact noteRead_clean .hb 0 255 fun k hk => by rw [Nat.zero_add]; exact h k hk

/-- The table entry of hook 0 holds zeros: the hook is absent (R216). -/
theorem callHook_absent {s : State} {h : HookDue} (hk : h.k = 0) (hd : ∀ k, k < 8 → s.hb.dataAt k = 0) (hc : ∀ k, k < 8 → s.hb.chkAt k = 0) :
    callHook h s = (s, .absent) := by
  have hcode : s.codeBytes (hookAddr 0) 8 = List.replicate 8 ⟨0, false⟩ := by
    refine List.ext_getElem (by simp [State.codeBytes]) fun k hk _ => ?_
    have hk8 : k < 8 := by simpa [State.codeBytes] using hk
    have hread : s.hb.read k = ⟨0, false⟩ := by
      unfold Store.read
      rw [hd k hk8, hc k hk8, eccRead_clean]
      rfl
    simp only [State.codeBytes, hookAddr, List.getElem_map, List.getElem_range, List.getElem_replicate]
    rw [if_pos (by omega), Nat.mul_zero, Nat.add_zero, Nat.add_sub_cancel_left, hread]
  unfold callHook
  rw [hk, hcode, noteCode_clean hc]
  rfl

theorem Holds.readBytes {a : Nat} {l : List Byte} {m : Store} {t : State} (h : Holds a l m t.hb) :
    readBytes .hb a l.length t = plain l := by
  refine List.ext_getElem (by simp [Machine.readBytes, plain]) fun k hk _ => ?_
  have hkl : k < l.length := by simpa [Machine.readBytes] using hk
  simp only [Machine.readBytes, plain, List.getElem_map, List.getElem_range, State.store]
  rw [h.inside k hkl, List.getD_eq_getElem _ _ hkl]


end Sys2Proof.Machine
end

section
/-!
PROOFS. Going to sleep (R53, R84 to R86).
-/

namespace Sys2Proof.Machine

/-! ### The saved settings and the handshake (R53, R84 to R86) -/

/-- What firmware's hooks wait for beside firmware itself. -/
theorem pumpHooks_absent {n : Nat} {s t : State} {h : HookDue} (hh : s.cc.hooks = [h]) (hk : s.cc.hook = none) (hx : s.cc.cx = none)
    (hf : s.firmware = true) (hcall : callHook h { s with cc := { s.cc with hooks := [] } } = ({ s with cc := { s.cc with hooks := [] } }, .absent))
    (ht : hookDone h Status.badOpc { s with cc := { s.cc with hooks := [] } } = t) (hnone : t.cc.hooks = []) :
    pumpHooks (n + 1) s = t := by
  unfold pumpHooks
  rw [if_neg (by simp [hk, hx, hf]), hh]
  simp only [hcall]
  rw [ht, pumpHooks_none n t hnone]

theorem aoOn_of_firmware {s : State} (h : s.firmware = true) : s.aoOn = true := by
  simp only [State.firmware, State.coreUp, State.cclkOn, Bool.and_eq_true, Bool.not_eq_true'] at h
  exact aoOn_of_inReset h.1.1.1.1.1.1.1

/-- The settings saved, the handshake begun: what SLEEP_ENTRY leads to. -/
def State.handshakes (s : State) (a : Nat) (l : List Byte) (m : Store) (fx : List Fixup) (ctr : Nat) : State :=
  { s with
    ao := { s.ao with saved := some s.rf, sleep := .handshake, savedAt := a, savedHb := l }
    hpt := { s.hpt with slpReq := true }, hb := m, fixups := fx, freeCtr := ctr }

/-- With an empty hook table the handshake follows the saved settings at once. -/
theorem settle_saved {s : State} {a : Nat} {l : List Byte} {m : Store} {fx : List Fixup} {ctr : Nat} (hs : s.calm)
    (hk : s.cc.hook = none) (hx : s.cc.cx = none) (hf : s.firmware = true) (hd : ∀ k, k < 8 → m.dataAt k = 0)
    (hc : ∀ k, k < 8 → m.chkAt k = 0) : settle (queueHook 0 0 none { s with
      ao := { s.ao with saved := some s.rf, savedAt := a, savedHb := l }, hb := m, fixups := fx, freeCtr := ctr })
    = s.handshakes a l m fx ctr := by
  have hcc : { s.cc with hooks := [] } = s.cc := hs.1 ▸ rfl
  have hpump : pumpHooks 16 (queueHook 0 0 none { s with
      ao := { s.ao with saved := some s.rf, savedAt := a, savedHb := l }, hb := m, fixups := fx, freeCtr := ctr })
      = s.handshakes a l m fx ctr := by
    refine pumpHooks_absent (h := ⟨0, 0, none⟩) ?_ hk hx hf (callHook_absent rfl hd hc) ?_ hs.1
    · simp [queueHook, hs.1]
    · change State.handshakes { s with cc := { s.cc with hooks := [] } } a l m fx ctr = s.handshakes a l m fx ctr
      rw [hcc]
  unfold settle
  rw [hpump]
  exact haltSettle_none _ hs.2

theorem exec_sleepEntry {s : State} {id : Nat} (hs : s.calm) (hid : s.ao.sleepCmd = some id) (hsleep : s.ao.sleep = .none)
    (hsaved : s.ao.saved = none) (hf : s.firmware = true) (hm : s.mode = Mode.standby) (hlist : ∀ d ∈ s.cmds.list, d.id = id)
    (hk : s.cc.hook = none) (hx : s.cc.cx = none) (hz : s.hb = .zero) (hi : s.flag F.SCRUB_INJ_ARM = false) :
    Runs .sleepEntry s fun t => t = { s with
        ao := { s.ao with saved := some s.rf, sleep := .handshake, savedAt := t.ao.savedAt, savedHb := t.ao.savedHb }
        hpt := { s.hpt with slpReq := true }, hb := t.hb, fixups := t.fixups, freeCtr := t.freeCtr }
      ∧ t.hbIntact = true ∧ t.ao.savedHb.length = min (8 * (s.rf.filter fun p => savedReg p.1).length) (hbSize - 64)
      ∧ ∀ a, a < t.ao.savedAt ∨ t.ao.savedAt + t.ao.savedHb.length ≤ a → t.hb.read a = s.hb.read a := by
  obtain ⟨hu, hlen, hat, hh⟩ := settingsToHb_holds hi
  generalize (settingsToHb s).ao.savedAt = a at hu hat hh
  generalize (settingsToHb s).ao.savedHb = l at hu hlen hh
  generalize (settingsToHb s).hb = m at hu hh
  generalize (settingsToHb s).fixups = fx at hu
  generalize (settingsToHb s).freeCtr = ctr at hu
  have hrun : settle (sleepEntry s) = s.handshakes a l m fx ctr := by
    have hguard : sleepEntry s = saveSettings s := by
      unfold sleepEntry
      rw [hid]
      exact if_pos (by simpa [hsleep, hsaved, hf, hm] using hlist)
    rw [hguard]
    unfold saveSettings
    rw [hu]
    refine settle_saved hs hk hx hf (fun k hk => ?_) (fun k hk => ?_)
    · rw [hh.data k (.inl (by omega)), hz]
      rfl
    · rw [hh.chk k (.inl (by omega)), hz]
      rfl
  have hon : s.aoOn = true := aoOn_of_firmware hf
  refine ⟨_, congrArg Host.Outcome.next (whilePowered_on hon _), ?_⟩
  rw [hrun]
  refine ⟨rfl, ?_, hlen, fun b hb => hh.outside hb⟩
  exact beq_iff_eq.mpr (Holds.readBytes (t := s.handshakes a l m fx ctr) hh)

/-! ### The clocks stop (R85) -/

/-- A register that has just been written is listed once. -/
theorem State.listedAs_setFld (s : State) (f : FRef) (v : Nat) : ListedAs (s.setFld f v).rf f.off ((s.setFld f v).reg f.off) := by
  unfold State.setFld
  rw [State.reg_setReg_self]
  exact listedAs_put _ _ _ _

theorem State.listedAs_setFld_ne {s : State} {f : FRef} {off : Nat} (v : Nat) (h : ListedAs s.rf off (s.reg off)) (hf : f.off ≠ off) :
    ListedAs (s.setFld f v).rf off ((s.setFld f v).reg off) := by
  rw [State.reg_setFld_ne _ _ _ _ hf.symm]
  exact h.put hf

/-- The clocks stopped, BUSY cleared. -/
def State.clocksStopped (s : State) : State :=
  ((((s.setFlag F.AO_CLKST_CC_OK false).setFlag F.AO_CLKST_CC_SAFE false).setFlag F.AO_CLKST_PN_OK false).setFlag
    F.AO_CLKST_PN_SAFE false).setFlag F.AO_MODE_BUSY false

namespace State
variable (s : State)

theorem listedAs_modeReg : ListedAs s.clocksStopped.rf F.AO_MODE_MODE.off (s.clocksStopped.reg F.AO_MODE_MODE.off) :=
  State.listedAs_setFld _ F.AO_MODE_BUSY _

theorem listedAs_clkReg : ListedAs s.clocksStopped.rf F.AO_CLKST_CC_OK.off (s.clocksStopped.reg F.AO_CLKST_CC_OK.off) :=
  State.listedAs_setFld_ne _ (State.listedAs_setFld _ F.AO_CLKST_PN_SAFE _) (by decide)

theorem mode_clocksStopped : s.clocksStopped.mode = s.mode := by
  unfold clocksStopped
  rw [show ∀ u : State, (u.setFlag F.AO_MODE_BUSY false).mode = u.mode from
    fun u => State.fld_setFld_other _ _ _ _ (by decide) (by decide)]
  rw [State.mode_setFlag _ _ _ (by decide), State.mode_setFlag _ _ _ (by decide), State.mode_setFlag _ _ _ (by decide),
    State.mode_setFlag _ _ _ (by decide)]

theorem ccOk_clocksStopped : s.clocksStopped.flag F.AO_CLKST_CC_OK = false := by
  unfold clocksStopped
  rw [State.flag_setFlag_other _ _ _ _ (by decide) (by decide), State.flag_setFlag_other _ _ _ _ (by decide) (by decide),
    State.flag_setFlag_other _ _ _ _ (by decide) (by decide), State.flag_setFlag_other _ _ _ _ (by decide) (by decide)]
  exact State.flag_setFlag _ _ _ (by decide) (by decide)

theorem pnOk_clocksStopped : s.clocksStopped.flag F.AO_CLKST_PN_OK = false := by
  unfold clocksStopped
  rw [State.flag_setFlag_other _ _ _ _ (by decide) (by decide), State.flag_setFlag_other _ _ _ _ (by decide) (by decide)]
  exact State.flag_setFlag _ _ _ (by decide) (by decide)

theorem mode_setMode {m : Nat} (h : m < 16) : (s.setMode m).mode = m := by
  unfold State.setMode State.mode
  rw [State.fld_setFld _ _ _ (by decide)]
  exact Nat.mod_eq_of_lt h

end State

theorem goToSleep_facts {s : State} (hq : s.tdu.haltReq = none) (hto : s.ao.sleepTo < 16) :
    (goToSleep s).mode = s.ao.sleepTo ∧ (goToSleep s).hpt = .reset ∧ (goToSleep s).ao.sleep = .none
    ∧ (goToSleep s).ao.saved = s.ao.saved ∧ (goToSleep s).flag F.AO_CLKST_CC_OK = false ∧ (goToSleep s).flag F.AO_CLKST_PN_OK = false
    ∧ (goToSleep s).hb = s.hb ∧ (goToSleep s).spm = s.spm ∧ (goToSleep s).keys = s.keys := by
  have hk1 : keepsFld sleepKeeps F.AO_MODE_MODE = true := by decide +kernel
  have hk2 : keepsFld sleepKeeps F.AO_CLKST_CC_OK = true := by decide +kernel
  have hk3 : keepsFld sleepKeeps F.AO_CLKST_PN_OK = true := by decide +kernel
  unfold goToSleep
  extract_lets s1 s2 _ lp _ _ ports lost s3 _ _ s4
  have h1 : Reports (s.setMode s.ao.sleepTo) s1 := .trans (.trans (.tmrsLost 3 _) (.tmrsLost 2 _)) (.tmrsLost 1 _)
  clear_value s1
  have hlost : lost = false := by
    change s1.tdu.haltReq.isSome = false
    rw [h1.rest]
    exact congrArg Option.isSome hq
  rw [hlost, if_neg Bool.false_ne_true]
  have hmode : s1.mode = s.ao.sleepTo := h1.mode.trans (s.mode_setMode hto)
  have hfld {r : FRef} (h : ListedAs s1.clocksStopped.rf r.off (s1.clocksStopped.reg r.off)) (hk : keepsFld sleepKeeps r = true) :
      s4.fld r = s1.clocksStopped.fld r := fld_keptRegs (s := s1.clocksStopped) rfl rfl h hk
  refine ⟨(hfld s1.listedAs_modeReg hk1).trans (s1.mode_clocksStopped.trans hmode), rfl, rfl, ?_, ?_, ?_, h1.hb, h1.spm, ?_⟩
  · change s1.ao.saved = s.ao.saved
    rw [h1.rest]
    rfl
  · unfold State.flag
    rw [hfld s1.listedAs_clkReg hk2]
    exact s1.ccOk_clocksStopped
  · unfold State.flag
    rw [hfld (r := F.AO_CLKST_PN_OK) s1.listedAs_clkReg hk3]
    exact s1.pnOk_clocksStopped
  · change s1.keys = s.keys
    rw [h1.rest]
    rfl

/-! ### The acknowledge and its failure (R53, R85) -/

theorem Replied.calm {c : Cmd} {st : Nat} {ps : List Byte} {u t : State} (h : Replied c st ps u t) (hu : u.calm) : t.calm :=
  State.calm_of hu (by rw [h.rest]) (by rw [h.rest])

/-- The handshake has failed: the mode stays, the saved settings are discarded (R53, R85). -/
def State.sleepFailed (s : State) : State :=
  ({ s with
    hpt := { s.hpt with slpReq := false }
    ao := { s.ao with sleep := .none, sleepCmd := none, saved := none, wakeHeld := false } } : State).setFlag F.AO_MODE_BUSY false

theorem exec_hptSleepTimeout {s : State} {c : Cmd} (hs : s.calm) (hh : s.ao.sleep = .handshake) (hon : s.aoOn = true)
    (hid : s.ao.sleepCmd = some c.id) (hc : s.InHand c) :
    Answers .hptSleepTimeout s c Status.fault (modeReply s.mode) s.sleepFailed := by
  have hmode : s.sleepFailed.mode = s.mode := State.fld_setFld_other _ _ _ _ (by decide) (by decide)
  have hrep : Replied c Status.fault (modeReply s.mode) s.sleepFailed (finish c.id Status.fault (modeReply s.mode) s.sleepFailed) :=
    finish_replied _ _ ⟨hc.found, hc.own, hc.unsent⟩
  have hrun : hptSleepTimeout s = finish c.id Status.fault (modeReply s.sleepFailed.mode) s.sleepFailed := by
    unfold hptSleepTimeout
    rw [if_neg (by simp [hh]), hid]
    rfl
  refine ⟨_, congrArg Host.Outcome.next (whilePowered_on hon _), ?_⟩
  rw [hrun, hmode, settle_calm (hrep.calm hs)]
  exact hrep

/-- The acknowledge with no response outstanding (R53). -/
def State.acked (s : State) : State :=
  { s with hpt := { s.hpt with awake := false, slpReq := false }, ao := { s.ao with sleep := .replying } }

theorem hptSlpAck_commanded {s : State} {id : Nat} (hh : s.ao.sleep = .handshake) (hslots : s.hpt.slots = []) (hf : s.firmware = true)
    (hid : s.ao.sleepCmd = some id) : hptSlpAck s = sleepSettle (finish id Status.ok (modeReply s.mode) s.acked) := by
  unfold hptSlpAck
  rw [if_neg (by simp [hh]), if_neg (by simp [hh, hslots, hf])]
  extract_lets _ _ s1
  split
  · rename_i id' he
    obtain rfl : id' = id := Option.some.inj (he.symm.trans hid)
    rfl
  · rename_i he
    exact nomatch he.symm.trans hid

theorem hptSlpAck_alone {s : State} (hh : s.ao.sleep = .handshake) (hslots : s.hpt.slots = []) (hf : s.firmware = true)
    (hid : s.ao.sleepCmd = none) : hptSlpAck s = sleepSettle s.acked := by
  unfold hptSlpAck
  rw [if_neg (by simp [hh]), if_neg (by simp [hh, hslots, hf])]
  extract_lets _ _ s1
  split
  · rename_i id he
    exact nomatch he.symm.trans hid
  · rfl

/-- The acknowledge answers the command that asked; the engine sleeps when that reply has left (R53, R85). -/
theorem exec_hptSlpAck_answers {s : State} {c : Cmd} {k : Nat} (hh : s.ao.sleep = .handshake) (hslots : s.hpt.slots = [])
    (hf : s.firmware = true) (hid : s.ao.sleepCmd = some c.id) (hsrc : c.src = .ring k) (hc : s.InHand c) :
    Answers .hptSlpAck s c Status.ok (modeReply s.mode) s.acked := by
  have hrep : Replied c Status.ok (modeReply s.mode) s.acked (finish c.id Status.ok (modeReply s.mode) s.acked) :=
    finish_replied _ _ ⟨hc.found, hc.own, hc.unsent⟩
  have hmine := hrep.mine
  rw [hsrc] at hmine
  have hcmd : (finish c.id Status.ok (modeReply s.mode) s.acked).ao.sleepCmd = some c.id := by
    rw [hrep.rest]
    exact hid
  have hwait : sleepSettle (finish c.id Status.ok (modeReply s.mode) s.acked) = finish c.id Status.ok (modeReply s.mode) s.acked := by
    unfold sleepSettle
    rw [hcmd]
    simp [hmine]
  refine ⟨_, congrArg Host.Outcome.next (whilePowered_on (aoOn_of_firmware hf) _), ?_⟩
  rw [hptSlpAck_commanded hh hslots hf hid, hwait]
  exact hrep

/-- With no command to answer the engine sleeps at once (R53, R85). -/
theorem exec_hptSlpAck_sleeps {s : State} (hs : s.calm) (hh : s.ao.sleep = .handshake) (hslots : s.hpt.slots = [])
    (hf : s.firmware = true) (hid : s.ao.sleepCmd = none) (hm : s.mode = Mode.standby) (hreply : s.replyToSend = false)
    (hto : s.ao.sleepTo = Mode.furled ∨ s.ao.sleepTo = Mode.watch) : Runs .hptSlpAck s fun t =>
      t.mode = s.ao.sleepTo ∧ t.hpt = .reset ∧ t.ao.sleep = .none ∧ t.ao.saved = s.ao.saved ∧ t.flag F.AO_CLKST_CC_OK = false
      ∧ t.flag F.AO_CLKST_PN_OK = false ∧ t.hb = s.hb ∧ t.spm = s.spm ∧ t.keys = s.keys := by
  have hack : s.acked.ao.sleep = .replying ∧ s.acked.ao.sleepCmd = none := ⟨rfl, hid⟩
  have hmode : s.acked.mode = Mode.standby := hm
  have hsend : s.acked.replyToSend = false := hreply
  have hsleeps : sleepSettle s.acked = goToSleep s.acked := by
    unfold sleepSettle
    rw [if_pos (by simp [hack, hmode, hsend])]
  have hlt : s.ao.sleepTo < 16 := by
    rcases hto with h | h <;> rw [h] <;> decide
  refine ⟨_, congrArg Host.Outcome.next (whilePowered_on (aoOn_of_firmware hf) _), ?_⟩
  rw [hptSlpAck_alone hh hslots hf hid, hsleeps]
  exact goToSleep_facts (s := s.acked) hs.2 hlt

/-! ### The obligation -/

/-- Settles O12, by the steps of going to sleep and of waking up, one by one. -/
theorem sleepAndWake : Obligations.SleepAndWake := by
  unfold Obligations.SleepAndWake
  refine ⟨fun s hs => ⟨?_, fun hh hslots hf => ⟨?_, ?_⟩, ?_⟩, fun s => ⟨?_, fun hp ha => ⟨?_, ?_, ?_⟩, ?_⟩⟩
  · intro id hid hsleep hsaved hf hm hlist hk hx hz hi
    exact exec_sleepEntry hs hid hsleep hsaved hf hm hlist hk hx hz hi
  · intro c k hid hsrc hc
    exact exec_hptSlpAck_answers hh hslots hf hid hsrc hc
  · intro hid hm hreply hto
    exact exec_hptSlpAck_sleeps hs hh hslots hf hid hm hreply hto
  · intro c hh hon hid hc
    exact exec_hptSleepTimeout hs hh hon hid hc
  · intro k rising hk hs hd hp hr
    exact exec_wakePinEdge hk hs hd hp hr
  · exact exec_hptWakeEdge hp ha
  · intro b hm he hb
    exact exec_wakeFrameMatch hp ha hm he hb
  · intro src w hsrc hw he hs
    exact exec_watcherHit hp ha hsrc hw he hs
  · intro ha hw hr hs hc
    exact exec_wakeSequence ha hw hr hs hc.2

end Sys2Proof.Machine
end

section
/-!
PROOFS. The gateway's time-out for a command whose own execution has outlived its aggregate reply (R246, R248).
-/

namespace Sys2Proof.Machine

/-- NOP to cabinet 9 from command ring 0: its own execution goes on, while its aggregate reply is written. -/
def outlivingNop : Cmd :=
  { id := 7, src := .ring 0, hdr := leBytes 2 0 ++ [0, 1] ++ leBytes 6 0 ++ leBytes 2 9 ++ leBytes 4 0, params := []
    parPen := false, resv := 16, phase := .running, mgmt := none, early := none, frame := 0 }

/-- The gateway's transaction 4 for that command. -/
def outlivingEntry : GwEntry := ⟨4, 7, 9, [], []⟩

/-- AVLIN-X in Standby with that transaction open. -/
def outlivingGateway : State :=
  { State.reset with
    build := .x, ao := { Ao.reset with pwrgood := true, coreHeld := false }
    cmds := { Cmds.reset with after := [outlivingNop], gw := [outlivingEntry] } }.setMode Mode.standby

theorem outlivingGateway_acts : outlivingGateway.cclkOn = true ∧ outlivingGateway.firmware = true := by decide +kernel

/-- The time-out begins a reply, so that the execution that had outlived the first one counts as replied to (R246). -/
theorem outlivingGateway_replies : (gatewayTimeout 4 outlivingGateway).cmds.after = [outlivingNop.ending] := by decide +kernel

/-- Refutes O41: a time-out changes the phase of a command among those whose execution has outlived their reply, which the statement's
frame of GATEWAY_REPLY_TIMEOUT leaves out. -/
theorem not_acceptanceGatewayAndReports : ¬ Obligations.AcceptanceGatewayAndReports := by
  unfold Obligations.AcceptanceGatewayAndReports
  rintro ⟨-, hgateway⟩
  obtain ⟨hclk, hfirmware⟩ := outlivingGateway_acts
  obtain ⟨-, -, htimeout, -⟩ := hgateway outlivingGateway 4 hfirmware
  obtain ⟨t, ht, -, -, -, -, hrest⟩ := htimeout outlivingEntry outlivingNop 0 rfl rfl rfl rfl rfl
  have hrun : exec (.gatewayReplyTimeout 4) outlivingGateway = .next (gatewayTimeout 4 outlivingGateway) :=
    (congrArg Host.Outcome.next (whileClocked_on hclk _)).trans (congrArg Host.Outcome.next (if_pos hfirmware))
  have hframe : t.cmds.after = [outlivingNop] := congrArg (fun u => u.cmds.after) hrest
  rw [← Host.Outcome.next.inj (hrun.symm.trans ht), outlivingGateway_replies] at hframe
  exact absurd hframe (by decide)

end Sys2Proof.Machine
end

section
/-!
PROOFS. What the works of the units leave alone: the mode controller and its registers, the command core, the stores, the commands.
-/

namespace Sys2Proof.Machine

/-! ### What is left alone -/

/-- A register of the AO block that records no wake. -/
def aoReg (off : Nat) : Prop := off < 0x20000 ∧ off ≠ 0x10020

/-- A register of the AO block, the ring unit, the TSU or the TDU that records neither a wake nor trace statistics. -/
def asideReg (off : Nat) : Prop := aoReg off ∨ 0x400000 ≤ off ∧ off ≠ 0x500018

/-- Every pulse output is low. -/
def State.padsLow (s : State) : Prop := ∀ n, n < 64 → (s.pu n).padH = false ∧ (s.pu n).padL = false

/-- The mode controller, the frame, the commands and the registers of `R` stand, and pulse outputs that are low stay low. -/
structure Kept (R : Nat → Prop) (s t : State) : Prop where
  build : t.build = s.build
  ao : t.ao = { s.ao with waking := t.ao.waking, wakeHeld := t.ao.wakeHeld }
  haltReq : t.tdu.haltReq = s.tdu.haltReq
  frame : t.frame = s.frame
  cmds : t.cmds = { s.cmds with reportDue := t.cmds.reportDue }
  low : s.padsLow → t.padsLow
  regs : ∀ off, R off → t.reg off = s.reg off

/-- So do the command core, the stores, the keys and the tenants: the works of the units. -/
structure Units (R : Nat → Prop) (s t : State) : Prop extends Kept R s t where
  cc : t.cc = s.cc
  hb : t.hb = s.hb
  spm : t.spm = s.spm
  keys : t.keys = s.keys
  tenants : t.tenants = s.tenants

section Kept
variable {R : Nat → Prop} {s t u : State}

theorem State.padsLow_of_pus (h : t.pus = s.pus) (hs : s.padsLow) : t.padsLow := by
  unfold State.padsLow State.pu at hs ⊢
  rw [h]
  exact hs

theorem Kept.refl (s : State) : Kept R s s := ⟨rfl, rfl, rfl, rfl, rfl, id, fun _ _ => rfl⟩

theorem Kept.trans (h : Kept R s t) (k : Kept R t u) : Kept R s u where
  build := k.build.trans h.build
  ao := by
    have h1 := h.ao
    have k1 := k.ao
    rw [h1] at k1
    exact k1
  haltReq := k.haltReq.trans h.haltReq
  frame := k.frame.trans h.frame
  cmds := by
    have h1 := h.cmds
    have k1 := k.cmds
    rw [h1] at k1
    exact k1
  low := k.low ∘ h.low
  regs off ho := (k.regs off ho).trans (h.regs off ho)

theorem Kept.mono {Q : Nat → Prop} (h : Kept R s t) (hq : ∀ off, Q off → R off) : Kept Q s t :=
  { h with regs := fun off ho => h.regs off (hq off ho) }

theorem Kept.fld (h : Kept R s t) {f : FRef} (hf : R f.off) : t.fld f = s.fld f := by
  unfold State.fld
  rw [h.regs _ hf]

theorem Kept.flag (h : Kept R s t) {f : FRef} (hf : R f.off) : t.flag f = s.flag f := by
  unfold State.flag
  rw [h.fld hf]

theorem Kept.aoFld (h : Kept aoReg s t) {f : FRef} (hf : f.off < 0x20000) (hw : f.off ≠ 0x10020) : t.fld f = s.fld f := h.fld ⟨hf, hw⟩

theorem Kept.aoFlag (h : Kept aoReg s t) {f : FRef} (hf : f.off < 0x20000) (hw : f.off ≠ 0x10020) : t.flag f = s.flag f := h.flag ⟨hf, hw⟩

theorem Kept.mode (h : Kept aoReg s t) : t.mode = s.mode := h.aoFld (by decide) (by decide)

theorem Kept.inReset (h : Kept R s t) : t.inReset = s.inReset := by
  unfold State.inReset
  rw [h.ao]

theorem Kept.cclkOn (h : Kept aoReg s t) : t.cclkOn = s.cclkOn := by
  unfold State.cclkOn State.asleep
  rw [h.inReset, h.mode]

theorem asideReg_of_aoReg (off : Nat) (h : aoReg off) : asideReg off := .inl h

theorem Kept.ofAside (h : Kept asideReg s t) : Kept aoReg s t := h.mono asideReg_of_aoReg

/-! ### Works of the units -/

theorem Units.refl (s : State) : Units R s s := ⟨.refl s, rfl, rfl, rfl, rfl, rfl⟩

theorem Units.trans (h : Units R s t) (k : Units R t u) : Units R s u :=
  ⟨h.toKept.trans k.toKept, k.cc.trans h.cc, k.hb.trans h.hb, k.spm.trans h.spm, k.keys.trans h.keys, k.tenants.trans h.tenants⟩

theorem Units.mono {Q : Nat → Prop} (h : Units R s t) (hq : ∀ off, Q off → R off) : Units Q s t :=
  { h with toKept := h.toKept.mono hq }

theorem Units.ofAside (h : Units asideReg s t) : Units aoReg s t := h.mono asideReg_of_aoReg

theorem Units.ite {c : Prop} [Decidable c] (h : Units R s t) (k : Units R s u) : Units R s (if c then t else u) := by
  split
  · exact h
  · exact k

theorem Units.foldl {α : Type} {f : State → α → State} (l : List α) (hf : ∀ s, ∀ a ∈ l, Units R s (f s a)) (s : State) :
    Units R s (l.foldl f s) := by
  induction l generalizing s with
  | nil => exact .refl s
  | cons a l ih => exact (hf s a List.mem_cons_self).trans (ih (fun s b hb => hf s b (List.mem_cons_of_mem _ hb)) _)

/-- A step that touches no register and no pulse unit. -/
theorem Units.of_rf (hr : t.rf = s.rf) (h : t = { s with
    mpt0 := t.mpt0, mpt1 := t.mpt1, lines := t.lines, seqs := t.seqs, trip := t.trip, dec := t.dec, lp := t.lp, ba := t.ba
    feeds := t.feeds, freeCtr := t.freeCtr, fixups := t.fixups }) : Units R s t := by
  have hb : t.build = s.build := by rw [h]
  have hp : t.pus = s.pus := by rw [h]
  refine ⟨⟨hb, ?_, ?_, ?_, ?_, State.padsLow_of_pus hp, fun off _ => State.reg_congr s t hb hr off⟩, ?_, ?_, ?_, ?_, ?_⟩
  all_goals rw [h]

theorem Units.setReg (s : State) {off : Nat} (v : W64) (h : ¬ R off) : Units R s (s.setReg off v) :=
  ⟨⟨rfl, rfl, rfl, rfl, rfl, id, fun _ ho => s.reg_setReg_ne _ _ v fun e => h (e ▸ ho)⟩, rfl, rfl, rfl, rfl, rfl⟩

/-- A register of the units' blocks. -/
theorem not_asideReg {off : Nat} (h1 : 0x20000 ≤ off) (h2 : off < 0x400000) : ¬ asideReg off := by
  unfold asideReg aoReg
  omega

theorem Units.setFld (s : State) {f : FRef} (v : Nat) (h1 : 0x20000 ≤ f.off) (h2 : f.off < 0x400000) :
    Units asideReg s (s.setFld f v) := .setReg s _ (not_asideReg h1 h2)

theorem Units.setFlag (s : State) {f : FRef} (b : Bool) (h1 : 0x20000 ≤ f.off) (h2 : f.off < 0x400000) :
    Units asideReg s (s.setFlag f b) := .setReg s _ (not_asideReg h1 h2)

theorem reportOff_aside {off : Nat} (h : asideReg off) : reportOff off = false := by
  unfold asideReg aoReg at h
  simp only [reportOff, Bool.or_eq_false_iff, beq_eq_false_iff_ne, Bool.and_eq_false_iff, decide_eq_false_iff_not]
  omega

theorem Units.of_reports (h : Reports s t) : Units asideReg s t := by
  refine ⟨⟨h.build, ?_, ?_, ?_, ?_, State.padsLow_of_pus h.pus, fun off ho => h.regs off (reportOff_aside ho)⟩, h.cc, h.hb, h.spm, ?_, ?_⟩
  all_goals rw [h.rest]

end Kept

/-! ### Pulse outputs held low (R435) -/

theorem bitOf_ones {n : Nat} (h : n < 64) : bitOf (2 ^ 64 - 1) n = true := by
  rw [bitOf_eq_testBit, Nat.testBit_two_pow_sub_one]
  exact decide_eq_true h

theorem pads_puHold (mask : Nat) (s : State) (n : Nat) : ((puHold mask s).pu n).padH = ((s.pu n).padH && !bitOf mask n)
    ∧ ((puHold mask s).pu n).padL = ((s.pu n).padL && !bitOf mask n) := by
  have hget (l : List (Nat × Pu)) :
      let p := SMap.get (fun _ => Pu.reset) (l.map fun e => if bitOf mask e.1 then (e.1, puDrop e.2) else e) n
      let q := SMap.get (fun _ => Pu.reset) l n
      p.padH = (q.padH && !bitOf mask n) ∧ p.padL = (q.padL && !bitOf mask n) := by
    induction l with
    | nil => exact ⟨rfl, rfl⟩
    | cons e l ih =>
      obtain ⟨k, p⟩ := e
      by_cases hk : k = n
      · subst hk
        cases hb : bitOf mask k <;> simp [SMap.get, hb, puDrop]
      · cases hb : bitOf mask k <;> simpa [SMap.get, hb, hk] using ih
  exact hget s.pus

theorem puHoldAll_low (s : State) : (puHoldAll s).padsLow := by
  intro n hn
  obtain ⟨hh, hl⟩ := pads_puHold (2 ^ 64 - 1) s n
  rw [bitOf_ones hn, Bool.not_true, Bool.and_false] at hh hl
  exact ⟨hh, hl⟩

theorem puHoldAll_units (s : State) : Units asideReg s (puHoldAll s) :=
  ⟨⟨rfl, rfl, rfl, rfl, rfl, fun _ => puHoldAll_low s, fun _ _ => rfl⟩, rfl, rfl, rfl, rfl, rfl⟩

theorem observePus_units (m : Nat) (s : State) : Units asideReg s (observePus m s) := .of_reports (.observePus m s)

/-! ### Lanes and generators (R376, R399 to R409) -/

theorem setLane_units (s : State) (n : Nat) (l : Lane) : Units asideReg s (s.setLane n l) := .of_rf rfl rfl

theorem zllStat_units (s : State) {n : Nat} (hn : n < 64) (v : Nat) : Units asideReg s (s.setFld (F.ZLL_STAT_STATE n) v) :=
  .setFld s v (by simp only; omega) (by simp only; omega)

theorem observeLane_units (m : Nat) (s : State) : Units asideReg s (observeLane m s) := by
  unfold observeLane
  split
  · exact .ite (.of_reports (.observe ..)) (.of_reports (.observe ..))
  · exact .ite (.of_reports (.observe ..)) (.ite (.refl s) (.of_reports (.observe ..)))

theorem observeGroup_units (k : Nat) (s : State) : Units asideReg s (observeGroup k s) :=
  .foldl _ (fun _ _ _ => observeLane_units _ _) s

theorem observeGclk_units (g : Nat) (s : State) : Units asideReg s (observeGclk g s) := by
  unfold observeGclk
  exact .ite (.of_reports (.observe ..)) (.ite (.of_reports (.observe ..)) (.of_reports (.observe ..)))

theorem observeGclks_units (s : State) : Units asideReg s (observeGclks s) := .foldl _ (fun _ _ _ => observeGclk_units _ _) s

theorem observeHalves_units (on : Bool) (s : State) : Units asideReg s (observeHalves on s) :=
  .foldl _ (fun s _ _ => .ite (.refl s) (.of_reports (.observe ..))) s

theorem wantTraining_units (l : List Nat) (s : State) : Units asideReg s (wantTraining l s) :=
  .foldl _ (fun s _ _ => .ite (.refl s) (setLane_units s _ _)) s

theorem laneDraw_units (s : State) : Units asideReg s (if s.laneSent then s.drew else s) := .ite (.of_rf rfl rfl) (.refl s)

/-- Lanes are observed once the bands on their way are gone. -/
theorem lanesObserved_units (s : State) (x : LpSt) :
    Units asideReg s ((List.range 8).foldl (fun t k => observeGroup k t) { s with lp := x }) :=
  .trans (t := { s with lp := x }) (.of_rf rfl rfl) (.foldl _ (fun _ _ _ => observeGroup_units _ _) _)

theorem lanesQuiet_units (s : State) : Units asideReg s (lanesQuiet s) := by
  unfold lanesQuiet
  refine .trans ((laneDraw_units s).trans (.foldl _ (fun t n hn => ?_) _)) (lanesObserved_units _ _)
  exact .ite (.refl t) ((zllStat_units t (List.mem_range.mp hn) _).trans (setLane_units ..))

theorem lanesHush_units (s : State) : Units asideReg s (lanesHush s) := by
  unfold lanesHush
  refine .trans ((laneDraw_units s).trans (.foldl _ (fun t n hn => ?_) _)) (lanesObserved_units _ _)
  have hset (v : Nat) (l : Lane) : Units asideReg t ((t.setFld (F.ZLL_STAT_STATE n) v).setLane n l) :=
    (zllStat_units t (List.mem_range.mp hn) v).trans (setLane_units ..)
  exact .ite (hset _ _) (.ite (hset _ _) (.refl t))

theorem lanesAlign_units (s : State) : Units asideReg s (lanesAlign s) :=
  .foldl _ (fun t _ hn => .ite (zllStat_units t (List.mem_range.mp hn) _) (.refl t)) s

theorem lanesAfterRelock_units (changed : Bool) (s : State) : Units asideReg s (lanesAfterRelock changed s) := by
  unfold lanesAfterRelock
  extract_lets x s0
  have h0 : Units asideReg s s0 := .of_rf rfl rfl
  exact .ite h0 (.ite (h0.trans ((lanesQuiet_units s0).trans (wantTraining_units _ _))) (h0.trans (lanesAlign_units s0)))

theorem lightPathOff_units (s : State) : Units asideReg s (lightPathOff s) :=
  (lanesQuiet_units s).trans ((observeGclks_units _).trans (observeHalves_units _ _))

theorem lightPathOn_units (s : State) : Units asideReg s (lightPathOn s) := by
  unfold lightPathOn
  extract_lets x s1
  have h1 : Units asideReg s s1 := .of_rf rfl rfl
  exact h1.trans ((wantTraining_units _ s1).trans ((observeGclks_units _).trans (observeHalves_units _ _)))

/-! ### Slice engines (R332) -/

theorem seBusy_units (n : Nat) (s : State) : Units asideReg s (seBusy n s) := .ite (.refl s) (.of_reports (.observe ..))

theorem seBusyAll_units (s : State) : Units asideReg s (seBusyAll s) := .foldl _ (fun _ _ _ => seBusy_units _ _) s

theorem putDec_units (s : State) (x : DecSt) : Units asideReg s { s with dec := x } := .of_rf rfl rfl

theorem setRows_units (s : State) (n : Nat) (l : List RowJob) : Units asideReg s (s.setRows n l) := by
  unfold State.setRows
  exact (putDec_units s _).trans (seBusy_units n _)

theorem setStage_units (s : State) (q k : Nat) (g : Stage) : Units asideReg s (s.setStage q k g) := .of_rf rfl rfl

theorem idleStages_units (n : Nat) (s : State) : Units asideReg s (idleStages n s) :=
  .foldl _ (fun s _ _ => .ite (setStage_units s _ _ _) (.refl s)) s

theorem emptyEngines_units (keep : Nat → Bool) (s : State) : Units asideReg s (emptyEngines keep s) :=
  .foldl _ (fun s _ _ => .ite (.refl s) ((setRows_units s _ _).trans (idleStages_units _ _))) s

theorem forget_units (s : State) (p : MptUse → Bool) : Units asideReg s (s.forget p) := .of_rf rfl rfl

theorem stopDecode_units (s : State) : Units asideReg s (stopDecode s) := by
  unfold stopDecode
  exact (forget_units s _).trans ((emptyEngines_units _ _).trans ((putDec_units _ _).trans (seBusyAll_units _)))

end Sys2Proof.Machine
end

section
/-!
PROOFS. The release test of a clock (R71 to R73, R76).
-/

namespace Sys2Proof.Machine

/-! ### The flags of a clock domain -/

/-- AO_CLKST.CC_OK or PN_OK. -/
def clkOk (d : ClkDom) : FRef := match d with | .cclk => F.AO_CLKST_CC_OK | .pnclk => F.AO_CLKST_PN_OK

/-- AO_CLKST.CC_SAFE or PN_SAFE. -/
def clkSafe (d : ClkDom) : FRef := match d with | .cclk => F.AO_CLKST_CC_SAFE | .pnclk => F.AO_CLKST_PN_SAFE

/-- Domain `d` of `t` has fallen back to the safe clock, its release test starts anew. -/
structure FallenBack (d : ClkDom) (t : State) : Prop where
  ok : t.flag (clkOk d) = false
  safe : t.flag (clkSafe d) = true
  relocking : (t.clk d).relocking = true
  passes : (t.clk d).passes = 0

/-- The clock of domain `d` and its flags are as in `s`, but for what the release test counts. -/
structure ClockAs (d : ClkDom) (c : ClkState) (s t : State) : Prop where
  clk : t.clk d = c
  ok : t.flag (clkOk d) = s.flag (clkOk d)
  safe : t.flag (clkSafe d) = s.flag (clkSafe d)

section Clock
variable {s t : State} {d : ClkDom}

theorem aoOn_of_clocked (h : s.clocked = true) : s.aoOn = true := by
  simp only [State.clocked, Bool.and_eq_true, Bool.not_eq_true'] at h
  obtain ⟨⟨⟨⟨⟨hsupplies, -⟩, hpor⟩, hdis⟩, -⟩, -⟩ := h
  simp [State.aoOn, hsupplies, hpor, hdis]

theorem Runs.of_powered {i : Instr} {P : State → Prop} (he : exec i s = .next (whilePowered s t)) (hp : s.aoOn = true) (h : P t) :
    Runs i s P := ⟨t, he.trans (congrArg Host.Outcome.next (whilePowered_on hp t)), h⟩

theorem Kept.flag_clk (h : Kept aoReg s t) (d : ClkDom) : t.flag (clkOk d) = s.flag (clkOk d) ∧ t.flag (clkSafe d) = s.flag (clkSafe d) := by
  cases d <;> exact ⟨h.aoFlag (by decide) (by decide), h.aoFlag (by decide) (by decide)⟩

theorem Kept.clk (h : Kept aoReg s t) (d : ClkDom) : t.clk d = s.clk d := by
  have ha := h.ao
  cases d
  · exact (congrArg Ao.cclk ha :)
  · exact (congrArg Ao.pnclk ha :)

/-! ### Relock and release -/

theorem pnSafe_units (s : State) : Units asideReg s (pnSafe s) :=
  (puHoldAll_units s).trans ((lanesHush_units _).trans ((Units.of_reports (.tmrsLost 3 _)).trans (observePus_units _ _)))

theorem flags_fallen (u : State) {ok safe : FRef} (hr : s.ao.refAbsent = false) (hok : ok.w = 1 ∧ ok.lo < 16)
    (hsafe : safe.w = 1 ∧ safe.lo < 16) (ha : ok.Apart safe) :
    ((u.setFlag ok false).setFlag safe (!s.ao.refAbsent)).flag ok = false
      ∧ ((u.setFlag ok false).setFlag safe (!s.ao.refAbsent)).flag safe = true := by
  rw [hr]
  exact ⟨(State.flag_setFlag_other _ _ _ _ (by omega) ha).trans (State.flag_setFlag _ _ _ (by omega) (by omega)),
    State.flag_setFlag _ _ _ (by omega) (by omega)⟩

theorem relock_fallsBack (hr : s.ao.refAbsent = false) (d : ClkDom) (changed : Bool) : FallenBack d (relock d changed s) := by
  cases d
  · obtain ⟨hok, hsafe⟩ := flags_fallen s (ok := F.AO_CLKST_CC_OK) (safe := F.AO_CLKST_CC_SAFE) hr (by decide) (by decide) (by decide)
    unfold relock relockCc
    extract_lets s1
    exact ⟨hok, hsafe, rfl, rfl⟩
  · unfold relock relockPn
    extract_lets s0 s1
    obtain ⟨h1ok, h1safe⟩ := flags_fallen s0 (ok := F.AO_CLKST_PN_OK) (safe := F.AO_CLKST_PN_SAFE) hr (by decide) (by decide) (by decide)
    have hk := (pnSafe_units { s1 with ao := { s1.ao with pnclk := ⟨true, 0, false, changed || s1.ao.pnclk.changed⟩ } }).toKept.ofAside
    obtain ⟨hok, hsafe⟩ := hk.flag_clk .pnclk
    have hclk := hk.clk .pnclk
    exact ⟨hok.trans h1ok, hsafe.trans h1safe, congrArg ClkState.relocking hclk, congrArg ClkState.passes hclk⟩

theorem hptWakes_rf (s : State) : (hptWakes s).rf = s.rf ∧ (hptWakes s).build = s.build ∧ (hptWakes s).ao = s.ao := by
  unfold hptWakes
  split
  · exact ⟨rfl, rfl, rfl⟩
  · exact ⟨rfl, rfl, rfl⟩

theorem hptWakes_fld (s : State) (f : FRef) : (hptWakes s).fld f = s.fld f := by
  unfold State.fld
  rw [State.reg_congr _ _ (hptWakes_rf s).2.1 (hptWakes_rf s).1]

theorem hptWakes_flag (s : State) (f : FRef) : (hptWakes s).flag f = s.flag f := by
  unfold State.flag
  rw [hptWakes_fld]

theorem flags_released (s : State) {ok safe : FRef} (hok : ok.w = 1 ∧ ok.lo < 16) (hsafe : safe.w = 1 ∧ safe.lo < 16) (ha : ok.Apart safe) :
    ((s.setFlag ok true).setFlag safe false).flag ok = true ∧ ((s.setFlag ok true).setFlag safe false).flag safe = false :=
  ⟨(State.flag_setFlag_other _ _ _ _ (by omega) ha).trans (State.flag_setFlag _ _ _ (by omega) (by omega)),
    State.flag_setFlag _ _ _ (by omega) (by omega)⟩

theorem pnReturns_units (changed : Bool) (s : State) :
    Units asideReg s (observePus (2 ^ 64 - 1) (lanesAfterRelock changed (tmrsReturn 3 s))) :=
  (Units.of_reports (Reports.tmrsReturn 3 s)).trans ((lanesAfterRelock_units changed _).trans (observePus_units _ _))

theorem releaseClk_released (d : ClkDom) (s : State) : (releaseClk d s).flag (clkOk d) = true ∧ (releaseClk d s).flag (clkSafe d) = false
    ∧ ((releaseClk d s).clk d).relocking = false := by
  cases d
  · obtain ⟨hok, hsafe⟩ := flags_released s (ok := F.AO_CLKST_CC_OK) (safe := F.AO_CLKST_CC_SAFE) (by decide) (by decide) (by decide)
    unfold releaseClk
    extract_lets s1
    obtain ⟨-, -, hao⟩ := hptWakes_rf { s1 with ao := { s1.ao with cclk := ⟨false, 0, false, false⟩ } }
    exact ⟨(hptWakes_flag _ _).trans hok, (hptWakes_flag _ _).trans hsafe, congrArg (fun a => a.cclk.relocking) hao⟩
  · obtain ⟨hok, hsafe⟩ := flags_released s (ok := F.AO_CLKST_PN_OK) (safe := F.AO_CLKST_PN_SAFE) (by decide) (by decide) (by decide)
    unfold releaseClk
    extract_lets s1 _ changed s2
    have hk := (pnReturns_units changed { s2 with ao := { s2.ao with pnclk := ⟨false, 0, false, false⟩ } }).toKept.ofAside
    obtain ⟨kok, ksafe⟩ := hk.flag_clk .pnclk
    exact ⟨kok.trans hok, ksafe.trans hsafe, congrArg ClkState.relocking (hk.clk .pnclk)⟩

/-! ### The end of a window (R72, R73) -/

/-- What a window has counted is shown (R76). -/
def State.measured (s : State) (d : ClkDom) (n : Nat) : State :=
  match d with | .cclk => s | .pnclk => s.setFld F.AO_CLKST_PN_MEAS (min n 65535)

theorem State.clkTarget_measured (s : State) (d : ClkDom) (n : Nat) : (s.measured d n).clkTarget d = s.clkTarget d := by
  cases d
  · rfl
  · exact congrArg (16 * ·) (State.fld_setFld_other _ _ _ _ (by decide) (by decide))

theorem measured_clockAs (s : State) (d : ClkDom) (n : Nat) : ClockAs d (s.clk d) s (s.measured d n) := by
  cases d
  · exact ⟨rfl, rfl, rfl⟩
  · exact ⟨rfl, State.flag_setFld_other _ _ _ _ (by decide) (by decide), State.flag_setFld_other _ _ _ _ (by decide) (by decide)⟩

theorem setClk_clockAs (c : ClkState) (h : ClockAs d (s.clk d) s t) : ClockAs d c s (t.setClk d c) := by
  obtain ⟨-, hok, hsafe⟩ := h
  cases d
  · exact ⟨rfl, hok, hsafe⟩
  · exact ⟨rfl, hok, hsafe⟩

/-- What a window that has counted `n` cycles does, at target `t` and with the domain's clock `c`. -/
def windowEnd (d : ClkDom) (n : Nat) (locked : Bool) (u : State) (t : Nat) (c : ClkState) : State :=
  if c.relocking then
    if locked && windowPasses n t then if 3 ≤ c.passes then releaseClk d u else u.setClk d { c with passes := c.passes + 1 }
    else u.setClk d { c with passes := 0 }
  else if locked && windowHolds n t then u
  else relock d false u

theorem releaseTestWindow_eq (hc : s.clocked = true) (hr : s.ao.refAbsent = false) (d : ClkDom) (n : Nat) (locked : Bool) :
    releaseTestWindow d n locked s = windowEnd d n locked (s.measured d n) (s.clkTarget d) (s.clk d) :=
  (if_neg (by simp [hc, hr])).trans
    (congrArg₂ (windowEnd d n locked (s.measured d n)) (s.clkTarget_measured d n) (measured_clockAs s d n).clk)

/-- The release test, for one domain: a window passes, releases the clock or starts the count again; after release it holds or the
domain falls back. -/
theorem releaseTest_runs (hc : s.clocked = true) (hr : s.ao.refAbsent = false) (d : ClkDom) (n : Nat) (locked : Bool) :
    let passes := locked = true ∧ 499 * s.clkTarget d + 500 ≤ 500 * n ∧ 500 * n + 500 ≤ 501 * s.clkTarget d
    let holds := locked = true ∧ 996 * s.clkTarget d ≤ 1000 * n ∧ 1000 * n ≤ 1004 * s.clkTarget d
    let run := Runs (.releaseTestWindow d n locked) s
    ((s.clk d).relocking = true →
      (passes → (s.clk d).passes < 3 → run (ClockAs d { s.clk d with passes := (s.clk d).passes + 1 } s))
      ∧ (passes → 3 ≤ (s.clk d).passes → run fun t =>
        t.flag (clkOk d) = true ∧ t.flag (clkSafe d) = false ∧ (t.clk d).relocking = false)
      ∧ (¬ passes → run (ClockAs d { s.clk d with passes := 0 } s)))
    ∧ ((s.clk d).relocking = false → (holds → run (ClockAs d (s.clk d) s)) ∧ (¬ holds → run (FallenBack d)))
    ∧ Runs (.synthLockLost d) s (FallenBack d) := by
  intro passes holds run
  have hpasses : (locked && windowPasses n (s.clkTarget d)) = decide passes := by
    simp only [passes, windowPasses, Bool.decide_and, Bool.decide_eq_true]
  have hholds : (locked && windowHolds n (s.clkTarget d)) = decide holds := by
    simp only [holds, windowHolds, Bool.decide_and, Bool.decide_eq_true]
  have hon := aoOn_of_clocked hc
  have hu := measured_clockAs s d n
  have hur : (s.measured d n).ao.refAbsent = false := by cases d <;> exact hr
  have heq := releaseTestWindow_eq hc hr d n locked
  rw [windowEnd, hpasses, hholds] at heq
  have hrun {P : State → Prop} (h : P (releaseTestWindow d n locked s)) : run P := .of_powered rfl hon h
  refine ⟨fun hl => ⟨fun hp h3 => hrun ?_, fun hp h3 => hrun ?_, fun hp => hrun ?_⟩, fun hl => ⟨fun hh => hrun ?_, fun hh => hrun ?_⟩,
    .of_powered rfl hon ?_⟩
  · rw [heq, if_pos hl, if_pos (decide_eq_true hp), if_neg (by omega)]
    exact setClk_clockAs _ hu
  · rw [heq, if_pos hl, if_pos (decide_eq_true hp), if_pos h3]
    exact releaseClk_released d _
  · rw [heq, if_pos hl, if_neg (by simpa using hp)]
    exact setClk_clockAs _ hu
  · rw [heq, if_neg (by simp [hl]), if_pos (decide_eq_true hh)]
    exact hu
  · rw [heq, if_neg (by simp [hl]), if_neg (by simpa using hh)]
    exact relock_fallsBack hur d false
  · unfold synthLockLost
    rw [if_pos hc]
    exact relock_fallsBack hr d false

end Clock

theorem Runs.mono {i : Instr} {s : State} {P Q : State → Prop} (h : Runs i s P) (hq : ∀ t, P t → Q t) : Runs i s Q :=
  ⟨h.choose, h.choose_spec.1, hq _ h.choose_spec.2⟩

/-- Settles O8, by the release test of each domain. -/
theorem theReleaseTest : Obligations.TheReleaseTest := by
  unfold Obligations.TheReleaseTest
  intro s d n locked hc hr
  obtain ⟨hrelocks, hreleased, hlost⟩ := releaseTest_runs hc hr d n locked
  have hclock {c : ClkState} (t : State) (h : ClockAs d c s t) := And.intro h.clk (And.intro h.ok h.safe)
  have hfalls (t : State) (h : FallenBack d t) := And.intro h.ok (And.intro h.safe (And.intro h.relocking h.passes))
  cases d
  all_goals
    intro T ok safe passes holds falls
    refine ⟨fun hl => ?_, fun hl => ?_, hlost.mono hfalls⟩
    · obtain ⟨hpass, hfourth, hfail⟩ := hrelocks hl
      exact ⟨fun hp h3 => (hpass hp h3).mono hclock, hfourth, fun hp => (hfail hp).mono hclock⟩
    · obtain ⟨hhold, hout⟩ := hreleased hl
      exact ⟨fun hh => (hhold hh).mono hclock, fun hh => (hout hh).mono hfalls⟩

end Sys2Proof.Machine
end

section
/-!
PROOFS. Entering a mode (R80, R84, R91), the entry to Dark, and what follows a transition: the MODE hook.
-/

namespace Sys2Proof.Machine

/-! ### Calling a hook leaves the mode controller alone (R216) -/

/-- A step of the command core that runs no customer instruction: it leaves alone what the works of the units leave alone, and the
hooks that are due. -/
structure Called (s t : State) : Prop where
  kept : s.cclkOn = true → s.cc.cx = none → Kept asideReg s t ∧ t.cc.hooks = s.cc.hooks ∧ t.cc.cx = none

namespace Called
variable {s t u : State}

theorem refl (s : State) : Called s s := ⟨fun _ hx => ⟨.refl s, rfl, hx⟩⟩

theorem trans (h : Called s t) (k : Called t u) : Called s u := by
  refine ⟨fun hc hx => ?_⟩
  obtain ⟨h1, hh, hx1⟩ := h.kept hc hx
  obtain ⟨k1, kh, kx⟩ := k.kept (h1.ofAside.cclkOn.trans hc) hx1
  exact ⟨h1.trans k1, kh.trans hh, kx⟩

theorem ite {c : Prop} [Decidable c] (h : Called s t) (k : Called s u) : Called s (if c then t else u) := by
  split
  · exact h
  · exact k

theorem putCc (s : State) (x : CcSt) (hh : x.hooks = s.cc.hooks) (hx : x.cx = none ∨ x.cx = s.cc.cx) : Called s { s with cc := x } :=
  ⟨fun _ h => ⟨⟨rfl, rfl, rfl, rfl, rfl, id, fun _ _ => rfl⟩, hh, hx.elim id (·.trans h)⟩⟩

theorem setFld (s : State) {f : FRef} (v : Nat) (h1 : 0x20000 ≤ f.off) (h2 : f.off < 0x400000) : Called s (s.setFld f v) :=
  ⟨fun _ hx => ⟨(Units.setFld s v h1 h2).toKept, rfl, hx⟩⟩

theorem setFlag (s : State) {f : FRef} (b : Bool) (h1 : 0x20000 ≤ f.off) (h2 : f.off < 0x400000) : Called s (s.setFlag f b) :=
  .setFld s _ h1 h2

theorem of_notes (h : s.cclkOn = true → Notes s t) : Called s t := by
  refine ⟨fun hc hx => ?_⟩
  have hr := (h hc).rest
  have hregs (off : Nat) (ho : asideReg off) : t.reg off = s.reg off :=
    (h hc).regs off (by unfold asideReg aoReg at ho; omega) (reportOff_aside ho)
  refine ⟨⟨?_, ?_, ?_, ?_, ?_, State.padsLow_of_pus ?_, hregs⟩, ?_, ?_⟩
  case refine_8 =>
    rw [hr]
    exact hx
  all_goals rw [hr]

theorem noteCode (a n : Nat) (s : State) : Called s (noteCode a n s) := of_notes (.code a n s)

theorem setStore (s : State) (x : StoreSel) (m : Store) : Called s (s.setStore x m) := by
  refine ⟨fun _ hx => ?_⟩
  cases x
  · exact ⟨⟨rfl, rfl, rfl, rfl, rfl, id, fun _ _ => rfl⟩, rfl, hx⟩
  · exact ⟨⟨rfl, rfl, rfl, rfl, rfl, id, fun _ _ => rfl⟩, rfl, hx⟩

theorem putFixups (s : State) (l : List Fixup) : Called s { s with fixups := l } :=
  ⟨fun _ hx => ⟨⟨rfl, rfl, rfl, rfl, rfl, id, fun _ _ => rfl⟩, rfl, hx⟩⟩

theorem writeBytes (x : StoreSel) (a : Nat) (l : List PByte) (s : State) : Called s (writeBytes x a l s) := by
  unfold Machine.writeBytes
  extract_lets m src1 s1 tgt
  have h1 : Called s s1 := .trans (.setStore s x m) (.putFixups ..)
  refine .ite (.refl s) (.ite (h1.trans ?_) h1)
  exact .trans (.setStore s1 x _) (.setFlag _ (f := F.SCRUB_INJ_ARM) _ (by decide) (by decide))

theorem doubleCheck (s : State) : Called s (doubleCheck s) :=
  .trans (.setFlag s (f := F.CC_STAT_DBL) _ (by decide) (by decide)) (.setFld _ (f := F.SQ_STAT_STATE 0) _ (by decide) (by decide))

theorem ccInterrupt (s : State) : Called s (ccInterrupt s) := by
  refine ⟨fun hc hx => ?_⟩
  unfold Machine.ccInterrupt
  rw [if_neg (by rw [hx]; exact Bool.false_ne_true)]
  exact (putCc s { s.cc with wait := none, cx := none, afterRtt := false } rfl (.inl rfl)).kept hc hx

theorem landAll_hooks (c : CcSt) : c.landAll.hooks = c.hooks ∧ c.landAll.cx = c.cx := by
  have hfold (l : List CcFlight) (c : CcSt) : (l.foldl CcSt.land c).hooks = c.hooks ∧ (l.foldl CcSt.land c).cx = c.cx := by
    induction l generalizing c with
    | nil => exact ⟨rfl, rfl⟩
    | cons f l ih =>
      obtain ⟨h1, h2⟩ := ih (c.land f)
      cases f
      · exact ⟨h1, h2⟩
      · exact ⟨h1, h2⟩
  exact hfold _ c

theorem interrupted (s : State) : Called s (Machine.ccInterrupt { s with cc := s.cc.landAll }) :=
  .trans (.putCc s _ (landAll_hooks _).1 (.inr (landAll_hooks _).2)) (.ccInterrupt _)

theorem coreMachineCheck (sub : Nat) (pc tval : W32) (s : State) : Called s (coreMachineCheck sub pc tval s) := by
  unfold Machine.coreMachineCheck
  extract_lets s0 base s1 s2 core2
  have h0 : Called s s0 := .interrupted s
  have h1 : Called s s1 := h0.trans (.trans (.writeBytes ..) (.noteCode ..))
  have h2 : Called s s2 := h1.trans (.trans (.writeBytes ..) (.setFlag _ _ (by decide) (by decide)))
  refine .ite (h0.trans (.doubleCheck s0)) ?_
  split
  · exact h1.trans (.doubleCheck s1)
  · exact h2.trans (.putCc _ _ rfl (.inr rfl))

theorem trapEnter (vec sub : Nat) (pc tval : W32) (s : State) : Called s (trapEnter vec sub pc tval s) := by
  unfold Machine.trapEnter
  extract_lets s0 tsbp fast base s1 entry s2 s3
  have h0 : Called s s0 := .interrupted s
  have h1 : Called s s1 := h0.trans (.setFld _ (f := F.CC_TSBP_TSBP) _ (by decide) (by decide))
  have h2 : Called s s2 := h1.trans (.trans (.writeBytes ..) (.noteCode ..))
  have h3 : Called s s3 := h2.trans (.ite (.refl s2) (.writeBytes ..))
  refine .ite (h0.trans (.coreMachineCheck ..)) ?_
  split
  · exact h2.trans (.coreMachineCheck ..)
  · refine h3.trans (.putCc _ _ ?_ (.inr ?_))
    · cases fast <;> rfl
    · cases fast <;> rfl

theorem setG (s : State) (k : Nat) (v : W32) : Called s (s.setG k v) := .ite (.refl s) (.putCc _ _ rfl (.inr rfl))

theorem drew (s : State) : Called s s.drew := ⟨fun _ hx => ⟨⟨rfl, rfl, rfl, rfl, rfl, id, fun _ _ => rfl⟩, rfl, hx⟩⟩

theorem callHook (h : HookDue) (s : State) : Called s (callHook h s).1 := by
  unfold Machine.callHook
  extract_lets b s1 ret pl run s2
  have h1 : Called s s1 := .noteCode ..
  have h2 : Called s s2 := h1.trans (.trans (.drew s1) (.trans (.setG ..) (.trans (.setG ..) (.setG ..))))
  split
  · exact h1.trans (.trapEnter ..)
  · split
    · exact h1
    · exact h2.trans (.putCc _ _ rfl (.inr rfl))

end Called

/-! ### What follows a transition (R215, R573) -/

/-- Only MODE hooks are due. -/
def State.modeHooks (s : State) : Prop := ∀ h ∈ s.cc.hooks, h.k = 3

theorem hookDone_mode {h : HookDue} (hk : h.k = 3) (st : Nat) (s : State) : hookDone h st s = s := by
  obtain ⟨k, arg, cmd⟩ := h
  subst hk
  rfl

/-- A MODE hook returns to nothing: firmware that calls the hooks leaves the mode controller alone. -/
theorem pumpHooks_kept (n : Nat) (s : State) (hs : s.modeHooks) : Kept asideReg s (pumpHooks n s) := by
  induction n generalizing s with
  | zero => exact .refl s
  | succ n ih =>
    unfold pumpHooks
    split
    · exact .refl s
    · rename_i hrun
      simp only [Bool.or_eq_true, Bool.not_eq_true', not_or, Bool.not_eq_true, Bool.not_eq_false, Option.isSome_eq_false_iff,
        Option.isNone_iff_eq_none] at hrun
      obtain ⟨⟨-, hx⟩, hf⟩ := hrun
      have hc : s.cclkOn = true := by
        by_contra hoff
        rw [State.firmware_off (Bool.not_eq_true _ ▸ hoff)] at hf
        exact Bool.false_ne_true hf
      split
      · exact .refl s
      · rename_i h rest heq
        have hk : h.k = 3 := hs h (heq ▸ List.mem_cons_self)
        obtain ⟨kept, hhooks, -⟩ := (Called.callHook h { s with cc := { s.cc with hooks := rest } }).kept hc hx
        have hkept : Kept asideReg s (callHook h { s with cc := { s.cc with hooks := rest } }).1 :=
          .trans (t := { s with cc := { s.cc with hooks := rest } }) ⟨rfl, rfl, rfl, rfl, rfl, id, fun _ _ => rfl⟩ kept
        have hrest : (callHook h { s with cc := { s.cc with hooks := rest } }).1.modeHooks := by
          intro g hg
          rw [hhooks] at hg
          exact hs g (heq ▸ List.mem_cons_of_mem _ hg)
        split <;> rename_i t ht <;> rw [ht] at hkept hrest
        · exact hkept
        · rw [hookDone_mode hk]
          exact hkept.trans (ih t hrest)
        · rw [hookDone_mode hk]
          exact hkept.trans (ih t hrest)

theorem settle_kept {s : State} (hs : s.modeHooks) (hq : s.tdu.haltReq = none) : Kept asideReg s (settle s) := by
  have hp := pumpHooks_kept 16 s hs
  unfold settle
  rw [haltSettle_none _ (hp.haltReq.trans hq)]
  exact hp

/-! ### Entering a mode (R80, R91) -/

theorem enterMode_units (m : Nat) (s : State) : Units asideReg (s.setMode m) (enterMode m s) := by
  unfold enterMode
  extract_lets old s1 shown s2
  have h1 : Units asideReg (s.setMode m) s1 := .of_reports (.traceMode _)
  have h2 : Units asideReg (s.setMode m) s2 := h1.trans (.ite (stopDecode_units s1) (.refl s1))
  refine h2.trans (.ite ((lightPathOff_units s2).trans (observePus_units _ _)) (.ite ?_ (.refl s2)))
  have h3 : Units asideReg s2 { s2 with ba := { s2.ba with first := true, limRun := 0, freeRun := 0 } } := .of_rf rfl rfl
  exact h3.trans ((lightPathOn_units _).trans (observePus_units _ _))

theorem setMode_regs (s : State) (m : Nat) {off : Nat} (h : off ≠ F.AO_MODE_MODE.off) : (s.setMode m).reg off = s.reg off :=
  (State.reg_setFld_ne _ F.AO_MODE_MODE m _ h).trans (s.reg_setFld_ne F.AO_MODE_LAST s.mode _ h)

theorem last_setMode (s : State) (m : Nat) : (s.setMode m).fld F.AO_MODE_LAST = s.mode := by
  refine (State.fld_setFld_other _ _ _ _ (by decide) (by decide)).trans ((State.fld_setFld _ _ _ (by decide)).trans ?_)
  exact Nat.mod_eq_of_lt (s.fld_lt F.AO_MODE_MODE)

theorem setMode_fld (s : State) (m : Nat) {f : FRef} (hw : f.lo + f.w ≤ 64) (hl : f.Apart F.AO_MODE_LAST) (hm : f.Apart F.AO_MODE_MODE) :
    (s.setMode m).fld f = s.fld f := by
  unfold State.setMode
  rw [State.fld_setFld_other _ _ _ _ hw hm, State.fld_setFld_other _ _ _ _ hw hl]

/-! ### The entry to Dark (R84) -/

/-- The wait of a MODE_SET and an entry to sleep are over. -/
def Ao.awaitsNothing (a : Ao) : Ao := { a with modeWait := none, sleep := .none, sleepCmd := none, saved := none, wakeHeld := false }

theorem endSleep_rest (s : State) : ∃ p x, endSleep s = { s with ao := s.ao.awaitsNothing, hpt := p, cmds := x } := by
  unfold endSleep
  split
  · dsimp only
    split
    · exact ⟨_, _, rfl⟩
    · exact ⟨_, _, rfl⟩
  · dsimp only
    split
    · exact ⟨_, _, rfl⟩
    · exact ⟨_, _, rfl⟩

theorem finishes_rest (st : Nat) (ps : List Byte) (l : List Cmd) (s : State) :
    ∃ p x, l.foldl (fun t c => finish c.id st ps t) s = { s with mpt0 := p, cmds := x } := by
  induction l generalizing s with
  | nil => exact ⟨_, _, rfl⟩
  | cons c l ih =>
    obtain ⟨p, x, h⟩ := ih (finish c.id st ps s)
    refine ⟨p, x, h.trans ?_⟩
    rw [finish_rest c.id st ps s]

theorem endModeSets_rest (s : State) :
    ∃ m p x, endModeSets s = { s with mpt0 := m, ao := s.ao.awaitsNothing, hpt := p, cmds := x } := by
  unfold endModeSets
  extract_lets hit
  obtain ⟨m, x, h⟩ := finishes_rest Status.fault (modeReply Mode.dark) ((s.cmds.list ++ s.cmds.after).filter hit) s
  obtain ⟨p, y, k⟩ := endSleep_rest { s with mpt0 := m, cmds := x }
  exact ⟨m, p, y, (congrArg endSleep h).trans k⟩

/-- The engine has entered Dark from `s` for `cause`. -/
structure Darkened (cause : Nat) (s t : State) : Prop where
  mode : t.mode = Mode.dark
  last : t.fld F.AO_MODE_LAST = s.mode
  cause : t.fld F.AO_MODE_DCAUSE = cause
  busy : t.flag F.AO_MODE_BUSY = false
  low : t.padsLow
  build : t.build = s.build
  ao : t.ao = { s.ao.awaitsNothing with waking := t.ao.waking, wakeHeld := t.ao.wakeHeld }
  haltReq : t.tdu.haltReq = s.tdu.haltReq
  frame : t.frame = s.frame
  regs : ∀ off, asideReg off → off ≠ F.AO_MODE_MODE.off → t.reg off = s.reg off

theorem Darkened.kept {cause : Nat} {s t u : State} (h : Darkened cause s t) (k : Kept asideReg t u) : Darkened cause s u where
  mode := k.ofAside.mode.trans h.mode
  last := (k.ofAside.aoFld (by decide) (by decide)).trans h.last
  cause := (k.ofAside.aoFld (by decide) (by decide)).trans h.cause
  busy := (k.ofAside.aoFlag (by decide) (by decide)).trans h.busy
  low := k.low h.low
  build := k.build.trans h.build
  ao := by
    have ha := k.ao
    rw [h.ao] at ha
    exact ha
  haltReq := k.haltReq.trans h.haltReq
  frame := k.frame.trans h.frame
  regs off ho hm := (k.regs off ho).trans (h.regs off ho hm)

/-- What comes before the pulse outputs are low at the entry to Dark. -/
def darkening (cause : Nat) (s : State) : State :=
  observePus (2 ^ 64 - 1) (puHoldAll (lanesQuiet (enterMode Mode.dark (endModeSets (s.setFld F.AO_MODE_DCAUSE cause)))))

theorem darkening_units (cause : Nat) (s : State) :
    Units asideReg ((endModeSets (s.setFld F.AO_MODE_DCAUSE cause)).setMode Mode.dark) (darkening cause s) :=
  (enterMode_units _ _).trans ((lanesQuiet_units _).trans ((puHoldAll_units _).trans (observePus_units _ _)))

theorem darkening_low (cause : Nat) (s : State) : (darkening cause s).padsLow := (observePus_units _ _).low (puHoldAll_low _)

theorem enterDark_eq {s : State} (h1 : Mode.rigging ≤ s.mode) (h2 : s.mode < Mode.dark) (cause : Nat) :
    enterDark cause s = modeDone (((darkening cause s).setFlag F.AO_MODE_BUSY false).assertWatch 6) :=
  if_neg (by simp only [Bool.or_eq_true, decide_eq_true_eq]; omega)

theorem queueHook_kept (k arg : Nat) (cmd : Option Nat) (s : State) : Kept asideReg s (queueHook k arg cmd s) :=
  ⟨rfl, rfl, rfl, rfl, rfl, id, fun _ _ => rfl⟩

theorem enterDark_darkened {s : State} (h1 : Mode.rigging ≤ s.mode) (h2 : s.mode < Mode.dark) {cause : Nat} (hc : cause < 256) :
    Darkened cause s (enterDark cause s) := by
  have hk := (darkening_units cause s).toKept
  have hlow := darkening_low cause s
  obtain ⟨m, p, x, he⟩ := endModeSets_rest (s.setFld F.AO_MODE_DCAUSE cause)
  rw [enterDark_eq h1 h2]
  refine .kept ?_ ((Units.of_reports (.assertWatch _ 6)).toKept.trans (queueHook_kept ..))
  generalize darkening cause s = u at hk hlow
  generalize endModeSets (s.setFld F.AO_MODE_DCAUSE cause) = e at hk he
  have hfld (f : FRef) : e.fld f = (s.setFld F.AO_MODE_DCAUSE cause).fld f := by rw [he]; rfl
  have hbusy (f : FRef) (hw : f.lo + f.w ≤ 64) (ha : f.Apart F.AO_MODE_BUSY) (ho : f.off < 0x20000 ∧ f.off ≠ 0x10020) :
      (u.setFlag F.AO_MODE_BUSY false).fld f = (e.setMode Mode.dark).fld f :=
    (State.fld_setFld_other _ _ _ _ hw ha).trans (hk.ofAside.aoFld ho.1 ho.2)
  refine ⟨?_, ?_, ?_, State.flag_setFlag _ _ _ (by decide) (by decide), hlow, ?_, ?_, ?_, ?_, fun off ho hm => ?_⟩
  · exact (hbusy _ (by decide) (by decide) (by decide)).trans (State.mode_setMode e (by decide))
  · refine (hbusy _ (by decide) (by decide) (by decide)).trans ((last_setMode _ _).trans ((hfld _).trans ?_))
    exact State.fld_setFld_other _ _ _ _ (by decide) (by decide)
  · refine (hbusy _ (by decide) (by decide) (by decide)).trans ((setMode_fld _ _ (by decide) (by decide) (by decide)).trans ((hfld _).trans ?_))
    exact (State.fld_setFld _ _ _ (by decide)).trans (Nat.mod_eq_of_lt hc)
  · exact hk.build.trans (by rw [he]; rfl)
  · exact hk.ao.trans (by rw [he]; rfl)
  · exact hk.haltReq.trans (by rw [he]; rfl)
  · exact hk.frame.trans (by rw [he]; rfl)
  · refine (State.reg_setFlag_ne _ F.AO_MODE_BUSY _ _ hm).trans ((hk.regs off ho).trans ((setMode_regs _ _ hm).trans ?_))
    have hr : e.reg off = (s.setFld F.AO_MODE_DCAUSE cause).reg off := by rw [he]; rfl
    exact hr.trans (State.reg_setFld_ne _ _ _ _ hm)

theorem enterDark_hooks {s : State} (h1 : Mode.rigging ≤ s.mode) (h2 : s.mode < Mode.dark) (cause : Nat) (hs : s.modeHooks) :
    (enterDark cause s).modeHooks := by
  have hk := (darkening_units cause s).cc
  obtain ⟨m, p, x, he⟩ := endModeSets_rest (s.setFld F.AO_MODE_DCAUSE cause)
  rw [he] at hk
  rw [enterDark_eq h1 h2]
  have hr := (Reports.assertWatch ((darkening cause s).setFlag F.AO_MODE_BUSY false) 6).cc.trans hk
  intro h hh
  change h ∈ (((darkening cause s).setFlag F.AO_MODE_BUSY false).assertWatch 6).cc.hooks ++ [_] at hh
  rw [hr] at hh
  rcases List.mem_append.mp hh with hold | hnew
  · exact hs h hold
  · rw [List.mem_singleton.mp hnew]

end Sys2Proof.Machine
end

section
/-!
PROOFS. Writes of the clock multipliers, a PNCLK that is not released, the loss and the return of REFCLK (R70, R71, R75, R77, R84, R588).
-/

namespace Sys2Proof.Machine

/-! ### A write of AO_CLKCFG (R69, R70) -/

def clkLockDesc : FDesc := ⟨32, 1, .rwl, .ao, anyEnc, fullMask⟩
def pnMulDesc : FDesc := ⟨16, 12, .rw, .ao, fun _i v => 0x100 ≤ v && v ≤ 0x400, fullMask⟩
def cclkMulDesc : FDesc := ⟨0, 6, .rwl, .ao, fun _i v => 8 ≤ v && v ≤ 0x20, fullMask⟩

/-- What a write of `data` to AO_CLKCFG makes of one field. -/
def clkMerge (s : State) (data : W64) (f : FDesc) (acc : W64) : W64 :=
  mergeFld (s.flag F.AO_CLKCFG_LOCK) 0 f (BitVec.allOnes 64) data (s.reg F.AO_CLKCFG_LOCK.off) acc

/-- The three fields of AO_CLKCFG are written one after the other. -/
theorem written_clkcfg (s : State) (w : Writer) (data : W64) : s.written w F.AO_CLKCFG_LOCK.off 0xFF data
    = clkMerge s data cclkMulDesc (clkMerge s data pnMulDesc (clkMerge s data clkLockDesc (s.reg F.AO_CLKCFG_LOCK.off))) := by
  have hmap : regAt F.AO_CLKCFG_LOCK.off
      = some (⟨0x010008, 0x8, 1, never, fun _ _ => 0x4000020, [clkLockDesc, pnMulDesc, cclkMulDesc]⟩, 0) := rfl
  have hpresent : absentReg s.build F.AO_CLKCFG_LOCK.off = false := by cases s.build <;> rfl
  have hmask : beMask 0xFF = BitVec.allOnes 64 := by decide
  simp only [State.written, hmap, hpresent, hmask, mayWrite, never, Bool.not_false, Bool.true_or, Bool.not_true, Bool.or_self,
    Bool.false_eq_true, if_false, List.foldl_cons, List.foldl_nil]
  rfl

section Merge
variable {f : FDesc} (s : State) {data acc : W64} (hw : f.lo + f.w ≤ 64) (hm : f.mask = fullMask) (ha : f.acc = .rw ∨ f.acc = .rwl)
include hw hm

theorem taken_all (data old : W64) : f.taken (BitVec.allOnes 64) data old = getBits data f.lo f.w := by
  have hd : (old &&& ~~~(BitVec.allOnes 64)) ||| (data &&& BitVec.allOnes 64) = data := by
    rw [BitVec.and_allOnes, BitVec.not_allOnes, BitVec.and_zero, BitVec.zero_or]
  unfold FDesc.taken
  rw [hd, hm]
  exact Nat.and_two_pow_sub_one_of_lt_two_pow (n := 64)
    (Nat.lt_of_lt_of_le (Nat.mod_lt _ (Nat.two_pow_pos _)) (Nat.pow_le_pow_right (by decide) (by omega)))

include ha

/-- A field that is written with the value it has stays. -/
theorem clkMerge_same (h : getBits data f.lo f.w = getBits acc f.lo f.w) : clkMerge s data f acc = acc := by
  unfold clkMerge
  rw [mergeFld_eq _ _ _ _ _ _ _ hw, taken_all hw hm, h, setBits_getBits_self]
  rcases ha with ha | ha
  · simp [ha]
  · simp [ha]

/-- A field takes an encoding that it has, when its lock is open. -/
theorem clkMerge_put (hen : getBits (BitVec.allOnes 64) f.lo f.w ≠ 0) : clkMerge s data f acc =
    if (f.acc = .rwl → s.flag F.AO_CLKCFG_LOCK = false) ∧ f.enc 0 (getBits data f.lo f.w) = true then
      setBits acc f.lo f.w (getBits data f.lo f.w) else acc := by
  unfold clkMerge
  rw [mergeFld_eq _ _ _ _ _ _ _ hw, if_neg hen, taken_all hw hm]
  rcases ha with ha | ha
  · simp [ha]
  · cases s.flag F.AO_CLKCFG_LOCK
    · simp [ha]
    · simp [ha]

end Merge

theorem written_cclkMul (s : State) (w : Writer) (v : Nat) :
    let old := s.reg F.AO_CLKCFG_LOCK.off
    s.written w F.AO_CLKCFG_LOCK.off 0xFF (setBits old 0 6 v)
      = if s.flag F.AO_CLKCFG_LOCK = false ∧ 8 ≤ v % 64 ∧ v % 64 ≤ 0x20 then setBits old 0 6 (v % 64) else old := by
  intro old
  have hput := clkMerge_put (f := cclkMulDesc) s (data := setBits old 0 6 v) (acc := old) (by decide) rfl (.inr rfl) (by decide)
  have hv : getBits (setBits old 0 6 v) cclkMulDesc.lo cclkMulDesc.w = v % 64 := getBits_setBits _ _ _ _ (by decide)
  rw [hv] at hput
  rw [written_clkcfg,
    clkMerge_same s (f := clkLockDesc) (by decide) rfl (.inr rfl) (getBits_setBits_other _ _ _ _ _ _ (by decide) (by decide)),
    clkMerge_same s (f := pnMulDesc) (by decide) rfl (.inl rfl) (getBits_setBits_other _ _ _ _ _ _ (by decide) (by decide))]
  refine hput.trans (if_congr ?_ rfl rfl)
  simp [cclkMulDesc]

theorem written_pnMul (s : State) (w : Writer) (v : Nat) :
    let old := s.reg F.AO_CLKCFG_LOCK.off
    s.written w F.AO_CLKCFG_LOCK.off 0xFF (setBits old 16 12 v)
      = if 0x100 ≤ v % 4096 ∧ v % 4096 ≤ 0x400 then setBits old 16 12 (v % 4096) else old := by
  intro old
  have hput := clkMerge_put (f := pnMulDesc) s (data := setBits old 16 12 v) (acc := old) (by decide) rfl (.inl rfl) (by decide)
  have hv : getBits (setBits old 16 12 v) pnMulDesc.lo pnMulDesc.w = v % 4096 := getBits_setBits _ _ _ _ (by decide)
  rw [hv] at hput
  have hother (x : W64) : getBits (setBits x 16 12 v) 0 6 = getBits x 0 6 := getBits_setBits_other _ _ _ _ _ _ (by decide) (by decide)
  rw [written_clkcfg,
    clkMerge_same s (f := clkLockDesc) (by decide) rfl (.inr rfl) (getBits_setBits_other _ _ _ _ _ _ (by decide) (by decide))]
  refine Eq.trans (clkMerge_same s (f := cclkMulDesc) (by decide) rfl (.inr rfl) ?_) (hput.trans (if_congr ?_ rfl rfl))
  · refine (hother old).trans ?_
    rw [hput]
    split
    · exact (getBits_setBits_other _ _ _ _ _ _ (by decide) (by decide)).symm
    · rfl
  · simp [pnMulDesc]

/-! ### The two multipliers (R70, R71) -/

theorem setBits_back (x : W64) (lo w v : Nat) : setBits (setBits x lo w v) lo w (getBits x lo w) = x := by
  refine BitVec.eq_of_getLsbD_eq fun i hi => ?_
  rw [setBits_getLsbD _ _ _ _ _ hi]
  split
  · rw [getBits_testBit, show lo + (i - lo) = i by omega, decide_eq_true (by omega), Bool.true_and]
  · rename_i hout
    rw [setBits_getLsbD _ _ _ _ _ hi, if_neg hout]

/-- AO_CLKCFG is written with `v` and a relock follows for each multiplier that changed. -/
def clkcfgPut (v : W64) (s : State) : State :=
  let old := s.reg F.AO_CLKCFG_LOCK.off
  let s1 := s.setReg F.AO_CLKCFG_LOCK.off v
  let s2 := if getBits v 0 6 = getBits old 0 6 then s1 else relockCc true s1
  if getBits v 16 12 = getBits old 16 12 then s2 else relockPn true s2

theorem clkcfgPut_old (s : State) :
    clkcfgPut (s.reg F.AO_CLKCFG_LOCK.off) s = s.setReg F.AO_CLKCFG_LOCK.off (s.reg F.AO_CLKCFG_LOCK.off) := by
  unfold clkcfgPut
  simp only [if_true]

/-- What a write of `data` leaves in AO_CLKCFG: each multiplier keeps its value in the modes that hold it. -/
def clkcfgWord (s : State) (w : Writer) (data : W64) : W64 :=
  let old := s.reg F.AO_CLKCFG_LOCK.off
  let v0 := s.written w F.AO_CLKCFG_LOCK.off 0xFF data
  let v1 := if s.mode = Mode.rigging || s.mode = Mode.standby then v0 else setBits v0 0 6 (getBits old 0 6)
  if showMode s.mode then setBits v1 16 12 (getBits old 16 12) else v1

theorem clkcfgWrite_eq (w : Writer) (data : W64) (s : State) : clkcfgWrite w 0xFF data s = clkcfgPut (clkcfgWord s w data) s := rfl

section Word
variable {s : State} (w : Writer) {v : Nat}

theorem clkcfgWord_cclk (hmode : s.mode = Mode.rigging ∨ s.mode = Mode.standby) (hlock : s.flag F.AO_CLKCFG_LOCK = false) (h8 : 8 ≤ v)
    (h32 : v ≤ 0x20) : clkcfgWord s w (setBits (s.reg F.AO_CLKCFG_LOCK.off) 0 6 v) = setBits (s.reg F.AO_CLKCFG_LOCK.off) 0 6 v := by
  have hv : v % 64 = v := Nat.mod_eq_of_lt (by omega)
  have hshow : showMode s.mode = false := by rcases hmode with h | h <;> rw [h] <;> rfl
  have hput := written_cclkMul s w v
  rw [hv] at hput
  unfold clkcfgWord
  rw [hshow]
  exact (if_neg Bool.false_ne_true).trans ((if_pos (by simpa using hmode)).trans (hput.trans (if_pos ⟨hlock, h8, h32⟩)))

theorem clkcfgWord_cclk_held (hmode : ¬ (s.mode = Mode.rigging ∨ s.mode = Mode.standby)) :
    clkcfgWord s w (setBits (s.reg F.AO_CLKCFG_LOCK.off) 0 6 v) = s.reg F.AO_CLKCFG_LOCK.off := by
  unfold clkcfgWord
  extract_lets old v0 v1
  have h1 : v1 = old := by
    refine (if_neg (by simpa using hmode)).trans ?_
    unfold v0
    rw [written_cclkMul]
    split
    · exact setBits_back ..
    · exact setBits_getBits_self ..
  rw [h1]
  split
  · exact setBits_getBits_self ..
  · rfl

theorem written_pnMul_cclk : getBits (s.written w F.AO_CLKCFG_LOCK.off 0xFF (setBits (s.reg F.AO_CLKCFG_LOCK.off) 16 12 v)) 0 6
    = getBits (s.reg F.AO_CLKCFG_LOCK.off) 0 6 := by
  rw [written_pnMul]
  split
  · exact getBits_setBits_other _ _ _ _ _ _ (by decide) (by decide)
  · rfl

theorem clkcfgWord_pn : clkcfgWord s w (setBits (s.reg F.AO_CLKCFG_LOCK.off) 16 12 v) =
    if showMode s.mode = false ∧ 0x100 ≤ v % 4096 ∧ v % 4096 ≤ 0x400 then setBits (s.reg F.AO_CLKCFG_LOCK.off) 16 12 (v % 4096)
    else s.reg F.AO_CLKCFG_LOCK.off := by
  unfold clkcfgWord
  extract_lets old v0 v1
  have h1 : v1 = v0 := by
    unfold v1
    split
    · rfl
    · rw [← written_pnMul_cclk w (v := v)]
      exact setBits_getBits_self ..
  have h0 : v0 = _ := written_pnMul s w v
  rw [h1, h0]
  cases showMode s.mode
  · simp
  · simp only [if_true, Bool.true_eq_false, false_and, if_false]
    split
    · exact setBits_back ..
    · exact setBits_getBits_self ..

end Word

/-! ### What a new multiplier starts (R71) -/

theorem clkcfgPut_cclk {s : State} {v : Nat} (h : v < 64) (hne : v ≠ s.fld F.AO_CLKCFG_CCLK_MUL) :
    clkcfgPut (setBits (s.reg F.AO_CLKCFG_LOCK.off) 0 6 v) s
      = relockCc true (s.setFld F.AO_CLKCFG_CCLK_MUL v) := by
  unfold clkcfgPut
  have hnew : getBits (setBits (s.reg F.AO_CLKCFG_LOCK.off) 0 6 v) 0 6 = v := (getBits_setBits _ _ _ _ (by decide)).trans (Nat.mod_eq_of_lt h)
  have hpn : getBits (setBits (s.reg F.AO_CLKCFG_LOCK.off) 0 6 v) 16 12 = getBits (s.reg F.AO_CLKCFG_LOCK.off) 16 12 :=
    getBits_setBits_other _ _ _ _ _ _ (by decide) (by decide)
  exact (if_pos hpn).trans (if_neg fun e => hne (hnew.symm.trans e))

theorem clkcfgPut_pn {s : State} {v : Nat} (h : v < 4096) (hne : v ≠ s.fld F.AO_CLKCFG_PN_MUL) :
    clkcfgPut (setBits (s.reg F.AO_CLKCFG_LOCK.off) 16 12 v) s
      = relockPn true (s.setFld F.AO_CLKCFG_PN_MUL v) := by
  unfold clkcfgPut
  have hnew : getBits (setBits (s.reg F.AO_CLKCFG_LOCK.off) 16 12 v) 16 12 = v :=
    (getBits_setBits _ _ _ _ (by decide)).trans (Nat.mod_eq_of_lt h)
  have hcc : getBits (setBits (s.reg F.AO_CLKCFG_LOCK.off) 16 12 v) 0 6 = getBits (s.reg F.AO_CLKCFG_LOCK.off) 0 6 :=
    getBits_setBits_other _ _ _ _ _ _ (by decide) (by decide)
  exact (if_neg fun e => hne (hnew.symm.trans e)).trans (congrArg (relockPn true) (if_pos hcc))

/-- A relock of PNCLK: the synthesiser's state, and what the units that PNCLK feeds leave alone. -/
theorem relockPn_kept (changed : Bool) (s : State) :
    (relockPn changed s).ao.pnclk = ⟨true, 0, false, changed || s.ao.pnclk.changed⟩
    ∧ (relockPn changed s).hb = s.hb ∧ (relockPn changed s).spm = s.spm ∧ (relockPn changed s).cc = s.cc
    ∧ (relockPn changed s).padsLow ∧ (∀ off, aoReg off → off ≠ F.AO_CLKST_PN_OK.off → (relockPn changed s).reg off = s.reg off) := by
  unfold relockPn
  extract_lets s0 s1
  have h0 : s0.ao = s.ao ∧ s0.hb = s.hb ∧ s0.spm = s.spm ∧ s0.cc = s.cc := by
    unfold s0
    split
    · exact ⟨rfl, rfl, rfl, rfl⟩
    · exact ⟨rfl, rfl, rfl, rfl⟩
  have h0r (off : Nat) (h : off ≠ F.AO_CLKST_PN_OK.off) : s0.reg off = s.reg off := by
    unfold s0
    split
    · rfl
    · exact State.reg_setFld_ne _ _ _ _ h
  clear_value s0
  obtain ⟨h0ao, h0hb, h0spm, h0cc⟩ := h0
  have hk := pnSafe_units { s1 with ao := { s1.ao with pnclk := ⟨true, 0, false, changed || s1.ao.pnclk.changed⟩ } }
  have hlow := ((lanesHush_units _).trans ((Units.of_reports (.tmrsLost 3 _)).trans (observePus_units (2 ^ 64 - 1) _))).low
    (puHoldAll_low { s1 with ao := { s1.ao with pnclk := ⟨true, 0, false, changed || s1.ao.pnclk.changed⟩ } })
  refine ⟨?_, ?_, ?_, ?_, hlow, fun off ho hne => ?_⟩
  · exact (hk.ofAside.clk .pnclk).trans (congrArg (fun (a : Ao) => ClkState.mk true 0 false (changed || a.pnclk.changed)) h0ao)
  · exact hk.hb.trans h0hb
  · exact hk.spm.trans h0spm
  · exact hk.cc.trans h0cc
  · have h1r : s1.reg off = s0.reg off :=
      (State.reg_setFlag_ne _ F.AO_CLKST_PN_SAFE _ _ hne).trans (State.reg_setFlag_ne _ F.AO_CLKST_PN_OK _ _ hne)
    exact (hk.regs off (.inl ho)).trans ((State.reg_congr s1 _ rfl rfl off).trans (h1r.trans (h0r off hne)))

/-! ### Faults of the clocks (R75, R77, R84) -/

theorem showMode_awake {m : Nat} (h : showMode m = true) : Mode.rigging ≤ m ∧ m < Mode.dark := by
  simp only [showMode, Bool.or_eq_true, beq_iff_eq] at h
  rcases h with (rfl | rfl) | rfl <;> decide

/-- A fault leads to Dark from the Show modes, and to nothing elsewhere. -/
structure Faulted (cause : Nat) (u t : State) : Prop where
  dark : showMode u.mode = true → t.mode = Mode.dark ∧ t.fld F.AO_MODE_LAST = u.mode ∧ t.fld F.AO_MODE_DCAUSE = cause ∧ t.padsLow
  stays : showMode u.mode = false → t.mode = u.mode
  pnclk : t.ao.pnclk = u.ao.pnclk
  refAbsent : t.ao.refAbsent = u.ao.refAbsent
  regs : ∀ off, asideReg off → off ≠ F.AO_MODE_MODE.off → t.reg off = u.reg off

theorem faulted {u : State} (hu : u.calm) {cause : Nat} (hc : cause < 256) : Faulted cause u (settle (darkIfShow cause u)) := by
  obtain ⟨hhooks, hq⟩ := hu
  unfold darkIfShow
  cases hm : showMode u.mode
  · rw [if_neg Bool.false_ne_true, settle_calm ⟨hhooks, hq⟩]
    exact ⟨fun h => absurd (hm.symm.trans h) Bool.false_ne_true, fun _ => rfl, rfl, rfl, fun _ _ _ => rfl⟩
  · obtain ⟨h1, h2⟩ := showMode_awake hm
    have hd := enterDark_darkened h1 h2 hc
    have hk := enterDark_hooks h1 h2 cause (s := u) fun h hh => by rw [hhooks] at hh; cases hh
    have hs := hd.kept (settle_kept hk (hd.haltReq.trans hq))
    rw [if_pos rfl]
    exact ⟨fun _ => ⟨hs.mode, hs.last, hs.cause, hs.low⟩, fun h => absurd (hm.symm.trans h) Bool.noConfusion,
      (congrArg Ao.pnclk hs.ao :), (congrArg Ao.refAbsent hs.ao :), hs.regs⟩

theorem pnclkTimeout_faulted {s : State} (hc : s.clocked = true) (hs : s.calm) (hr : s.ao.pnclk.relocking = true)
    (hl : s.ao.pnclk.late = false) :
    Runs .pnclkRelockTimeout s
      (Faulted Cause.pnfail ((s.setClk .pnclk { s.ao.pnclk with late := true }).setFlag F.AO_CLKST_PN_FAIL true)) := by
  refine .of_powered rfl (aoOn_of_clocked hc) ?_
  have heq : pnclkTimeout s = darkIfShow Cause.pnfail ((s.setClk .pnclk { s.ao.pnclk with late := true }).setFlag F.AO_CLKST_PN_FAIL true) :=
    if_neg (by simp [hc, hr, hl])
  rw [heq]
  exact faulted (by exact hs) (by decide)

/-- REFCLK is noted as absent: what the time synchronisation and the timers make of it. -/
def refLost (s : State) : State :=
  tsuRefLost (tmrsLost 1 { s.setFlag F.AO_CLKST_REF_LOST true with ao := { s.ao with refAbsent := true } })

/-- REFCLK's absence sets REF_LOST and clears SYNC. -/
structure RefLost (s u : State) : Prop where
  cc : u.cc = s.cc
  haltReq : u.tdu.haltReq = s.tdu.haltReq
  mode : u.mode = s.mode
  lost : u.flag F.AO_CLKST_REF_LOST = true
  absent : u.ao.refAbsent = true
  sync : u.flag F.TSU_STAT_SYNC = false

theorem setSync_units (b : Bool) (s : State) : Units aoReg s (s.setSync b) := by
  refine .ite (.refl s) (.trans (t := s.setFlag F.TSU_STAT_SYNC b) (.setReg s _ ?_) (Units.of_reports (.raise _ 100)).ofAside)
  unfold aoReg
  decide

theorem setSync_flag (b : Bool) (s : State) : (s.setSync b).flag F.TSU_STAT_SYNC = b := by
  unfold State.setSync
  split
  · assumption
  · exact (Units.of_reports (.raise _ 100)).flag (by unfold asideReg aoReg; decide) |>.trans (State.flag_setFlag _ _ _ (by decide) (by decide))

theorem tsuRefLost_units (s : State) : Units aoReg s (tsuRefLost s) :=
  .trans (t := { s with tsu := { s.tsu with good := 0 } }) ⟨⟨rfl, rfl, rfl, rfl, rfl, id, fun _ _ => rfl⟩, rfl, rfl, rfl, rfl, rfl⟩
    (setSync_units false _)

theorem refLost_shows (s : State) : RefLost s (refLost s) := by
  have hlost := State.flag_setFlag s F.AO_CLKST_REF_LOST true (by decide) (by decide)
  have hmode : (s.setFlag F.AO_CLKST_REF_LOST true).mode = s.mode := State.fld_setFld_other _ _ _ _ (by decide) (by decide)
  have hk := ((Units.of_reports (.tmrsLost 1 _)).ofAside).trans (tsuRefLost_units
    (tmrsLost 1 { s.setFlag F.AO_CLKST_REF_LOST true with ao := { s.ao with refAbsent := true } }))
  exact ⟨hk.cc, hk.haltReq, hk.mode.trans hmode, (hk.aoFlag (by decide) (by decide)).trans hlost, (congrArg Ao.refAbsent hk.ao :),
    setSync_flag _ _⟩

theorem refclkLost_faulted {s : State} (hc : s.clocked = true) (hs : s.calm) (hr : s.ao.refAbsent = false) :
    Runs .refclkLost s (Faulted Cause.reflost (refLost s)) := by
  refine .of_powered rfl (aoOn_of_clocked hc) ?_
  have h := refLost_shows s
  have heq : refclkLost s = darkIfShow Cause.reflost (refLost s) := by
    unfold refclkLost
    rw [if_neg (by simp [hc]), hr]
    rfl
  rw [heq]
  exact faulted (cause := Cause.reflost) (State.calm_of hs (congrArg CcSt.hooks h.cc) h.haltReq) (by decide)

/-! ### REFCLK returns (R588) -/

theorem refclkReturn_touches {s : State} (hc : s.clocked = true) (hr : s.ao.refAbsent = true) :
    Runs .refclkReturn s fun t => Touches [F.AO_CLKST_REF_LOST.off] { s with ao := { s.ao with refAbsent := false } } t
      ∧ t.flag F.AO_CLKST_REF_LOST = s.flag F.AO_CLKST_REF_LOST
      ∧ t.flag F.AO_CLKST_PN_SAFE = s.ao.pnclk.relocking ∧ t.flag F.AO_CLKST_CC_SAFE = s.ao.cclk.relocking := by
  refine .of_powered rfl (aoOn_of_clocked hc) ?_
  unfold refclkReturn
  rw [if_neg (by simp [hc, hr])]
  extract_lets _ s1 s2
  have h1 : Reports { s with ao := { s.ao with refAbsent := false } } s1 := .tmrsReturn 1 _
  have hao1 : s1.ao.pnclk = s.ao.pnclk ∧ s1.ao.cclk = s.ao.cclk := by rw [h1.rest]; exact ⟨rfl, rfl⟩
  have h2 : s2 = { s1 with rf := s2.rf } ∧ (∀ off, off ≠ F.AO_CLKST_REF_LOST.off → s2.reg off = s1.reg off)
      ∧ s2.flag F.AO_CLKST_REF_LOST = s1.flag F.AO_CLKST_REF_LOST := by
    unfold s2
    split
    · exact ⟨rfl, fun off h => State.reg_setFld_ne _ _ _ _ h, State.flag_setFld_other _ _ _ _ (by decide) (by decide)⟩
    · exact ⟨rfl, fun _ _ => rfl, rfl⟩
  obtain ⟨hrest, hregs, hlost⟩ := h2
  clear_value s2
  refine ⟨⟨?_, fun off ho hrep => ?_⟩, ?_, ?_, ?_⟩
  · have h1r := h1.rest
    rw [hrest, h1r]
    rfl
  · have hne : off ≠ F.AO_CLKST_REF_LOST.off := fun e => ho (List.mem_singleton.mpr e)
    refine (State.reg_setFlag_ne _ F.AO_CLKST_CC_SAFE _ _ hne).trans ((State.reg_setFlag_ne _ F.AO_CLKST_PN_SAFE _ _ hne).trans ?_)
    exact (hregs off hne).trans (h1.regs off hrep)
  · refine (State.flag_setFlag_other _ _ _ _ (by decide) (by decide)).trans ((State.flag_setFlag_other _ _ _ _ (by decide) (by decide)).trans ?_)
    exact hlost.trans (h1.flag _ rfl)
  · refine (State.flag_setFlag_other _ _ _ _ (by decide) (by decide)).trans ((State.flag_setFlag _ _ _ (by decide) (by decide)).trans ?_)
    rw [hrest]
    exact congrArg ClkState.relocking hao1.1
  · refine (State.flag_setFlag _ _ _ (by decide) (by decide)).trans ?_
    rw [hrest]
    exact congrArg ClkState.relocking hao1.2

/-! ### The obligation -/

/-- A write of the value that AO_CLKCFG has changes nothing. -/
theorem clkcfgPut_held (s : State) : (∀ off, (clkcfgPut (s.reg F.AO_CLKCFG_LOCK.off) s).reg off = s.reg off)
    ∧ (clkcfgPut (s.reg F.AO_CLKCFG_LOCK.off) s).ao = s.ao := by
  rw [clkcfgPut_old]
  refine ⟨fun off => ?_, rfl⟩
  rw [State.reg_setReg]
  split
  · rename_i h
    rw [h]
  · rfl

section Write
variable {s : State} (w : Writer) {v : Nat}

theorem cclkMulWrite_held (hc : s.cclkOn = true) (hmode : ¬ (s.mode = Mode.rigging ∨ s.mode = Mode.standby)) :
    Runs (.cclkMulWrite w v) s fun t => (∀ off, t.reg off = s.reg off) ∧ t.ao = s.ao := by
  refine .of_clocked rfl hc ?_
  rw [clkcfgWrite_eq, clkcfgWord_cclk_held w hmode]
  exact clkcfgPut_held s

theorem pnMulWrite_held (hc : s.cclkOn = true) (hmode : showMode s.mode = true) :
    Runs (.pnMulWrite w v) s fun t => (∀ off, t.reg off = s.reg off) ∧ t.ao = s.ao := by
  refine .of_clocked rfl hc ?_
  rw [clkcfgWrite_eq, clkcfgWord_pn, if_neg (by simp [hmode])]
  exact clkcfgPut_held s

theorem relockCc_regs (changed : Bool) (s : State) {off : Nat} (h : off ≠ F.AO_CLKST_CC_OK.off) :
    (relockCc changed s).reg off = s.reg off := by
  unfold relockCc
  extract_lets s1
  have h1 : s1.reg off = s.reg off :=
    (State.reg_setFlag_ne _ F.AO_CLKST_CC_SAFE _ _ h).trans (State.reg_setFlag_ne _ F.AO_CLKST_CC_OK _ _ h)
  exact (State.reg_congr s1 _ rfl rfl off).trans h1

theorem cclkMulWrite_relocks (hc : s.cclkOn = true) (hr : s.ao.refAbsent = false) (hmode : s.mode = Mode.rigging ∨ s.mode = Mode.standby)
    (hlock : s.flag F.AO_CLKCFG_LOCK = false) (h8 : 8 ≤ v) (h32 : v ≤ 0x20) (hne : v ≠ s.fld F.AO_CLKCFG_CCLK_MUL) :
    Runs (.cclkMulWrite w v) s fun t => t.fld F.AO_CLKCFG_CCLK_MUL = v ∧ t.fld F.AO_CLKCFG_PN_MUL = s.fld F.AO_CLKCFG_PN_MUL
      ∧ t.flag F.AO_CLKST_CC_OK = false ∧ t.flag F.AO_CLKST_CC_SAFE = true
      ∧ t = { s with rf := t.rf, ao := { s.ao with cclk := ⟨true, 0, false, true⟩ } } := by
  refine .of_clocked rfl hc ?_
  rw [clkcfgWrite_eq, clkcfgWord_cclk w hmode hlock h8 h32, clkcfgPut_cclk (by omega) hne]
  obtain ⟨hok, hsafe, -, -⟩ := relock_fallsBack (s := s.setFld F.AO_CLKCFG_CCLK_MUL v) hr .cclk true
  have hreg (f : FRef) (hf : f.off = F.AO_CLKCFG_LOCK.off) :
      (relockCc true (s.setFld F.AO_CLKCFG_CCLK_MUL v)).fld f = (s.setFld F.AO_CLKCFG_CCLK_MUL v).fld f := by
    unfold State.fld
    rw [relockCc_regs true _ (by rw [hf]; decide)]
  refine ⟨(hreg F.AO_CLKCFG_CCLK_MUL rfl).trans ?_,
    (hreg F.AO_CLKCFG_PN_MUL rfl).trans (State.fld_setFld_other _ _ _ _ (by decide) (by decide)), hok, hsafe, rfl⟩
  exact (State.fld_setFld _ _ _ (by decide)).trans (Nat.mod_eq_of_lt (b := 2 ^ 6) (by omega))

theorem pnMulWrite_relocks (hc : s.cclkOn = true) (hr : s.ao.refAbsent = false) (hmode : showMode s.mode = false)
    (h100 : 0x100 ≤ v) (h400 : v ≤ 0x400) (hne : v ≠ s.fld F.AO_CLKCFG_PN_MUL) :
    Runs (.pnMulWrite w v) s fun t => t.fld F.AO_CLKCFG_PN_MUL = v ∧ t.fld F.AO_CLKCFG_CCLK_MUL = s.fld F.AO_CLKCFG_CCLK_MUL
      ∧ t.flag F.AO_CLKST_PN_OK = false ∧ t.flag F.AO_CLKST_PN_SAFE = true ∧ t.ao.pnclk = ⟨true, 0, false, true⟩
      ∧ t.hb = s.hb ∧ t.spm = s.spm ∧ t.cc = s.cc ∧ t.padsLow := by
  have hv : v % 4096 = v := Nat.mod_eq_of_lt (by omega)
  refine .of_clocked rfl hc ?_
  rw [clkcfgWrite_eq, clkcfgWord_pn, if_pos ⟨hmode, by omega, by omega⟩, hv, clkcfgPut_pn (by omega) hne]
  obtain ⟨hok, hsafe, -, -⟩ := relock_fallsBack (s := s.setFld F.AO_CLKCFG_PN_MUL v) hr .pnclk true
  obtain ⟨hclk, hhb, hspm, hcc, hlow, hregs⟩ := relockPn_kept true (s.setFld F.AO_CLKCFG_PN_MUL v)
  have hreg (f : FRef) (hf : f.off = F.AO_CLKCFG_LOCK.off) :
      (relockPn true (s.setFld F.AO_CLKCFG_PN_MUL v)).fld f = (s.setFld F.AO_CLKCFG_PN_MUL v).fld f := by
    unfold State.fld
    rw [hregs f.off (by rw [hf]; unfold aoReg; decide) (by rw [hf]; decide)]
  refine ⟨(hreg F.AO_CLKCFG_PN_MUL rfl).trans ?_,
    (hreg F.AO_CLKCFG_CCLK_MUL rfl).trans (State.fld_setFld_other _ _ _ _ (by decide) (by decide)), hok, hsafe, hclk, hhb, hspm, hcc, hlow⟩
  exact (State.fld_setFld _ _ _ (by decide)).trans (Nat.mod_eq_of_lt (b := 2 ^ 12) (by omega))

end Write

/-- Settles O9: the multipliers by what a write of AO_CLKCFG leaves in it, the faults by the entry to Dark. -/
theorem clockMultipliersAndFaults : Obligations.ClockMultipliersAndFaults := by
  unfold Obligations.ClockMultipliersAndFaults
  refine ⟨fun s w v hc hr => ⟨cclkMulWrite_relocks w hc hr, cclkMulWrite_held w hc, pnMulWrite_relocks w hc hr, pnMulWrite_held w hc⟩,
    fun s hc hs => ⟨fun hre hl => ?_, fun hr => ?_, refclkReturn_touches hc⟩⟩
  · have hmode : ((s.setClk .pnclk { s.ao.pnclk with late := true }).setFlag F.AO_CLKST_PN_FAIL true).mode = s.mode :=
      State.fld_setFld_other _ _ _ _ (by decide) (by decide)
    refine (pnclkTimeout_faulted hc hs hre hl).mono fun t h => ⟨?_, h.pnclk, fun hm => ?_, fun hm => ?_⟩
    · refine Eq.trans ?_ (State.flag_setFlag (s.setClk .pnclk { s.ao.pnclk with late := true }) F.AO_CLKST_PN_FAIL true (by decide) (by decide))
      unfold State.flag State.fld
      rw [h.regs _ (by unfold asideReg aoReg; decide) (by decide)]
    · rw [← hmode] at hm ⊢
      exact h.dark hm
    · rw [← hmode] at hm ⊢
      exact h.stays hm
  · obtain ⟨-, -, hmode, hlost, habsent, hsync⟩ := refLost_shows s
    refine (refclkLost_faulted hc hs hr).mono fun t h => ?_
    have hflag (f : FRef) (hf : asideReg f.off) (hm : f.off ≠ F.AO_MODE_MODE.off) : t.flag f = (refLost s).flag f := by
      unfold State.flag State.fld
      rw [h.regs _ hf hm]
    refine ⟨(hflag _ (by unfold asideReg aoReg; decide) (by decide)).trans hlost, h.refAbsent.trans habsent,
      (hflag _ (by unfold asideReg aoReg; decide) (by decide)).trans hsync, ?_⟩
    rw [← hmode]
    exact ⟨h.dark, h.stays⟩

end Sys2Proof.Machine
end

section
/-!
PROOFS. A command in hand while other commands complete, and the end of a transition that completes its command (R81, R84, R228).
-/

namespace Sys2Proof.Machine

/-! ### A command stays in hand (R228, R245) -/

section Hand
variable {s t : State} {c : Cmd}

/-- Being in hand depends on the commands, the gateway's entries and the queues of replies alone. -/
theorem State.InHand.of_parts (h : s.InHand c) (hcmd : t.cmd? c.id = s.cmd? c.id) (hgw : t.broadcast? c.id = s.broadcast? c.id)
    (hans : t.answered c = s.answered c) : t.InHand c := ⟨hcmd.trans h.found, hgw.trans h.own, hans.trans h.unsent⟩

theorem State.InHand.of_cmds (h : s.InHand c) {b : Bool} (ht : t.cmds = { s.cmds with reportDue := b }) : t.InHand c := by
  refine h.of_parts ?_ ?_ ?_
  · unfold State.cmd?
    rw [ht]
  · unfold State.broadcast?
    rw [ht]
  · unfold State.answered State.cqw
    rw [ht]

theorem setCmd_inHand (h : s.InHand c) {d : Cmd} (hd : d.id ≠ c.id) : (s.setCmd d).InHand c := by
  refine h.of_parts ?_ rfl ?_
  · unfold State.cmd? State.setCmd
    rw [← List.map_append]
    exact State.find_replace_other _ d c.id hd.symm
  · have hafter : (s.setCmd d).cmds.after.any (fun e => e.id == c.id) = s.cmds.after.any fun e => e.id == c.id := by
      change (s.cmds.after.map _).any _ = _
      rw [List.any_map]
      congr 1
      funext e
      by_cases he : e.id = d.id
      · simp [he]
      · simp [he]
    unfold State.answered
    rw [hafter]
    rfl

/-- The commands that outlived their reply change only where they have another number. -/
theorem after_inHand (h : s.InHand c) {l a : List Cmd} (hfind : (l ++ a).find? (fun d => d.id == c.id) = s.cmd? c.id)
    (ha : ∀ d ∈ a, d.id ≠ c.id) : ({ s with cmds := { s.cmds with list := l, after := a } } : State).InHand c := by
  refine h.of_parts hfind rfl ?_
  have hnone (x : List Cmd) (hx : ∀ d ∈ x, d.id ≠ c.id) : x.any (fun d => d.id == c.id) = false :=
    List.any_eq_false.mpr fun d hd => by simpa using hx d hd
  have hold := hnone _ h.after_ne
  have hnew := hnone a ha
  unfold State.answered
  rw [hold]
  change (a.any (fun d => d.id == c.id) || _) = _
  rw [hnew]
  rfl

theorem dropAfter_inHand (h : s.InHand c) {id : Nat} (hd : id ≠ c.id) : (s.dropAfter id).InHand c := by
  refine after_inHand h ?_ fun d hm => h.after_ne d (List.mem_filter.mp hm).1
  unfold State.cmd?
  rw [List.find?_append, List.find?_append, State.find_filter_ne, if_neg hd.symm]

theorem dropCmd_inHand (h : s.InHand c) {id : Nat} (hd : id ≠ c.id) : (s.dropCmd id).InHand c := by
  have hdropped (d : Cmd) (hm : d ∈ s.cmds.list.filter fun d => d.id == id && d.works) : d.id ≠ c.id := by
    have he := (List.mem_filter.mp hm).2
    simp only [Bool.and_eq_true, beq_iff_eq] at he
    rw [he.1]
    exact hd
  refine after_inHand h ?_ fun d hm => (List.mem_append.mp hm).elim (h.after_ne d) (hdropped d)
  have hnone : (s.cmds.list.filter fun d => d.id == id && d.works).find? (fun d => d.id == c.id) = none :=
    List.find?_eq_none.mpr fun d hm => by simpa using hdropped d hm
  unfold State.cmd?
  rw [List.find?_append, List.find?_append, List.find?_append, State.find_filter_ne, if_neg hd.symm, hnone, Option.or_none]

theorem cqPush_inHand (h : s.InHand c) (k : Nat) {r : Reply} (hr : r.cmd ≠ c.id) : (cqPush k r s).InHand c := by
  have hw := cqPush_writes k r s
  refine h.of_parts (hw.cmd? _) ?_ ?_
  · unfold State.broadcast?
    rw [hw.rest]
    rfl
  · have hqueue (j : Nat) : ((cqPush k r s).cqw j).queue.any (fun q => q.cmd == c.id && q.final)
        = (s.cqw j).queue.any fun q => q.cmd == c.id && q.final := by
      by_cases hj : j = k
      · subst hj
        rw [hw.queue, State.cqw_setCqw, if_pos rfl, List.any_append, List.any_cons, beq_eq_false_iff_ne.mpr hr, Bool.false_and,
          Bool.false_or, List.any_nil, Bool.or_false]
      · rw [hw.rings j hj, State.cqw_setCqw, if_neg hj]
    have hafter : (cqPush k r s).cmds.after = s.cmds.after := by
      rw [hw.rest]
      rfl
    unfold State.answered
    rw [hafter]
    cases c.src with
    | ring j => exact congrArg _ (hqueue j)
    | cab _ => rfl

theorem noted_inHand (h : s.InHand c) (g : GwEntry) (cab st : Nat) :
    ({ s with cmds := { s.cmds with gw := s.cmds.gw.map fun e => if e = g then g.note cab st else e } } : State).InHand c := by
  refine h.of_parts rfl ?_ rfl
  refine Eq.trans (List.find?_eq_none.mpr fun e he => ?_) h.own.symm
  obtain ⟨e0, hm, rfl⟩ := List.mem_map.mp he
  have h0 := List.find?_eq_none.mp h.own e0 hm
  split
  · rename_i heq
    rw [heq] at h0
    have hnote : (g.note cab st).cmd = g.cmd ∧ (g.note cab st).target = g.target := by
      unfold GwEntry.note
      split
      · exact ⟨rfl, rfl⟩
      · exact ⟨rfl, rfl⟩
    rw [hnote.1, hnote.2]
    exact h0
  · exact h0

/-- A command stays in hand while another one completes. -/
theorem finish_inHand (h : s.InHand c) {id : Nat} (hd : id ≠ c.id) (st : Nat) (ps : List Byte) : (finish id st ps s).InHand c := by
  unfold finish
  split
  · exact h
  · rename_i d hfound
    have hid : d.id = id := by simpa using List.find?_some hfound
    have h1 : (s.setCmd { d with phase := .replying }).InHand c := setCmd_inHand h (hid ▸ hd)
    extract_lets s1
    split
    · exact noted_inHand h1 _ _ _
    · split
      · exact dropAfter_inHand h1 hd
      · unfold sendReply
        split
        · exact cqPush_inHand h1 _ (hid ▸ hd)
        · extract_lets hdr m s2
          have h2 : s2.InHand c := h1.of_parts rfl rfl rfl
          exact dropCmd_inHand h2 (hid ▸ hd)

theorem finishes_inHand (st : Nat) (ps : List Byte) (l : List Cmd) (hl : ∀ d ∈ l, d.id ≠ c.id) (h : s.InHand c) :
    (l.foldl (fun t d => finish d.id st ps t) s).InHand c := by
  induction l generalizing s with
  | nil => exact h
  | cons d l ih => exact ih (fun e he => hl e (List.mem_cons_of_mem _ he)) (finish_inHand h (hl d List.mem_cons_self) st ps)

/-- A queue in which the final reply to `id` becomes `b`, from the second reply on while the first is being written. -/
def recalledQueue (id : Nat) (b : List Byte) (w : CqWriter) : List Reply :=
  let other := fun (l : List Reply) => l.map fun r => if r.cmd = id ∧ r.final then { r with bytes := b } else r
  if w.left ≠ 0 ∨ w.filling then w.queue.take 1 ++ other (w.queue.drop 1) else other w.queue

/-- Replies that change their bytes are to the same commands, final as before. -/
theorem any_recalledQueue (id : Nat) (b : List Byte) (w : CqWriter) (n : Nat) :
    (recalledQueue id b w).any (fun r => r.cmd == n && r.final) = w.queue.any fun r => r.cmd == n && r.final := by
  have hother (l : List Reply) : (l.map fun r => if r.cmd = id ∧ r.final then { r with bytes := b } else r).any
      (fun r => r.cmd == n && r.final) = l.any fun r => r.cmd == n && r.final := by
    rw [List.any_map]
    congr 1
    funext r
    by_cases hr : r.cmd = id ∧ r.final = true
    · simp [hr]
    · simp [hr]
  unfold recalledQueue
  extract_lets other
  split
  · rw [List.any_append, hother, ← List.any_append, List.take_append_drop]
  · exact hother w.queue

theorem cqw_recallReply (id : Nat) (b : List Byte) (s : State) (k : Nat) :
    ((recallReply id b s).cqw k).queue = recalledQueue id b (s.cqw k) := by
  have hget (l : List (Nat × CqWriter)) :
      (SMap.get (fun _ => CqWriter.idle) (l.map fun p => (p.1, { p.2 with queue := recalledQueue id b p.2 })) k).queue
        = recalledQueue id b (SMap.get (fun _ => CqWriter.idle) l k) := by
    induction l with
    | nil => rfl
    | cons p l ih =>
      obtain ⟨j, w⟩ := p
      by_cases hj : j = k
      · subst hj
        simp [SMap.get]
      · simpa [SMap.get, hj] using ih
  exact hget s.cmds.cq

theorem recallReply_inHand (h : s.InHand c) (id : Nat) (b : List Byte) : (recallReply id b s).InHand c := by
  refine h.of_parts rfl rfl ?_
  unfold State.answered
  cases c.src with
  | ring k =>
    dsimp only
    rw [cqw_recallReply, any_recalledQueue]
    rfl
  | cab _ => rfl

theorem endSleep_cmds (s : State) :
    (endSleep s).cmds = s.cmds ∨ ∃ id b, (endSleep s).cmds = (recallReply id b s).cmds := by
  unfold endSleep
  extract_lets s0 _ s1
  have h1 : s1.cmds = s0.cmds := by
    unfold s1
    split
    · rfl
    · rfl
  have h0 : s0.cmds = s.cmds ∨ ∃ id b, s0.cmds = (recallReply id b s).cmds := by
    unfold s0
    split
    · exact .inr ⟨_, _, rfl⟩
    · exact .inl rfl
  rcases h0 with h | ⟨id, b, h⟩
  · exact .inl (h1.trans h)
  · exact .inr ⟨id, b, h1.trans h⟩

theorem endSleep_inHand (h : s.InHand c) : (endSleep s).InHand c := by
  rcases endSleep_cmds s with he | ⟨id, b, he⟩
  · exact h.of_cmds (b := s.cmds.reportDue) he
  · exact (recallReply_inHand h id b).of_cmds (b := (recallReply id b s).cmds.reportDue) he

/-- The MODE_SETs that the entry to Dark ends (R84). -/
def State.endsWithDark (s : State) (d : Cmd) : Bool :=
  d.opc == 1 && !s.remote d && d.phase != .replying && d.early.isNone && byteAt d.params 0 != Mode.dark

theorem endModeSets_inHand (h : s.InHand c) (hl : ∀ d ∈ s.cmds.list, s.endsWithDark d = true → d.id ≠ c.id) :
    (endModeSets s).InHand c := by
  refine endSleep_inHand (finishes_inHand _ _ _ (fun d hd => ?_) h)
  obtain ⟨hm, hit⟩ := List.mem_filter.mp hd
  exact (List.mem_append.mp hm).elim (fun hlist => hl d hlist hit) (h.after_ne d)

end Hand

end Sys2Proof.Machine
end

section
/-!
PROOFS. MODE_SET: its checks in their order, and what an accepted one does (R81 to R83, R86, R238).
-/

namespace Sys2Proof.Machine

/-! ### A transition that is over at once -/

/-- A transition's command has been answered from `u`, and firmware has taken up the MODE hook. -/
structure Ended (c : Cmd) (st : Nat) (ps : List Byte) (u t : State) : Prop where
  reply : t.holdsReply c st ps
  ao : t.ao = { u.ao with waking := t.ao.waking, wakeHeld := t.ao.wakeHeld }
  low : u.padsLow → t.padsLow
  regs : ∀ off, asideReg off → t.reg off = u.reg off

section Ended
variable {s t u : State} {c : Cmd} {st : Nat} {ps : List Byte}

/-- The fields of AO_MODE are as they were when the command was answered. -/
theorem Ended.modeFld (h : Ended c st ps u t) {f : FRef} (hf : f.off = F.AO_MODE_MODE.off) : t.fld f = u.fld f := by
  have haside : asideReg f.off := by
    rw [hf]
    unfold asideReg aoReg
    decide
  unfold State.fld
  rw [h.regs _ haside]

theorem Kept.holdsReply (k : Kept asideReg s t) (h : s.holdsReply c st ps) : t.holdsReply c st ps := by
  have hcab : t.cabId = s.cabId := by
    unfold State.cabId
    rw [k.fld (f := F.RING_ID_CABID) (by unfold asideReg aoReg; decide)]
  have hhead : replyHeader t = replyHeader s := by
    funext hdr st n
    exact replyHeader_congr hcab hdr st n
  have hcqw : t.cqw = s.cqw := funext fun j => State.cqw_of_cq (by rw [k.cmds]) j
  have htx : t.cmds.tx = s.cmds.tx := by rw [k.cmds]
  unfold State.holdsReply at h ⊢
  rw [hhead, hcqw, htx]
  exact h

theorem finish_settled (h : u.InHand c) (hm : u.modeHooks) (hq : u.tdu.haltReq = none) (st : Nat) (ps : List Byte) :
    Ended c st ps u (settle (finish c.id st ps u)) := by
  obtain ⟨hreply, hrest, -, -, -⟩ := finish_replied st ps h
  have hcc : (finish c.id st ps u).cc = u.cc := by rw [hrest]
  have hk := settle_kept (s := finish c.id st ps u) (by unfold State.modeHooks; rw [hcc]; exact hm) (by rw [hrest]; exact hq)
  have hao : (finish c.id st ps u).ao = u.ao := by rw [hrest]
  have hpus : (finish c.id st ps u).pus = u.pus := by rw [hrest]
  have hregs (off : Nat) : (finish c.id st ps u).reg off = u.reg off := State.reg_congr _ _ (by rw [hrest]) (by rw [hrest]) off
  exact ⟨hk.holdsReply hreply, hao ▸ hk.ao, hk.low ∘ State.padsLow_of_pus hpus, fun off ho => (hk.regs off ho).trans (hregs off)⟩

end Ended

/-- The state in which a transition to `m` has taken place; its command's reply is still to come. -/
def transited (m : Nat) (s : State) : State :=
  let s1 := if m = Mode.dark then enterDark 0 s else modeDone (enterMode m s)
  ({ s1 with ao := { s1.ao with modeWait := none } }).setFlag F.AO_MODE_BUSY false

/-- What a transition to `m` shows before its command is answered. -/
structure Transited (m : Nat) (s u : State) : Prop where
  mode : u.mode = m
  last : u.fld F.AO_MODE_LAST = s.mode
  busy : u.flag F.AO_MODE_BUSY = false
  wait : u.ao.modeWait = none
  hooks : u.modeHooks
  haltReq : u.tdu.haltReq = s.tdu.haltReq
  frame : u.frame = s.frame

section Effect
variable {s u : State} {c : Cmd} {m : Nat}

/-- BUSY falls and the wait is over. -/
theorem Transited.unbusy (hmode : u.mode = m) (hlast : u.fld F.AO_MODE_LAST = s.mode) (hhooks : u.modeHooks)
    (hq : u.tdu.haltReq = s.tdu.haltReq) (hf : u.frame = s.frame) :
    Transited m s (({ u with ao := { u.ao with modeWait := none } }).setFlag F.AO_MODE_BUSY false) :=
  ⟨(State.fld_setFld_other _ _ _ _ (by decide) (by decide)).trans hmode,
    (State.fld_setFld_other _ _ _ _ (by decide) (by decide)).trans hlast, State.flag_setFlag _ _ _ (by decide) (by decide), rfl, hhooks, hq, hf⟩

/-- The mode at the end of a transition is the one that its reply carries. -/
theorem modeSetEffect_eq (id m : Nat) (s : State) :
    modeSetEffect id m s = finish id Status.ok (modeReply (transited m s).mode) (transited m s) := by
  have hmode : (transited m s).mode = (if m = Mode.dark then enterDark 0 s else modeDone (enterMode m s)).mode :=
    State.fld_setFld_other _ _ _ _ (by decide) (by decide)
  rw [hmode]
  rfl

theorem transited_shows (hne : m ≠ Mode.dark) (hm : m < 16) (hs : s.cc.hooks = []) : Transited m s (transited m s) := by
  have hk := enterMode_units m s
  unfold transited
  rw [if_neg hne]
  refine .unbusy ?_ ?_ (fun h hh => ?_) hk.haltReq hk.frame
  · exact hk.ofAside.mode.trans (State.mode_setMode s hm)
  · exact (hk.ofAside.aoFld (by decide) (by decide)).trans (last_setMode s m)
  · change h ∈ (enterMode m s).cc.hooks ++ [_] at hh
    rw [hk.cc] at hh
    change h ∈ s.cc.hooks ++ [_] at hh
    rw [hs, List.nil_append, List.mem_singleton] at hh
    rw [hh]

theorem transited_inHand (hne : m ≠ Mode.dark) (h : s.InHand c) : (transited m s).InHand c := by
  have hk := (enterMode_units m s).cmds
  unfold transited
  rw [if_neg hne]
  exact h.of_cmds hk

theorem transited_dark (h1 : Mode.rigging ≤ s.mode) (h2 : s.mode < Mode.dark) (hs : s.cc.hooks = []) :
    Transited Mode.dark s (transited Mode.dark s) ∧ (transited Mode.dark s).fld F.AO_MODE_DCAUSE = 0 ∧ (transited Mode.dark s).padsLow := by
  have hd := enterDark_darkened h1 h2 (cause := 0) (by decide)
  have hhooks := enterDark_hooks h1 h2 0 (s := s) fun h hh => by rw [hs] at hh; cases hh
  unfold transited
  rw [if_pos rfl]
  exact ⟨.unbusy hd.mode hd.last hhooks hd.haltReq hd.frame,
    (State.fld_setFld_other _ _ _ _ (by decide) (by decide)).trans hd.cause, hd.low⟩

theorem transited_dark_inHand (h1 : Mode.rigging ≤ s.mode) (h2 : s.mode < Mode.dark) (h : s.InHand c)
    (hl : ∀ d ∈ s.cmds.list, (s.setFld F.AO_MODE_DCAUSE 0).endsWithDark d = true → d.id ≠ c.id) :
    (transited Mode.dark s).InHand c := by
  have h0 : (s.setFld F.AO_MODE_DCAUSE 0).InHand c := h.of_parts rfl rfl rfl
  have hk := (darkening_units 0 s).cmds
  have hr := (Units.of_reports (Reports.assertWatch ((darkening 0 s).setFlag F.AO_MODE_BUSY false) 6)).cmds
  have hcmds : (transited Mode.dark s).cmds = (((darkening 0 s).setFlag F.AO_MODE_BUSY false).assertWatch 6).cmds := by
    unfold transited
    rw [if_pos rfl, enterDark_eq h1 h2]
    rfl
  have hu : ((darkening 0 s).setFlag F.AO_MODE_BUSY false).InHand c := (endModeSets_inHand h0 hl).of_cmds hk
  exact (hu.of_cmds hr).of_cmds (b := (((darkening 0 s).setFlag F.AO_MODE_BUSY false).assertWatch 6).cmds.reportDue) hcmds

end Effect

/-! ### What MODE_SET does (R82) -/

/-- What an accepted MODE_SET to `t` does. -/
def modeSetAccepted (c : Cmd) (t : Nat) (s : State) : State :=
  if t = Mode.furled || t = Mode.watch then
    (({ s with ao := { s.ao with sleepCmd := some c.id, sleepTo := t } }).setFlag F.AO_MODE_BUSY true).running c.id
  else if t = Mode.display then modeSetWait c.id t (max (c.frame + 3) (s.frame + 2)) s
  else if t ≠ Mode.dark && (s.mode = Mode.display || s.mode = Mode.halfMast) && s.hoists then modeSetWait c.id t (s.frame + 1) s
  else if s.mode = Mode.test && t = Mode.standby && (!s.tdu.loops.isEmpty || s.tdu.selftest.isSome) then modeSetWait c.id t 0 s
  else modeSetEffect c.id t s

/-- MODE_SET to `t` once its parameters are in order. -/
def modeSetChecked (c : Cmd) (t : Nat) (s : State) : State :=
  if s.flag F.AO_MODE_BUSY then finish c.id Status.busy [] s
  else if t = Mode.halfMast || !(modeTargets s.mode).contains t then finish c.id Status.badParam [] s
  else if s.mode = Mode.halfMast && t = Mode.display then finish c.id Status.ok (modeReply s.mode) s
  else if s.modeDenied t then finish c.id Status.denied [] s
  else modeSetAccepted c t s

/-- MODE_SET of a command that is due. -/
def modeSetBody (c : Cmd) (s : State) : State :=
  if c.params.length ≠ 8 || !zeroAt c.params 1 7 || 0xB < byteAt c.params 0 then finish c.id Status.badParam [] s
  else modeSetChecked c (byteAt c.params 0) s

theorem mode_param : ∀ m < 12, (leBytes 8 m).length = 8 ∧ byteAt (leBytes 8 m) 0 = m ∧ zeroAt (leBytes 8 m) 1 7 = true := by decide

section ModeSet
variable {s : State} {c : Cmd} {m : Nat} (h : s.Due c 0x0001) (hs : s.calm)
include h

theorem modeSet_runs {P : State → Prop} (hp : P (settle (modeSetBody c s))) : Runs (.modeSet c.id) s P := by
  have hclk : s.cclkOn = true := State.live_clocked h.live
  refine .of_clocked (t := settle (modeSet c.id s)) rfl hclk ?_
  have heq : modeSet c.id s = modeSetBody c s := withStarted_due h _
  rw [heq]
  exact hp

include hs

theorem modeSet_answers {st : Nat} {ps : List Byte} (he : modeSetBody c s = finish c.id st ps s) :
    Answers (.modeSet c.id) s c st ps s := by
  have hr := finish_replied st ps h.toInHand
  refine modeSet_runs h ?_
  rw [he, settle_calm (hr.calm hs)]
  exact hr

/-- The command takes up work that ends later. -/
theorem modeSet_takesUp {u : State} (he : modeSetBody c s = u.running c.id) (hcmds : u.cmds = s.cmds) (hcc : u.cc = s.cc)
    (htdu : u.tdu = s.tdu) {P : State → Prop}
    (hp : (u.setCmd { c with phase := .running }).cmd? c.id = some { c with phase := .running } → P (u.setCmd { c with phase := .running })) :
    Runs (.modeSet c.id) s P := by
  refine modeSet_runs h ?_
  have hfound : u.cmd? c.id = some c := by
    unfold State.cmd?
    rw [hcmds]
    exact h.found
  have hrun : u.running c.id = u.setCmd { c with phase := .running } := by
    unfold State.running
    rw [hfound]
  have hcalm : (u.setCmd { c with phase := .running }).calm :=
    State.calm_of hs (congrArg CcSt.hooks hcc) (congrArg TduSt.haltReq htdu)
  rw [he, hrun, settle_calm hcalm]
  exact hp ((State.cmd?_setCmd u { c with phase := .running } c.id (Option.isSome_iff_exists.mpr ⟨c, hfound⟩)).trans (if_pos rfl))

theorem modeSet_waits {n : Nat} (he : modeSetBody c s = modeSetWait c.id m n s) : Runs (.modeSet c.id) s fun t =>
    t.ao = { s.ao with modeWait := some ⟨c.id, m, n⟩ } ∧ t.flag F.AO_MODE_BUSY = true ∧ t.mode = s.mode
      ∧ t.cmd? c.id = some { c with phase := .running } ∧ t.hb = s.hb ∧ t.spm = s.spm := by
  have hbusy := State.flag_setFlag { s with ao := { s.ao with modeWait := some ⟨c.id, m, n⟩ } } F.AO_MODE_BUSY true (by decide) (by decide)
  have hmode := State.fld_setFld_other { s with ao := { s.ao with modeWait := some ⟨c.id, m, n⟩ } } F.AO_MODE_BUSY F.AO_MODE_MODE (b2n true)
    (by decide) (by decide)
  exact modeSet_takesUp h hs he rfl rfl rfl fun hfound => ⟨rfl, hbusy, hmode, hfound, rfl, rfl⟩

end ModeSet

section Params
variable {s : State} {c : Cmd} {m : Nat}

theorem modeSetBody_malformed (h : c.params.length ≠ 8 ∨ zeroAt c.params 1 7 = false ∨ 0xB < byteAt c.params 0) :
    modeSetBody c s = finish c.id Status.badParam [] s :=
  if_pos (by simpa [or_assoc] using h)

theorem modeSetBody_wellFormed (hm : m ≤ 0xB) (hp : c.params = leBytes 8 m) : modeSetBody c s = modeSetChecked c m s := by
  obtain ⟨hlen, hbyte, hzero⟩ := mode_param m (by omega)
  unfold modeSetBody
  rw [hp, hlen, hbyte, hzero]
  exact if_neg (by simpa using hm)

theorem modeSetChecked_busy (hb : s.flag F.AO_MODE_BUSY = true) : modeSetChecked c m s = finish c.id Status.busy [] s := if_pos hb

theorem modeSetChecked_idle (hb : s.flag F.AO_MODE_BUSY = false) : modeSetChecked c m s =
    if m ≠ Mode.halfMast ∧ (modeTargets s.mode).contains m = true then
      if s.mode = Mode.halfMast ∧ m = Mode.display then finish c.id Status.ok (modeReply s.mode) s
      else if s.modeDenied m = true then finish c.id Status.denied [] s
      else modeSetAccepted c m s
    else finish c.id Status.badParam [] s := by
  unfold modeSetChecked
  rw [hb, if_neg Bool.false_ne_true]
  by_cases ha : m ≠ Mode.halfMast ∧ (modeTargets s.mode).contains m = true
  · rw [if_pos ha, if_neg (by simpa using ha)]
    exact if_congr (by simp) rfl rfl
  · rw [if_neg ha, if_pos (by simpa [Classical.or_iff_not_imp_left] using ha)]

end Params


/-! ### The accepted MODE_SET (R81, R83, R86) -/

section Accepted
variable {s : State} {c : Cmd} {m : Nat}

/-- MODE_SET to Dark is accepted only where Dark can be entered. -/
theorem dark_target : ∀ m < 16, (modeTargets m).contains Mode.dark = true → Mode.rigging ≤ m ∧ m < Mode.dark := by decide

theorem modeSetAccepted_sleep (ht : m = Mode.furled ∨ m = Mode.watch) : modeSetAccepted c m s =
    (({ s with ao := { s.ao with sleepCmd := some c.id, sleepTo := m } }).setFlag F.AO_MODE_BUSY true).running c.id :=
  if_pos (by simpa using ht)

theorem modeSetAccepted_display : modeSetAccepted c Mode.display s = modeSetWait c.id Mode.display (max (c.frame + 3) (s.frame + 2)) s :=
  rfl

/-- The modes that are left for at the next hoist. -/
theorem modeSetAccepted_leave (ht : m = Mode.standby ∨ m = Mode.relay ∨ m = Mode.calibrate)
    (hmode : s.mode = Mode.display ∨ s.mode = Mode.halfMast) (hh : s.hoists = true) :
    modeSetAccepted c m s = modeSetWait c.id m (s.frame + 1) s := by
  unfold modeSetAccepted
  rcases ht with rfl | rfl | rfl <;> simp [hmode, hh]

theorem modeSetAccepted_direct (ht : m = Mode.standby ∨ m = Mode.relay ∨ m = Mode.calibrate ∨ m = Mode.test ∨ m = Mode.dark)
    (hdis : m = Mode.dark ∨ s.mode ≠ Mode.display ∧ s.mode ≠ Mode.halfMast ∧ s.mode ≠ Mode.test) :
    modeSetAccepted c m s = modeSetEffect c.id m s := by
  unfold modeSetAccepted
  rcases hdis with rfl | ⟨h1, h2, h3⟩
  · simp
  · rcases ht with rfl | rfl | rfl | rfl | rfl <;> simp [h1, h2, h3]

variable (h : s.Due c 0x0001) (hs : s.calm)
include h hs

theorem modeSet_transits (he : modeSetBody c s = modeSetEffect c.id m s) (hne : m ≠ Mode.dark) (hm : m < 16) :
    Runs (.modeSet c.id) s fun t => t.mode = m ∧ t.fld F.AO_MODE_LAST = s.mode ∧ t.flag F.AO_MODE_BUSY = false ∧ t.ao.modeWait = none
      ∧ t.holdsReply c Status.ok (modeReply m) := by
  obtain ⟨hmode, hlast, hbusy, hwait, hhooks, hq, -⟩ := transited_shows (s := s) hne hm hs.1
  have hend := finish_settled (transited_inHand hne h.toInHand) hhooks (hq.trans hs.2) Status.ok (modeReply m)
  refine modeSet_runs h ?_
  rw [he, modeSetEffect_eq, hmode]
  exact ⟨(hend.modeFld rfl).trans hmode, (hend.modeFld (f := F.AO_MODE_LAST) rfl).trans hlast,
    (congrArg (· != 0) (hend.modeFld (f := F.AO_MODE_BUSY) rfl)).trans hbusy, (congrArg Ao.modeWait hend.ao :).trans hwait, hend.reply⟩

theorem modeSet_darkens (he : modeSetBody c s = modeSetEffect c.id Mode.dark s) (h1 : Mode.rigging ≤ s.mode) (h2 : s.mode < Mode.dark)
    (hl : ∀ d ∈ s.cmds.list, d.opc = 1 → byteAt d.params 0 = Mode.dark) :
    Runs (.modeSet c.id) s fun t => t.mode = Mode.dark ∧ t.fld F.AO_MODE_DCAUSE = 0 ∧ t.holdsReply c Status.ok (modeReply Mode.dark)
      ∧ t.padsLow := by
  obtain ⟨⟨hmode, -, -, -, hhooks, hq, -⟩, hcause, hlow⟩ := transited_dark h1 h2 hs.1
  have hends (d : Cmd) (hd : d ∈ s.cmds.list) (hit : (s.setFld F.AO_MODE_DCAUSE 0).endsWithDark d = true) : d.id ≠ c.id := by
    simp only [State.endsWithDark, Bool.and_eq_true, beq_iff_eq, bne_iff_ne] at hit
    exact absurd (hl d hd hit.1.1.1.1) hit.2
  have hend := finish_settled (transited_dark_inHand h1 h2 h.toInHand hends) hhooks (hq.trans hs.2) Status.ok (modeReply Mode.dark)
  refine modeSet_runs h ?_
  rw [he, modeSetEffect_eq, hmode]
  exact ⟨(hend.modeFld rfl).trans hmode, (hend.modeFld (f := F.AO_MODE_DCAUSE) rfl).trans hcause, hend.reply, hend.low hlow⟩

end Accepted

end Sys2Proof.Machine

namespace Sys2Proof.Machine.Commands

/-- Settles O10, by the checks in their order and the transition that an accepted command asks for. -/
theorem modeSet : Obligations.ModeSet := by
  unfold Obligations.ModeSet
  intro s c m h hs answers busy allowed waits
  refine ⟨fun hbad => modeSet_answers h hs (modeSetBody_malformed hbad), fun hm hp => ?_⟩
  have hbody := modeSetBody_wellFormed (s := s) hm hp
  refine ⟨fun hb => modeSet_answers h hs (hbody.trans (modeSetChecked_busy hb)),
    fun hb ha => modeSet_answers h hs (hbody.trans ((modeSetChecked_idle hb).trans (if_neg ha))), fun hb hmode ht => ?_,
    fun hb ha hhm => ?_⟩
  · have hallowed : m ≠ Mode.halfMast ∧ (modeTargets s.mode).contains m = true := by
      rw [hmode, ht]
      decide
    exact hmode ▸ modeSet_answers h hs (hbody.trans ((modeSetChecked_idle hb).trans ((if_pos hallowed).trans (if_pos ⟨hmode, ht⟩))))
  have hallowed : modeSetBody c s = if s.modeDenied m = true then finish c.id Status.denied [] s else modeSetAccepted c m s :=
    hbody.trans ((modeSetChecked_idle hb).trans ((if_pos ha).trans (if_neg hhm)))
  refine ⟨fun hd => modeSet_answers h hs (hallowed.trans (if_pos hd)), fun hd => ?_⟩
  have haccepted : modeSetBody c s = modeSetAccepted c m s := hallowed.trans (if_neg (by rw [hd]; exact Bool.false_ne_true))
  refine ⟨fun ht => ?_, fun ht => ?_, fun ht hmode hh => ?_, fun ht h1 h2 h3 => ?_, fun ht hl => ?_⟩
  · have hbusy := State.flag_setFlag { s with ao := { s.ao with sleepCmd := some c.id, sleepTo := m } } F.AO_MODE_BUSY true
      (by decide) (by decide)
    have hmode := State.fld_setFld_other { s with ao := { s.ao with sleepCmd := some c.id, sleepTo := m } } F.AO_MODE_BUSY F.AO_MODE_MODE
      (b2n true) (by decide) (by decide)
    exact modeSet_takesUp h hs (haccepted.trans (modeSetAccepted_sleep ht)) rfl rfl rfl fun hfound => ⟨rfl, hbusy, hmode, hfound⟩
  · subst ht
    exact modeSet_waits h hs (haccepted.trans modeSetAccepted_display)
  · exact modeSet_waits h hs (haccepted.trans (modeSetAccepted_leave ht hmode hh))
  · have hne : m ≠ Mode.dark := by rcases ht with rfl | rfl | rfl | rfl <;> decide
    have hdirect := modeSetAccepted_direct (c := c) (by tauto) (.inr ⟨h1, h2, h3⟩)
    exact modeSet_transits h hs (haccepted.trans hdirect) hne (by omega)
  · subst ht
    obtain ⟨h1, h2⟩ := dark_target s.mode (s.fld_lt F.AO_MODE_MODE) ha.2
    refine modeSet_darkens h hs (haccepted.trans (modeSetAccepted_direct (.inr (.inr (.inr (.inr rfl)))) (.inl rfl))) h1 h2 fun d hd ho => ?_
    rw [hl d hd ho, hp]
    rfl

end Sys2Proof.Machine.Commands
end

section
/-!
PROOFS. A hoist at which the engine becomes grandmaster while a schedule waits for it (R81, R518, R527).
-/

namespace Sys2Proof.Machine

/-! ### Works of a hoist that leave the frame (R520) -/

/-- The frame and the commands that wait for a hoist stand, no Halt is asked for, and at most MODE hooks are added. -/
structure Paced (s t : State) : Prop where
  frame : t.frame = s.frame
  atHoist : t.cmds.atHoist = s.cmds.atHoist
  haltReq : t.tdu.haltReq = s.tdu.haltReq
  hooks : s.modeHooks → t.modeHooks

section Paced
variable {s t u : State}

theorem Paced.refl (s : State) : Paced s s := ⟨rfl, rfl, rfl, id⟩

theorem Paced.trans (h : Paced s t) (k : Paced t u) : Paced s u :=
  ⟨k.frame.trans h.frame, k.atHoist.trans h.atHoist, k.haltReq.trans h.haltReq, k.hooks ∘ h.hooks⟩

theorem State.modeHooks_of_cc (h : t.cc = s.cc) (hs : s.modeHooks) : t.modeHooks := by
  unfold State.modeHooks
  rw [h]
  exact hs

theorem Paced.of_steady (h : Steady s t) : Paced s t := ⟨h.frame, h.atHoist, by rw [h.tdu], State.modeHooks_of_cc h.cc⟩

theorem Paced.of_units {R : Nat → Prop} (h : Units R s t) : Paced s t :=
  ⟨h.frame, by rw [h.cmds], h.haltReq, State.modeHooks_of_cc h.cc⟩

theorem Paced.finish (id st : Nat) (ps : List Byte) (s : State) : Paced s (finish id st ps s) := by
  rw [finish_rest]
  exact ⟨rfl, rfl, rfl, fun h => h⟩

theorem Paced.modeDone (s : State) : Paced s (modeDone s) := by
  refine ⟨rfl, rfl, rfl, fun hs h hh => ?_⟩
  rcases List.mem_append.mp hh with hold | hnew
  · exact hs h hold
  · rw [List.mem_singleton.mp hnew]

theorem Paced.enterMode (m : Nat) (s : State) : Paced s (enterMode m s) :=
  .trans (t := s.setMode m) ⟨rfl, rfl, rfl, id⟩ (.of_units (enterMode_units m s))

theorem Paced.transited {m : Nat} (hne : m ≠ Mode.dark) (s : State) : Paced s (transited m s) := by
  have hdone : Paced s (Machine.modeDone (Machine.enterMode m s)) := .trans (.enterMode ..) (.modeDone _)
  unfold Machine.transited
  rw [if_neg hne]
  exact ⟨hdone.frame, hdone.atHoist, hdone.haltReq, hdone.hooks⟩

theorem Paced.modeAtHoist {w : ModeWait} (hw : s.ao.modeWait = some w) (hne : w.target ≠ Mode.dark) (n : Nat) :
    Paced s (modeAtHoist n s) := by
  have heffect : Paced s (modeSetEffect w.cmd w.target s) := by
    rw [modeSetEffect_eq]
    exact .trans (.transited hne s) (.finish ..)
  unfold Machine.modeAtHoist State.modeDue
  rw [hw]
  dsimp only
  split
  · rename_i x hx
    split at hx
    · rw [← Option.some.inj hx]
      exact heffect
    · exact absurd hx (by simp)
  · exact .refl s

theorem Paced.halfMastChange (m : Nat) (s : State) : Paced s (halfMastChange m s) :=
  .trans (.trans (.enterMode m s) (.of_units (Units.of_reports (.raise _ 83)))) (.modeDone _)

theorem Paced.halfMastAtHoist (s : State) : Paced s (halfMastAtHoist s) := by
  unfold Machine.halfMastAtHoist
  extract_lets due b s1
  have h1 : Paced s s1 := ⟨rfl, rfl, rfl, id⟩
  split
  · exact h1.trans (.halfMastChange ..)
  · split
    · exact h1.trans (.halfMastChange ..)
    · exact h1

/-- With no command waiting for the hoist, what follows the RING_CFGs leaves the frame. -/
theorem hoistWork_paced {w : ModeWait} (n : Nat) (s : State) (hw : (ringCfgAtHoist (seqEvent 49 (seqEvent 48 s))).ao.modeWait = some w)
    (hne : w.target ≠ Mode.dark) (ha : (ringCfgAtHoist (seqEvent 49 (seqEvent 48 s))).cmds.atHoist = []) :
    Paced (ringCfgAtHoist (seqEvent 49 (seqEvent 48 s))) (hoistWork n s) := by
  unfold hoistWork
  generalize ringCfgAtHoist (seqEvent 49 (seqEvent 48 s)) = v at *
  have hl : Steady v (lightPathHoist (budgetHoist n v)) := (budgetHoist_steady n v).trans (lightPathHoist_steady _)
  have hm : Paced v (tenantsOpened (halfMastAtHoist (modeAtHoist n (lightPathHoist (budgetHoist n v))))) :=
    .trans (.of_steady hl) (.trans (.modeAtHoist (by rw [hl.ao]; exact hw) hne n) (.trans (.halfMastAtHoist _)
      (.of_steady (tenantsOpened_steady _))))
  have hc := commandsAtHoist_none (hm.atHoist.trans ha)
  dsimp only
  rw [hc]
  exact hm.trans (.of_steady (.trans (.foldl _ (fun t k _ => puCfgEffect_steady k true t) _) (openFrame_steady _ _)))

end Paced

/-! ### A grandmaster takes the schedule that waits for it (R518, R527) -/

theorem firstSched_frame {s : State} (hc : s.cclkOn = true) (c : Sched) : (firstSched c s).frame = c.frameAt s.tsu.now := by
  have hf := putSched_inForce hc c
  unfold firstSched
  extract_lets s1 cur governs tsu2 s2
  have htsu : s1.tsu = { s.tsu with n0 := c.n0, suml := c.suml } := hf.tsu
  have hcur : cur = c.frameAt s.tsu.now := by
    unfold cur
    rw [htsu]
  split
  · exact (Steady.raise s2 102).frame.trans hcur
  · exact hcur

theorem holdTime_frame {s : State} (hc : s.cclkOn = true) (x : Tsu) {c : Sched} (hw : x.waiting = some c) :
    (holdTime { s with tsu := x }).frame = c.frameAt x.now := by
  unfold holdTime
  extract_lets tsu1 s1
  have hw1 : s1.tsu.waiting = some c := hw
  rw [hw1]
  exact firstSched_frame (s := { s with tsu := { s1.tsu with waiting := none } }) hc _

theorem setGm_frame (id : Nat) (s : State) : (setGm id s).frame = s.frame := by
  unfold setGm
  split
  · rfl
  · exact (Steady.raise _ 101).frame

theorem becomeGm_frame {s : State} (hc : s.cclkOn = true) {c : Sched} (hw : s.tsu.waiting = some c) (acting : Bool) :
    (becomeGm acting s).frame = c.frameAt s.tsu.now := by
  have hc1 : (s.gmFlags acting).cclkOn = true := ((s.gmFlags_writes acting).cclkOn (by decide)).trans hc
  have htsu : (s.gmFlags acting).tsu = s.tsu := rfl
  have hrun : becomeGm acting s = setGm ((s.gmFlags acting).cabId.getD 0xFFFF)
      (holdTime { s.gmFlags acting with tsu := { (s.gmFlags acting).tsu with doms := [], good := 0 } }) := rfl
  generalize s.gmFlags acting = u at *
  rw [hrun, setGm_frame, holdTime_frame hc1 _ (show { u.tsu with doms := [], good := 0 }.waiting = some c by rw [htsu]; exact hw), htsu]

theorem recTakeAll_tsu (s : State) : (recTakeAll s).tsu = s.tsu := by
  have hfold (l : List Nat) : (l.foldl (fun t c => recTake c t) s).tsu = s.tsu := foldl_keeps State.tsu (f := fun t c => recTake c t) (fun _ _ => rfl) l s
  exact hfold _

/-- The engine becomes the ensign by a SUB 0: its schedule is the one that waited. -/
theorem ringIdSet_frame {s : State} (hc : s.cclkOn = true) {b : List Byte} {c : Sched} (hold : bitOf (s.fld F.RING_ID_ROLES) 1 = false)
    (hnew : bitOf (byteAt b 1) 1 = true) (hw : (s.idAndPorts b).tsu.waiting = some c) (hact : (s.idAndPorts b).tsu.acting = false) :
    (ringIdSet b s).frame = c.frameAt (s.idAndPorts b).tsu.now := by
  have htsu := recTakeAll_tsu (s.idAndPorts b)
  have hc1 : (recTakeAll (s.idAndPorts b)).cclkOn = true :=
    ((recTakeAll_writes _).cclkOn (RoleFld.apart (by decide) (by decide) (by decide))).trans (State.idAndPorts_clocked hc b)
  have hbecomes : ringIdSet b s = becomeGm false (recTakeAll (s.idAndPorts b)) := by
    rw [ringIdSet_eq]
    change (s.idAndPorts b).roleDuties _ _ = _
    unfold State.roleDuties
    simp only [hold, hnew, Bool.not_false, Bool.and_self, Bool.true_or, if_true, Bool.false_or]
    exact if_neg (by rw [htsu, hact]; exact Bool.false_ne_true)
  rw [hbecomes, becomeGm_frame hc1 (by rw [htsu]; exact hw), htsu]

theorem Writes.waits {W : FRef → Prop} {s t : State} (h : Writes W s t) : t.ao.modeWait = s.ao.modeWait
    ∧ t.cmds.atHoist = s.cmds.atHoist ∧ t.cc.hooks = s.cc.hooks ∧ t.tdu.haltReq = s.tdu.haltReq := by
  rw [h.rest]
  exact ⟨rfl, rfl, rfl, rfl⟩

/-! ### The counterexample -/

/-- AVLIN-X in Relay, its MODE_SET to Standby due at hoist 1, whose RING_CFG that waits for a hoist makes it the ensign, while a schedule
that begins later waits for the engine to hold time. -/
def lateEnsign : State :=
  let s : State := { State.reset with
    build := .x
    ao := { Ao.reset with pwrgood := true, coreHeld := false, modeWait := some ⟨7, Mode.standby, 1⟩ }
    tsu := { Tsu.reset with waiting := some ⟨0, 100, 65536, 0, 0, 0⟩ }
    ring := { RingSt.reset with cfgDue := [[0, 2]] } }
  (s.setFld F.AO_MODE_MODE Mode.relay).setFld F.TSU_SCHED1_PERIOD 65536

theorem lateEnsign_due : lateEnsign.modeDue 7 = some ⟨7, Mode.standby, 1⟩ ∧ lateEnsign.hoistOk 7 = true ∧ lateEnsign.live = true := by
  decide +kernel

/-- The engine at that hoist, before its RING_CFG takes effect. -/
def lateEnsign7 : State := seqEvent 49 (seqEvent 48 (hoistTimeSide 7 lateEnsign))

/-- Its RING_CFG no longer waits. -/
def lateSettled : State := { lateEnsign7 with ring := { lateEnsign7.ring with cfgDue := [] } }

/-- Its RING_CFG has taken effect: it is grandmaster. -/
def lateGm : State := ringIdSet [0, 2] lateSettled

theorem lateEnsign7_waits : lateEnsign7.ring.cfgDue = [[0, 2]] := by decide +kernel

theorem lateSettled_shows : lateSettled.cclkOn = true ∧ lateSettled.cmds.atHoist = [] ∧ lateSettled.cc.hooks = []
    ∧ lateSettled.ao.modeWait = some ⟨7, Mode.standby, 1⟩ ∧ lateSettled.tdu.haltReq = none
    ∧ bitOf (lateSettled.fld F.RING_ID_ROLES) 1 = false := by decide +kernel

theorem lateSettled_schedule : (lateSettled.idAndPorts [0, 2]).tsu.waiting = some ⟨0, 100, 65536, 0, 0, 0⟩
    ∧ (lateSettled.idAndPorts [0, 2]).tsu.acting = false
    ∧ (Sched.frameAt ⟨0, 100, 65536, 0, 0, 0⟩ (lateSettled.idAndPorts [0, 2]).tsu.now) = 0 := by decide +kernel

theorem lateEnsign7_takes : ringCfgAtHoist lateEnsign7 = lateGm := by
  unfold ringCfgAtHoist
  rw [lateEnsign7_waits, List.foldl_cons, List.foldl_nil, ringCfgEffect, if_pos (by decide)]
  rfl

theorem lateGm_frame : lateGm.frame = 0 := by
  obtain ⟨hc, -, -, -, -, hrole⟩ := lateSettled_shows
  obtain ⟨hw, hact, hframe⟩ := lateSettled_schedule
  have hnew : bitOf (byteAt [0, 2] 1) 1 = true := by decide
  have hset := ringIdSet_frame hc hrole hnew hw hact
  exact hset.trans hframe

/-- The frame in force at the end of the hoist is that of the schedule taken, 0. -/
theorem lateEnsign_recounts : (hoist 7 lateEnsign).frame = 0 := by
  obtain ⟨-, hok, hlive⟩ := lateEnsign_due
  obtain ⟨hc, hat, hhooks, hwait, hhalt, -⟩ := lateSettled_shows
  have hgmWrites : Writes IdFld lateSettled lateGm := ringIdSet_writes hc [0, 2]
  obtain ⟨hwaitSame, hatSame, hhooksSame, hhaltSame⟩ := hgmWrites.waits
  have hgm : ringCfgAtHoist (seqEvent 49 (seqEvent 48 (hoistTimeSide 7 lateEnsign))) = lateGm := lateEnsign7_takes
  have hside : (hoistTimeSide 7 lateEnsign).live = true :=
    ((hoistTimeSide_writes (State.hoistOk_clocked hok) 7).live hoistFlds_mode).trans hlive
  have hpaced := hoistWork_paced 7 (hoistTimeSide 7 lateEnsign) (by rw [hgm, hwaitSame]; exact hwait) (by decide)
    (by rw [hgm, hatSame]; exact hat)
  rw [hgm] at hpaced
  have hmode : (hoistWork 7 (hoistTimeSide 7 lateEnsign)).modeHooks := hpaced.hooks fun h hh => by rw [hhooksSame, hhooks] at hh; cases hh
  rw [hoist_eq hok, if_pos hside]
  exact (settle_kept hmode (hpaced.haltReq.trans (hhaltSame.trans hhalt))).frame.trans (hpaced.frame.trans lateGm_frame)

/-- Refutes O11: a RING_CFG that takes effect at the same hoist makes the engine grandmaster, and the schedule that waited for it sets
the frame in force to 0, not to that of the hoist. -/
theorem not_transitionsAtTheHoist : ¬ Obligations.TransitionsAtTheHoist := by
  unfold Obligations.TransitionsAtTheHoist
  intro h
  obtain ⟨hdue, hok, hlive⟩ := lateEnsign_due
  obtain ⟨-, hleave⟩ := h lateEnsign ⟨7, Mode.standby, 1⟩ 7 hdue hok hlive ⟨rfl, rfl⟩
  obtain ⟨t, ht, -, -, hframe⟩ := hleave (.inl rfl)
  have hrun : exec (.leaveDisplayAtHoist 7) lateEnsign = .next (hoist 7 lateEnsign) := by
    change execLeaveDisplayAtHoist 7 lateEnsign = _
    unfold execLeaveDisplayAtHoist
    rw [hdue]
    exact congrArg Host.Outcome.next (if_pos (by decide))
  rw [← Host.Outcome.next.inj (hrun.symm.trans ht), lateEnsign_recounts] at hframe
  exact absurd hframe (by decide)

end Sys2Proof.Machine
end

section
/-!
PROOFS. The resets of the core, the watchdog and SOFT_RESET (R60, R79, R94 to R97, R99 to R101).
-/

namespace Sys2Proof.Machine

/-! ### The register file stays canonical -/

/-- A step that keeps the register file canonical. -/
structure KeepsWf (s t : State) : Prop where
  wf : s.rfWf = true → t.rfWf = true

namespace KeepsWf
variable {s t u : State}

theorem refl (s : State) : KeepsWf s s := ⟨id⟩

theorem trans (h : KeepsWf s t) (k : KeepsWf t u) : KeepsWf s u := ⟨k.wf ∘ h.wf⟩

theorem ite {c : Prop} [Decidable c] (h : KeepsWf s t) (k : KeepsWf s u) : KeepsWf s (if c then t else u) := by
  split
  · exact h
  · exact k

theorem foldl {α : Type} {f : State → α → State} (hf : ∀ s a, KeepsWf s (f s a)) (l : List α) (s : State) : KeepsWf s (l.foldl f s) := by
  induction l generalizing s with
  | nil => exact refl s
  | cons a l ih => exact (hf s a).trans (ih _)

theorem of_rf (hb : t.build = s.build) (hr : t.rf = s.rf) : KeepsWf s t := by
  refine ⟨fun h => ?_⟩
  unfold State.rfWf at h ⊢
  rw [hb, hr]
  exact h

theorem setFld (s : State) (f : FRef) (v : Nat) : KeepsWf s (s.setFld f v) := ⟨s.setFld_rfWf f v⟩

theorem setFlag (s : State) (f : FRef) (b : Bool) : KeepsWf s (s.setFlag f b) := setFld s f _

theorem wakeEvent (s : State) : KeepsWf s s.wakeEvent := ite (.of_rf rfl rfl) (ite (refl s) (.of_rf rfl rfl))

theorem watchHit (s : State) (src : Nat) : KeepsWf s (s.watchHit src) := by
  unfold State.watchHit
  extract_lets first s1 s2
  have h1 : KeepsWf s s1 := foldl (fun t w => setFlag t _ _) _ s
  have h2 : KeepsWf s s2 := h1.trans (ite (setFld s1 _ _) (refl s1))
  exact ite (ite (h2.trans ((setFlag s2 _ _).trans (wakeEvent _))) h2) (refl s)

theorem raise (s : State) (src : Nat) : KeepsWf s (s.raise src) :=
  ite (watchHit s src) (ite (refl s) (ite (refl s) (setFld s _ _)))

theorem judgeUnit (cls idx cause : Nat) (s : State) : KeepsWf s (judgeUnit cls idx cause s) := by
  have hdue (u : State) : KeepsWf u ({ u with cmds := { u.cmds with reportDue := true } }.raise 159) :=
    .trans (t := { u with cmds := { u.cmds with reportDue := true } }) (.of_rf rfl rfl) (.raise _ 159)
  have hnoted (v w : Nat) := (setFld s (F.CMD_UST_DIV (ustIdx cls idx)) v).trans
    ((setFld _ (F.CMD_UST_FRAME (ustIdx cls idx)) w).trans (hdue _))
  unfold Machine.judgeUnit
  exact .ite (.refl s) (.ite ((hnoted _ _).trans (setFld _ _ _)) (hnoted _ _))

theorem observe (cls idx obs cause : Nat) (s : State) : KeepsWf s (observe cls idx obs cause s) := by
  exact ite ((setFld s _ _).trans (judgeUnit ..)) (refl s)

theorem tmrsLost (src : Nat) (s : State) : KeepsWf s (tmrsLost src s) := by
  refine foldl (fun t n => ?_) _ s
  unfold tmrLost
  extract_lets s1
  have h1 : KeepsWf t s1 := (setFlag t _ _).trans (setFlag _ _ _)
  exact ite (refl t) (h1.trans ((ite (raise s1 _) (refl s1)).trans (observe ..)))

end KeepsWf

/-! ### What a reset of the core leaves (R94, R100, R101) -/

theorem listedAs_of_wf {α : Type} [DecidableEq α] {d : Nat → α} {l : List (Nat × α)} (h : SMap.wf d l = true) (a : Nat) :
    ListedAs l a (SMap.get d l a) := by
  induction l with
  | nil => exact fun p hp => absurd hp List.not_mem_nil
  | cons q l ih =>
    obtain ⟨k, v⟩ := q
    obtain ⟨hk, -, hl⟩ := (SMap.wf_cons d k v l).mp h
    intro p hp ha
    unfold SMap.get
    rcases List.mem_cons.mp hp with rfl | hp
    · exact (if_pos ha).symm
    · rw [if_neg (by have := hk p hp; omega)]
      exact ih hl p hp ha

/-- What the resets of the whole core leave of `s`, before the timers and the pulse outputs are observed. -/
structure Dropped (k : ResetKind) (s u : State) : Prop where
  build : u.build = s.build
  rf : u.rf = keptRegs s.build (fun f => k.keeps f.surv) s.rf
  ao : u.ao = s.ao.idle
  cc : u.cc = { CcSt.reset with nextLmov := s.cc.nextLmov }
  list : u.cmds.list = []
  keys : u.keys = []
  pus : u.pus = []

/-- A reset of the whole core before its observations. -/
def droppedCore (k : ResetKind) (s : State) : State :=
  let s0 := { s with rf := keptRegs s.build (fun f => k.keeps f.surv) s.rf, ao := s.ao.idle }
  let s1 := dropEngine s0
  match k with
  | .soft => s1
  | .start => { s1 with tdu := s1.tdu.dropped, cstore := [], hb := .zero, spm := .zero }
  | .engine => { s1 with tdu := s0.tdu.dropped }
  | .wdog => { s1 with tdu := { s1.tdu with acc := s1.tdu.acc.abandoned, loops := [], grants := [], walls := [], selftest := none, haltReq := none } }

theorem resetCore_eq {k : ResetKind} (hk : k ≠ .soft) (s : State) : resetCore k s = observeTmrs (droppedCore k s) := by
  cases k
  · rfl
  · rfl
  · rfl
  · exact absurd rfl hk

theorem droppedCore_dropped (k : ResetKind) (s : State) : Dropped k s (droppedCore k s) := by
  cases k
  all_goals exact ⟨rfl, rfl, rfl, rfl, rfl, rfl, rfl⟩

theorem Reports.observeTmrs (s : State) : Reports s (observeTmrs s) := by
  refine .foldl _ _ (fun t n _ => ?_) s
  split
  · exact .observe ..
  · exact .refl t

/-- The core has been reset from `s`: fields that a row of R101 keeps stand, the rest starts anew, the pulse outputs are low. -/
structure CoreReset (k : ResetKind) (s t : State) : Prop where
  regs : ∀ off, reportOff off = false → t.reg off = keptReg s.build (fun f => k.keeps f.surv) off (s.reg off)
  ao : t.ao = { s.ao.idle with waking := t.ao.waking, wakeHeld := t.ao.wakeHeld }
  cc : t.cc = { CcSt.reset with nextLmov := s.cc.nextLmov }
  list : t.cmds.list = []
  keys : t.keys = []
  pads : ∀ n, (t.pu n).padH = false ∧ (t.pu n).padL = false
  hb : t.hb = (droppedCore k s).hb
  spm : t.spm = (droppedCore k s).spm
  cstore : t.cstore = (droppedCore k s).cstore

/-- The timers and the pulse outputs have been observed, all of them low. -/
structure Observed (u t : State) : Prop where
  regs : ∀ off, reportOff off = false → t.reg off = u.reg off
  ao : t.ao = { u.ao with waking := t.ao.waking, wakeHeld := t.ao.wakeHeld }
  cc : t.cc = u.cc
  list : t.cmds.list = u.cmds.list
  keys : t.keys = u.keys
  pus : t.pus = u.pus
  hb : t.hb = u.hb
  spm : t.spm = u.spm
  cstore : t.cstore = u.cstore

theorem Observed.of_reports {u t : State} (h : Reports u t) : Observed u t := by
  refine ⟨h.regs, ?_, h.cc, ?_, ?_, h.pus, h.hb, h.spm, ?_⟩
  all_goals rw [h.rest]

theorem Observed.trans {s t u : State} (h : Observed s t) (k : Observed t u) : Observed s u where
  regs off ho := (k.regs off ho).trans (h.regs off ho)
  ao := by
    have h1 := h.ao
    have k1 := k.ao
    rw [h1] at k1
    exact k1
  cc := k.cc.trans h.cc
  list := k.list.trans h.list
  keys := k.keys.trans h.keys
  pus := k.pus.trans h.pus
  hb := k.hb.trans h.hb
  spm := k.spm.trans h.spm
  cstore := k.cstore.trans h.cstore

theorem puHoldAll_observed {u : State} (h : u.pus = []) : Observed u (puHoldAll u) := by
  refine ⟨fun _ _ => rfl, rfl, rfl, rfl, rfl, ?_, rfl, rfl, rfl⟩
  unfold puHoldAll puHold
  rw [h]
  rfl

theorem resetOutputs_observed {u : State} (h : u.pus = []) : Observed u (resetOutputs (observeTmrs u)) := by
  have h1 := Observed.of_reports (Reports.observeTmrs u)
  exact h1.trans ((puHoldAll_observed (h1.pus.trans h)).trans (.of_reports (.observePus ..)))

theorem resetOutputs_reset {k : ResetKind} (hk : k ≠ .soft) {s : State} (hwf : s.rfWf = true) :
    CoreReset k s (resetOutputs (resetCore k s)) := by
  rw [resetCore_eq hk]
  obtain ⟨hbuild, hrf, hao, hcc, hlist, hkeys, hpus⟩ := droppedCore_dropped k s
  have hreg (off : Nat) : (droppedCore k s).reg off = keptReg s.build (fun f => k.keeps f.surv) off (s.reg off) := by
    unfold State.reg
    rw [hbuild, hrf]
    exact get_keptRegs (listedAs_of_wf hwf off)
  have ho := resetOutputs_observed hpus
  refine ⟨fun off h => (ho.regs off h).trans (hreg off), hao ▸ ho.ao, ho.cc.trans hcc, ho.list.trans hlist, ho.keys.trans hkeys, fun n => ?_,
    ho.hb, ho.spm, ho.cstore⟩
  unfold State.pu
  rw [ho.pus, hpus]
  exact ⟨rfl, rfl⟩

/-! ### The cause and the mode after a reset (R95, R101) -/

/-- A reset of the whole core keeps the causes recorded before. -/
theorem keeps_causes (k : ResetKind) : ∀ n < 6, keepsFld (fun f => k.keeps f.surv) ⟨F.AO_RSTCAUSE_SOFT.off, n, 1⟩ = true := by
  cases k
  all_goals decide +kernel

theorem keptReg_mode {k : ResetKind} (hk : k ≠ .soft) (b : Build) (v : W64) :
    keptReg b (fun f => k.keeps f.surv) F.AO_MODE_MODE.off v = 0x83 := by
  cases k
  case soft => exact absurd rfl hk
  all_goals cases b <;> rfl

theorem getLsbD_getBits (x : W64) (n : Nat) : x.getLsbD n = (getBits x n 1).testBit 0 := by
  rw [getBits_testBit]
  simp

/-- What a reset of the whole core with cause `cause` shows. -/
structure ResetShows (k : ResetKind) (cause : FRef) (s t : State) : Prop where
  regs : ∀ off, off ≠ cause.off → reportOff off = false → t.reg off = keptReg s.build (fun f => k.keeps f.surv) off (s.reg off)
  recorded : t.flag cause = true
  others : ∀ n, n < 6 → n ≠ cause.lo → (t.reg cause.off).getLsbD n = (s.reg cause.off).getLsbD n
  mode : t.mode = Mode.rigging
  cc : t.cc = { CcSt.reset with nextLmov := s.cc.nextLmov }
  list : t.cmds.list = []
  keys : t.keys = []
  coreHeld : t.ao.coreHeld = true
  pads : ∀ n, (t.pu n).padH = false ∧ (t.pu n).padL = false

theorem setFlag_getLsbD_other {s : State} {f : FRef} {b : Bool} {n : Nat} (hn : n < 64) (hw : f.w = 1) (hne : n ≠ f.lo) :
    ((s.setFlag f b).reg f.off).getLsbD n = (s.reg f.off).getLsbD n := by
  change ((s.setReg f.off _).reg f.off).getLsbD n = _
  rw [State.reg_setReg_self, setBits_getLsbD _ _ _ _ _ hn, if_neg (by omega)]

theorem keptReg_causes {k : ResetKind} {b : Build} {v : W64} {n : Nat} (hn : n < 6) :
    (keptReg b (fun f => k.keeps f.surv) F.AO_RSTCAUSE_SOFT.off v).getLsbD n = v.getLsbD n := by
  have h := getBits_keptReg (b := b) (v := v) (keeps_causes k n hn)
  exact (getLsbD_getBits _ n).trans ((congrArg (Nat.testBit · 0) h).trans (getLsbD_getBits v n).symm)

theorem CoreReset.shows {k : ResetKind} {cause : FRef} {s s0 x : State} (h : CoreReset k s0 x) (hk : k ≠ .soft)
    (hoff : cause.off = F.AO_RSTCAUSE_SOFT.off) (hlo : cause.lo < 6) (hw : cause.w = 1)
    (hregs : ∀ off, reportOff off = false → s0.reg off = s.reg off) (hbuild : s0.build = s.build) (hcc : s0.cc = s.cc) :
    ResetShows k cause s (x.setFlag cause true) := by
  have hreg (off : Nat) (ho : reportOff off = false) : x.reg off = keptReg s.build (fun f => k.keeps f.surv) off (s.reg off) := by
    rw [h.regs off ho, hregs off ho, hbuild]
  have hrep : reportOff cause.off = false := by rw [hoff]; rfl
  refine ⟨fun off hne ho => (State.reg_setFlag_ne _ _ _ _ hne).trans (hreg off ho), State.flag_setFlag _ _ _ (by omega) (by omega),
    fun n hn hne => ?_, ?_, by rw [← hcc]; exact h.cc, h.list, h.keys, (congrArg Ao.coreHeld h.ao :), h.pads⟩
  · rw [setFlag_getLsbD_other (by omega) hw hne, hreg _ hrep, hoff, keptReg_causes hn]
  · refine (State.fld_setFld_other _ _ _ _ (by decide) (.inl (by rw [hoff]; decide))).trans ?_
    unfold State.fld
    rw [hreg _ rfl, keptReg_mode hk]
    rfl

/-! ### Fields that one write sets -/

theorem FieldTakes.setFld {s : State} {f : FRef} {v : Nat} (hv : v < 2 ^ f.w) (hb : f.lo + f.w ≤ 64) : FieldTakes s f v (s.setFld f v) where
  rest := rfl
  value := (s.fld_setFld f v hb).trans (Nat.mod_eq_of_lt hv)
  field _ _ hg hd := State.fld_setFld_other s f _ v hg (.inr hd)
  regs _ ho := State.reg_setFld_ne s f v _ ho

/-! ### The three resets of the whole core and the watchdog (R60, R79, R94, R97) -/

theorem hptWakes_eq (s : State) : hptWakes s = { s with hpt := (hptWakes s).hpt } := by
  unfold hptWakes
  split
  all_goals rfl

/-- What a reset shows does not depend on HPT or on the fill. -/
theorem ResetShows.congr {k : ResetKind} {cause : FRef} {s t : State} (h : ResetShows k cause s t) (hp : Hpt) (b : Bool) :
    ResetShows k cause s { t with hpt := hp, ao := { t.ao with filling := b } } := by
  obtain ⟨h1, h2, h3, h4, h5, h6, h7, h8, h9⟩ := h
  exact ⟨h1, h2, h3, h4, h5, h6, h7, h8, h9⟩

/-- What the obligation says of a reset, from what it shows. -/
theorem ResetShows.runs {i : Instr} {k : ResetKind} {cause : FRef} {P : State → Prop} {s t : State} (he : exec i s = .next t)
    (h : ResetShows k cause s t) (hp : P t) : Runs i s fun t =>
      (∀ off, off ≠ cause.off → reportOff off = false → t.reg off = keptReg s.build (fun f => k.keeps f.surv) off (s.reg off))
      ∧ t.flag cause = true ∧ (∀ n, n < 6 → n ≠ cause.lo → (t.reg cause.off).getLsbD n = (s.reg cause.off).getLsbD n)
      ∧ t.mode = Mode.rigging ∧ t.cc = { CcSt.reset with nextLmov := s.cc.nextLmov } ∧ t.cmds.list = [] ∧ t.keys = [] ∧ t.ao.coreHeld = true
      ∧ (∀ n, (t.pu n).padH = false ∧ (t.pu n).padL = false) ∧ P t :=
  ⟨t, he, h.regs, h.recorded, h.others, h.mode, h.cc, h.list, h.keys, h.coreHeld, h.pads, hp⟩

/-- The same engine without PWRGOOD. -/
def State.ungood (s : State) : State := { s with ao := { s.ao with pwrgood := false } }

/-- The timers of every source lose it when PWRGOOD falls. -/
def State.unfed (s : State) : State := tmrsLost 1 (tmrsLost 2 (tmrsLost 3 s.ungood))

theorem unfed_reports (s : State) : Reports s.ungood s.unfed :=
  .trans (.trans (.tmrsLost 3 _) (.tmrsLost 2 _)) (.tmrsLost 1 _)

theorem unfed_keepsWf (s : State) : KeepsWf s s.unfed := by
  have h : KeepsWf s s.ungood := .of_rf rfl rfl
  exact h.trans ((KeepsWf.tmrsLost 3 _).trans ((KeepsWf.tmrsLost 2 _).trans (KeepsWf.tmrsLost 1 _)))

theorem pwrgoodFall_eq {s : State} (hs : s.ao.supplies = true) (hp : s.ao.porHeld = false) (he : s.ao.engDis = false) (hg : s.ao.pwrgood = true) :
    let x := (resetOutputs (resetCore .start s.unfed)).setFlag F.AO_RSTCAUSE_PWRLOSS true
    pwrgoodFall s = { x with ao := { x.ao with filling := false } } := by
  unfold pwrgoodFall
  rw [if_neg (by rw [hg]; decide), if_neg (by simp [hp, he, hs])]
  rfl

theorem engineReset_eq {s : State} (hs : s.ao.supplies = true) (hp : s.ao.porHeld = false) (he : s.ao.engDis = false) (hh : s.ao.engHeld = false)
    (hm : s.mode ≠ Mode.off) (ha : s.asleep = false) : engineReset s
      = (resetOutputs (resetCore .engine { s with ao := { s.ao with engHeld := true } })).setFlag F.AO_RSTCAUSE_ENG true := by
  unfold engineReset clocksAfter
  rw [if_neg (by simp [hh, hs]), if_neg (by simp [hp, he, hm]), if_neg (by simp [ha])]

theorem watchdogReset_eq {s : State} (hr : s.wdogRuns = true) (hx : s.ao.wdogExpired = true) : watchdogReset s
    = hptWakes ((resetOutputs (resetCore .wdog { s with ao := { s.ao with wdogExpired := false } })).setFlag F.AO_RSTCAUSE_WDOG true) := by
  unfold watchdogReset
  rw [if_neg (by simp [hr, hx])]

theorem aoOn_of_wdogRuns {s : State} (hr : s.wdogRuns = true) : s.aoOn = true := by
  simp only [State.wdogRuns, Bool.and_eq_true, Bool.not_eq_true'] at hr
  obtain ⟨⟨⟨⟨⟨⟨hsupplies, hpor⟩, hdis⟩, -⟩, -⟩, -⟩, -⟩ := hr
  simp [State.aoOn, hsupplies, hpor, hdis]

/-! ### SOFT_RESET (R94, R96) -/

theorem not_aoReg {off : Nat} (h : 0x20000 ≤ off) : ¬ aoReg off := fun k => by
  have := k.1
  omega

theorem Units.setUnitFld (s : State) {f : FRef} (v : Nat) (h : 0x20000 ≤ f.off) : Units aoReg s (s.setFld f v) := .setReg s _ (not_aoReg h)

theorem recTake_units (c : Nat) (s : State) : Units aoReg s (recTake c s) := .setUnitFld s _ (by simp only; omega)

theorem recTakeAll_units (s : State) : Units aoReg s (recTakeAll s) := .foldl _ (fun t c _ => recTake_units c t) s

theorem putBa_units (s : State) (x : BaSt) : Units aoReg s { s with ba := x } := .of_rf rfl rfl

/-- The blocks heard of the other solver, put in place. -/
def State.putOther (heard : List (Nat × Nat × List (Nat × Nat))) (s : State) : State := { s with ba := { s.ba with other := heard } }

theorem State.putOther_seqs (heard : List (Nat × Nat × List (Nat × Nat))) (s : State) : (s.putOther heard).seqs = s.seqs := rfl

theorem putOther_units (heard : List (Nat × Nat × List (Nat × Nat))) (s : State) : Units aoReg s (s.putOther heard) := putBa_units s _

theorem recRestart_eq (heard : List (Nat × Nat × List (Nat × Nat))) (s : State) :
    recRestart heard s = if s.role 1 || s.role 2 then (recTakeAll (s.putOther heard)).putOther s.ba.other else s := by
  simp only [recRestart, State.putOther]

theorem recRestart_units (heard : List (Nat × Nat × List (Nat × Nat))) (s : State) : Units aoReg s (recRestart heard s) := by
  rw [recRestart_eq]
  exact .ite ((putOther_units heard s).trans ((recTakeAll_units _).trans (putOther_units _ _))) (.refl s)

theorem applyCfg_units (p : List Byte) (s : State) : Units aoReg s (applyCfg p s) := by
  have hset (t : State) {f : FRef} (v : Nat) (h : 0x20000 ≤ f.off) : Units aoReg t (t.setFld f v) := .setUnitFld t v h
  unfold applyCfg
  split
  · repeat refine Units.trans ?_ (hset _ _ (by decide))
    exact .refl s
  · refine .foldl _ (fun t j _ => ?_) s
    repeat refine Units.trans ?_ (hset _ _ (by simp only; omega))
    exact .refl t
  · repeat refine Units.trans ?_ (hset _ _ (by decide))
    exact .refl s
  · exact .trans (.foldl _ (fun t j _ => hset t _ (by simp only; omega)) s) (hset _ _ (by decide))
  · refine .trans (.foldl _ (fun t j _ => ?_) s) (hset _ _ (by decide))
    extract_lets c e same t1
    have h1 : Units aoReg t t1 := by
      repeat refine Units.trans ?_ (hset _ _ (by simp only; omega))
      exact .refl t
    exact .ite h1 (h1.trans (recTake_units _ _))

theorem applyPending_units (solver : Bool) (s : State) : Units aoReg s (applyPending solver s) := by
  unfold applyPending
  split
  exact (putBa_units s _).trans (.foldl _ (fun t p _ => applyCfg_units p t) _)

theorem virtualBa_units (s : State) : Units aoReg s (virtualBa s) := (applyPending_units _ s).trans (applyPending_units _ _)

theorem softSlices_units (s : State) : Units asideReg s (softSlices s) := by
  unfold softSlices
  refine .trans ((stopDecode_units s).trans (.foldl _ (fun t k hk => ?_) _)) (.of_rf rfl rfl)
  have := List.mem_range.mp hk
  exact .ite (.setFlag t _ (by simp only; omega) (by simp only; omega)) (.refl t)


/-- The slices, the lanes and the budget forms of a soft reset, before the core is dropped. -/
def State.softened (s : State) : State :=
  lanesQuiet (softSlices (virtualBa { s with rf := keptRegs s.build (fun f => ResetKind.soft.keeps f.surv) s.rf, ao := s.ao.idle }))

/-- What a soft reset leaves of an engine whose units have stopped: the core and the commands are gone, the mode is Standby. -/
def State.softDropped (s : State) : State :=
  let s1 := dropCore s
  let s2 := { s1 with lp := { LpSt.reset with lanes := s1.lp.lanes, shortG := s1.lp.shortG, ks := s1.lp.ks }
                      cmds := { s1.cmds with list := [], after := [], rx := [] }
                      ring := { s1.ring with reas := [], bulk := [] } }
  s2.setFld F.AO_MODE_MODE Mode.standby

theorem resetCore_soft (s : State) : resetCore .soft s = recRestart s.ba.other s.softened.softDropped := rfl

/-- What SOFT_RESET's effect shows. -/
structure SoftReset (s t : State) : Prop where
  mode : t.mode = Mode.standby
  recorded : t.flag F.AO_RSTCAUSE_SOFT = true
  list : t.cmds.list = []
  cc : t.cc = { CcSt.reset with nextLmov := s.cc.nextLmov }
  seqs : t.seqs = []
  coreHeld : t.ao.coreHeld = true
  hb : t.hb = s.hb
  spm : t.spm = s.spm
  keys : t.keys = s.keys
  tenants : t.tenants = s.tenants

theorem softened_units (s : State) :
    Units aoReg { s with rf := keptRegs s.build (fun f => ResetKind.soft.keeps f.surv) s.rf, ao := s.ao.idle } s.softened :=
  (virtualBa_units _).trans ((softSlices_units _).trans (lanesQuiet_units _)).ofAside

theorem recTakeAll_seqs (s : State) : (recTakeAll s).seqs = s.seqs := by
  rw [(recTakeAll_writes s).rest]

theorem recRestart_seqs (heard : List (Nat × Nat × List (Nat × Nat))) (s : State) : (recRestart heard s).seqs = s.seqs := by
  rw [recRestart_eq]
  split
  · rw [State.putOther_seqs, recTakeAll_seqs, State.putOther_seqs]
  · rfl

theorem resetCore_soft_shows (s : State) : SoftReset s ((resetCore .soft s).setFlag F.AO_RSTCAUSE_SOFT true) := by
  rw [resetCore_soft]
  have h := softened_units s
  have h2 := recRestart_units s.ba.other s.softened.softDropped
  have hmode : s.softened.softDropped.mode = Mode.standby := State.fld_setFld _ F.AO_MODE_MODE Mode.standby (by decide)
  refine ⟨?_, State.flag_setFlag _ _ _ (by decide) (by decide), ?_, ?_, recRestart_seqs _ _, ?_, h2.hb.trans h.hb, h2.spm.trans h.spm, h2.keys.trans h.keys,
    h2.tenants.trans h.tenants⟩
  · exact (State.mode_setFld _ _ _ (by decide)).trans (h2.mode.trans hmode)
  · exact (congrArg Cmds.list h2.cmds :)
  · refine h2.cc.trans ?_
    change { CcSt.reset with nextLmov := s.softened.cc.nextLmov } = _
    rw [h.cc]
  · refine (congrArg Ao.coreHeld h2.ao : ).trans ?_
    exact (congrArg Ao.coreHeld h.ao :)

theorem SoftReset.reports {s t u : State} (h : SoftReset s t) (r : Reports t u) : SoftReset s u := by
  have hu : Units asideReg t u := .of_reports r
  refine ⟨hu.ofAside.mode.trans h.mode, (hu.ofAside.aoFlag (by decide) (by decide)).trans h.recorded, ?_, r.cc.trans h.cc, ?_, ?_, r.hb.trans h.hb, r.spm.trans h.spm,
    hu.keys.trans h.keys, hu.tenants.trans h.tenants⟩
  · rw [r.rest]
    exact h.list
  · rw [r.rest]
    exact h.seqs
  · rw [r.rest]
    exact h.coreHeld

theorem observeGclks_reports (s : State) : Reports s (observeGclks s) := by
  refine .foldl _ _ (fun t g _ => ?_) s
  unfold observeGclk
  split
  · exact .observe ..
  · split
    all_goals exact .observe ..

theorem softResetEffect_shows {s : State} {id : Nat} (hp : s.ao.softPending = some id) (hn : s.cmd? id = none) (hc : s.cclkOn = true) :
    SoftReset s (softResetEffect s) := by
  unfold softResetEffect
  rw [hp]
  simp only [hn, hc]
  rw [if_neg (by simp)]
  have h := resetCore_soft_shows s
  split
  · exact (h.reports (observeGclks_reports _)).reports (.observePus ..)
  · exact h

theorem softReset_due {s : State} {c : Cmd} (h : s.Due c 0x0002) (hp : c.params = leBytes 8 0x5AFE0002) (ha : ∀ d ∈ s.cmds.list, d.id = c.id) :
    softReset c.id s = finish c.id Status.ok [] { s with ao := { s.ao with softPending := some c.id } } := by
  unfold softReset
  rw [withStarted_due h, hp, if_neg (by decide +kernel), if_neg (by simpa using ha)]

/-! ### O7 -/

theorem pwrgoodFall_shows {s : State} (hwf : s.rfWf = true) (hs : s.ao.supplies = true) (hp : s.ao.porHeld = false)
    (he : s.ao.engDis = false) (hg : s.ao.pwrgood = true) :
    ResetShows .start F.AO_RSTCAUSE_PWRLOSS s (pwrgoodFall s)
      ∧ (pwrgoodFall s).ao.pwrgood = false ∧ (pwrgoodFall s).hb = .zero ∧ (pwrgoodFall s).spm = .zero ∧ (pwrgoodFall s).cstore = [] := by
  rw [pwrgoodFall_eq hs hp he hg]
  have hr := unfed_reports s
  have h := resetOutputs_reset (k := .start) (by decide) ((unfed_keepsWf s).wf hwf)
  have hx := h.shows (cause := F.AO_RSTCAUSE_PWRLOSS) (s := s) (by decide) rfl (by decide) rfl hr.regs hr.build hr.cc
  refine ⟨hx.congr _ false, ?_, h.hb, h.spm, h.cstore⟩
  have hpg : s.unfed.ao.pwrgood = false := by rw [hr.rest]; rfl
  exact (congrArg Ao.pwrgood h.ao :).trans hpg

theorem engineReset_shows {s : State} (hwf : s.rfWf = true) (hs : s.ao.supplies = true) (hp : s.ao.porHeld = false)
    (he : s.ao.engDis = false) (hh : s.ao.engHeld = false) (hm : s.mode ≠ Mode.off) (ha : s.asleep = false) :
    ResetShows .engine F.AO_RSTCAUSE_ENG s (engineReset s)
      ∧ (engineReset s).ao.engHeld = true ∧ (engineReset s).hb = s.hb ∧ (engineReset s).spm = s.spm ∧ (engineReset s).cstore = s.cstore := by
  rw [engineReset_eq hs hp he hh hm ha]
  have h := resetOutputs_reset (k := .engine) (s := { s with ao := { s.ao with engHeld := true } }) (by decide) hwf
  exact ⟨h.shows (by decide) rfl (by decide) rfl (fun _ _ => rfl) rfl rfl, (congrArg Ao.engHeld h.ao :), h.hb, h.spm, h.cstore⟩

theorem watchdogReset_shows {s : State} (hwf : s.rfWf = true) (hr : s.wdogRuns = true) (hx : s.ao.wdogExpired = true) :
    ResetShows .wdog F.AO_RSTCAUSE_WDOG s (watchdogReset s) ∧ (watchdogReset s).ao.wdogExpired = false
      ∧ (watchdogReset s).hb = s.hb ∧ (watchdogReset s).spm = s.spm ∧ (watchdogReset s).cstore = s.cstore := by
  rw [watchdogReset_eq hr hx, hptWakes_eq]
  have h := resetOutputs_reset (k := .wdog) (s := { s with ao := { s.ao with wdogExpired := false } }) (by decide) hwf
  have hs := h.shows (cause := F.AO_RSTCAUSE_WDOG) (s := s) (by decide) rfl (by decide) rfl (fun _ _ => rfl) rfl rfl
  exact ⟨hs.congr _ _, (congrArg Ao.wdogExpired h.ao :), h.hb, h.spm, h.cstore⟩

theorem engineResetRelease_eq {s : State} (h : s.ao.engHeld = true) : engineResetRelease s
    = { s with ao := { s.ao with engHeld := false }, hpt := { s.hpt with awake := (engineResetRelease s).hpt.awake } } := by
  unfold engineResetRelease hptWakes
  rw [if_pos h]
  split
  all_goals rfl

/-! ### O7 -/

/-- Settles O7: each reset keeps of the registers what R101 lists, then sets its own cause; SOFT_RESET's works keep the AO block. -/
theorem resetsAndWatchdog : Obligations.ResetsAndWatchdog := by
  unfold Obligations.ResetsAndWatchdog
  refine ⟨fun s hwf hs hp he => ⟨fun hg => ?_, fun hh hm ha => ?_, fun hr hx => ?_⟩, fun s => ⟨fun hh => ?_, fun hr hx => ?_, fun hc => ⟨?_, fun v hv => ?_⟩,
    fun c hd hpar hall => ?_, fun id hp hn hc => ?_⟩⟩
  · obtain ⟨h, hP⟩ := pwrgoodFall_shows hwf hs hp he hg
    exact h.runs rfl hP
  · obtain ⟨h, hP⟩ := engineReset_shows hwf hs hp he hh hm ha
    exact h.runs rfl hP
  · obtain ⟨h, hP⟩ := watchdogReset_shows hwf hr hx
    exact h.runs (congrArg Host.Outcome.next (whilePowered_on (aoOn_of_wdogRuns hr) _)) hP
  · exact ⟨_, rfl, engineResetRelease_eq hh⟩
  · refine .of_powered rfl (aoOn_of_wdogRuns hr) ?_
    unfold watchdogWarning
    rw [if_neg (by simp [hr, hx])]
    exact .setFld (by decide) (by decide)
  · exact .of_clocked rfl hc (.setFld (by decide) (by decide))
  · change Host.Outcome.next (if s.cclkOn then wdogKick v s else s) = _
    unfold wdogKick
    rw [if_neg hv, ite_self]
  · refine .of_clocked rfl (State.live_clocked hd.live) ?_
    rw [softReset_due hd hpar hall]
    exact Answers.of_finish hd _ _ rfl rfl rfl rfl
  · obtain ⟨h1, h2, h3, h4, h5, h6, h7, h8, h9, h10⟩ := softResetEffect_shows hp hn hc
    exact .of_clocked rfl hc ⟨h1, h2, h3, h4, h5, h6, h7, h8, h9, h10⟩

end Sys2Proof.Machine
end

section
/-!
PROOFS. Power-on reset, start-up, the fill, the core's release, loss of supplies (R79, R81, R94, R99, R116).
-/

namespace Sys2Proof.Machine

/-! ### Start-up (R79, R94) -/

/-- The islands are on and the clocks are not released, the registers as they were. -/
def State.switchedOn (s : State) : State :=
  { s with ao := { s.ao with filling := true, coreHeld := true, cclk := .unlocked, pnclk := .unlocked, refAbsent := false } }

/-- Both domains run on the safe clock. -/
def State.onSafeClock (s : State) : State :=
  (((s.setFlag F.AO_CLKST_CC_SAFE true).setFlag F.AO_CLKST_PN_SAFE true).setFlag F.AO_CLKST_CC_OK false).setFlag F.AO_CLKST_PN_OK false

/-- What a start-up leaves of `s`. -/
structure Started (s t : State) : Prop where
  touches : Touches [F.AO_CLKST_CC_OK.off] s.switchedOn t
  ccOk : t.flag F.AO_CLKST_CC_OK = false
  pnOk : t.flag F.AO_CLKST_PN_OK = false
  ccSafe : t.flag F.AO_CLKST_CC_SAFE = true
  pnSafe : t.flag F.AO_CLKST_PN_SAFE = true

theorem onSafeClock_reg {s : State} {off : Nat} (h : off ≠ F.AO_CLKST_CC_OK.off) : s.onSafeClock.reg off = s.reg off := by
  unfold State.onSafeClock
  have hset (u : State) (lo : Nat) (b : Bool) : (u.setFlag ⟨0x10010, lo, 1⟩ b).reg off = u.reg off := State.reg_setFlag_ne _ _ _ _ h
  simp only [hset]

theorem onSafeClock_flags (s : State) : s.onSafeClock.flag F.AO_CLKST_CC_OK = false ∧ s.onSafeClock.flag F.AO_CLKST_PN_OK = false
    ∧ s.onSafeClock.flag F.AO_CLKST_CC_SAFE = true ∧ s.onSafeClock.flag F.AO_CLKST_PN_SAFE = true := by
  unfold State.onSafeClock
  simp (disch := decide) only [State.flag_setFlag, State.flag_setFlag_other, and_self]

theorem startUp_started (s : State) : Started s (startUp s) := by
  have h : Reports s.switchedOn.onSafeClock (startUp s) := .trans (.tmrsReturn 2 _) (.tmrsReturn 1 _)
  have hu : Units asideReg s.switchedOn.onSafeClock (startUp s) := .of_reports h
  obtain ⟨hcok, hpok, hcsafe, hpsafe⟩ := onSafeClock_flags s.switchedOn
  refine ⟨⟨h.rest, fun off ho hr => (h.regs off hr).trans (onSafeClock_reg fun e => ho (e ▸ List.mem_singleton.mpr rfl))⟩, ?_, ?_, ?_, ?_⟩
  · exact (hu.ofAside.aoFlag (by decide) (by decide)).trans hcok
  · exact (hu.ofAside.aoFlag (by decide) (by decide)).trans hpok
  · exact (hu.ofAside.aoFlag (by decide) (by decide)).trans hcsafe
  · exact (hu.ofAside.aoFlag (by decide) (by decide)).trans hpsafe

/-- The power-on reset is released. -/
def State.powerReleased (s : State) : State := { s with ao := { s.ao with porHeld := false } }

/-- PWRGOOD is high. -/
def State.good (s : State) : State := { s with ao := { s.ao with pwrgood := true } }

theorem powerOnRelease_eq {s : State} (hp : s.ao.porHeld = true) (hs : s.ao.supplies = true) (he : s.ao.engDis = false) :
    powerOnRelease s = if s.ao.pwrgood then startUp s.powerReleased else s.powerReleased := by
  unfold powerOnRelease
  rw [if_neg (by simp [hp, hs, he])]
  rfl

theorem pwrgoodRise_eq {s : State} (hg : s.ao.pwrgood = false) (hs : s.ao.supplies = true) (hp : s.ao.porHeld = false)
    (he : s.ao.engDis = false) : pwrgoodRise s = startUp s.good := by
  unfold pwrgoodRise
  rw [if_neg (by simp [hg, hs]), if_neg (by simp [hp, he])]
  rfl

/-- What the obligation says of a start-up. -/
theorem Started.runs {i : Instr} {s u t : State} (h : Started u t) (he : exec i s = .next t) : Runs i s fun t =>
    Touches [F.AO_CLKST_CC_OK.off] u.switchedOn t ∧ t.flag F.AO_CLKST_CC_OK = false ∧ t.flag F.AO_CLKST_PN_OK = false
      ∧ t.flag F.AO_CLKST_CC_SAFE = true ∧ t.flag F.AO_CLKST_PN_SAFE = true :=
  ⟨t, he, h.touches, h.ccOk, h.pnOk, h.ccSafe, h.pnSafe⟩

/-! ### What waits when a fill ends -/

theorem hptDrain_idle {s : State} (hs : s.hpt.slots = []) (ha : s.tdu.acc.wait = none) : hptDrain s = s := by
  unfold hptDrain
  rw [hs]
  unfold drainSlots dbgRetry
  simp only [ha]
  rw [← hs]

theorem settle_held {s : State} (hc : s.ao.coreHeld = true) (hr : s.tdu.haltReq = none) : settle s = s := by
  have hf : s.firmware = false := by simp [State.firmware, State.coreUp, hc]
  have hp : pumpHooks 16 s = s := by
    unfold pumpHooks
    rw [if_pos (by simp [hf])]
  unfold settle haltSettle
  rw [hp, hr]

/-! ### The core's release (R94, R216) -/

/-- The same engine with other hooks due, the BOOT hook done or not. -/
def State.putHooks (l : List HookDue) (b : Bool) (s : State) : State := { s with cc := { s.cc with hooks := l, booting := b } }

theorem zero_read (a : Nat) : Store.zero.read a = ⟨0, false⟩ := by
  have hdata : Store.zero.dataAt a = 0 := rfl
  have hchk : Store.zero.chkAt a = 0 := rfl
  unfold Store.read
  rw [hdata, hchk, eccRead_clean]
  rfl

theorem noteCode_empty {k : Nat} (hk : k < 8) {s : State} (hz : s.hb = .zero) : noteCode (hookAddr k) 8 s = s := by
  have hwords : ∀ k < 8, wordsOf (hookAddr k - 0x600000) 8 = [(8 * k, 255)] := by decide
  unfold noteCode noteReads
  rw [if_pos (by unfold hookAddr; omega), hwords k hk]
  exact noteRead_clean .hb _ _ fun j _ => congrArg (Store.chkAt · _) hz

/-- A hook of a table that holds zeros is absent. -/
theorem callHook_empty {s : State} {h : HookDue} (hk : h.k < 8) (hz : s.hb = .zero) : callHook h s = (s, .absent) := by
  have hcode : s.codeBytes (hookAddr h.k) 8 = List.replicate 8 ⟨0, false⟩ := by
    refine List.ext_getElem (by simp [State.codeBytes]) fun j hj _ => ?_
    have hj8 : j < 8 := by simpa [State.codeBytes] using hj
    simp only [State.codeBytes, hookAddr, List.getElem_map, List.getElem_range, List.getElem_replicate]
    rw [if_pos (by omega), hz, zero_read]
  unfold callHook
  rw [hcode, noteCode_empty hk hz]
  rfl

/-- With an empty table the hooks that are called change nothing but which hooks are due. -/
theorem pumpHooks_empty (n : Nat) {s : State} (hz : s.hb = .zero) (hk : ∀ h ∈ s.cc.hooks, h.k = 3 ∨ h.k = 4) :
    ∃ l b, pumpHooks n s = s.putHooks l b := by
  induction n generalizing s with
  | zero => exact ⟨_, _, rfl⟩
  | succ n ih =>
    unfold pumpHooks
    split
    · exact ⟨_, _, rfl⟩
    · split
      · exact ⟨_, _, rfl⟩
      · next h rest hh =>
        rw [hh] at hk
        have hrest := fun g hg => hk g (List.mem_cons_of_mem h hg)
        have h3or4 := hk h List.mem_cons_self
        have hcall : callHook h { s with cc := { s.cc with hooks := rest } } = (s.putHooks rest s.cc.booting, .absent) :=
          callHook_empty (s := s.putHooks rest s.cc.booting) (by omega) hz
        rw [hcall]
        rcases h3or4 with h3 | h4
        · obtain ⟨l, b, he⟩ := ih (s := s.putHooks rest s.cc.booting) hz hrest
          refine ⟨l, b, ?_⟩
          simp only [hookDone, h3]
          exact he
        · obtain ⟨l, b, he⟩ := ih (s := s.putHooks rest false) hz hrest
          refine ⟨l, b, ?_⟩
          simp only [hookDone, h4]
          exact he

/-- The core starts anew. -/
def State.anew (s : State) : State :=
  { s with ao := { s.ao with coreHeld := false }, cc := { CcSt.reset with booting := true, nextLmov := s.cc.nextLmov } }

/-- The core as its release puts it in place, HPT asleep still. -/
def State.unheld (s : State) : State := s.anew.setFlag F.AO_MODE_BUSY false

/-- The core as its release leaves it: the BOOT hook is due before the others. -/
def State.released (s : State) : State :=
  { s.unheld with
    hpt := (hptWakes s.unheld).hpt
    cc := { s.unheld.cc with hooks := ⟨4, getBits (s.reg F.AO_RSTCAUSE_POR.off) 0 6, none⟩ :: s.cc.hooks } }

/-- The BOOT hook is due before the hooks `l`. -/
def State.bootDue (arg : Nat) (l : List HookDue) (s : State) : State :=
  let t := queueHook 4 arg none s
  { t with cc := { t.cc with hooks := t.cc.hooks ++ l } }

theorem hptWakes_bootDue (s : State) :
    (hptWakes s.unheld).bootDue (getBits (s.reg F.AO_RSTCAUSE_POR.off) 0 6) s.cc.hooks = s.released := by
  rw [hptWakes_eq]
  rfl

theorem coreRelease_eq {s : State} (hh : s.ao.coreHeld = true) (hf : s.ao.filling = false) (hr : s.inReset = false) (ha : s.asleep = false)
    (hm : s.mode ≠ Mode.off) : coreRelease s = settle s.released := by
  unfold coreRelease
  rw [if_neg (by simp [hr, ha, hh, hf, hm])]
  exact congrArg settle (hptWakes_bootDue s)

theorem released_idle (s : State) : s.released.flag F.AO_MODE_BUSY = false :=
  State.flag_setFlag s.anew F.AO_MODE_BUSY false (by decide) (by decide)

theorem unheld_mode (s : State) : s.unheld.mode = s.mode := State.fld_setFld_other s.anew F.AO_MODE_BUSY F.AO_MODE_MODE _ (by decide) (by decide)

theorem released_awake {s : State} (hr : s.inReset = false) (ha : s.asleep = false) (hm : s.mode ≠ Mode.off) (hc : s.ccOk = true)
    (hs : s.ao.sleep = .none) : s.released.hpt.awake = true := by
  have hon : s.unheld.cclkOn = true := by
    have hreset : s.unheld.inReset = s.inReset := rfl
    simp only [State.cclkOn, State.asleep, hreset, unheld_mode, hr] at ha ⊢
    simp [ha, hm]
  have hok : s.unheld.ccOk = true := (State.flag_setFlag_other s.anew F.AO_MODE_BUSY F.AO_CLKST_CC_OK _ (by decide) (by decide)).trans hc
  have hsleep : s.unheld.ao.sleep = .none := hs
  change (hptWakes s.unheld).hpt.awake = true
  unfold hptWakes
  rw [if_pos (by simp [hon, hok, hsleep])]

/-- What the release of the core shows. -/
theorem coreRelease_shows {s : State} (hh : s.ao.coreHeld = true) (hf : s.ao.filling = false) (hr : s.inReset = false)
    (ha : s.asleep = false) (hm : s.mode ≠ Mode.off) (hz : s.hb = .zero) (hq : s.tdu.haltReq = none) (hk : ∀ h ∈ s.cc.hooks, h.k = 3) :
    ∃ l b, coreRelease s = s.released.putHooks l b := by
  have hhooks : ∀ h ∈ s.released.cc.hooks, h.k = 3 ∨ h.k = 4 := by
    intro h hm
    rcases List.mem_cons.mp hm with rfl | hm
    · exact .inr rfl
    · exact .inl (hk h hm)
  obtain ⟨l, b, he⟩ := pumpHooks_empty 16 (s := s.released) hz hhooks
  refine ⟨l, b, ?_⟩
  have hnone : (s.released.putHooks l b).tdu.haltReq = none := hq
  rw [coreRelease_eq hh hf hr ha hm]
  unfold settle haltSettle
  rw [he, hnone]

/-! ### The fill's end (R116) -/

/-- The stores after the fill. -/
def State.emptied (s : State) : State :=
  { s with ao := { s.ao with filling := false }, spm := .zero, hb := .zero, cstore := [], fixups := [] }

/-- The stores and SCRUB_OWNb after the fill. -/
def State.filled (s : State) : State := (List.range (spmBanks s.build)).foldl (fun t b => t.setFld (F.SCRUB_OWN_OWNER b) 0) s.emptied

theorem setOwners_shows (l : List Nat) (s : State) : let t := l.foldl (fun t b => t.setFld (F.SCRUB_OWN_OWNER b) 0) s
    t = { s with rf := t.rf } ∧ (∀ b, (b ∈ l ∨ s.fld (F.SCRUB_OWN_OWNER b) = 0) → t.fld (F.SCRUB_OWN_OWNER b) = 0)
      ∧ ∀ off, off < 0x48100 → t.reg off = s.reg off := by
  induction l generalizing s with
  | nil => exact ⟨rfl, fun b hb => hb.resolve_left List.not_mem_nil, fun _ _ => rfl⟩
  | cons a l ih =>
    obtain ⟨hrest, hown, hregs⟩ := ih (s.setFld (F.SCRUB_OWN_OWNER a) 0)
    refine ⟨hrest, fun b hb => hown b ?_, fun off ho => (hregs off ho).trans (State.reg_setFld_ne _ _ _ _ (by simp only; omega))⟩
    by_cases hab : b = a
    · exact .inr (by rw [hab, State.fld_setFld _ _ _ (by simp), Nat.zero_mod])
    · rcases hb with hb | hb
      · exact .inl ((List.mem_cons.mp hb).resolve_left hab)
      · exact .inr ((State.fld_setFld_other _ _ _ _ (by simp) (.inl (by simp only; omega))).trans hb)

/-- The records of errors and collisions start anew. -/
def State.recordsCleared (s : State) : State :=
  (((s.setReg F.SCRUB_ERR_VALID.off 0).setFld F.SCRUB_CCNT_SPM 0).setFld F.SCRUB_CCNT_HB 0).setReg F.HB_COLL_VALID.off 0

theorem recordsCleared_reg {s : State} {off : Nat} (h : off < 0x48000 ∨ 0x48018 ≤ off) : s.recordsCleared.reg off = s.reg off := by
  unfold State.recordsCleared
  rw [State.reg_setReg_ne _ _ _ _ (by simp only; omega), State.reg_setFld_ne _ _ _ _ (by simp only; omega),
    State.reg_setFld_ne _ _ _ _ (by simp only; omega), State.reg_setReg_ne _ _ _ _ (by simp only; omega)]

theorem recordsCleared_shows (s : State) : s.recordsCleared.reg F.SCRUB_ERR_VALID.off = 0 ∧ s.recordsCleared.reg F.HB_COLL_VALID.off = 0
    ∧ s.recordsCleared.fld F.SCRUB_CCNT_SPM = 0 ∧ s.recordsCleared.fld F.SCRUB_CCNT_HB = 0 := by
  have hcoll (u : State) (v : W64) (f : FRef) (h : f.off ≠ F.HB_COLL_VALID.off) : (u.setReg F.HB_COLL_VALID.off v).fld f = u.fld f := by
    unfold State.fld
    rw [State.reg_setReg_ne _ _ _ _ h]
  unfold State.recordsCleared
  refine ⟨?_, State.reg_setReg_self .., ?_, ?_⟩
  · rw [State.reg_setReg_ne _ _ _ _ (by decide), State.reg_setFld_ne _ _ _ _ (by decide), State.reg_setFld_ne _ _ _ _ (by decide),
      State.reg_setReg_self]
  · rw [hcoll _ _ _ (by decide), State.fld_setFld_other _ _ _ _ (by decide) (by decide), State.fld_setFld _ _ _ (by decide), Nat.zero_mod]
  · rw [hcoll _ _ _ (by decide), State.fld_setFld _ _ _ (by decide), Nat.zero_mod]

theorem fillComplete_eq {s : State} (hf : s.ao.filling = true) (hr : s.inReset = false) (hc : s.ccOk = true) :
    fillComplete s = (modeDone s.filled).recordsCleared := by
  unfold fillComplete
  rw [if_neg (by simp [hf, hr, hc])]
  rfl

theorem filled_mode (s : State) : s.filled.mode = s.mode := by
  obtain ⟨-, -, hregs⟩ := setOwners_shows (List.range (spmBanks s.build)) s.emptied
  unfold State.mode State.fld
  exact congrArg (getBits · _ _) (hregs _ (by decide))

/-- What the end of the fill shows. -/
structure Filled (s t : State) : Prop where
  filling : t.ao.filling = false
  hb : t.hb = .zero
  spm : t.spm = .zero
  cstore : t.cstore = []
  err : t.reg F.SCRUB_ERR_VALID.off = 0
  coll : t.reg F.HB_COLL_VALID.off = 0
  ccntSpm : t.fld F.SCRUB_CCNT_SPM = 0
  ccntHb : t.fld F.SCRUB_CCNT_HB = 0
  owners : ∀ b, b < spmBanks s.build → t.fld (F.SCRUB_OWN_OWNER b) = 0
  cc : t.cc = { s.cc with hooks := s.cc.hooks ++ [⟨3, s.mode, none⟩] }
  mode : t.mode = s.mode

theorem fillComplete_filled {s : State} (hf : s.ao.filling = true) (hr : s.inReset = false) (hc : s.ccOk = true) : Filled s (fillComplete s) := by
  rw [fillComplete_eq hf hr hc]
  obtain ⟨hrest, hown, -⟩ := setOwners_shows (List.range (spmBanks s.build)) s.emptied
  obtain ⟨herr, hcoll, hspm, hhb⟩ := recordsCleared_shows (modeDone s.filled)
  have hfld {f : FRef} (h : f.off < 0x48000 ∨ 0x48018 ≤ f.off) : (modeDone s.filled).recordsCleared.fld f = s.filled.fld f := by
    unfold State.fld
    rw [recordsCleared_reg h]
    rfl
  refine ⟨(congrArg (fun t : State => t.ao.filling) hrest :), (congrArg State.hb hrest :), (congrArg State.spm hrest :), (congrArg State.cstore hrest :),
    herr, hcoll, hspm, hhb, fun b hb => (hfld (.inr (by simp only; omega))).trans (hown b (.inl (List.mem_range.mpr hb))), ?_,
    (hfld (.inl (by decide))).trans (filled_mode s)⟩
  have hcc : s.filled.cc = s.cc := (congrArg State.cc hrest :)
  have hdone : (modeDone s.filled).recordsCleared.cc = { s.filled.cc with hooks := s.filled.cc.hooks ++ [⟨3, s.filled.mode, none⟩] } := rfl
  rw [hdone, hcc, filled_mode]

/-- What a due fill's end leaves alone, so that nothing waits for it. -/
theorem fillComplete_rest {s : State} (hf : s.ao.filling = true) (hr : s.inReset = false) (hc : s.ccOk = true) :
    (fillComplete s).hpt = s.hpt ∧ (fillComplete s).tdu = s.tdu ∧ (fillComplete s).ao.coreHeld = s.ao.coreHeld := by
  rw [fillComplete_eq hf hr hc]
  obtain ⟨hrest, -, -⟩ := setOwners_shows (List.range (spmBanks s.build)) s.emptied
  exact ⟨(congrArg State.hpt hrest :), (congrArg State.tdu hrest :), (congrArg (fun t : State => t.ao.coreHeld) hrest :)⟩

theorem fillComplete_settled {s : State} (hf : s.ao.filling = true) (hh : s.ao.coreHeld = true) (hr : s.inReset = false) (hc : s.ccOk = true)
    (hs : s.hpt.slots = []) (ha : s.tdu.acc.wait = none) (hq : s.tdu.haltReq = none) : settle (hptDrain (fillComplete s)) = fillComplete s := by
  obtain ⟨hhpt, htdu, hheld⟩ := fillComplete_rest hf hr hc
  rw [hptDrain_idle (by rw [hhpt, hs]) (by rw [htdu, ha]), settle_held (by rw [hheld, hh]) (by rw [htdu, hq])]

/-! ### O6 -/

/-- Settles O6: the fill's end finds the core held, so no hook is called; at the core's release every hook of the empty table is absent. -/
theorem powerOnStartUpAndDisable : Obligations.PowerOnStartUpAndDisable := by
  unfold Obligations.PowerOnStartUpAndDisable
  refine ⟨fun s => ⟨⟨_, rfl, fun _ => rfl, rfl, rfl, rfl, rfl, rfl, rfl, rfl, rfl⟩, fun hp hs he => ⟨fun hg => ?_, fun hg => ?_⟩, fun hg hs hp he => ?_,
    fun hf hh hr hc hs ha hq => ?_, fun hh hf hr ha hm hz hq hk => ?_, ⟨_, rfl, ?_, rfl, rfl, rfl, rfl, fun off ho => ?_⟩⟩,
    fun s he => ⟨_, rfl, powerOnReset_disabled he⟩⟩
  · refine congrArg Host.Outcome.next ?_
    rw [powerOnRelease_eq hp hs he, if_neg (by rw [hg]; decide)]
    rfl
  · refine (startUp_started s.powerReleased).runs ?_
    refine congrArg Host.Outcome.next ?_
    rw [powerOnRelease_eq hp hs he, if_pos hg]
  · refine (startUp_started s.good).runs ?_
    refine congrArg Host.Outcome.next ?_
    rw [pwrgoodRise_eq hg hs hp he]
  · obtain ⟨h1, h2, h3, h4, h5, h6, h7, h8, h9, h10, h11⟩ := fillComplete_filled hf hr hc
    refine .of_powered rfl (aoOn_of_inReset hr) ?_
    rw [fillComplete_settled hf hh hr hc hs ha hq]
    exact ⟨h1, h2, h3, h4, h5, h6, h7, h8, h9, h10, h11⟩
  · obtain ⟨l, b, ht⟩ := coreRelease_shows hh hf hr ha hm hz hq hk
    refine .of_powered rfl (aoOn_of_inReset hr) ?_
    rw [ht]
    exact ⟨rfl, released_idle s, rfl, rfl, rfl, released_awake hr ha hm⟩
  · exact State.fld_setFld _ F.AO_MODE_MODE Mode.off (by decide)
  · exact State.reg_setFld_ne _ F.AO_MODE_MODE _ _ ho

end Sys2Proof.Machine
end

section
/-!
PROOFS. Lines of the coded windows: GF(2^8), the division by the generator, what a coded line reads (R118, R120, R122).
-/

namespace Sys2Proof.Machine

/-! ### Additive functions on bytes -/

/-- Zero as the model writes it is neutral. -/
theorem xor_zero_byte (a : Byte) : a ^^^ 0 = a := BitVec.xor_zero

theorem zero_xor_byte (a : Byte) : 0 ^^^ a = a := BitVec.zero_xor

/-- A function on bytes that respects XOR, the addition of GF(2^8). -/
def XorHom (f : Byte → Byte) : Prop := ∀ a b, f (a ^^^ b) = f a ^^^ f b

theorem XorHom.zero {f : Byte → Byte} (h : XorHom f) : f 0 = 0 := by
  simpa using h 0 0

theorem XorHom.comp {f g : Byte → Byte} (hf : XorHom f) (hg : XorHom g) : XorHom fun a => f (g a) := fun a b =>
  (congrArg f (hg a b)).trans (hf _ _)

theorem XorHom.xor {f g : Byte → Byte} (hf : XorHom f) (hg : XorHom g) : XorHom fun a => f a ^^^ g a := by
  intro a b
  dsimp only
  rw [hf, hg]
  ac_rfl

theorem XorHom.const_zero : XorHom fun _ => 0 := fun _ _ => (xor_zero_byte 0).symm

/-- The XOR of the bits of a byte below `n`. -/
def lowBits (b : Byte) : Nat → Byte
  | 0 => 0
  | n + 1 => lowBits b n ^^^ (if b.getLsbD n then 1#8 <<< n else 0)

theorem lowBits_all : ∀ b : Byte, lowBits b 8 = b := by decide +kernel

/-- Additive functions that agree on the eight powers of x agree. -/
theorem XorHom.ext {f g : Byte → Byte} (hf : XorHom f) (hg : XorHom g) (h : ∀ k : Fin 8, f (1#8 <<< k.val) = g (1#8 <<< k.val)) (b : Byte) :
    f b = g b := by
  have hlow : ∀ n, n ≤ 8 → f (lowBits b n) = g (lowBits b n) := by
    intro n
    induction n with
    | zero => exact fun _ => hf.zero.trans hg.zero.symm
    | succ n ih =>
      intro hn
      rw [lowBits, hf, hg, ih (by omega)]
      split
      · rw [h ⟨n, hn⟩]
      · rw [hf.zero, hg.zero]
  rw [← lowBits_all b]
  exact hlow 8 (Nat.le_refl 8)

/-! ### Multiplication in GF(2^8) -/

theorem gfX_xor : XorHom gfX := by
  intro a b
  unfold gfX
  rw [BitVec.getLsbD_xor, BitVec.shiftLeft_xor_distrib]
  cases a.getLsbD 7 <;> cases b.getLsbD 7 <;>
    simp only [Bool.xor_false, Bool.xor_true, Bool.not_true, Bool.not_false, Bool.false_eq_true, if_true, if_false]
  · ac_rfl
  · ac_rfl
  · rw [show a <<< 1 ^^^ 29#8 ^^^ (b <<< 1 ^^^ 29#8) = a <<< 1 ^^^ b <<< 1 ^^^ (29#8 ^^^ 29#8) by ac_rfl, BitVec.xor_self, BitVec.xor_zero]

theorem gfMulN_xor_left (b : Byte) (n : Nat) : XorHom fun a => gfMulN a b n := by
  induction n with
  | zero => exact .const_zero
  | succ n ih =>
    refine (gfX_xor.comp ih).xor fun a c => ?_
    split
    · rfl
    · rw [xor_zero_byte]

theorem gfMulN_xor_right (a : Byte) (n : Nat) : XorHom fun b => gfMulN a b n := by
  induction n with
  | zero => exact .const_zero
  | succ n ih =>
    refine (gfX_xor.comp ih).xor fun b c => ?_
    rw [BitVec.getLsbD_xor]
    cases b.getLsbD (7 - n) <;> cases c.getLsbD (7 - n) <;> simp

/-- Multiplication distributes over addition on both sides. -/
theorem gfMul_xor_left (b : Byte) : XorHom fun a => gfMul a b := gfMulN_xor_left b 8

theorem gfMul_xor_right (a : Byte) : XorHom (gfMul a) := gfMulN_xor_right a 8

theorem zero_gfMul (b : Byte) : gfMul 0 b = 0 := (gfMul_xor_left b).zero

theorem gfMul_one : ∀ a, gfMul a 1 = a := by decide +kernel

theorem gfMul_comm (a b : Byte) : gfMul a b = gfMul b a := by
  refine (gfMul_xor_left b).ext (gfMul_xor_right b) (fun j => ?_) a
  refine (gfMul_xor_right (1#8 <<< j.val)).ext (gfMul_xor_left (1#8 <<< j.val)) (fun k => ?_) b
  revert j k
  decide +kernel

theorem gfMul_assoc (a b c : Byte) : gfMul (gfMul a b) c = gfMul a (gfMul b c) := by
  refine ((gfMul_xor_left c).comp (gfMul_xor_left b)).ext (gfMul_xor_left (gfMul b c)) (fun i => ?_) a
  refine ((gfMul_xor_left c).comp (gfMul_xor_right _)).ext ((gfMul_xor_right _).comp (gfMul_xor_left c)) (fun j => ?_) b
  refine (gfMul_xor_right (gfMul _ _)).ext ((gfMul_xor_right _).comp (gfMul_xor_right _)) (fun k => ?_) c
  revert i j k
  decide +kernel

theorem gfMul_right_comm (a b c : Byte) : gfMul (gfMul a b) c = gfMul (gfMul a c) b := by
  rw [gfMul_assoc, gfMul_comm b c, ← gfMul_assoc]

/-! ### Evaluation of polynomials -/

/-- Evaluation from a running value on: Horner's rule. -/
def hornerFrom (x v : Byte) (l : List Byte) : Byte := l.foldl (fun acc b => gfMul acc x ^^^ b) v

theorem polyEval_append (l m : List Byte) (x : Byte) : polyEval (l ++ m) x = hornerFrom x (polyEval l x) m := List.foldl_append

theorem polyEval_cons_horner (b : Byte) (l : List Byte) (x : Byte) : polyEval (b :: l) x = hornerFrom x b l := by
  rw [polyEval, List.foldl_cons, zero_gfMul, zero_xor_byte]
  rfl

/-- `x` to the power n times a value. -/
def timesPow (x v : Byte) (n : Nat) : Byte := gfMul v (gfPow x n)

theorem timesPow_succ (x v : Byte) (n : Nat) : timesPow x v (n + 1) = timesPow x (gfMul v x) n := (gfMul_assoc v x _).symm

/-- A running value is carried along times a power of the point. -/
theorem hornerFrom_eq (x v : Byte) (l : List Byte) : hornerFrom x v l = timesPow x v l.length ^^^ polyEval l x := by
  induction l generalizing v with
  | nil => exact ((xor_zero_byte _).trans (gfMul_one v)).symm
  | cons b l ih =>
    rw [polyEval_cons_horner, ih b, List.length_cons, timesPow_succ, ← BitVec.xor_assoc]
    refine (ih _).trans (congrArg (· ^^^ polyEval l x) ?_)
    exact gfMul_xor_left _ _ _

theorem polyEval_cons (b : Byte) (l : List Byte) (x : Byte) : polyEval (b :: l) x = timesPow x b l.length ^^^ polyEval l x := by
  rw [polyEval_cons_horner, hornerFrom_eq]

theorem polyEval_append_eq (l m : List Byte) (x : Byte) :
    polyEval (l ++ m) x = timesPow x (polyEval l x) m.length ^^^ polyEval m x := by
  rw [polyEval_append, hornerFrom_eq]

theorem polyEval_snoc (l : List Byte) (b x : Byte) : polyEval (l ++ [b]) x = gfMul (polyEval l x) x ^^^ b := polyEval_append l [b] x

theorem polyEval_zipWith_xor (l m : List Byte) (x : Byte) (h : l.length = m.length) :
    polyEval (List.zipWith (· ^^^ ·) l m) x = polyEval l x ^^^ polyEval m x := by
  induction l generalizing m with
  | nil => cases m with
    | nil => exact (xor_zero_byte 0).symm
    | cons b m => cases h
  | cons a l ih => cases m with
    | nil => cases h
    | cons b m =>
      have hlen : l.length = m.length := Nat.succ.inj h
      have hadd : timesPow x (a ^^^ b) m.length = timesPow x a m.length ^^^ timesPow x b m.length := gfMul_xor_left _ _ _
      rw [List.zipWith_cons_cons, polyEval_cons, polyEval_cons, polyEval_cons, ih m hlen, List.length_zipWith, hlen, Nat.min_self, hadd]
      ac_rfl

theorem polyEval_map_gfMul (f x : Byte) (l : List Byte) : polyEval (l.map (gfMul f)) x = gfMul f (polyEval l x) := by
  induction l with
  | nil => exact (gfMul_xor_right f).zero.symm
  | cons b l ih =>
    rw [List.map_cons, polyEval_cons, polyEval_cons, ih, gfMul_xor_right f, List.length_map, timesPow, gfMul_assoc]
    rfl

/-! ### The division by the generator -/

/-- A point at which the monic polynomial x^16 + tail vanishes. -/
def RootOf (tail : List Byte) (x : Byte) : Prop := polyEval tail x = gfPow x 16

theorem rsShift_length {tail reg : List Byte} (ht : tail.length = 16) (hr : reg.length = 16) (b : Byte) : (rsShift tail reg b).length = 16 := by
  simp [rsShift, ht, hr]

/-- One step of the division, at a root of the divisor: the remainder is shifted and takes the symbol times x^16. -/
theorem polyEval_rsShift {tail reg : List Byte} {x : Byte} (ht : tail.length = 16) (hr : reg.length = 16) (hx : RootOf tail x) (b : Byte) :
    polyEval (rsShift tail reg b) x = gfMul (polyEval reg x) x ^^^ timesPow x b 16 := by
  obtain ⟨c, l, rfl⟩ := List.exists_cons_of_length_eq_add_one hr
  have hl : l.length = 15 := Nat.succ.inj hr
  have hshift : gfMul (timesPow x c 15) x = timesPow x c 16 := by
    rw [timesPow, gfMul_assoc, gfMul_comm (gfPow x 15) x]
    rfl
  have hadd : timesPow x (c ^^^ b) 16 = timesPow x c 16 ^^^ timesPow x b 16 := gfMul_xor_left _ _ _
  have hmul : gfMul (timesPow x c 15 ^^^ polyEval l x) x = timesPow x c 16 ^^^ gfMul (polyEval l x) x :=
    (gfMul_xor_left x _ _).trans (congrArg (· ^^^ _) hshift)
  rw [rsShift, polyEval_zipWith_xor _ _ _ (by simp [hl, ht]), polyEval_map_gfMul, hx, List.tail_cons, List.headD_cons, polyEval_snoc,
    xor_zero_byte, polyEval_cons, hl, hmul]
  change _ ^^^ timesPow x (c ^^^ b) 16 = _
  rw [hadd]
  ac_rfl

/-- The remainder of `data` times x^16: of 16 symbols, and at a root of the divisor the same as `data` times x^16. -/
theorem foldl_rsShift {tail : List Byte} (ht : tail.length = 16) (data : List Byte) {reg : List Byte} (hr : reg.length = 16) :
    (data.foldl (rsShift tail) reg).length = 16 ∧ ∀ x, RootOf tail x →
      polyEval (data.foldl (rsShift tail) reg) x = timesPow x (polyEval reg x) data.length ^^^ timesPow x (polyEval data x) 16 := by
  induction data generalizing reg with
  | nil =>
    refine ⟨hr, fun x _ => ?_⟩
    rw [show timesPow x (polyEval [] x) 16 = 0 from zero_gfMul _, xor_zero_byte]
    exact (gfMul_one _).symm
  | cons b data ih =>
    obtain ⟨hlen, heval⟩ := ih (rsShift_length ht hr b)
    refine ⟨hlen, fun x hx => ?_⟩
    have hadd (v w : Byte) (n : Nat) : timesPow x (v ^^^ w) n = timesPow x v n ^^^ timesPow x w n := gfMul_xor_left _ _ _
    rw [List.foldl_cons, heval x hx, polyEval_rsShift ht hr hx, hadd, ← timesPow_succ, polyEval_cons, hadd, List.length_cons,
      show timesPow x (timesPow x b 16) data.length = timesPow x (timesPow x b data.length) 16 from gfMul_right_comm _ _ _]
    ac_rfl

/-! ### The code -/

theorem genPoly_tail_length : (genPoly 16).tail.length = 16 := by decide +kernel

/-- The powers 0 to 15 of the primitive element are roots of the generator. -/
theorem genPoly_roots : ∀ i : Fin 16, RootOf (genPoly 16).tail (alpha i) := by
  unfold RootOf
  decide +kernel

theorem rsCheck_length (data : List Byte) : (rsCheck data).length = 16 := (foldl_rsShift genPoly_tail_length data (by rfl)).1

theorem polyEval_zeros (x : Byte) (n : Nat) : polyEval (List.replicate n 0) x = 0 := by
  induction n with
  | zero => rfl
  | succ n ih => rw [List.replicate_succ, polyEval_cons, ih, xor_zero_byte, timesPow, zero_gfMul]

/-- At the roots of the generator the check symbols are the data times x^16. -/
theorem polyEval_rsCheck (data : List Byte) (i : Fin 16) :
    polyEval (rsCheck data) (alpha i) = timesPow (alpha i) (polyEval data (alpha i)) 16 := by
  refine ((foldl_rsShift genPoly_tail_length data (by rfl)).2 _ (genPoly_roots i)).trans ?_
  rw [polyEval_zeros, show timesPow (alpha i) 0 data.length = 0 from zero_gfMul _, zero_xor_byte]

/-- In valid form every syndrome is zero (R120). -/
theorem syndrome_valid (data : List Byte) (i : Fin 16) : syndrome (rsEncode data false) i = 0 := by
  change polyEval (data ++ rsCheck data) (alpha i) = 0
  rw [polyEval_append_eq, rsCheck_length, polyEval_rsCheck, BitVec.xor_self]
  rfl

theorem rsPennantMask_length : rsPennantMask.length = 16 := by decide +kernel

/-- The pattern M of R120 has syndrome 1 at S15 and zero before. -/
theorem polyEval_rsPennantMask : ∀ i : Fin 16, polyEval rsPennantMask (alpha i) = if i = 15 then 1 else 0 := by decide +kernel

/-- In pennant form S15 is 1 and every other syndrome is zero (R120). -/
theorem syndrome_pennant (data : List Byte) (i : Fin 16) : syndrome (rsEncode data true) i = if i = 15 then 1 else 0 := by
  change polyEval (data ++ List.zipWith (· ^^^ ·) (rsCheck data) rsPennantMask) (alpha i) = _
  have hlen : (rsCheck data).length = rsPennantMask.length := (rsCheck_length data).trans rsPennantMask_length.symm
  rw [polyEval_append_eq, List.length_zipWith, hlen, Nat.min_self, rsPennantMask_length, polyEval_zipWith_xor _ _ _ hlen, polyEval_rsCheck,
    ← BitVec.xor_assoc, BitVec.xor_self, BitVec.zero_xor, polyEval_rsPennantMask]

/-! ### What a coded line reads -/

/-- The syndromes of a line in pennant form. -/
def pennantSyndromes : List Byte := List.replicate 15 0 ++ [1]

theorem syndromes_pennant (data : List Byte) : syndromes (rsEncode data true) = pennantSyndromes := by
  have h : syndromes (rsEncode data true) = (List.finRange 16).map fun i => syndrome (rsEncode data true) i.val := by
    rw [syndromes, ← List.map_coe_finRange_eq_range, List.map_map]
    rfl
  rw [h, funext (syndrome_pennant data)]
  decide +kernel

theorem locator_pennant : (locator pennantSyndromes).l = 16 := by decide +kernel

/-- The syndromes of a pennant belong to no pattern of at most 8 symbols (R122). -/
theorem identify_pennant : identify pennantSyndromes = none := by
  unfold identify
  extract_lets bm c pos pat
  have hl : bm.l = 16 := locator_pennant
  rw [if_neg (by rw [hl]; simp)]

/-- The locator of zero syndromes is the constant 1. -/
theorem locator_zeros : (locator (List.replicate 16 0)).l = 0 ∧ (locator (List.replicate 16 0)).c = [1] := by decide +kernel

/-- Zero syndromes belong to the empty pattern: the constant 1 has no root. -/
theorem identify_zeros : identify (List.replicate 16 0) = some [] := by
  have hone (x : Byte) : polyEvalLo [1] x = 1 := (congrArg (· ^^^ 1) (zero_gfMul x)).trans (zero_xor_byte 1)
  have hpos : (List.range 80).filter (fun k => polyEvalLo [1] (gfInv (alpha (79 - k))) == 0) = [] :=
    List.filter_eq_nil_iff.mpr fun k _ => by rw [hone]; decide
  obtain ⟨hl, hc⟩ := locator_zeros
  simp only [identify, hl, hc, Nat.zero_add, List.take_succ_cons, List.take_nil, hpos, List.map_nil]
  rfl

theorem flipLast_pennant : flipLast pennantSyndromes = List.replicate 16 0 := by decide

theorem decodeLine_pennant (data : List Byte) : decodeLine (rsEncode data true) = .pennant [] := by
  have hne : pennantSyndromes.all (· == 0) = false := by decide
  simp only [decodeLine, syndromes_pennant, hne, identify_pennant, flipLast_pennant, identify_zeros, Bool.false_eq_true, if_false]

theorem rsEncode_take (data : List Byte) (pen : Bool) : (rsEncode data pen).take data.length = data := List.take_left

theorem rsEncode_length (data : List Byte) (pen : Bool) : (rsEncode data pen).length = data.length + 16 := by
  cases pen <;> simp [rsEncode, rsCheck_length, rsPennantMask_length]

/-- Settles O20: the generator's roots make every syndrome of a valid line zero; the pennant's pattern adds 1 at S15 alone, which no
correctable error does. -/
theorem codedLinesReadAsWritten : Obligations.CodedLinesReadAsWritten := by
  unfold Obligations.CodedLinesReadAsWritten
  intro data pen hlen
  refine ⟨by rw [rsEncode_length, hlen], ?_⟩
  have htake (p : Bool) : (rsEncode data p).take 64 = data := hlen ▸ rsEncode_take data p
  cases pen with
  | false => rw [readLine_clean (.inr fun j hj => syndrome_valid data ⟨j, hj⟩), htake]; rfl
  | true => simp [readLine, decodeLine_pennant, LineOutcome.fixes, applyPattern_nil, htake]

end Sys2Proof.Machine
end

section
/-!
PROOFS. Bytes of SPM and HB: single and double errors, writes, the write-back of a correction (R105 to R109).
-/

namespace Sys2Proof.Machine

/-! ### One byte of a store -/

theorem Store.dataAt_set (m : Store) (a b : Nat) (d : Byte) (e : BitVec 5) : (m.set a d e).dataAt b = if b = a then d else m.dataAt b :=
  SMap.get_put _ _ _ _ _

theorem Store.chkAt_set (m : Store) (a b : Nat) (d : Byte) (e : BitVec 5) : (m.set a d e).chkAt b = if b = a then e else m.chkAt b :=
  SMap.get_put _ _ _ _ _

/-- What a read delivers, from the outcome of its classification. -/
def delivered (r : EccOutcome × Byte) : PByte := ⟨r.2, r.1 == .pennant || r.1 == .uncorrectable⟩

theorem Store.read_set (m : Store) (a b : Nat) (d : Byte) (e : BitVec 5) :
    (m.set a d e).read b = if b = a then delivered (eccRead d e) else m.read b := by
  rw [Store.read, Store.dataAt_set, Store.chkAt_set]
  split <;> rfl

theorem Store.read_set_ne (m : Store) {a b : Nat} (d : Byte) (e : BitVec 5) (h : b ≠ a) : (m.set a d e).read b = m.read b := by
  rw [Store.read_set, if_neg h]

/-- A byte written anew, or in pennant form, reads so (R107, R108). -/
theorem Store.read_write_self (m : Store) (a : Nat) (b : PByte) : (m.write a b).read a = b := by
  obtain ⟨v, pen⟩ := b
  rw [Store.write, Store.read_set, if_pos rfl]
  cases pen with
  | false => simp only [Bool.false_eq_true, if_false, eccRead_clean]; rfl
  | true => simp only [if_true, eccRead_pennant]; rfl

/-! ### The code of a byte (R105, R106) -/

/-- The classification depends on the syndrome alone, and a correction inverts the same bits of any data. -/
theorem eccRead_eq (d : Byte) (e : BitVec 5) : eccRead d e = ((eccRead 0 e).1, d ^^^ (eccRead 0 e).2) := by
  unfold eccRead
  dsimp only
  split
  · split
    · cases hammingData (e.toNat % 16) <;> simp
    · simp
  · split
    · simp
    · split <;> simp

/-- The check bits of the bits of a byte below `n`, one bit after the other. -/
def checkSum (d : Byte) : Nat → BitVec 5
  | 0 => 0
  | n + 1 => checkSum d n ^^^ (if d.getLsbD n then checkBits (1#8 <<< n) else 0)

theorem checkBits_eq_checkSum : ∀ d : Byte, checkBits d = checkSum d 8 := by decide +kernel

theorem checkSum_xor (a b : Byte) (n : Nat) : checkSum (a ^^^ b) n = checkSum a n ^^^ checkSum b n := by
  induction n with
  | zero => exact BitVec.xor_self.symm
  | succ n ih =>
    rw [checkSum, checkSum, checkSum, ih, BitVec.getLsbD_xor]
    cases a.getLsbD n <;> cases b.getLsbD n <;>
      simp only [Bool.xor_false, Bool.xor_true, Bool.not_true, Bool.not_false, Bool.false_eq_true, if_true, if_false, BitVec.ofNat_eq_ofNat,
        BitVec.xor_zero]
    · ac_rfl
    · ac_rfl
    · rw [BitVec.xor_assoc, BitVec.xor_comm (checkBits _), BitVec.xor_assoc, BitVec.xor_self, BitVec.xor_zero]

/-- The check bits are additive: those of inverted data differ by the check bits of the inversion. -/
theorem checkBits_xor (a b : Byte) : checkBits (a ^^^ b) = checkBits a ^^^ checkBits b := by
  simp only [checkBits_eq_checkSum, checkSum_xor]

/-- The syndrome that inverted stored bits leave on a byte in order. -/
def flipSyndrome (bits : Nat) : BitVec 5 := checkBits (BitVec.ofNat 8 bits) ^^^ BitVec.ofNat 5 (bits / 256)

theorem Store.read_invert {m : Store} {a : Nat} (h : m.chkAt a = 0) (bits : Nat) :
    (m.invert a bits).read a = delivered (eccRead (m.dataAt a ^^^ BitVec.ofNat 8 bits) (flipSyndrome bits)) := by
  have hchk : m.chkAt a ^^^ checkBits (m.dataAt a) ^^^ checkBits (m.dataAt a ^^^ BitVec.ofNat 8 bits) ^^^ BitVec.ofNat 5 (bits / 256)
      = flipSyndrome bits := by
    rw [h, checkBits_xor, ← BitVec.xor_assoc, BitVec.xor_assoc 0, BitVec.xor_self]
    exact congrArg (· ^^^ _) BitVec.zero_xor
  rw [← hchk]
  exact (Store.read_set ..).trans (if_pos rfl)

theorem Store.read_invert_ne (m : Store) {a b : Nat} (bits : Nat) (h : b ≠ a) : (m.invert a bits).read b = m.read b := m.read_set_ne _ _ h

/-- One inverted bit is found, and the correction inverts it again. -/
theorem eccRead_flip_one : ∀ k : Fin 13, eccRead 0 (flipSyndrome (2 ^ k.val)) = (.corrected, BitVec.ofNat 8 (2 ^ k.val)) := by decide +kernel

theorem eccRead_flip_two : ∀ j k : Fin 13, j ≠ k → (delivered (eccRead 0 (flipSyndrome (2 ^ j.val + 2 ^ k.val)))).pen = true := by
  decide +kernel

/-- A single error is corrected. -/
theorem Store.read_invert_one {m : Store} {a k : Nat} (hk : k < 13) (h : m.chkAt a = 0) : (m.invert a (2 ^ k)).read a = ⟨m.dataAt a, false⟩ := by
  rw [Store.read_invert h, eccRead_eq, eccRead_flip_one ⟨k, hk⟩, BitVec.xor_assoc, BitVec.xor_self, BitVec.xor_zero]
  rfl

/-- A double error is pennanted. -/
theorem Store.read_invert_two {m : Store} {a j k : Nat} (hj : j < 13) (hk : k < 13) (hjk : j ≠ k) (h : m.chkAt a = 0) :
    ((m.invert a (2 ^ j + 2 ^ k)).read a).pen = true := by
  rw [Store.read_invert h, eccRead_eq]
  exact eccRead_flip_two ⟨j, hj⟩ ⟨k, hk⟩ fun e => hjk (Fin.val_eq_of_eq e)

/-! ### The write-back (R109) -/

/-- A store in which a correction has been written back, if there was one. -/
def Store.writtenBack (m : Store) (a : Nat) : Store :=
  let r := eccRead (m.dataAt a) (m.chkAt a)
  if r.1 = .corrected then m.set a r.2 0 else m

theorem Store.read_writtenBack (m : Store) (a b : Nat) : (m.writtenBack a).read b = m.read b := by
  unfold Store.writtenBack
  extract_lets r
  split
  · rename_i hr
    rw [Store.read_set]
    split
    · rename_i hb
      rw [hb, eccRead_clean]
      change _ = delivered r
      rw [delivered, delivered, hr]
      rfl
    · rfl
  · rfl

theorem Store.chkAt_writtenBack {m : Store} {a : Nat} (h : (eccRead (m.dataAt a) (m.chkAt a)).1 = .corrected) :
    (m.writtenBack a).chkAt a = 0 := by
  rw [Store.writtenBack, if_pos h, Store.chkAt_set, if_pos rfl]

/-- The write-back of byte `a` has had its turn. -/
def State.writtenBack (s : State) (x : StoreSel) (a : Nat) : State :=
  { s.setStore x ((s.store x).writtenBack a) with fixups := s.fixups.filter fun f => !(f == ⟨x, a⟩) }

theorem State.store_writtenBack (s : State) (x y : StoreSel) (a : Nat) :
    (s.writtenBack x a).store y = if y = x then (s.store x).writtenBack a else s.store y := State.store_setStore s x y _

theorem State.setStore_self (s : State) (x : StoreSel) : s.setStore x (s.store x) = s := by
  cases x <;> rfl

theorem correctionWriteBack_due {s : State} {x : StoreSel} {a : Nat} (h : s.fixups.contains ⟨x, a⟩ = true) :
    correctionWriteBack x a s = s.writtenBack x a := by
  rw [correctionWriteBack, if_pos h, State.writtenBack, Store.writtenBack]
  extract_lets r s1
  split
  · cases x <;> rfl
  · rw [State.setStore_self]

/-- A cancelled write-back does nothing. -/
theorem correctionWriteBack_cancelled {s : State} {x : StoreSel} {a : Nat} (h : s.fixups.contains ⟨x, a⟩ = false) :
    correctionWriteBack x a s = s := by
  rw [correctionWriteBack, if_neg (by rw [h]; decide)]

theorem State.writtenBack_fixups (s : State) (x : StoreSel) (a : Nat) : (s.writtenBack x a).fixups.contains ⟨x, a⟩ = false := by
  simp [State.writtenBack]

/-- Settles O21: a byte's check bits are additive, so an inversion shows as its own syndrome whatever the data. -/
theorem bytesOfTheStores : Obligations.BytesOfTheStores := by
  unfold Obligations.BytesOfTheStores
  intro s x a m
  refine ⟨fun j k hj hk h => ⟨Store.read_invert_one hk h, fun hjk => Store.read_invert_two hj hk hjk h, fun b hb => m.read_invert_ne _ hb⟩,
    fun b => ⟨m.read_write_self a b, fun c hc => m.read_set_ne _ _ hc⟩, fun hc => ⟨fun hf => ?_, fun hf => ?_⟩⟩
  · exact .of_clocked rfl (correctionWriteBack_cancelled hf)
  · refine .of_clocked rfl hc ?_
    rw [correctionWriteBack_due hf]
    have hown : (s.writtenBack x a).store x = m.writtenBack a := (State.store_writtenBack ..).trans (if_pos rfl)
    refine ⟨s.writtenBack_fixups x a, fun b => ?_, fun y hy => (State.store_writtenBack ..).trans (if_neg hy), fun hr => ?_, by cases x <;> rfl⟩
    · rw [hown, Store.read_writtenBack]
    · rw [hown, Store.chkAt_writtenBack hr]

end Sys2Proof.Machine
end

section
/-!
PROOFS. The banks of SPM: owners, release, an armed injection (R111, R134, R138).
-/

namespace Sys2Proof.Machine

/-! ### Owners (R111) -/

/-- A machine-level write of byte 0 is judged by its code. -/
theorem scrubOwnRegWrite_machine (b : Nat) {v : Nat} (hv : v < 256) (s : State) :
    scrubOwnRegWrite (.core 2) b 1 (BitVec.ofNat 64 v) s = scrubOwnWrite b v s := by
  have hbits : getBits (BitVec.ofNat 64 v) 0 8 = v := by
    simp only [getBits, bitsOf, BitVec.toNat_ofNat]
    omega
  rw [scrubOwnRegWrite, if_pos ⟨rfl, by decide⟩, hbits]

section Owner
variable {s : State} {b v : Nat}

/-- A bank takes an owner, or begins its release. -/
theorem scrubOwnWrite_takes (hb : b < spmBanks s.build) (ho : ownerCodeOk v = true) (hr : s.fld (F.SCRUB_OWN_OWNER b) ≠ 0xFF)
    (hv : v ≠ 0 ∨ s.fld (F.SCRUB_OWN_OWNER b) ≠ 0) :
    scrubOwnWrite b v s = s.setFld (F.SCRUB_OWN_OWNER b) (if v = 0 then 0xFF else v) := by
  unfold scrubOwnWrite
  rw [if_neg (by simp [Nat.not_le.mpr hb, hr, ho])]
  by_cases h0 : v = 0
  · rw [if_pos h0, if_pos h0, if_neg (hv.resolve_left (not_not_intro h0))]
  · rw [if_neg h0, if_neg h0]

theorem scrubOwnWrite_discarded
    (h : s.fld (F.SCRUB_OWN_OWNER b) = 0xFF ∨ ownerCodeOk v = false ∨ (v = 0 ∧ s.fld (F.SCRUB_OWN_OWNER b) = 0)) : scrubOwnWrite b v s = s := by
  unfold scrubOwnWrite
  rcases h with hr | ho | ⟨rfl, h0⟩
  · rw [if_pos (by simp [hr])]
  · rw [if_pos (by simp [ho])]
  · simp [h0]

end Owner

/-! ### The end of a release (R111) -/

/-- A zeroed bank reads zero, and every other byte of SPM as before. -/
theorem zeroBank_read (b a : Nat) (s : State) :
    (zeroBank b s).spm.read a = if b * 0x20000 ≤ a ∧ a < (b + 1) * 0x20000 then ⟨0, false⟩ else s.spm.read a := by
  unfold zeroBank Store.read Store.dataAt Store.chkAt
  dsimp only
  split
  · rename_i h
    rw [SMap.get_of_unlisted, SMap.get_of_unlisted, eccRead_clean]
    · rfl
    all_goals
      intro p hp hpa
      have hout := (List.mem_filter.mp hp).2
      simp [hpa, h] at hout
  · rename_i h
    rw [SMap.get_filter, SMap.get_filter]
    all_goals
      intro v
      simp only [Bool.not_eq_true', Bool.and_eq_false_iff, decide_eq_false_iff_not]
      omega

/-- What the end of a release makes of the state: the bank zero and free, the source raised. -/
structure BankFreed (b : Nat) (s t : State) : Prop where
  regs : SetsRegs (fun off => off = (F.SCRUB_OWN_OWNER b).off ∨ off = (F.DIC_SRC_COUNT 330).off) (zeroBank b s) t
  owner : t.fld (F.SCRUB_OWN_OWNER b) = 0
  count : t.fld (F.DIC_SRC_COUNT 330) = min 15 (s.fld (F.DIC_SRC_COUNT 330) + 1)

theorem bankReleaseDone_freed {b : Nat} {s : State} (hc : s.cclkOn = true) (hr : s.fld (F.SCRUB_OWN_OWNER b) = 0xFF)
    (ht : s.tdu.selftest = none) : BankFreed b s (bankReleaseDone b s) := by
  have hoff : (F.DIC_SRC_COUNT 330).off ≠ (F.SCRUB_OWN_OWNER b).off := by simp only; omega
  have hc1 : ((zeroBank b s).setFld (F.SCRUB_OWN_OWNER b) 0).cclkOn = true :=
    (State.cclkOn_setFld _ _ _ (by simp only; omega)).trans hc
  unfold bankReleaseDone
  rw [if_pos (by rw [hr, ht]; rfl)]
  refine ⟨(SetsRegs.setFld _ 0 (.inl rfl)).trans (.raise hc1 (by decide) rfl (.inr rfl)), ?_, ?_⟩
  · rw [State.fld_raise_other hc1 (by decide) rfl (by simp) (.inl hoff.symm), State.fld_setFld _ _ _ (by simp)]
    rfl
  · rw [State.fld_raise hc1 (by decide) rfl, State.fld_setFld_other _ _ _ _ (by decide) (.inl hoff)]
    rfl

theorem BankFreed.rest {b : Nat} {s t : State} (h : BankFreed b s t) : t = { s with rf := t.rf, spm := t.spm, fixups := t.fixups } := by
  rw [h.regs.rest]
  rfl

theorem BankFreed.spm {b : Nat} {s t : State} (h : BankFreed b s t) : t.spm = (zeroBank b s).spm := by rw [h.regs.rest]

/-- Nothing waits for a release that ends in a calm state. -/
theorem BankFreed.settled {b : Nat} {s t : State} (h : BankFreed b s t) (hs : s.calm) (hp : s.hpt.slots = []) (ha : s.tdu.acc.wait = none) :
    settle (hptDrain t) = t := by
  obtain ⟨hhooks, hhalt⟩ := hs
  rw [hptDrain_idle (by rw [h.rest]; exact hp) (by rw [h.rest]; exact ha), settle_calm ⟨by rw [h.rest]; exact hhooks, by rw [h.rest]; exact hhalt⟩]

/-! ### An armed injection (R134) -/

/-- SCRUB_INJ in the register map. -/
def injGrp : RegGrp := ⟨0x048018, 0x8, 1, never, zeroReset,
  [⟨63, 1, .rw, .mpt, anyEnc, fullMask⟩,
   ⟨56, 4, .rw, .mpt, fun _i v => v ≤ 9, fullMask⟩,
   ⟨52, 4, .rw, .mpt, fun _i v => 1 ≤ v && v ≤ 8, fullMask⟩,
   ⟨32, 13, .rw, .mpt, anyEnc, fullMask⟩,
   ⟨0, 2, .rw, .mpt, anyEnc, fullMask⟩]⟩

theorem regAt_inj : regAt 0x048018 = some (injGrp, 0) := rfl

/-- Every field of SCRUB_INJ takes what is written to it, unless its encoding is reserved. -/
theorem fld_plainWrite_inj (s : State) (w : Writer) (v : W64) {f : FDesc} (hf : f ∈ injGrp.flds) :
    (s.plainWrite w 0x048018 0xFF v).fld ⟨0x048018, f.lo, f.w⟩
      = if f.enc 0 (getBits v f.lo f.w) = true then getBits v f.lo f.w else s.fld ⟨0x048018, f.lo, f.w⟩ := by
  have hbound : f.lo + f.w ≤ 64 := (regAt_tidy regAt_inj).1 f hf
  have habsent : absentReg s.build 0x048018 = false := by cases s.build <;> rfl
  have hmask : beMask 0xFF = BitVec.allOnes 64 := by decide
  have hkind : f.acc = .rw ∧ f.mask = fullMask ∧ getBits (BitVec.allOnes 64) f.lo f.w ≠ 0 := by
    revert f
    simp only [injGrp, List.forall_mem_cons, List.not_mem_nil, false_imp_iff, implies_true, and_true]
    decide
  obtain ⟨hacc, hfull, hen⟩ := hkind
  have hput := State.getBits_written (s := s) (w := w) (be := 0xFF) (data := v) regAt_inj habsent rfl hf
  rw [hmask, getBits_mergeFld_open _ _ _ _ _ _ _ hbound hen (.inl hacc), taken_all hbound hfull] at hput
  simpa only [State.plainWrite, State.fld, State.reg_setReg_self] using hput

section Inj
variable (s : State) (w : Writer) (v : W64)

/-- A write of SCRUB_INJ touches its register alone. -/
theorem scrubInjWrite_setsRegs : SetsRegs (· = 0x048018) s (scrubInjWrite w 0xFF v s) := by
  have hplain : SetsRegs (· = 0x048018) s (s.plainWrite w 0x048018 0xFF v) := ⟨rfl, fun off ho => State.reg_setReg_ne _ _ _ _ ho⟩
  unfold scrubInjWrite
  extract_lets t
  split
  · exact hplain.trans (.setFld _ _ rfl)
  · exact hplain

/-- Its fields but TARGET are as the register map says. -/
theorem fld_scrubInjWrite {f : FDesc} (hf : f ∈ injGrp.flds) (h2 : 2 ≤ f.lo) :
    (scrubInjWrite w 0xFF v s).fld ⟨0x048018, f.lo, f.w⟩
      = if f.enc 0 (getBits v f.lo f.w) = true then getBits v f.lo f.w else s.fld ⟨0x048018, f.lo, f.w⟩ := by
  rw [← fld_plainWrite_inj s w v hf]
  unfold scrubInjWrite
  extract_lets t
  split
  · exact State.fld_setFld_other _ _ _ _ ((regAt_tidy regAt_inj).1 f hf) (.inr (.inr h2))
  · rfl

/-- TARGET keeps its value where AVLIN-D lacks the port written. -/
theorem fld_scrubInjWrite_target : (scrubInjWrite w 0xFF v s).fld F.SCRUB_INJ_TARGET
    = if s.build = .d ∧ 2 ≤ getBits v 0 2 then s.fld F.SCRUB_INJ_TARGET else getBits v 0 2 := by
  have ht : (s.plainWrite w 0x048018 0xFF v).fld F.SCRUB_INJ_TARGET = getBits v 0 2 :=
    fld_plainWrite_inj s w v (f := ⟨0, 2, .rw, .mpt, anyEnc, fullMask⟩) (by simp [injGrp])
  have hlt : s.fld F.SCRUB_INJ_TARGET < 2 ^ 2 := Nat.mod_lt _ (by decide)
  unfold scrubInjWrite
  extract_lets t
  rw [show t.fld F.SCRUB_INJ_TARGET = getBits v 0 2 from ht]
  split
  · rw [State.fld_setFld _ _ _ (by decide), Nat.mod_eq_of_lt hlt]
  · exact ht

end Inj

end Sys2Proof.Machine
end

section
/-!
PROOFS. The scrubber: how a scrub begins, and how one without errors ends (R135 to R137).
-/

namespace Sys2Proof.Machine

/-! ### The scrubs in progress -/

theorem find_insert {α : Type} (l : List (Nat × α)) (a b : Nat) (v : α) (h : ∀ p ∈ l, p.1 ≠ a) :
    (SMap.insert a v l).find? (fun p => p.1 == b) = if b = a then some (a, v) else l.find? fun p => p.1 == b := by
  induction l with
  | nil =>
    rw [SMap.insert, List.find?_singleton, List.find?_nil]
    exact if_congr (beq_iff_eq.trans eq_comm) rfl rfl
  | cons p l ih =>
    obtain ⟨k, w⟩ := p
    have hk : k ≠ a := h (k, w) (by simp)
    have ih := ih fun p hp => h p (by simp [hp])
    unfold SMap.insert
    split
    · rw [List.find?_cons]
      by_cases hb : b = a
      · simp [hb]
      · simp [hb, beq_false_of_ne (Ne.symm hb)]
    · rw [List.find?_cons, List.find?_cons, ih]
      by_cases hb : k = b
      · simp [← hb, hk]
      · simp [beq_false_of_ne hb]

/-- The scrub of a space after that of one space has been set. -/
theorem State.scrub?_setScrub (s : State) (sp j : Nat) (r : Option ScrubRun) :
    (s.setScrub sp r).scrub? j = if j = sp then r else s.scrub? j := by
  have hrest : (s.scrubs.filter fun p => p.1 != sp).find? (fun p => p.1 == j) = if j = sp then none else s.scrubs.find? fun p => p.1 == j := by
    rw [List.find?_filter]
    split
    · rename_i hj
      simp [hj]
    · rename_i hj
      congr 1
      funext p
      by_cases hp : p.1 = j <;> simp [hp, hj]
  unfold State.scrub? State.setScrub
  cases r with
  | none =>
    dsimp only
    rw [hrest]
    split <;> rfl
  | some x =>
    dsimp only
    rw [find_insert _ _ _ _ fun p hp => by simpa using (List.mem_filter.mp hp).2, hrest]
    split <;> rfl

/-! ### SCRUB (R135, R136) -/

/-- A scrub as SCRUB starts it. -/
def Cmd.scrubRun (c : Cmd) : ScrubRun :=
  ⟨c.id, byteAt c.params 1, leAt c.params 8 8, leAt c.params 16 8, leAt c.params 8 8, none, 0, 0, none, none, []⟩

/-- The scrub of a command has been taken up. -/
def State.scrubBegun (s : State) (c : Cmd) (sp : Nat) : State := (s.setCmd { c with phase := .running }).setScrub sp (some c.scrubRun)

section Due
variable {s : State} {c : Cmd} {sp : Nat} (h : s.Due c 0x5001)
include h

theorem State.Due.answers {st : Nat} (hf : scrub c.id s = finish c.id st [] s) : Answers (.scrub c.id) s c st [] s :=
  .of_clocked rfl (State.live_clocked h.live) (hf ▸ Answers.of_finish h st [] rfl rfl rfl rfl)

theorem scrub_bad (hb : scrubBad s c.params = true) : scrub c.id s = finish c.id Status.badParam [] s :=
  (withStarted_due h _).trans (if_pos hb)

theorem State.Due.running_eq : s.running c.id = s.setCmd { c with phase := .running } := by
  rw [State.running, h.found]

variable (hsp : byteAt c.params 0 = sp) (hb : scrubBad s c.params = false)
include hsp hb

/-- A stop of nothing. -/
theorem scrub_stopsNothing (hl : leAt c.params 16 8 = 0) (hn : s.scrub? sp = none) : scrub c.id s = finish c.id Status.ok [] s := by
  subst hsp
  refine (withStarted_due h _).trans ?_
  dsimp only
  rw [if_neg (by simp [hb]), if_pos hl, hn]

theorem scrub_busy (hl : leAt c.params 16 8 ≠ 0) (hs : (s.scrub? sp).isSome = true) : scrub c.id s = finish c.id Status.busy [] s := by
  subst hsp
  refine (withStarted_due h _).trans ?_
  dsimp only
  rw [if_neg (by simp [hb]), if_neg hl, if_pos hs]

theorem scrub_begins (hl : leAt c.params 16 8 ≠ 0) (hn : s.scrub? sp = none) :
    scrub c.id s = if sp < 2 then scrubAsk sp c.scrubRun (s.scrubBegun c sp) else s.scrubBegun c sp := by
  subst hsp
  refine (withStarted_due h _).trans ?_
  dsimp only
  rw [if_neg (by simp [hb]), if_neg hl, if_neg (by simp [hn]), h.running_eq]
  rfl

end Due

theorem State.scrubBegun_cmd? {s : State} {c : Cmd} (h : s.cmd? c.id = some c) (sp : Nat) :
    (s.scrubBegun c sp).cmd? c.id = some { c with phase := .running } :=
  (State.cmd?_setCmd s { c with phase := .running } c.id (Option.isSome_iff_exists.mpr ⟨c, h⟩)).trans (if_pos rfl)

theorem State.scrub?_setPort (s : State) (n j : Nat) (p : MptPort) : (s.setPort n p).scrub? j = s.scrub? j := by
  unfold State.setPort
  split <;> rfl

theorem State.cmd?_setPort (s : State) (n id : Nat) (p : MptPort) : (s.setPort n p).cmd? id = s.cmd? id := by
  unfold State.setPort
  split <;> rfl

theorem State.port_setPort (s : State) (n : Nat) (p : MptPort) : (s.setPort n p).port n = p := by
  unfold State.setPort State.port
  split <;> rfl

theorem State.setPort_rest (s : State) (n : Nat) (p : MptPort) :
    s.setPort n p = { s with mpt0 := (s.setPort n p).mpt0, mpt1 := (s.setPort n p).mpt1 } := by
  unfold State.setPort
  split <;> rfl

/-! ### The end of a scrub without errors (R136, R137) -/

/-- A range whose check bits all fit holds no word to look at. -/
theorem suspectWords_clean {m : Store} {start stop : Nat} (h : ∀ p ∈ m.chk, ¬ (start ≤ p.1 ∧ p.1 < stop)) : suspectWords m start stop = [] := by
  have hnone : (m.chk.filter fun p => decide (start ≤ p.1) && decide (p.1 < stop)) = [] :=
    List.filter_eq_nil_iff.mpr fun p hp => by simpa using h p hp
  rw [suspectWords, hnone]
  rfl

theorem scrubStore_clean {x : StoreSel} {r : ScrubRun} {stop : Nat} {s : State}
    (h : ∀ p ∈ (s.store x).chk, ¬ (r.pos ≤ p.1 ∧ p.1 < stop)) : scrubStore x r stop s = ({ r with pos := stop }, s) := by
  rw [scrubStore, suspectWords_clean h]
  rfl

/-- The space of a store (R135). -/
def storeSpace (x : StoreSel) : Nat := match x with | .spm => 2 | .hb => 3

theorem scrubDone_clean {x : StoreSel} {r : ScrubRun} {s : State} (hr : s.scrub? (storeSpace x) = some r) (hs : r.stopping = none)
    (h : ∀ p ∈ (s.store x).chk, ¬ (r.pos ≤ p.1 ∧ p.1 < r.start + r.len)) :
    scrubDone (storeSpace x) s = scrubEnd (storeSpace x) { r with pos := r.start + r.len } s := by
  have hspace : ¬ storeSpace x < 2 ∧ (if storeSpace x = 2 then StoreSel.spm else StoreSel.hb) = x := by cases x <;> decide
  rw [scrubDone, hr]
  dsimp only
  rw [if_neg hspace.1, hspace.2, if_neg (by simp [hs]), scrubStore_clean h]

/-- The first `n` words of a summary in the registers of its space. -/
def State.summed (s : State) (sp : Nat) (l : List Byte) (n : Nat) : State :=
  (List.range n).foldl (fun t w => t.setReg (F.SCRUB_SUM_SUM sp w).off (BitVec.ofNat 64 (leAt l (8 * w) 8))) s

theorem State.summed_succ (s : State) (sp : Nat) (l : List Byte) (n : Nat) :
    s.summed sp l (n + 1) = (s.summed sp l n).setReg (F.SCRUB_SUM_SUM sp n).off (BitVec.ofNat 64 (leAt l (8 * n) 8)) := by
  simp [State.summed, List.range_succ]

theorem State.summed_setsRegs (s : State) (sp : Nat) (l : List Byte) (n : Nat) : SetsRegs (fun _ => True) s (s.summed sp l n) := by
  induction n with
  | zero => exact .refl s
  | succ n ih =>
    rw [State.summed_succ]
    exact ih.trans ⟨rfl, fun _ h => absurd trivial h⟩

theorem State.reg_summed (s : State) (sp : Nat) (l : List Byte) {n w : Nat} (hw : w < n) :
    (s.summed sp l n).reg (F.SCRUB_SUM_SUM sp w).off = BitVec.ofNat 64 (leAt l (8 * w) 8) := by
  induction n with
  | zero => cases hw
  | succ n ih =>
    rw [State.summed_succ]
    rcases Nat.lt_succ_iff_lt_or_eq.mp hw with h | rfl
    · rw [State.reg_setReg_ne _ _ _ _ (by simp only; omega), ih h]
    · rw [State.reg_setReg_self]

theorem leBytes_length (n v : Nat) : (leBytes n v).length = n := by
  induction n generalizing v with
  | zero => rfl
  | succ n ih => rw [leBytes, List.length_cons, ih]

/-- Bytes spell the number they were taken from, as far as they reach. -/
theorem leNat_leBytes (n v : Nat) : leNat (leBytes n v) = v % 256 ^ n := by
  induction n generalizing v with
  | zero => exact (Nat.mod_one v).symm
  | succ n ih =>
    rw [leBytes, leNat, ih, BitVec.toNat_ofNat]
    exact Nat.mod_mul.symm.trans (congrArg (v % ·) Nat.pow_succ'.symm)

theorem leAt_append {a b : List Byte} (c : List Byte) {lo n : Nat} (ha : a.length = lo) (hb : b.length = n) :
    leAt (a ++ (b ++ c)) lo n = leNat b := by
  rw [leAt, List.drop_left' ha, List.take_left' hb]

/-- SCANNED of a summary: the bytes from the start to where the reading stands. -/
theorem summary_scanned (r : ScrubRun) (sp : Nat) : leAt (r.summary sp) 8 8 = (r.pos - r.start) % 2 ^ 64 := by
  have hhead : (leBytes 4 r.uncorr ++ leBytes 4 r.penn).length = 8 := by rw [List.length_append, leBytes_length, leBytes_length]
  rw [ScrubRun.summary]
  simp only [List.append_assoc]
  rw [← List.append_assoc (leBytes 4 r.uncorr), leAt_append _ hhead (leBytes_length 8 _), leNat_leBytes]
  rfl

/-- A scrub has ended: its summary is in the registers, and the space is free. -/
def State.scrubEnded (s : State) (sp : Nat) (l : List Byte) : State := (s.summed sp l 36).setScrub sp none

theorem State.scrubEnded_rest (s : State) (sp : Nat) (l : List Byte) :
    s.scrubEnded sp l = { s with rf := (s.scrubEnded sp l).rf, scrubs := (s.scrubEnded sp l).scrubs } := by
  have h := (s.summed_setsRegs sp l 36).rest
  unfold State.scrubEnded
  generalize s.summed sp l 36 = t at h ⊢
  rw [h]
  rfl

theorem State.reg_scrubEnded (s : State) (sp : Nat) (l : List Byte) {w : Nat} (hw : w < 36) :
    (s.scrubEnded sp l).reg (F.SCRUB_SUM_SUM sp w).off = BitVec.ofNat 64 (leAt l (8 * w) 8) := by
  have h := s.reg_summed sp l hw
  unfold State.scrubEnded
  generalize s.summed sp l 36 = t at h ⊢
  exact h

theorem State.scrubEnded_scrub? (s : State) (sp : Nat) (l : List Byte) : (s.scrubEnded sp l).scrub? sp = none :=
  (State.scrub?_setScrub ..).trans (if_pos rfl)

theorem State.InHand.scrubEnded {s : State} {c : Cmd} (h : s.InHand c) (sp : Nat) (l : List Byte) : (s.scrubEnded sp l).InHand c :=
  h.of_cmds (b := s.cmds.reportDue) (by rw [s.scrubEnded_rest])

theorem scrubEnd_replied {s : State} {c : Cmd} (h : s.InHand c) {r : ScrubRun} (hr : r.cmd = c.id) (sp : Nat) :
    Replied c Status.ok (r.summary sp) (s.scrubEnded sp (r.summary sp)) (scrubEnd sp r s) := by
  unfold scrubEnd
  rw [hr]
  exact finish_replied _ _ (h.scrubEnded sp _)

/-- Settles O22, by what each command makes of its registers, its bank or its scrub. -/
theorem banksInjectionAndScrubbing : Obligations.BanksInjectionAndScrubbing := by
  unfold Obligations.BanksInjectionAndScrubbing
  refine ⟨fun s b hc hb => ⟨fun v hv ho hr h0 => ?_, fun v hv hd => ?_, fun hs hr ht hp ha => ?_, fun w v => ?_⟩,
    fun s c sp => ⟨fun h hsp => ⟨fun hb => ?_, fun hb hl hn => ?_, fun hb hl hs => ?_, fun hb hl hn => ?_⟩,
      fun r x hlive hhand hr hcmd hstop hsp hclean => ?_, fun hn => ?_⟩⟩
  · refine .of_clocked rfl hc ?_
    rw [scrubOwnRegWrite_machine b hv, scrubOwnWrite_takes hb ho hr h0]
    exact .setFld (by simp only; split <;> omega) (by simp)
  · exact .of_clocked rfl ((scrubOwnRegWrite_machine b hv s).trans (scrubOwnWrite_discarded hd))
  · have hfreed := bankReleaseDone_freed hc hr ht
    refine .of_clocked rfl hc ?_
    rw [hfreed.settled hs hp ha]
    refine ⟨hfreed.owner, hfreed.count, fun a h1 h2 => ?_, fun a h => ?_, hfreed.rest, fun off h1 h2 => hfreed.regs.regs off (by simp [h1, h2])⟩
    · rw [hfreed.spm, zeroBank_read, if_pos ⟨h1, h2⟩]
    · rw [hfreed.spm, zeroBank_read, if_neg (by omega)]
  · have hsets := scrubInjWrite_setsRegs s w v
    refine .of_clocked rfl hc ⟨hsets.rest, ?_, ?_, fld_scrubInjWrite_target s w v, ?_, ?_, hsets.regs⟩
    · exact fld_scrubInjWrite s w v (f := ⟨63, 1, .rw, .mpt, anyEnc, fullMask⟩) (by simp [injGrp]) (by decide)
    · exact fld_scrubInjWrite s w v (f := ⟨32, 13, .rw, .mpt, anyEnc, fullMask⟩) (by simp [injGrp]) (by decide)
    · simpa using fld_scrubInjWrite s w v (f := ⟨56, 4, .rw, .mpt, fun _i v => v ≤ 9, fullMask⟩) (by simp [injGrp]) (by decide)
    · simpa using fld_scrubInjWrite s w v (f := ⟨52, 4, .rw, .mpt, fun _i v => 1 ≤ v && v ≤ 8, fullMask⟩) (by simp [injGrp]) (by decide)
  · exact h.answers (scrub_bad h hb)
  · exact h.answers (scrub_stopsNothing h hsp hb hl hn)
  · exact h.answers (scrub_busy h hsp hb hl hs)
  · refine .of_clocked rfl (State.live_clocked h.live) ?_
    rw [scrub_begins h hsp hb hl hn]
    have hself : (s.scrubBegun c sp).scrub? sp = some c.scrubRun := (State.scrub?_setScrub ..).trans (if_pos rfl)
    have hothers (j : Nat) (hj : j ≠ sp) : (s.scrubBegun c sp).scrub? j = s.scrub? j := (State.scrub?_setScrub ..).trans (if_neg hj)
    have hcmd := State.scrubBegun_cmd? h.found sp
    split
    · rename_i hport
      unfold scrubAsk State.mptQueue
      simp only [State.scrub?_setPort, State.cmd?_setPort, State.port_setPort]
      refine ⟨hself, hothers, hcmd, fun h2 => absurd hport (Nat.not_lt.mpr h2), fun _ => ⟨rfl, ?_⟩⟩
      rw [State.setPort_rest]
      rfl
    · rename_i hport
      exact ⟨hself, hothers, hcmd, fun _ => rfl, fun h2 => absurd h2 hport⟩
  · obtain rfl : sp = storeSpace x := hsp
    refine ⟨(summary_scanned _ _).trans (by rw [Nat.add_sub_cancel_left]), s.scrubEnded (storeSpace x) _, ?_,
      s.scrubEnded_scrub? _ _, s.scrubEnded_rest _ _, fun w hw => s.reg_scrubEnded _ _ hw⟩
    refine ⟨_, congrArg Host.Outcome.next (whileLive_on hlive _), ?_⟩
    rw [scrubDone_clean hr hstop hclean]
    exact scrubEnd_replied (r := { r with pos := r.start + r.len }) hhand hcmd _
  · refine congrArg Host.Outcome.next ?_
    rw [scrubDone, hn, whileLive, ite_self]

end Sys2Proof.Machine
end

section
/-!
PROOFS. The microsequencers: their register blocks, the words that act through their ALU, SYN and NXT fields alone (R143 to R149, R156,
R157, R160).
-/

namespace Sys2Proof.Machine

/-! ### Register blocks (R176) -/

theorem seqBase_bounds {q : Nat} (hq : q < 19) : 0x80000 ≤ seqBase q ∧ seqBase q ≤ 0x82100 := by
  unfold seqBase
  split
  · decide
  · split <;> omega

theorem seqBase_apart {p q : Nat} (hp : p < 19) (hq : q < 19) (h : p ≠ q) :
    seqBase p + 0x100 ≤ seqBase q ∨ seqBase q + 0x100 ≤ seqBase p := by
  unfold seqBase
  split <;> split <;> (try split) <;> (try split) <;> omega

/-- No register between the unit states and the timers reports. -/
theorem reportOff_between {off : Nat} (h1 : 0x3A000 ≤ off) (h2 : off < 0x2C0000) : reportOff off = false := by
  simp only [reportOff, Bool.or_eq_false_iff, Bool.and_eq_false_iff, beq_eq_false_iff_ne, decide_eq_false_iff_not]
  omega

theorem seqPresent_lt {b : Build} {q : Nat} (h : seqPresent b q = true) : q < 19 := by
  have hse : seCount b ≤ 16 := by cases b <;> decide
  simp only [seqPresent, Bool.or_eq_true, Bool.and_eq_true, beq_iff_eq, decide_eq_true_eq] at h
  omega

/-- The source that sequencer q raises beside its machine check is no reserved one. -/
theorem seqSource_open {k : Nat} (h32 : 32 ≤ k) (h : k < 384) : reservedSource k = false := by
  simp only [reservedSource, Bool.or_eq_false_iff, Bool.and_eq_false_iff, beq_eq_false_iff_ne, decide_eq_false_iff_not]
  omega

theorem State.seq_setFld (s : State) (f : FRef) (v q : Nat) : (s.setFld f v).seq q = s.seq q := rfl

theorem storeWords_le (k : SeqKind) : storeWords k ≤ 2 ^ 14 := by cases k <;> decide

theorem State.upcNext_lt (s : State) (q : Nat) : s.upcNext q < 2 ^ 14 :=
  Nat.lt_of_lt_of_le (Nat.mod_lt _ (by cases seqKind q <;> decide)) (storeWords_le _)

/-! ### Words without memory access, strobe, doorbell, trace, raw command and counter load -/

/-- What a word of `plainWord` leaves out. -/
structure MicroWord.Plain (m : MicroWord) : Prop where
  memOp : m.memOp = 0
  stg : m.stg = 0
  evt : m.evt = 0
  trc : bitOf m.trc 3 = false
  cus : bitOf m.cus 8 = false
  lctl : bitsOf m.lctl 6 2 = 0
  tests : m.tests = false

theorem MicroWord.plain_iff (m : MicroWord) : m.plainWord = true ↔ m.Plain := by
  simp only [plainWord, Bool.and_eq_true, beq_iff_eq, Bool.not_eq_true']
  exact ⟨fun ⟨⟨⟨⟨⟨⟨h1, h2⟩, h3⟩, h4⟩, h5⟩, h6⟩, h7⟩ => ⟨h1, h2, h3, h4, h5, h6, h7⟩,
    fun ⟨h1, h2, h3, h4, h5, h6, h7⟩ => ⟨⟨⟨⟨⟨⟨h1, h2⟩, h3⟩, h4⟩, h5⟩, h6⟩, h7⟩⟩

theorem MicroWord.idle_iff (m : MicroWord) : m.idleWord = true ↔ m.Plain ∧ m.alu = 0 ∧ m.nxt = 0 := by
  simp only [idleWord, Bool.and_eq_true, beq_iff_eq, m.plain_iff, and_assoc]

/-- The ALU's part of a word: its flags, and its result where DST names. -/
def aluPart (q : Nat) (m : MicroWord) (s t : State) : State :=
  let out := microAlu m.alu (s.operand q m.srca m.imm) (s.operand q m.srcb m.imm) (s.seqFlags q)
  if m.alu = 0 then t
  else if m.alu = 0xF then t.setSeqFlags q out.f
  else (t.setSeqFlags q out.f).setOperand q m.dst out.r

section Plain
variable {m : MicroWord} (h : m.Plain)
include h

theorem MicroWord.Plain.nxt_ne : m.nxt ≠ 2 ∧ m.nxt ≠ 4 ∧ m.nxt ≠ 6 ∧ m.nxt ≠ 0xA := by
  have ht := h.tests
  simp only [MicroWord.tests, Bool.or_eq_false_iff, beq_eq_false_iff_ne] at ht
  omega

theorem MicroWord.Plain.memAccess : m.memAccess = false := by simp [MicroWord.memAccess, h.memOp]

theorem MicroWord.Plain.group (g : Nat) : m.group g = 0 := by simp [MicroWord.group, h.stg, bitsOf]

theorem MicroWord.Plain.usesResult (hn : m.nxt ≠ 8) : m.usesResult = false := by
  simp only [MicroWord.usesResult, h.memOp, h.trc, h.group, beq_eq_false_iff_ne.mpr hn]
  rfl

theorem traceWord_plain (q upc : Nat) (r : W32) (s : State) : traceWord q m upc r s = s := by
  simp [traceWord, h.trc]

theorem lctlAct_plain (q : Nat) (a : W32) (s : State) : lctlAct q m a s = s := by
  simp [lctlAct, h.lctl]

theorem memAct_plain (q : Nat) (r mar : W32) (s : State) : memAct q m r mar s = s := by
  simp [memAct, h.memOp]

omit h in
theorem stageStrobe_none (q r j : Nat) (s0 s : State) : stageStrobe q r j 0 s0 s = s := if_pos rfl

omit h in
theorem laneStrobe_none (k mask round : Nat) (s : State) : laneStrobe k 0 mask round s = s := by
  simp [laneStrobe, bitOf]

theorem strobes_plain (q : Nat) (s0 s : State) : strobes q m s0 s = s := by
  unfold strobes
  cases seqKind q with
  | csq => rfl
  | psq => simp only [h.group, stageStrobe_none, List.foldl_fixed]
  | lsq => simp only [h.group, stageStrobe_none, laneStrobe_none, if_true, List.foldl_fixed]

/-- The CSQ's own groups do nothing either: a customer instruction in progress keeps its target and its strobes. -/
theorem csqStrobes_plain (a b r : W32) (s : State) : csqStrobes m a b r s = s := by
  unfold csqStrobes
  simp only [h.group, bitOf, Nat.zero_div, Nat.zero_mod, Nat.reduceBEq, Bool.false_eq_true, if_false, if_true, Nat.or_zero]
  cases hx : s.cc.cx with
  | none => rfl
  | some x => simp only [← hx]

omit h in
/-- Only DISP looks at the result. -/
theorem nextAct_result (hn : m.nxt ≠ 8) (q : Nat) (cond : Bool) (r : W32) (s0 s : State) :
    nextAct q m cond r s0 s = nextAct q m cond 0 s0 s := by
  unfold nextAct
  extract_lets x upc plus go push pop
  split
  case h_8 h8 => exact absurd h8 hn
  all_goals rfl

/-- Such a word is its ALU's part, then SYN, then NXT, in a running sequencer. -/
theorem wordAct_plain (q : Nat) (s : State) (hn : m.nxt ≠ 8) :
    wordAct q m s = nextAct q m (wordCond s q m) 0 s (synAct q m (aluPart q m s (s.setSeqState q SeqState.running))) := by
  unfold wordAct aluPart
  simp only [h.tests, h.usesResult hn, Bool.and_false, Bool.false_and, Bool.false_eq_true, if_false, traceWord_plain h, lctlAct_plain h,
    memAct_plain h, csqStrobes_plain h, strobes_plain h, ite_self, h.evt, h.cus, if_true, Bool.or_eq_true, decide_eq_true_eq,
    nextAct_result hn q (wordCond s q m)]
  by_cases h0 : m.alu = 0
  · simp only [h0, true_or, if_true]
  · by_cases hF : m.alu = 0xF
    · simp only [hF, or_true, if_true]
    · simp only [h0, hF, or_self, if_false]

end Plain

end Sys2Proof.Machine
end

section
/-!
PROOFS. Plain words: what becomes of them and where they lead (R143 to R149, R156, R157, R170).
-/

namespace Sys2Proof.Machine

/-! ### What becomes of a word (R157, R160, R170) -/

/-- The uses that R141 to R159 reserve, as the machine check of a word looks for them. -/
def State.reservedWord (s : State) (q : Nat) (m : MicroWord) : Bool :=
  reservedUse (seqKind q) m || branchBad (seqKind q) m || (s.build == .d && strobesAbsentSlot (seqKind q) m)

section Fate
variable {s : State} {q : Nat} {m : MicroWord}

theorem wordFate_reserved (h : s.reservedWord q m = true) : wordFate q m s = .check 4 := if_pos h

theorem wordFate_waits (h : s.reservedWord q m = false) (hn : m.nxt ≠ 0xA) (hs : m.synOp = 2)
    (hw : s.fld (F.SYN_COUNT m.synF) ≤ s.waitsBefore m.synF q) : wordFate q m s = .stalls := by
  refine (if_neg (ne_true_of_eq_false h)).trans ?_
  rw [if_neg (by simp [hn]), if_pos (by simp [hs, hw])]

/-- A plain word that does not wait is checked against the stack alone. -/
theorem wordFate_plain (h : s.reservedWord q m = false) (hp : m.Plain)
    (hs : m.synOp = 0 ∨ m.synOp = 2 ∧ s.waitsBefore m.synF q < s.fld (F.SYN_COUNT m.synF)) :
    wordFate q m s = if m.nxt = 3 ∧ 8 ≤ (s.seq q).stack.length then .check 2
      else if m.nxt = 5 ∧ (s.seq q).stack = [] then .check 3 else .runs := by
  obtain ⟨-, h4, h6, hA⟩ := hp.nxt_ne
  have hwait : (m.synOp = 2 && decide (s.fld (F.SYN_COUNT m.synF) ≤ s.waitsBefore m.synF q)) = false := by
    rcases hs with hs | ⟨-, hw⟩
    · simp [hs]
    · simp [Nat.not_le.mpr hw]
  have h3 : m.synOp ≠ 3 := by omega
  refine (if_neg (ne_true_of_eq_false h)).trans ?_
  simp [hwait, hp.memAccess, h3, h4, h6, hA]

theorem wordFate_runs (h : s.reservedWord q m = false) (hp : m.Plain)
    (hs : m.synOp = 0 ∨ m.synOp = 2 ∧ s.waitsBefore m.synF q < s.fld (F.SYN_COUNT m.synF))
    (h3 : m.nxt = 3 → (s.seq q).stack.length < 8) (h5 : m.nxt = 5 → (s.seq q).stack ≠ []) : wordFate q m s = .runs := by
  rw [wordFate_plain h hp hs, if_neg fun ⟨hn, hl⟩ => Nat.not_le.mpr (h3 hn) hl, if_neg fun ⟨hn, hl⟩ => h5 hn hl]

end Fate

/-- An issue that CCLK and the mode allow leads to the word's fate. -/
theorem lightWord_issues {s : State} {q : Nat} (hi : s.issues q = true) :
    lightWord q s = if parityErrors (s.nextWord q) ≠ 0 then seqCheck q 1 (parityErrors (s.nextWord q)) s
      else issueWord q (s.nextWord q) s := by
  unfold lightWord
  rw [if_neg (by simp [hi])]

/-! ### Where a plain word leads (R143) -/

/-- `t` is `s` after sequencer q, running, has gone to address `a` with its own state `y`; nothing else has changed. -/
structure SeqMoves (q a : Nat) (y : Seq) (s t : State) : Prop where
  rest : t = { s with rf := t.rf, seqs := t.seqs }
  state : t.seqState q = SeqState.running
  upc : t.upc q = a
  seq : t.seq q = y
  others : ∀ r, r ≠ q → t.seq r = s.seq r
  regs : ∀ off, off ≠ (F.SQ_STAT_UPC q).off → t.reg off = s.reg off

section Moves
variable {s : State} {q : Nat} {m : MicroWord}

/-- A running sequencer takes its own state and its next address. -/
theorem SeqMoves.of_running {v : State} {y : Seq} {a : Nat} (hv : v = { s.setSeqState q SeqState.running with seqs := v.seqs })
    (hy : ∀ r, v.seq r = if r = q then y else s.seq r) (ha : a < 2 ^ 14) : SeqMoves q a y s (v.setFld (F.SQ_STAT_UPC q) a) := by
  have hfld (f : FRef) : v.fld f = (s.setSeqState q SeqState.running).fld f := by rw [hv]; rfl
  refine ⟨?_, ?_, ?_, (hy q).trans (if_pos rfl), fun r hr => (hy r).trans (if_neg hr), fun off ho => ?_⟩
  · rw [hv]
    rfl
  · refine (State.fld_setFld_other _ _ _ _ (by simp) (.inr (.inl (by simp)))).trans ((hfld _).trans ?_)
    exact State.fld_setFld _ _ _ (by simp)
  · exact (State.fld_setFld _ _ _ (by simp)).trans (Nat.mod_eq_of_lt ha)
  · rw [State.reg_setFld_ne _ _ _ _ ho, hv]
    exact State.reg_setFld_ne s _ _ _ ho

/-- The same where the sequencer's own state stays. -/
theorem SeqMoves.on {a : Nat} (ha : a < 2 ^ 14) :
    SeqMoves q a (s.seq q) s ((s.setSeqState q SeqState.running).setFld (F.SQ_STAT_UPC q) a) :=
  .of_running rfl (fun r => by split <;> [subst r; skip] <;> rfl) ha

/-- The same where it is written anew. -/
theorem SeqMoves.put {a : Nat} (y : Seq) (ha : a < 2 ^ 14) :
    SeqMoves q a y s (((s.setSeqState q SeqState.running).setSeq q y).setFld (F.SQ_STAT_UPC q) a) :=
  .of_running rfl (fun r => State.seq_setSeq _ q r y) ha

theorem nextAct_plus (hn : m.nxt = 0) (c : Bool) (r : W32) (u : State) :
    nextAct q m c r s u = u.setFld (F.SQ_STAT_UPC q) (s.upcNext q) := by simp only [nextAct, hn, State.upcNext]

theorem nextAct_jump (hn : m.nxt = 1) (c : Bool) (r : W32) (u : State) :
    nextAct q m c r s u = u.setFld (F.SQ_STAT_UPC q) m.bra := by simp only [nextAct, hn]

theorem nextAct_call (hn : m.nxt = 3) (c : Bool) (r : W32) (u : State) :
    nextAct q m c r s u
      = (u.setSeq q { u.seq q with stack := s.upcNext q :: (u.seq q).stack }).setFld (F.SQ_STAT_UPC q) m.bra := by
  simp only [nextAct, hn, State.upcNext]

theorem nextAct_return (hn : m.nxt = 5) (c : Bool) (r : W32) (u : State) :
    nextAct q m c r s u
      = (u.setSeq q { u.seq q with stack := (u.seq q).stack.drop 1 }).setFld (F.SQ_STAT_UPC q) ((u.seq q).stack.headD 0) := by
  simp only [nextAct, hn]

theorem nextAct_stop (hn : m.nxt = 0xB) (c : Bool) (r : W32) (u : State) :
    nextAct q m c r s u = ((u.setFld (F.SQ_STAT_UPC q) (s.upcNext q)).setSeqState q SeqState.stopped).raise (32 + q) := by
  simp only [nextAct, hn, State.upcNext]

end Moves

/-! ### Plain words of a PSQ or LSQ -/

/-- The SYN registers stand behind the sequencers' own. -/
theorem synOff_ne {q : Nat} (hq : q < 19) (f : Nat) {k : Nat} (hk : k < 0x100) : 0x083000 + 0x8 * f ≠ seqBase q + k := by
  have := seqBase_bounds hq
  omega

section Light
variable {s : State} {q : Nat} {m : MicroWord} (h0 : q ≠ 0) (hp : m.Plain)
include h0 hp

theorem wordRun_light (hn : m.nxt ≠ 8) :
    wordRun q m s = nextAct q m (wordCond s q m) 0 s (synAct q m (aluPart q m s (s.setSeqState q SeqState.running))) := by
  rw [wordRun, if_neg h0, wordAct_plain hp q s hn]

/-- A word whose ALU and SYN do nothing. -/
theorem wordRun_address (hn : m.nxt ≠ 8) (ha : m.alu = 0) (hs : m.synOp = 0) :
    wordRun q m s = nextAct q m (wordCond s q m) 0 s (s.setSeqState q SeqState.running) := by
  rw [wordRun_light h0 hp hn]
  simp only [synAct, hs, aluPart, ha, if_true]

theorem wordRun_alu (hn : m.nxt = 0) (hs : m.synOp = 0) (h1 : 1 ≤ m.alu) (hF : m.alu ≠ 0xF) (hd1 : 0x10 ≤ m.dst) (hd2 : m.dst < 0x20) :
    let out := microAlu m.alu (s.operand q m.srca m.imm) (s.operand q m.srcb m.imm) (s.seqFlags q)
    SeqMoves q (s.upcNext q) { s.seq q with
      w := SMap.put (fun _ => (0 : W32)) (s.seq q).w (m.dst - 0x10) out.r, z := out.f.z, n := out.f.n, c := out.f.c, v := out.f.v }
      s (wordRun q m s) := by
  intro out
  have halu : m.alu ≠ 0 := by omega
  rw [wordRun_light h0 hp (by omega), nextAct_plus hn]
  simp only [synAct, hs, aluPart, halu, hF, if_false, State.setSeqFlags, h0, State.setOperand, hd1, Nat.not_le.mpr hd2, if_true]
  refine .of_running rfl (fun r => ?_) (s.upcNext_lt q)
  rw [State.seq_setSeq]
  split
  · rw [State.seq_setSeq, if_pos rfl]
    rfl
  · rename_i hr
    rw [State.seq_setSeq, if_neg hr]
    rfl

/-- A word that takes from a count (R157). -/
theorem wordRun_takes (hq : q < 19) (hn : m.nxt = 0) (ha : m.alu = 0) (hs : m.synOp = 2) :
    wordRun q m s = ((s.setSeqState q SeqState.running).setFld (F.SYN_COUNT m.synF) (s.fld (F.SYN_COUNT m.synF) - 1)).setFld
      (F.SQ_STAT_UPC q) (s.upcNext q) := by
  have hcount : (s.setSeqState q SeqState.running).fld (F.SYN_COUNT m.synF) = s.fld (F.SYN_COUNT m.synF) :=
    State.fld_setFld_other _ _ _ _ (by simp) (.inl (synOff_ne hq _ (by decide)))
  rw [wordRun_light h0 hp (by omega), nextAct_plus hn]
  simp only [synAct, hs, aluPart, ha, if_true, hcount]

end Light

end Sys2Proof.Machine
end

section
/-!
PROOFS. Machine checks of a PSQ or LSQ: the record, the engine's work given back, the unit observed FAILED (R170, R171, R331, R355).
-/

namespace Sys2Proof.Machine

/-! ### Unit states as they are observed while CCLK runs (R264, R266) -/

/-- `t` differs from `s` in the unit states and the report that they make due alone. -/
structure Observes (s t : State) : Prop where
  rest : t = { s with rf := t.rf, cmds := { s.cmds with reportDue := t.cmds.reportDue } }
  regs : ∀ off, reportOff off = false → t.reg off = s.reg off

section Observes
variable {s t u : State}

theorem Observes.refl (s : State) : Observes s s := ⟨rfl, fun _ _ => rfl⟩

theorem Observes.trans (h : Observes s t) (k : Observes t u) : Observes s u := by
  refine ⟨?_, fun off ho => (k.regs off ho).trans (h.regs off ho)⟩
  have h1 := h.rest
  have k1 := k.rest
  rw [h1] at k1
  exact k1

theorem Observes.setFld (s : State) {f : FRef} (v : Nat) (hf : reportOff f.off = true) : Observes s (s.setFld f v) :=
  ⟨rfl, (Reports.setFld s f v hf).regs⟩

theorem Observes.reportDue (s : State) : Observes s { s with cmds := { s.cmds with reportDue := true } } := ⟨rfl, fun _ _ => rfl⟩

theorem Observes.fld (h : Observes s t) {f : FRef} (hf : reportOff f.off = false) : t.fld f = s.fld f := by
  unfold State.fld
  rw [h.regs _ hf]

theorem Observes.cclkOn (h : Observes s t) : t.cclkOn = s.cclkOn :=
  State.cclkOn_of s t (h.fld rfl) (by rw [h.rest])

theorem Observes.raise (hc : s.cclkOn = true) {k : Nat} (h32 : 32 ≤ k) (hk : k < 384) : Observes s (s.raise k) := by
  rw [State.raise_eq s k hc h32 (seqSource_open h32 hk)]
  exact .setFld s _ (reportOff_src k (by omega))

theorem judgeUnit_observes (cls idx cause : Nat) (hc : s.cclkOn = true) (hu : ustIdx cls idx < 1024) :
    Observes s (judgeUnit cls idx cause s) := by
  have ho := reportOff_ust _ hu
  have hnoted (v w : Nat) := (Observes.setFld s (f := F.CMD_UST_DIV (ustIdx cls idx)) v ho).trans
    ((Observes.setFld _ (f := F.CMD_UST_FRAME (ustIdx cls idx)) w ho).trans (.reportDue _))
  have hraised (v w : Nat) := (hnoted v w).trans (.raise ((hnoted v w).cclkOn.trans hc) (k := 159) (by decide) (by decide))
  unfold judgeUnit
  simp only
  split
  · exact .refl s
  · split
    · exact (hraised _ _).trans (.setFld _ _ ho)
    · exact hraised _ _

theorem observe_observes (cls idx obs cause : Nat) (hc : s.cclkOn = true) : Observes s (observe cls idx obs cause s) := by
  unfold observe
  split
  · rename_i hp
    have hu := unitPresent_ustIdx _ _ _ hp
    have h1 := Observes.setFld s (f := F.CMD_UST_OBS (ustIdx cls idx)) obs (reportOff_ust _ hu)
    exact h1.trans (judgeUnit_observes cls idx cause (h1.cclkOn.trans hc) hu)
  · exact .refl s

theorem seBusy_observes (n : Nat) (hc : s.cclkOn = true) : Observes s (seBusy n s) := by
  unfold seBusy
  split
  · exact .refl s
  · exact observe_observes _ _ _ _ hc

end Observes

/-! ### The work of an engine given back (R331, R355) -/

/-- `t` differs from `s` in registers, in sequencers and in whether a report is due alone. -/
def SameWork (s t : State) : Prop :=
  ∃ rf seqs due, t = { s with rf := rf, seqs := seqs, cmds := { s.cmds with reportDue := due } }

/-- The rows of engine n have returned to the dispatch order. -/
def State.rowsBack (s : State) (n : Nat) : State :=
  let left := fun (u : SliceUnit) => { u with seg := u.seg.map fun (g : Segment) => if g.eng = some n then { g with eng := none } else g }
  let s1 := ({ s with dec := { s.dec with wins := s.dec.wins.map fun (p : Nat × Win) => (p.1, { p.2 with queue := p.2.queue.map left }) } }
    : State).forget fun u => match u with | .ref m _ => m == n | _ => false
  { s1 with dec := { s1.dec with engines := SMap.put (fun _ => []) s1.dec.engines n [] } }

/-- Engine n encodes no slice. -/
def State.jobFreed (s : State) (n : Nat) : State :=
  abortStages (n + 1) (setRowParams n [(5, 0)] { s with encs := s.encs.filter fun p => p.1 != n })

/-- The slice of job `j` is the first to be dispatched of its feed. -/
def State.sliceFirst (s : State) (j : EncJob) (u : State) : State :=
  u.setFeed j.feed { s.feed j.feed with slices := j.slice :: (s.feed j.feed).slices }

theorem returnRows_eq (n : Nat) (s : State) : returnRows n s = seBusy n (s.rowsBack n) := rfl

theorem returnSlice_eq (n : Nat) (s : State) : returnSlice n s =
    match (s.encs.find? fun p => p.1 == n).map (·.2) with
    | none => s
    | some j => s.sliceFirst j (seBusy n (s.jobFreed n)) := rfl

/-- `t` differs from `s` in registers, sequencers, what is due, the decoders with their reads, and the encoders with their feeds alone. -/
def EngineWork (s t : State) : Prop :=
  ∃ rf seqs due dec lines mpt0 mpt1 encs feeds, t = { s with
    rf := rf, seqs := seqs, cmds := { s.cmds with reportDue := due }
    dec := dec, lines := lines, mpt0 := mpt0, mpt1 := mpt1, encs := encs, feeds := feeds }

/-- The work of engine n has been given back: it has no row and encodes nothing, and its sequencer is told so. -/
structure GivenBack (n : Nat) (s t : State) : Prop where
  rest : EngineWork s t
  regs : ∀ off, reportOff off = false → t.reg off = s.reg off
  rows : t.rows n = []
  encs : ∀ e ∈ t.encs, e.1 ≠ n
  seq : t.seq (n + 1) = if s.encs.any (fun e => e.1 == n) = true
    then { s.seq (n + 1) with stages := [], p := (t.seq (n + 1)).p } else s.seq (n + 1)
  others : ∀ r, r ≠ n + 1 → t.seq r = s.seq r

section Back
variable {s t u : State} {n : Nat}

theorem SameWork.trans (h : SameWork s t) (k : SameWork t u) : SameWork s u := by
  obtain ⟨_, _, _, rfl⟩ := h
  obtain ⟨_, _, _, rfl⟩ := k
  exact ⟨_, _, _, rfl⟩

theorem SameWork.symm (h : SameWork s t) : SameWork t s := by
  obtain ⟨_, _, _, rfl⟩ := h
  exact ⟨_, _, _, rfl⟩

theorem Observes.sameWork (h : Observes s t) : SameWork s t := ⟨_, _, _, h.rest⟩

theorem EngineWork.trans (h : EngineWork s t) (k : EngineWork t u) : EngineWork s u := by
  obtain ⟨_, _, _, _, _, _, _, _, _, rfl⟩ := h
  obtain ⟨_, _, _, _, _, _, _, _, _, rfl⟩ := k
  exact ⟨_, _, _, _, _, _, _, _, _, rfl⟩

theorem SameWork.engineWork (h : SameWork s t) : EngineWork s t := by
  obtain ⟨_, _, _, rfl⟩ := h
  exact ⟨_, _, _, s.dec, s.lines, s.mpt0, s.mpt1, s.encs, s.feeds, rfl⟩

theorem SameWork.setFld (s : State) (f : FRef) (v : Nat) : SameWork s (s.setFld f v) := ⟨_, s.seqs, s.cmds.reportDue, rfl⟩

theorem SameWork.setSeq (s : State) (q : Nat) (x : Seq) : SameWork s (s.setSeq q x) := ⟨s.rf, _, s.cmds.reportDue, rfl⟩

theorem SameWork.rowsBack (h : SameWork s t) (n : Nat) : SameWork (s.rowsBack n) (t.rowsBack n) := by
  obtain ⟨_, _, _, rfl⟩ := h
  exact ⟨_, _, _, rfl⟩

theorem SameWork.sliceFirst {a b : State} (h : SameWork s t) (k : SameWork a b) (j : EncJob) :
    SameWork (s.sliceFirst j a) (t.sliceFirst j b) := by
  obtain ⟨_, _, _, rfl⟩ := h
  obtain ⟨_, _, _, rfl⟩ := k
  exact ⟨_, _, _, rfl⟩

theorem SameWork.jobFreed (h : SameWork s t) (n : Nat) : SameWork (s.jobFreed n) (t.jobFreed n) := by
  obtain ⟨_, _, _, rfl⟩ := h
  exact ⟨_, _, _, rfl⟩

theorem State.rowsBack_clocked (n : Nat) (hc : s.cclkOn = true) : (s.rowsBack n).cclkOn = true := hc

theorem State.jobFreed_clocked (n : Nat) (hc : s.cclkOn = true) : (s.jobFreed n).cclkOn = true := hc

theorem SameWork.returnRows (h : SameWork s t) (n : Nat) (hs : s.cclkOn = true) (ht : t.cclkOn = true) :
    SameWork (returnRows n s) (returnRows n t) :=
  ((seBusy_observes n (s.rowsBack_clocked n hs)).sameWork.symm.trans (h.rowsBack n)).trans
    (seBusy_observes n (t.rowsBack_clocked n ht)).sameWork

/-- Whose work is given back depends on no register and no sequencer. -/
theorem SameWork.returnSlice (h : SameWork s t) (n : Nat) (hs : s.cclkOn = true) (ht : t.cclkOn = true) :
    SameWork (returnSlice n s) (returnSlice n t) := by
  have hjob : t.encs = s.encs := by
    obtain ⟨_, _, _, rfl⟩ := h
    rfl
  rw [returnSlice_eq, returnSlice_eq, hjob]
  split
  · exact h
  · exact h.sliceFirst (((seBusy_observes n (s.jobFreed_clocked n hs)).sameWork.symm.trans (h.jobFreed n)).trans
      (seBusy_observes n (t.jobFreed_clocked n ht)).sameWork) _

theorem returnRows_clocked (n : Nat) (hc : s.cclkOn = true) : (returnRows n s).cclkOn = true :=
  (seBusy_observes n (s.rowsBack_clocked n hc)).cclkOn.trans (s.rowsBack_clocked n hc)

/-- The rows alone: sequencers and encode engines stay. -/
theorem returnRows_rest (n : Nat) (hc : s.cclkOn = true) : returnRows n s = { s with
    rf := (returnRows n s).rf, cmds := { s.cmds with reportDue := (returnRows n s).cmds.reportDue }, dec := (s.rowsBack n).dec
    lines := (s.rowsBack n).lines, mpt0 := (s.rowsBack n).mpt0, mpt1 := (s.rowsBack n).mpt1 } := by
  have h := (seBusy_observes n (s.rowsBack_clocked n hc)).rest
  rw [returnRows_eq]
  exact h

theorem returnRows_rows (n : Nat) (hc : s.cclkOn = true) : (returnRows n s).rows n = [] := by
  have hget : (s.rowsBack n).rows n = [] := (SMap.get_put (fun _ => []) s.dec.engines n n []).trans (if_pos rfl)
  rw [returnRows_rest n hc]
  exact hget

theorem returnRows_regs (n : Nat) (hc : s.cclkOn = true) {off : Nat} (ho : reportOff off = false) :
    (returnRows n s).reg off = s.reg off :=
  (seBusy_observes n (s.rowsBack_clocked n hc)).regs off ho

/-- An encode engine that is freed: its sequencer's stages are aborted, P5 tells that no slice came of it. -/
theorem State.seq_jobFreed (s : State) (n r : Nat) : (s.jobFreed n).seq r =
    if r = n + 1 then { s.seq (n + 1) with stages := [], p := SMap.put (fun _ => (0 : W32)) (s.seq (n + 1)).p 5 (BitVec.ofNat 32 0) }
    else s.seq r := by
  unfold State.jobFreed abortStages setRowParams
  rw [State.seq_setSeq]
  split
  · rw [State.seq_setSeq, if_pos rfl]
    rfl
  · rename_i hr
    rw [State.seq_setSeq, if_neg hr]
    rfl

theorem returnSlice_givenBack (n : Nat) (hc : s.cclkOn = true) (hrows : s.rows n = []) : GivenBack n s (returnSlice n s) := by
  rw [returnSlice_eq]
  cases hj : s.encs.find? fun e => e.1 == n with
  | none =>
    have hnone : ∀ e ∈ s.encs, e.1 ≠ n := by simpa using List.find?_eq_none.mp hj
    refine ⟨SameWork.engineWork ⟨s.rf, s.seqs, s.cmds.reportDue, rfl⟩, fun _ _ => rfl, hrows, hnone, ?_, fun _ _ => rfl⟩
    rw [if_neg]
    · rfl
    · rw [List.any_eq_true]
      rintro ⟨e, he, heq⟩
      exact hnone e he (by simpa using heq)
  | some j =>
    have hb := seBusy_observes n (s.jobFreed_clocked n hc)
    have hrest := hb.rest
    have hseq (r : Nat) : (s.sliceFirst j.2 (seBusy n (s.jobFreed n))).seq r = (s.jobFreed n).seq r := by
      change (seBusy n (s.jobFreed n)).seq r = _
      rw [hrest]
      rfl
    have hany : s.encs.any (fun e => e.1 == n) = true :=
      List.any_eq_true.mpr ⟨j, List.mem_of_find?_eq_some hj, List.find?_some (p := fun e : Nat × EncJob => e.1 == n) hj⟩
    change GivenBack n s (s.sliceFirst j.2 (seBusy n (s.jobFreed n)))
    refine ⟨?_, hb.regs, ?_, fun e he => ?_, ?_, fun r hr => ?_⟩
    · have hfreed : EngineWork (s.jobFreed n) (s.sliceFirst j.2 (seBusy n (s.jobFreed n))) :=
        hb.sameWork.engineWork.trans ⟨_, _, _, _, _, _, _, _, _, rfl⟩
      exact .trans ⟨_, _, _, _, _, _, _, _, _, rfl⟩ hfreed
    · change (seBusy n (s.jobFreed n)).rows n = []
      rw [hrest]
      exact hrows
    · change e ∈ (seBusy n (s.jobFreed n)).encs at he
      rw [hrest] at he
      simpa using (List.mem_filter.mp he).2
    · rw [hseq, if_pos hany, State.seq_jobFreed, if_pos rfl]
    · rw [hseq, State.seq_jobFreed, if_neg hr]

/-- Rows and slice of engine n return. -/
theorem givenBack (n : Nat) (hc : s.cclkOn = true) : GivenBack n s (returnSlice n (returnRows n s)) := by
  have hr := returnRows_rest n hc
  have h := returnSlice_givenBack n (returnRows_clocked n hc) (returnRows_rows n hc)
  have hseq (r : Nat) : (returnRows n s).seq r = s.seq r := by rw [hr]; rfl
  have hencs : (returnRows n s).encs = s.encs := by rw [hr]
  refine ⟨.trans ⟨_, _, _, _, _, _, _, _, _, hr⟩ h.rest, fun off ho => (h.regs off ho).trans (returnRows_regs n hc ho), h.rows, h.encs,
    ?_, fun r hn => (h.others r hn).trans (hseq r)⟩
  · rw [← hseq, ← hencs]
    exact h.seq

end Back

/-! ### The record of a machine check (R162, R170, R177) -/

/-- The registers of sequencer q after a machine check: MCHK, its cause, the address, the groups in error; a parity error makes its
region invalid. -/
def State.checkRecorded (s : State) (q cause pgrp : Nat) : State :=
  let s1 := (((s.setSeqState q SeqState.mchk).setFld (F.SQ_STAT_MCAUSE q) cause).setFld (F.SQ_MCINFO_MCUPC q) (s.upc q)).setFld
    (F.SQ_MCINFO_PGRP q) pgrp
  if cause = 1 then s1.setFlag (F.SQ_STAT_VALID q) false else s1

/-- Its own state after that: no barrier, no read that is to land, a PSQ's stages aborted. -/
def Seq.checked (x : Seq) (q : Nat) : Seq :=
  { x with barrier := none, mem := [], stages := if q ≤ 16 then [] else x.stages }

section Check
variable {s : State} {q cause pgrp : Nat}

theorem checkRecorded_setsRegs (s : State) (q cause pgrp : Nat) :
    SetsRegs (fun off => off = (F.SQ_STAT_STATE q).off ∨ off = (F.SQ_MCINFO_PGRP q).off) s (s.checkRecorded q cause pgrp) := by
  have hs1 := (((SetsRegs.setFld (P := fun off => off = (F.SQ_STAT_STATE q).off ∨ off = (F.SQ_MCINFO_PGRP q).off)
    s (f := F.SQ_STAT_STATE q) SeqState.mchk (.inl rfl)).trans (.setFld _ (f := F.SQ_STAT_MCAUSE q) cause (.inl rfl))).trans
      (.setFld _ (f := F.SQ_MCINFO_MCUPC q) (s.upc q) (.inr rfl))).trans (.setFld _ (f := F.SQ_MCINFO_PGRP q) pgrp (.inr rfl))
  unfold State.checkRecorded
  simp only
  split
  · exact hs1.trans (.setFlag _ _ (.inl rfl))
  · exact hs1

/-- What the record shows; UPC stays. -/
theorem checkRecorded_shows (hc : cause < 16) (hp : pgrp < 256) :
    let t := s.checkRecorded q cause pgrp
    t.seqState q = SeqState.mchk ∧ t.fld (F.SQ_STAT_MCAUSE q) = cause ∧ t.upc q = s.upc q
      ∧ t.fld (F.SQ_MCINFO_MCUPC q) = s.upc q ∧ t.fld (F.SQ_MCINFO_PGRP q) = pgrp := by
  have hupc : getBits (s.reg (seqBase q)) 16 14 < 16384 := s.fld_lt (F.SQ_STAT_UPC q)
  unfold State.checkRecorded
  simp only
  split <;> simp [State.seqState, State.setSeqState, State.upc, State.fld, State.setFlag, State.setFld, State.reg_setReg,
    getBits_setBits, getBits_setBits_other, Nat.mod_eq_of_lt hc, Nat.mod_eq_of_lt hp, hupc, SeqState.mchk]

theorem machineCheck_eq (h0 : q ≠ 0) : machineCheck q cause pgrp s =
    let t := (s.checkRecorded q cause pgrp).setSeq q { s.seq q with barrier := none }
    if q ≤ 16 then abortStages q t else t := by
  have hkind : seqKind q = .psq ↔ q ≤ 16 := by
    unfold seqKind
    rw [if_neg h0]
    split <;> simp [*]
  have href (b : Bool) : validRef q b = F.SQ_STAT_VALID q := by simp [validRef, h0]
  have hseq : (s.checkRecorded q cause pgrp).seq q = s.seq q := by rw [(checkRecorded_setsRegs s q cause pgrp).rest]; rfl
  have hnoRom (b : Bool) : (q != 0 || b) = true := by simp [h0]
  rw [← hseq]
  unfold machineCheck
  simp only [hnoRom, Bool.and_true, decide_eq_true_eq, href, hkind]
  rfl

/-- The machine check of a PSQ or LSQ beside the works of its unit. -/
theorem machineCheck_seq (h0 : q ≠ 0) (r : Nat) :
    let u := machineCheck q cause pgrp s
    let t := u.setSeq q { u.seq q with mem := [] }
    t = { s.checkRecorded q cause pgrp with seqs := t.seqs } ∧ t.seq r = if r = q then (s.seq q).checked q else s.seq r := by
  have hseq : (s.checkRecorded q cause pgrp).seq r = s.seq r := by rw [(checkRecorded_setsRegs s q cause pgrp).rest]; rfl
  rw [machineCheck_eq h0]
  unfold Seq.checked abortStages
  generalize s.checkRecorded q cause pgrp = a at *
  by_cases hq : q ≤ 16
  · simp only [hq, if_true, State.seq_setSeq, hseq]
    refine ⟨rfl, ?_⟩
    split <;> rfl
  · simp only [hq, if_false, State.seq_setSeq, hseq]
    refine ⟨rfl, ?_⟩
    split <;> rfl

/-- Sequencer q after its machine check, before its unit's work is given back. -/
def State.seqChecked (s : State) (q cause pgrp : Nat) : State :=
  let u := machineCheck q cause pgrp s
  u.setSeq q { u.seq q with mem := [] }

theorem seqCheck_eq (h0 : q ≠ 0) : seqCheck q cause pgrp s =
    if q ≤ 16 then observe Cls.se (q - 1) Obs.failed Cause.mchk (returnSlice (q - 1) (returnRows (q - 1) (s.seqChecked q cause pgrp)))
    else observe Cls.lp (q - 17) Obs.failed Cause.mchk (s.seqChecked q cause pgrp) := by
  unfold seqCheck
  rw [if_neg h0]
  rfl

theorem seqChecked_sameWork (h0 : q ≠ 0) : SameWork s (s.seqChecked q cause pgrp) := by
  have h := (machineCheck_seq (s := s) (cause := cause) (pgrp := pgrp) h0 0).1
  rw [(checkRecorded_setsRegs s q cause pgrp).rest] at h
  exact ⟨_, _, s.cmds.reportDue, h⟩

theorem seqChecked_reg (h0 : q ≠ 0) (off : Nat) : (s.seqChecked q cause pgrp).reg off = (s.checkRecorded q cause pgrp).reg off :=
  State.reg_congr _ _ (by rw [State.seqChecked, (machineCheck_seq h0 0).1]) (by rw [State.seqChecked, (machineCheck_seq h0 0).1]) off

theorem seqChecked_clocked (h0 : q ≠ 0) (hq : q < 19) (hc : s.cclkOn = true) : (s.seqChecked q cause pgrp).cclkOn = true := by
  have hb := seqBase_bounds hq
  have hmode : (s.seqChecked q cause pgrp).mode = s.mode := by
    unfold State.mode State.fld
    rw [seqChecked_reg h0, (checkRecorded_setsRegs s q cause pgrp).regs _ (by simp only; omega)]
  have hao : (s.seqChecked q cause pgrp).ao = s.ao := by
    obtain ⟨_, _, _, h⟩ := seqChecked_sameWork (s := s) (cause := cause) (pgrp := pgrp) h0
    rw [h]
  exact (State.cclkOn_of _ _ hmode hao).trans hc

/-- The state in which the unit is observed FAILED, and what it shows already. -/
structure UnitStopped (q : Nat) (s u : State) : Prop where
  work : SameWork (s.workReturned q) u
  seq : u.seq q = { (s.seq q).checked q with
    p := if q ≤ 16 ∧ s.encs.any (fun e => e.1 == q - 1) then (u.seq q).p else (s.seq q).p }
  others : ∀ r, r ≠ q → u.seq r = s.seq r
  rows : q ≤ 16 → u.rows (q - 1) = [] ∧ ∀ e ∈ u.encs, e.1 ≠ q - 1

/-- The work of a unit is given back without a command's help. -/
theorem workReturned_cmds (hc : s.cclkOn = true) :
    (s.workReturned q).cmds = { s.cmds with reportDue := (s.workReturned q).cmds.reportDue } := by
  have hwork : EngineWork s (s.workReturned q) := by
    unfold State.workReturned
    split
    · exact (givenBack (q - 1) hc).rest
    · exact SameWork.engineWork ⟨s.rf, s.seqs, s.cmds.reportDue, rfl⟩
  obtain ⟨_, _, _, _, _, _, _, _, _, h⟩ := hwork
  rw [h]

theorem SeqChecked.of_stopped {u t : State} (hq : q < 19) (hc : s.cclkOn = true) (hcause : cause < 16) (hp : pgrp < 256)
    (hg : cause ≠ 1 → pgrp = 0) (h : UnitStopped q s u) (hu : ∀ off, reportOff off = false → u.reg off = (s.checkRecorded q cause pgrp).reg off)
    (ht : Observes u t) : SeqChecked q cause s t ∧ t.fld (F.SQ_MCINFO_PGRP q) = pgrp := by
  have hb := seqBase_bounds hq
  have hfld (f : FRef) (hf : f.off = seqBase q ∨ f.off = seqBase q + 0x10) : t.fld f = (s.checkRecorded q cause pgrp).fld f := by
    have ho : reportOff f.off = false := reportOff_between (by omega) (by omega)
    unfold State.fld
    rw [ht.regs _ ho, hu _ ho]
  obtain ⟨hstate, hmc, hupc, hmcupc, hpgrp⟩ := checkRecorded_shows (s := s) (q := q) hcause hp
  have hgroups : t.fld (F.SQ_MCINFO_PGRP q) = pgrp := (hfld _ (.inr rfl)).trans hpgrp
  have hseq (r : Nat) : t.seq r = u.seq r := by rw [ht.rest]; rfl
  refine ⟨⟨(hfld _ (.inl rfl)).trans hstate, (hfld _ (.inl rfl)).trans hmc,
    ⟨(hfld _ (.inl rfl)).trans hupc, (hfld _ (.inr rfl)).trans hmcupc⟩, fun hw => hgroups.trans (hg hw), ?_,
    fun r hr => (hseq r).trans (h.others r hr), fun h16 => ?_, ?_⟩, hgroups⟩
  · rw [hseq]
    exact h.seq
  · obtain ⟨hrows, hencs⟩ := h.rows h16
    rw [ht.rest]
    exact ⟨hrows, hencs⟩
  · have hcmds := workReturned_cmds (q := q) hc
    obtain ⟨_, _, _, hw⟩ := h.work.trans ht.sameWork
    rw [hw, hcmds]

theorem seqChecked_stopped (h1 : 1 ≤ q) (hq : q < 19) (hc : s.cclkOn = true) :
    let v := s.seqChecked q cause pgrp
    let u := if q ≤ 16 then returnSlice (q - 1) (returnRows (q - 1) v) else v
    UnitStopped q s u ∧ u.cclkOn = true ∧ ∀ off, reportOff off = false → u.reg off = v.reg off := by
  have h0 : q ≠ 0 := by omega
  have hcc := seqChecked_clocked (cause := cause) (pgrp := pgrp) h0 hq hc
  have hwork := seqChecked_sameWork (s := s) (cause := cause) (pgrp := pgrp) h0
  have hseq (r : Nat) : (s.seqChecked q cause pgrp).seq r = if r = q then (s.seq q).checked q else s.seq r := (machineCheck_seq h0 r).2
  have hencs : (s.seqChecked q cause pgrp).encs = s.encs := by
    obtain ⟨_, _, _, h⟩ := hwork
    rw [h]
  intro v u
  by_cases h16 : q ≤ 16
  · have hn : q - 1 + 1 = q := by omega
    have hu : u = returnSlice (q - 1) (returnRows (q - 1) v) := if_pos h16
    obtain ⟨hrest, hregs, hrows, hnone, hown, hothers⟩ := givenBack (q - 1) hcc
    simp only [hn, hencs] at hown hothers
    have hmode : u.mode = v.mode := by
      unfold State.mode State.fld
      rw [hu, hregs _ rfl]
    have hao : u.ao = v.ao := by
      obtain ⟨_, _, _, _, _, _, _, _, _, h⟩ := hrest
      rw [hu, h]
    rw [hseq, if_pos rfl] at hown
    refine ⟨⟨?_, ?_, fun r hr => ?_, fun _ => ?_⟩, (State.cclkOn_of _ _ hmode hao).trans hcc, hu ▸ hregs⟩
    · rw [State.workReturned, if_pos h16, hu]
      exact (hwork.returnRows (q - 1) hc hcc).returnSlice (q - 1) (returnRows_clocked _ hc) (returnRows_clocked _ hcc)
    · rw [hu]
      refine hown.trans ?_
      by_cases hany : s.encs.any (fun e => e.1 == q - 1) = true
      · rw [if_pos hany, if_pos ⟨h16, hany⟩]
        simp only [Seq.checked, h16, if_true]
        rfl
      · rw [if_neg hany, if_neg fun h => hany h.2]
        rfl
    · rw [hu]
      exact (hothers r hr).trans ((hseq r).trans (if_neg hr))
    · rw [hu]
      exact ⟨hrows, hnone⟩
  · have hu : u = v := if_neg h16
    rw [hu]
    refine ⟨⟨?_, ?_, fun r hr => (hseq r).trans (if_neg hr), fun h => absurd h h16⟩, hcc, fun _ _ => rfl⟩
    · rw [State.workReturned, if_neg h16]
      exact hwork
    · rw [hseq, if_pos rfl, if_neg (fun h => h16 h.1)]
      rfl

/-- What a machine check leaves of a PSQ or LSQ, and of the engine (R170, R171). -/
theorem seqCheck_checked (h1 : 1 ≤ q) (hq : q < 19) (hc : s.cclkOn = true) (hcause : cause < 16) (hp : pgrp < 256)
    (hg : cause ≠ 1 → pgrp = 0) :
    SeqChecked q cause s (seqCheck q cause pgrp s) ∧ (seqCheck q cause pgrp s).fld (F.SQ_MCINFO_PGRP q) = pgrp := by
  have h0 : q ≠ 0 := by omega
  obtain ⟨hstop, hclk, hregs⟩ := seqChecked_stopped (s := s) (cause := cause) (pgrp := pgrp) h1 hq hc
  refine SeqChecked.of_stopped hq hc hcause hp hg hstop (fun off ho => (hregs off ho).trans (seqChecked_reg h0 off)) ?_
  rw [seqCheck_eq h0]
  split
  · rename_i h16
    rw [if_pos h16] at hclk
    exact observe_observes _ _ _ _ hclk
  · rename_i h16
    rw [if_neg h16] at hclk
    exact observe_observes _ _ _ _ hclk

end Check

end Sys2Proof.Machine
end

section
/-!
PROOFS. One microword of a PSQ or LSQ (R141 to R149, R156, R157, R160, R170, R171).
-/

namespace Sys2Proof.Machine

section Issue
variable {s : State} {q : Nat}

theorem State.issues_facts (h : s.issues q = true) : seqPresent s.build q = true ∧ s.cclkOn = true ∧ s.mode ≠ Mode.halt := by
  simp only [State.issues, Bool.and_eq_true, bne_iff_ne] at h
  exact ⟨h.1.1.1.1, h.1.1.1.2, h.1.1.2⟩

/-- A word that issues leads where the sequencer's word does. -/
theorem Runs.of_word {P : State → Prop} (h1 : 1 ≤ q) (hi : s.issues q = true) (hp : P (lightWord q s)) :
    Runs (.microwordExecute q) s P := by
  refine .of_clocked rfl (State.issues_facts hi).2.1 ?_
  rw [if_neg (by omega)]
  exact hp

theorem parityErrors_lt (m : MicroWord) : parityErrors m < 256 := by
  have hfold (l : List Nat) (hl : ∀ k ∈ l, k < 8) (x : Nat) (hx : x < 2 ^ 8) : l.foldl setBit x < 2 ^ 8 := by
    induction l generalizing x with
    | nil => exact hx
    | cons k l ih => exact ih (fun j hj => hl j (by simp [hj])) _ (setBit_lt hx (hl k (by simp)))
  exact hfold _ (fun k hk => List.mem_range.mp (List.mem_filter.mp hk).1) 0 (by decide)

theorem decodeMicro_bra (w : BitVec 184) : (decodeMicro w).bra < 2 ^ 14 := by
  change bitsOf w.toNat 4 14 < 2 ^ 14
  exact Nat.mod_lt _ (by decide)

section Fate
variable {m : MicroWord}

theorem issueWord_runs (hf : wordFate q m s = .runs) : issueWord q m s = wordRun q m s := by
  unfold issueWord
  simp only [hf]

theorem issueWord_check {c : Nat} (hf : wordFate q m s = .check c) : issueWord q m s = seqCheck q c 0 s := by
  unfold issueWord
  simp only [hf]

theorem issueWord_stalls (hf : wordFate q m s = .stalls) (hn : m.nxt ≠ 0xA) : issueWord q m s = s.setSeqState q SeqState.stalled := by
  unfold issueWord
  simp only [hf, beq_eq_false_iff_ne.mpr hn, Bool.and_false, Bool.false_eq_true, if_false]

end Fate

section Fates
variable {P : State → Prop} (h1 : 1 ≤ q) (hi : s.issues q = true) (hp : parityErrors (s.nextWord q) = 0)
include h1 hi hp

/-- A word with its parity in order goes the way of its fate (R141, R160). -/
theorem Runs.of_issue (h : P (issueWord q (s.nextWord q) s)) : Runs (.microwordExecute q) s P := by
  refine .of_word h1 hi ?_
  rw [lightWord_issues hi, if_neg (not_not_intro hp)]
  exact h

theorem Runs.of_run (hf : wordFate q (s.nextWord q) s = .runs) (h : P (wordRun q (s.nextWord q) s)) : Runs (.microwordExecute q) s P :=
  .of_issue h1 hi hp ((issueWord_runs hf).symm ▸ h)

theorem Runs.of_stall (hf : wordFate q (s.nextWord q) s = .stalls) (hn : (s.nextWord q).nxt ≠ 0xA)
    (h : P (s.setSeqState q SeqState.stalled)) : Runs (.microwordExecute q) s P :=
  .of_issue h1 hi hp ((issueWord_stalls hf hn).symm ▸ h)

/-- A machine check of the word about to be issued. -/
theorem Runs.of_check {c : Nat} (hc : c < 16) (hf : wordFate q (s.nextWord q) s = .check c) :
    Runs (.microwordExecute q) s (SeqChecked q c s) := by
  obtain ⟨hq, hclk, -⟩ := State.issues_facts hi
  refine .of_issue h1 hi hp ?_
  rw [issueWord_check hf]
  exact (seqCheck_checked h1 (seqPresent_lt hq) hclk hc (by decide) fun _ => rfl).1

end Fates

end Issue

/-- A sequencer that stops itself (R143): its source counts. -/
theorem stopped_raises {s u : State} {q : Nat} (hq : q < 19) (hc : s.cclkOn = true) (hu : SetsRegs (· = (F.SQ_STAT_UPC q).off) s u)
    (hstate : u.seqState q = SeqState.stopped) (hupc : u.upc q = s.upcNext q) :
    let t := u.raise (32 + q)
    t.seqState q = SeqState.stopped ∧ t.upc q = s.upcNext q
      ∧ t.fld (F.DIC_SRC_COUNT (32 + q)) = min 15 (s.fld (F.DIC_SRC_COUNT (32 + q)) + 1) := by
  have hb := seqBase_bounds hq
  have hsource := seqSource_open (k := 32 + q) (by omega) (by omega)
  have hmode : F.AO_MODE_MODE.off ≠ (F.SQ_STAT_UPC q).off := by
    simp only
    omega
  have hclk := (hu.cclkOn hmode).trans hc
  have hapart {g : FRef} (hg : g.lo + g.w ≤ 64) (ho : g.off = seqBase q) : (u.raise (32 + q)).fld g = u.fld g :=
    State.fld_raise_other hclk (by omega) hsource hg (.inl (by simp only [ho]; omega))
  refine ⟨(hapart (by simp) rfl).trans hstate, (hapart (by simp) rfl).trans hupc, ?_⟩
  rw [State.fld_raise hclk (by omega) hsource, hu.fld (by simp only; omega)]

/-- A running sequencer that has taken from count f (R157). -/
theorem taken_shows {s : State} {q f : Nat} (hq : q < 19) :
    let t := ((s.setSeqState q SeqState.running).setFld (F.SYN_COUNT f) (s.fld (F.SYN_COUNT f) - 1)).setFld (F.SQ_STAT_UPC q) (s.upcNext q)
    t = { s with rf := t.rf } ∧ t.fld (F.SYN_COUNT f) = s.fld (F.SYN_COUNT f) - 1 ∧ t.seqState q = SeqState.running
      ∧ t.upc q = s.upcNext q := by
  have hne : 0x083000 + 0x8 * f ≠ seqBase q := synOff_ne hq f (k := 0) (by decide)
  have hcount : s.fld (F.SYN_COUNT f) - 1 < 2 ^ 8 := Nat.lt_of_le_of_lt (Nat.sub_le _ _) (s.fld_lt (F.SYN_COUNT f))
  refine ⟨rfl, ?_, ?_, (State.fld_setFld _ _ _ (by simp)).trans (Nat.mod_eq_of_lt (s.upcNext_lt q))⟩
  · refine (State.fld_setFld_other _ _ _ _ (by simp) (.inl hne)).trans ?_
    exact (State.fld_setFld _ _ _ (by simp)).trans (Nat.mod_eq_of_lt hcount)
  · refine (State.fld_setFld_other _ _ _ _ (by simp) (.inr (.inl (by simp)))).trans ?_
    refine (State.fld_setFld_other _ _ _ _ (by simp) (.inl hne.symm)).trans ?_
    exact State.fld_setFld _ _ _ (by simp)

/-- Settles O23, by the fate of the word: a machine check, a stall, or its execution. -/
theorem microwordsExecute : Obligations.MicrowordsExecute := by
  unfold Obligations.MicrowordsExecute
  intro s q h1 h18 hi m row x reserved moves
  obtain ⟨-, hclk, -⟩ := State.issues_facts hi
  have hq : q < 19 := by omega
  have h0 : q ≠ 0 := by omega
  have hmoves {u : Nat} {y : Seq} (hp : parityErrors m = 0) (hf : wordFate q m s = .runs) (h : SeqMoves q u y s (wordRun q m s)) :
      moves u y := .of_run h1 hi hp hf ⟨h.rest, h.state, h.upc, h.seq, h.others, h.regs⟩
  have hbra : m.bra < 2 ^ 14 := decodeMicro_bra _
  refine ⟨fun hp => ?_, fun hp hr => .of_check h1 hi hp (by decide) (wordFate_reserved hr), fun hp hr hw hs => ?_,
    fun hp hr hw ha hn hs hcount => ?_, fun hp hr hs hcount hn => ?_⟩
  · refine .of_word h1 hi ?_
    rw [lightWord_issues hi, if_pos hp]
    exact seqCheck_checked h1 hq hclk (by decide) (parityErrors_lt m) fun h => absurd rfl h
  · have hplain := m.plain_iff.mp hw
    have hruns (h3 : m.nxt = 3 → (s.seq q).stack.length < 8) (h5 : m.nxt = 5 → (s.seq q).stack ≠ []) : wordFate q m s = .runs :=
      wordFate_runs hr hplain (.inl hs) h3 h5
    have hfate := wordFate_plain (s := s) hr hplain (.inl hs)
    refine ⟨fun ha hF hd1 hd2 hn => hmoves hp (hruns (by omega) (by omega)) (wordRun_alu h0 hplain hn hs ha hF hd1 hd2), fun ha => ?_⟩
    have haddr (hn : m.nxt ≠ 8) := wordRun_address (s := s) h0 hplain hn ha hs
    refine ⟨fun hn => ?_, fun hn => ?_, fun hn hl => ?_, fun hn hl => ?_, fun a l hn hl ha => ?_, fun hn hl => ?_, fun hn => ?_⟩
    · refine hmoves hp (hruns (by omega) (by omega)) ?_
      rw [haddr (by omega), nextAct_plus hn]
      exact .on (s.upcNext_lt q)
    · refine hmoves hp (hruns (by omega) (by omega)) ?_
      rw [haddr (by omega), nextAct_jump hn]
      exact .on hbra
    · refine hmoves hp (hruns (fun _ => hl) (by omega)) ?_
      rw [haddr (by omega), nextAct_call hn]
      exact .put _ hbra
    · exact .of_check h1 hi hp (by decide) (hfate.trans (if_pos ⟨hn, hl⟩))
    · have hstack : (s.seq q).stack = a :: l := hl
      refine hmoves hp (hruns (by omega) (fun _ => by simp [hstack])) ?_
      rw [haddr (by omega), nextAct_return hn, State.setSeqState, State.seq_setFld, hstack]
      exact .put _ ha
    · exact .of_check h1 hi hp (by decide) (hfate.trans ((if_neg (by omega)).trans (if_pos ⟨hn, hl⟩)))
    · refine .of_run h1 hi hp (hruns (by omega) (by omega)) ?_
      rw [haddr (by omega), nextAct_stop hn]
      have hregs := ((SetsRegs.setFld (P := (· = (F.SQ_STAT_UPC q).off)) s (f := F.SQ_STAT_STATE q) SeqState.running rfl).trans
        (.setFld _ (f := F.SQ_STAT_UPC q) (s.upcNext q) rfl)).trans (.setFld _ (f := F.SQ_STAT_STATE q) SeqState.stopped rfl)
      refine stopped_raises hq hclk hregs (State.fld_setFld _ _ _ (by simp)) ?_
      exact (State.fld_setFld_other _ _ _ _ (by simp) (.inr (.inr (by simp)))).trans
        ((State.fld_setFld _ _ _ (by simp)).trans (Nat.mod_eq_of_lt (s.upcNext_lt q)))
  · have hplain := m.plain_iff.mp hw
    have hruns := wordFate_runs hr hplain (.inr ⟨hs, hcount⟩) (fun h => absurd (hn.symm.trans h) (by decide))
      fun h => absurd (hn.symm.trans h) (by decide)
    refine .of_run h1 hi hp hruns ?_
    rw [wordRun_takes h0 hplain hq hn ha hs]
    exact taken_shows hq
  · refine .of_stall h1 hi hp (wordFate_waits hr hn hs hcount) hn ?_
    exact ⟨rfl, State.fld_setFld _ _ _ (by simp), State.fld_setFld_other _ _ _ _ (by simp) (.inr (.inr (by simp))),
      fun off ho => State.reg_setFld_ne _ _ _ _ ho⟩

end Sys2Proof.Machine
end

section
/-!
PROOFS. What is done to one sequencer: START, STOP, the hang limit, a MEM read that lands, a stage that ends; a write of SYNf (R145, R151,
R157, R170, R178, R180).
-/

namespace Sys2Proof.Machine

/-! ### START and STOP (R178) -/

section Control
variable {s : State} {q : Nat}

theorem exec_seqStart (hc : s.cclkOn = true) (h1 : 1 ≤ q) (hq : seqPresent s.build q = true) : exec (.seqStart q) s = .next (seqStart q s) := by
  have h0 : q ≠ 0 := by omega
  change Host.Outcome.next (if _ then _ else _) = _
  rw [if_pos (by simp [hc, hq, h0])]

theorem exec_seqStop (hc : s.cclkOn = true) (h1 : 1 ≤ q) (hq : seqPresent s.build q = true) : exec (.seqStop q) s = .next (seqStop q s) := by
  have h0 : q ≠ 0 := by omega
  change Host.Outcome.next (if _ then _ else _) = _
  rw [if_pos (by simp [hc, hq, h0])]

theorem seqStart_runs (hs : s.seqState q = SeqState.stopped) (hv : s.flag (F.SQ_STAT_VALID q) = true) :
    let t := seqStart q s
    t = { s with rf := t.rf } ∧ t.seqState q = SeqState.running ∧ t.upc q = s.fld (F.SQ_CTL_ENTRY q)
      ∧ ∀ off, off ≠ (F.SQ_STAT_UPC q).off → t.reg off = s.reg off := by
  unfold seqStart
  rw [if_pos ⟨hs, hv⟩]
  refine ⟨rfl, State.fld_setFld _ _ _ (by simp), ?_, fun off ho => ?_⟩
  · refine (State.fld_setFld_other _ _ _ _ (by simp) (.inr (.inr (by simp)))).trans ?_
    exact (State.fld_setFld _ _ _ (by simp)).trans (Nat.mod_eq_of_lt (s.fld_lt (F.SQ_CTL_ENTRY q)))
  · exact (State.reg_setFld_ne _ (F.SQ_STAT_STATE q) _ _ ho).trans (State.reg_setFld_ne _ _ _ _ ho)

theorem seqStart_ignored (h : s.seqState q ≠ SeqState.stopped ∨ s.flag (F.SQ_STAT_VALID q) = false) : seqStart q s = s := by
  unfold seqStart
  rw [if_neg]
  rintro ⟨hs, hv⟩
  rcases h with h | h
  · exact h hs
  · simp [hv] at h

/-- A sequencer that waits at a barrier no longer has arrived there. -/
def State.leftBarrier (s : State) (q : Nat) : State :=
  match (s.seq q).barrier with
  | some f => s.setFld (F.SYN_ARRIVED f) (clrBit (s.fld (F.SYN_ARRIVED f)) q)
  | none => s

theorem clrBit_le (x k : Nat) : clrBit x k ≤ x := by
  unfold clrBit
  split
  · exact Nat.sub_le _ _
  · exact Nat.le_refl _

theorem leftBarrier_setsRegs (s : State) (q : Nat) :
    SetsRegs (fun off => ∃ f, off = (F.SYN_ARRIVED f).off) s (s.leftBarrier q) := by
  unfold State.leftBarrier
  split
  · exact .setFld s _ ⟨_, rfl⟩
  · exact .refl s

theorem leftBarrier_arrived {f : Nat} (h : (s.seq q).barrier = some f) : bitOf ((s.leftBarrier q).fld (F.SYN_ARRIVED f)) q = false := by
  have hlt : clrBit (s.fld (F.SYN_ARRIVED f)) q < 2 ^ 19 := Nat.lt_of_le_of_lt (clrBit_le _ _) (s.fld_lt (F.SYN_ARRIVED f))
  simp only [State.leftBarrier, h]
  rw [State.fld_setFld _ _ _ (by simp), Nat.mod_eq_of_lt hlt]
  exact bitOf_clrBit_self _ _

theorem seqStop_eq (h : s.seqState q = SeqState.running ∨ s.seqState q = SeqState.stalled) :
    seqStop q s = ((s.leftBarrier q).setSeq q { s.seq q with barrier := none }).setSeqState q SeqState.stopped := by
  have hseq : (s.leftBarrier q).seq q = s.seq q := by rw [(leftBarrier_setsRegs s q).rest]; rfl
  rw [← hseq]
  unfold seqStop
  exact if_pos h

theorem seqStop_runs (hq : q < 19) (h : s.seqState q = SeqState.running ∨ s.seqState q = SeqState.stalled) :
    let t := seqStop q s
    t = { s with rf := t.rf, seqs := t.seqs } ∧ t.seqState q = SeqState.stopped ∧ t.upc q = s.upc q
      ∧ t.seq q = { s.seq q with barrier := none } ∧ (∀ r, r ≠ q → t.seq r = s.seq r)
      ∧ (∀ f, f < 8 → (s.seq q).barrier = some f → bitOf (t.fld (F.SYN_ARRIVED f)) q = false) := by
  have hb := seqBase_bounds hq
  have hleft := leftBarrier_setsRegs s q
  have hrest := hleft.rest
  rw [seqStop_eq h]
  refine ⟨?_, State.fld_setFld _ _ _ (by simp), ?_, ?_, fun r hr => ?_, fun f _ hf => ?_⟩
  · rw [hrest]
    rfl
  · refine (State.fld_setFld_other _ _ _ _ (by simp) (.inr (.inr (by simp)))).trans ?_
    refine hleft.fld ?_
    rintro ⟨f, hf⟩
    simp only at hf
    omega
  · exact (State.seq_setSeq _ q q _).trans (if_pos rfl)
  · refine (State.seq_setSeq _ q r _).trans ((if_neg hr).trans ?_)
    rw [hrest]
    rfl
  · rw [State.setSeqState, State.fld_setFld_other _ _ _ _ (by simp) (.inl (synOff_ne hq f (k := 0) (by decide)))]
    exact leftBarrier_arrived hf

end Control

/-! ### The hang limit, MEM reads, stages (R145, R151, R170) -/

theorem State.stage_setStage (s : State) (q k j : Nat) (g : Stage) :
    (s.setStage q k g).stage q j = if j = k then g else s.stage q j := by
  unfold State.setStage State.stage
  rw [State.seq_setSeq, if_pos rfl]
  exact SMap.get_put (fun _ => Stage.idle) (s.seq q).stages k j g

section Works
variable {s : State} {q : Nat} (hc : s.cclkOn = true) (hh : s.mode ≠ Mode.halt)
include hc hh

theorem hangLimit_runs (h1 : 1 ≤ q) (hq : seqPresent s.build q = true) (hs : s.seqState q = SeqState.stalled)
    (hl : s.fld (F.SQ_CTL_HANGLIM q) ≠ 0) (hi : bitOf (s.nextWord q).lctl 0 = false) : Runs (.hangLimit q) s (SeqChecked q 6 s) := by
  refine .of_clocked rfl hc ?_
  have heq : hangLimit q s = seqCheck q 6 0 s := if_neg (by simp [hq, hc, hh, hs, hl, hi])
  rw [heq]
  exact (seqCheck_checked h1 (seqPresent_lt hq) hc (by decide) (by decide) fun _ => rfl).1

theorem seqMemReadLand_runs {r : SeqMem} {l : List SeqMem} (hm : (s.seq q).mem = r :: l) : Runs (.seqMemReadLand q) s fun t =>
    t = { s with seqs := t.seqs } ∧ (∀ p, p ≠ q → t.seq p = s.seq p)
      ∧ t.seq q = { s.seq q with mem := l, mdr := r.data, memPen := r.pen, memRdy := true } := by
  refine .of_clocked rfl hc ?_
  have heq : memReadLand q s = s.setSeq q { s.seq q with mem := l, mdr := r.data, memPen := r.pen, memRdy := true } := by
    unfold memReadLand
    simp only [hm]
    exact if_neg (by simp [hc, hh])
  rw [heq]
  exact ⟨rfl, fun p hp => (State.seq_setSeq _ _ _ _).trans (if_neg hp), (State.seq_setSeq _ _ _ _).trans (if_pos rfl)⟩

/-- The done and ready conditions of a stage without results of its own. -/
theorem stageDone_plain {k : Nat} (hq : seqPresent s.build q = true) (hk : (s.stage q k).busy = true)
    (h : (17 ≤ q ∧ k < 5 ∧ k ≠ 3) ∨ (1 ≤ q ∧ q ≤ 16 ∧ s.flag (F.SEN_CTL_ENC (q - 1)) = true)) :
    stageDone q k s = s.setStage q k { s.stage q k with busy := false, done := true } := by
  unfold stageDone
  rw [if_neg (by simp [hc, hh, hq])]
  rcases h with ⟨h17, h5, h3⟩ | ⟨h1, h16, he⟩
  · have hkind : seqKind q = .lsq := by
      unfold seqKind
      rw [if_neg (by omega), if_neg (by omega)]
    have hn : 17 + (q - 17) = q := by omega
    simp only [hkind, h5, if_true, lightStageDone, State.lpStage, hn, hk, Bool.not_true, Bool.false_eq_true, if_false, h3]
  · have hkind : seqKind q = .psq := by
      unfold seqKind
      rw [if_neg (by omega), if_pos h16]
    simp only [hkind, he, Bool.true_or, if_true, hk]

theorem stageOperationDone_runs {k : Nat} (hq : seqPresent s.build q = true) (hk : (s.stage q k).busy = true)
    (h : (17 ≤ q ∧ k < 5 ∧ k ≠ 3) ∨ (1 ≤ q ∧ q ≤ 16 ∧ s.flag (F.SEN_CTL_ENC (q - 1)) = true)) :
    Runs (.stageOperationDone q k) s fun t =>
      t = { s with seqs := t.seqs } ∧ t.stage q k = { s.stage q k with busy := false, done := true }
        ∧ (∀ j, j ≠ k → t.stage q j = s.stage q j) ∧ ∀ p, p ≠ q → t.seq p = s.seq p := by
  refine .of_clocked rfl hc ?_
  rw [stageDone_plain hc hh hq hk h]
  have hstage (j : Nat) := s.stage_setStage q k j { s.stage q k with busy := false, done := true }
  exact ⟨rfl, (hstage k).trans (if_pos rfl), fun j hj => (hstage j).trans (if_neg hj), fun p hp => (State.seq_setSeq _ _ _ _).trans (if_neg hp)⟩

end Works

/-! ### A write of SYNf (R180) -/

/-- SYNf in the register map. -/
def synGrp : RegGrp := ⟨0x083000, 0x8, 8, never, zeroReset,
  [⟨32, 19, .rw, .seqSet, anyEnc, fullMask⟩,
   ⟨31, 1, .w1c, .seqState, anyEnc, fullMask⟩,
   ⟨8, 19, .ro, .seqState, anyEnc, fullMask⟩,
   ⟨0, 8, .rw, .seqState, anyEnc, fullMask⟩]⟩

theorem regAt_syn {f : Nat} (hf : f < 8) : regAt (0x083000 + 0x8 * f) = some (synGrp, f) := by
  interval_cases f <;> rfl

theorem absentReg_syn (b : Build) {f : Nat} (hf : f < 8) : absentReg b (0x083000 + 0x8 * f) = false := by
  cases b <;> interval_cases f <;> rfl

section Syn
variable (s : State) (w : Writer) {f : Nat} (v : W64) (hf : f < 8)
include hf

theorem getBits_written_syn {d : FDesc} (hd : d ∈ synGrp.flds) :
    (s.plainWrite w (0x083000 + 0x8 * f) 0xFF v).fld ⟨0x083000 + 0x8 * f, d.lo, d.w⟩
      = getBits (mergeFld (s.flag (lockOf (0x083000 + 0x8 * f))) f d (BitVec.allOnes 64) v (s.reg (0x083000 + 0x8 * f))
          (s.reg (0x083000 + 0x8 * f))) d.lo d.w := by
  have hmask : beMask 0xFF = BitVec.allOnes 64 := by decide
  have hput := State.getBits_written (s := s) (w := w) (be := 0xFF) (data := v) (regAt_syn hf) (absentReg_syn _ hf) rfl hd
  rw [hmask] at hput
  simpa only [State.plainWrite, State.fld, State.reg_setReg_self] using hput

theorem fld_plainWrite_syn {d : FDesc} (hd : d ∈ synGrp.flds) (hrw : d.acc = .rw) :
    (s.plainWrite w (0x083000 + 0x8 * f) 0xFF v).fld ⟨0x083000 + 0x8 * f, d.lo, d.w⟩ = getBits v d.lo d.w := by
  have hbound : d.lo + d.w ≤ 64 := (regAt_tidy (regAt_syn hf)).1 d hd
  have hkind : d.mask = fullMask ∧ d.enc = anyEnc ∧ getBits (BitVec.allOnes 64) d.lo d.w ≠ 0 := by
    clear hrw hbound
    revert d
    simp only [synGrp, List.forall_mem_cons, List.not_mem_nil, false_imp_iff, implies_true, and_true]
    decide
  obtain ⟨hfull, henc, hen⟩ := hkind
  rw [getBits_written_syn s w v hf hd, getBits_mergeFld_open _ _ _ _ _ _ _ hbound hen (.inl hrw), taken_all hbound hfull, henc]
  exact if_pos rfl

theorem arrived_plainWrite_syn : (s.plainWrite w (0x083000 + 0x8 * f) 0xFF v).fld (F.SYN_ARRIVED f) = s.fld (F.SYN_ARRIVED f) := by
  rw [getBits_written_syn s w v hf (d := ⟨8, 19, .ro, .seqState, anyEnc, fullMask⟩) (by simp [synGrp]),
    mergeFld_closed _ _ _ _ _ _ _ (by decide) (.inl rfl)]
  rfl

omit hf in
/-- A write of SYNf at which no sequencer waits. -/
theorem synWrite_plain (hb : ∀ p, (s.seq p).barrier ≠ some f) :
    synWrite w f 0xFF v s = s.plainWrite w (0x083000 + 0x8 * f) 0xFF v := by
  have hnone (p : Nat) : ((s.plainWrite w (0x083000 + 0x8 * f) 0xFF v).seq p).barrier ≠ some f := hb p
  unfold synWrite
  simp only [beq_eq_false_iff_ne.mpr (hnone _), Bool.and_false, List.filter_false, List.foldl_nil]

theorem synfWrite_runs (hc : s.cclkOn = true) (hb : ∀ p, (s.seq p).barrier ≠ some f) : Runs (.synfWrite w f 0xFF v) s fun t =>
    t = { s with rf := t.rf } ∧ t.fld (F.SYN_MASK f) = getBits v 32 19 ∧ t.fld (F.SYN_COUNT f) = getBits v 0 8
      ∧ t.fld (F.SYN_ARRIVED f) = s.fld (F.SYN_ARRIVED f) ∧ ∀ off, off ≠ (F.SYN_MASK f).off → t.reg off = s.reg off := by
  have hex : exec (.synfWrite w f 0xFF v) s = .next (synWrite w f 0xFF v s) := by
    change Host.Outcome.next (if _ then _ else _) = _
    rw [if_pos (by simp [hc, hf])]
    rfl
  refine ⟨_, hex, ?_⟩
  rw [synWrite_plain s w v hb]
  exact ⟨rfl, fld_plainWrite_syn s w v hf (d := ⟨32, 19, .rw, .seqSet, anyEnc, fullMask⟩) (by simp [synGrp]) rfl,
    fld_plainWrite_syn s w v hf (d := ⟨0, 8, .rw, .seqState, anyEnc, fullMask⟩) (by simp [synGrp]) rfl,
    arrived_plainWrite_syn s w v hf, fun off ho => State.reg_setReg_ne _ _ _ _ ho⟩

end Syn

end Sys2Proof.Machine
end

section
/-!
PROOFS. RETIRE of a PSQ: its barriers, its banks, its engine's work, what is observed of it (R111, R156, R171, R173).
-/

namespace Sys2Proof.Machine

/-! ### Folds over sequencers, barriers and banks -/

/-- What each step brings about for its own element, and no step undoes, holds of every element in the end. -/
theorem foldl_each {σ α : Type} {I : σ → Prop} {P : α → σ → Prop} {f : σ → α → σ} {l : List α}
    (hI : ∀ s, ∀ a ∈ l, I s → I (f s a)) (hset : ∀ s, ∀ a ∈ l, I s → P a (f s a))
    (hkeep : ∀ s, ∀ a ∈ l, ∀ b, I s → P b s → P b (f s a)) {s : σ} (hs : I s) :
    I (l.foldl f s) ∧ ∀ b, (b ∈ l ∨ P b s) → P b (l.foldl f s) := by
  induction l generalizing s with
  | nil => exact ⟨hs, fun b hb => hb.resolve_left List.not_mem_nil⟩
  | cons a l ih =>
    have ih := ih (fun t b hb => hI t b (by simp [hb])) (fun t b hb => hset t b (by simp [hb])) (fun t b hb => hkeep t b (by simp [hb]))
      (hI s a (by simp) hs)
    refine ⟨ih.1, fun b hb => ih.2 b ?_⟩
    rcases hb with hb | hb
    · rcases List.mem_cons.mp hb with rfl | hb
      · exact .inr (hset s b (by simp) hs)
      · exact .inl hb
    · exact .inr (hkeep s a (by simp) b hs hb)

/-- At most the fields of `W` differ. -/
structure SetsFlds (W : FRef → Prop) (s t : State) : Prop where
  rest : t = { s with rf := t.rf }
  fld : ∀ g : FRef, g.lo + g.w ≤ 64 → (∀ f, W f → g.Apart f) → t.fld g = s.fld g

section SetsFlds
variable {W : FRef → Prop} {s t u : State}

theorem SetsFlds.refl (s : State) : SetsFlds W s s := ⟨rfl, fun _ _ _ => rfl⟩

theorem SetsFlds.trans (h : SetsFlds W s t) (k : SetsFlds W t u) : SetsFlds W s u := by
  refine ⟨?_, fun g hg ha => (k.fld g hg ha).trans (h.fld g hg ha)⟩
  have h1 := h.rest
  have k1 := k.rest
  rw [h1] at k1
  exact k1

theorem SetsFlds.setFld (s : State) {f : FRef} (v : Nat) (hf : W f) : SetsFlds W s (s.setFld f v) :=
  ⟨rfl, fun g hg ha => State.fld_setFld_other s f g v hg (ha f hf)⟩

theorem SetsFlds.mono {V : FRef → Prop} (h : SetsFlds W s t) (hV : ∀ f, W f → V f) : SetsFlds V s t :=
  ⟨h.rest, fun g hg ha => h.fld g hg fun f hf => ha f (hV f hf)⟩

theorem SetsFlds.foldl {α : Type} {f : State → α → State} (l : List α) (hf : ∀ s, ∀ a ∈ l, SetsFlds W s (f s a)) (s : State) :
    SetsFlds W s (l.foldl f s) := by
  induction l generalizing s with
  | nil => exact .refl s
  | cons a l ih => exact (hf s a (by simp)).trans (ih (fun t b hb => hf t b (by simp [hb])) _)

theorem SetsFlds.seq (h : SetsFlds W s t) (r : Nat) : t.seq r = s.seq r := by
  rw [h.rest]
  rfl

end SetsFlds

/-! ### Barriers and banks of a retired sequencer -/

/-- MASK and ARRIVED of the SYN registers. -/
def IsSyn (g : FRef) : Prop := ∃ f, g = F.SYN_MASK f ∨ g = F.SYN_ARRIVED f

def IsArrived (g : FRef) : Prop := ∃ f, g = F.SYN_ARRIVED f

def IsOwner (g : FRef) : Prop := ∃ b, b < 64 ∧ g = F.SCRUB_OWN_OWNER b

/-- The banks of a unit with the owner code `k` are to be released. -/
def State.banksLeft (s : State) (k : Nat) : State := (s.banksOf k).foldl (fun t b => t.setFld (F.SCRUB_OWN_OWNER b) 0xFF) s

section Leave
variable {s : State} {q : Nat}

theorem leaveBarriers_setsFlds (s : State) (q : Nat) : SetsFlds IsSyn s (leaveBarriers q s) :=
  .foldl _ (fun t f _ => (SetsFlds.setFld t (f := F.SYN_MASK f) _ ⟨f, .inl rfl⟩).trans (.setFld _ (f := F.SYN_ARRIVED f) _ ⟨f, .inr rfl⟩)) s

theorem leaveBarriers_mask (s : State) (q : Nat) {f : Nat} (hf : f < 8) : bitOf ((leaveBarriers q s).fld (F.SYN_MASK f)) q = false := by
  have hmask (t : State) (a b v : Nat) : ((t.setFld (F.SYN_MASK a) (clrBit (t.fld (F.SYN_MASK a)) q)).setFld (F.SYN_ARRIVED a) v).fld (F.SYN_MASK b)
      = if b = a then clrBit (t.fld (F.SYN_MASK a)) q else t.fld (F.SYN_MASK b) := by
    have hlt : clrBit (t.fld (F.SYN_MASK a)) q < 2 ^ 19 := Nat.lt_of_le_of_lt (clrBit_le _ _) (t.fld_lt (F.SYN_MASK a))
    rw [State.fld_setFld_other _ (F.SYN_ARRIVED a) (F.SYN_MASK b) _ (by simp) (.inr (.inr (by simp)))]
    split
    · next h => rw [h, State.fld_setFld _ _ _ (by simp), Nat.mod_eq_of_lt hlt]
    · next h => exact State.fld_setFld_other _ _ _ _ (by simp) (.inl (by simp only; omega))
  refine (foldl_each (I := fun _ => True) (P := fun b t => bitOf (State.fld t (F.SYN_MASK b)) q = false) (fun _ _ _ _ => trivial)
    (fun t a _ _ => ?_) (fun t a _ b _ hb => ?_) trivial).2 f (.inl (List.mem_range.mpr hf))
  · rw [hmask, if_pos rfl]
    exact bitOf_clrBit_self _ _
  · rw [hmask]
    split
    · exact bitOf_clrBit_self _ _
    · exact hb

theorem banksLeft_setsFlds (s : State) (k : Nat) : SetsFlds IsOwner s (s.banksLeft k) :=
  .foldl _ (fun t b hb => .setFld t (f := F.SCRUB_OWN_OWNER b) _
    ⟨b, Nat.lt_of_lt_of_le (List.mem_range.mp (List.mem_filter.mp hb).1) (by cases s.build <;> decide), rfl⟩) s

theorem banksLeft_owner {k b : Nat} (hb : b < spmBanks s.build) (ho : s.fld (F.SCRUB_OWN_OWNER b) = k) :
    (s.banksLeft k).fld (F.SCRUB_OWN_OWNER b) = 0xFF := by
  have hset (t : State) (a : Nat) : (t.setFld (F.SCRUB_OWN_OWNER a) 0xFF).fld (F.SCRUB_OWN_OWNER a) = 0xFF := State.fld_setFld _ _ _ (by simp)
  refine (foldl_each (I := fun _ => True) (P := fun c t => State.fld t (F.SCRUB_OWN_OWNER c) = 0xFF) (fun _ _ _ _ => trivial)
    (fun t a _ _ => hset t a) (fun t a _ c _ hc => ?_) trivial).2 b (.inl ?_)
  · by_cases hac : c = a
    · exact hac ▸ hset t a
    · exact (State.fld_setFld_other _ _ _ _ (by simp) (.inl (by simp only; omega))).trans hc
  · exact List.mem_filter.mpr ⟨List.mem_range.mpr hb, by simp [ho]⟩

/-- A barrier at which no sequencer waits completes without a word. -/
theorem barrierComplete_unwaited (hb : ∀ p, (s.seq p).barrier = none) (f : Nat) : SetsFlds IsArrived s (barrierComplete f s) := by
  unfold barrierComplete
  split
  · exact .refl s
  · simp only [hb, Option.none_beq_some, List.filter_false, List.foldl_nil]
    exact .setFld s _ ⟨f, rfl⟩

theorem barriersComplete_unwaited (hb : ∀ p, (s.seq p).barrier = none) : SetsFlds IsArrived s (barriersComplete s) := by
  unfold barriersComplete
  generalize List.range 8 = l
  induction l generalizing s with
  | nil => exact .refl s
  | cons f l ih =>
    have h := barrierComplete_unwaited hb f
    exact h.trans (ih fun p => (congrArg Seq.barrier (h.seq p)).trans (hb p))

end Leave

/-! ### What is observed of a retired unit (R264) -/

section Observed
variable {s : State} {cls idx : Nat} (hc : s.cclkOn = true)
include hc

/-- The report of a divergence leaves what is observed. -/
theorem reported_obs : (({ s with cmds := { s.cmds with reportDue := true } } : State).raise 159).obs cls idx = s.obs cls idx := by
  have hsource : 0x038000 + 0x8 * ustIdx cls idx ≠ 0x028000 + 0x8 * 159 := by omega
  exact State.fld_raise_other (s := { s with cmds := { s.cmds with reportDue := true } }) (k := 159) hc (by decide) rfl
    (g := F.CMD_UST_OBS (ustIdx cls idx)) (by simp) (.inl hsource)

theorem noted_obs (hu : ustIdx cls idx < 1024) (v w : Nat) :
    let s1 := (s.setFld (F.CMD_UST_DIV (ustIdx cls idx)) v).setFld (F.CMD_UST_FRAME (ustIdx cls idx)) w
    (({ s1 with cmds := { s1.cmds with reportDue := true } } : State).raise 159).obs cls idx = s.obs cls idx := by
  intro s1
  have ho := reportOff_ust _ hu
  have hobs : Observes s s1 :=
    (Observes.setFld s (f := F.CMD_UST_DIV (ustIdx cls idx)) v ho).trans (.setFld _ (f := F.CMD_UST_FRAME (ustIdx cls idx)) w ho)
  rw [reported_obs (hobs.cclkOn.trans hc)]
  exact (State.fld_setFld_other _ _ _ _ (by simp) (.inr (.inl (by simp)))).trans
    (State.fld_setFld_other _ _ _ _ (by simp) (.inr (.inl (by simp))))

theorem judgeUnit_obs (hu : ustIdx cls idx < 1024) (cause : Nat) : (judgeUnit cls idx cause s).obs cls idx = s.obs cls idx := by
  unfold judgeUnit
  simp only
  split
  · rfl
  · split
    · exact (State.fld_setFld_other _ (F.CMD_UST_CAUSE (ustIdx cls idx)) (F.CMD_UST_OBS (ustIdx cls idx)) _ (by simp)
        (.inr (.inl (by simp)))).trans (noted_obs hc hu _ _)
    · exact noted_obs hc hu _ _

theorem observe_obs (v cause : Nat) (hv : v < 16) (hu : unitPresent s.build cls idx = true) :
    (observe cls idx v cause s).obs cls idx = v := by
  have hidx := unitPresent_ustIdx _ _ _ hu
  unfold observe
  have hclk := (Observes.setFld s (f := F.CMD_UST_OBS (ustIdx cls idx)) v (reportOff_ust _ hidx)).cclkOn.trans hc
  rw [if_pos hu, judgeUnit_obs hclk hidx]
  exact (State.fld_setFld _ _ _ (by simp)).trans (Nat.mod_eq_of_lt hv)

end Observed

/-! ### RETIRE of a PSQ (R173) -/

/-- Sequencer q is RETIRED, waits at no barrier and is a member of none. -/
def State.seqRetired (s : State) (q : Nat) : State :=
  leaveBarriers q ((s.setSeqState q SeqState.retired).setSeq q { s.seq q with barrier := none, mem := [] })

/-- The fields that RETIRE of sequencer q writes, beside those that reports touch. -/
def RetireFld (q : Nat) (g : FRef) : Prop := g = F.SQ_STAT_STATE q ∨ IsSyn g ∨ IsOwner g

/-- Slice engine n is observed RETIRED. -/
def seenRetired (n : Nat) (s : State) : State := retiredCause Cls.se n Cause.retired (observe Cls.se n Obs.retired Cause.retired s)

/-- The unit of a PSQ after its sequencer: its work given back, RETIRED as observed, the barriers judged anew. -/
def unitRetired (n : Nat) (s : State) : State :=
  barriersComplete (seenRetired n (abortStages (n + 1) (returnSlice n (returnRows n s))))

theorem retirePsq_eq (n : Nat) (s : State) : retirePsq n s =
    let t := unitRetired n ((s.seqRetired (n + 1)).banksLeft (0x10 + n))
    if t.allRetired && t.role 0 then
      darkIfShow Cause.seall ((List.range (seCount t.build)).foldl (fun t k => retiredCause Cls.se k Cause.seall t) t)
    else t := rfl

/-- What RETIRE leaves of the unit. -/
structure UnitRetired (n : Nat) (s t : State) : Prop where
  work : EngineWork s t
  fld : ∀ g : FRef, g.lo + g.w ≤ 64 → reportOff g.off = false → (∀ f, g.Apart (F.SYN_ARRIVED f)) → t.fld g = s.fld g
  rows : t.rows n = []
  obs : t.obs Cls.se n = Obs.retired

section Retire
variable {s t : State} {n : Nat}

theorem SameWork.rows (h : SameWork s t) (n : Nat) : t.rows n = s.rows n := by
  obtain ⟨_, _, _, rfl⟩ := h
  rfl

theorem SetsFlds.sameWork {W : FRef → Prop} (h : SetsFlds W s t) : SameWork s t := ⟨_, s.seqs, s.cmds.reportDue, h.rest⟩

theorem EngineWork.same (h : EngineWork s t) : t.build = s.build ∧ t.ao = s.ao ∧ t.cc = s.cc ∧ t.tdu = s.tdu := by
  obtain ⟨_, _, _, _, _, _, _, _, _, rfl⟩ := h
  exact ⟨rfl, rfl, rfl, rfl⟩

theorem GivenBack.clocked (h : GivenBack n s t) (hc : s.cclkOn = true) : t.cclkOn = true := by
  have hmode : t.mode = s.mode := by
    unfold State.mode State.fld
    rw [h.regs _ rfl]
  exact (State.cclkOn_of _ _ hmode h.rest.same.2.1).trans hc

theorem GivenBack.barrier (h : GivenBack n s t) (p : Nat) : (t.seq p).barrier = (s.seq p).barrier := by
  by_cases hp : p = n + 1
  · rw [hp, h.seq]
    split <;> rfl
  · rw [h.others p hp]

theorem Observes.seq (h : Observes s t) (p : Nat) : t.seq p = s.seq p := by
  rw [h.rest]
  rfl

theorem seenRetired_observes (hc : s.cclkOn = true) (hu : unitPresent s.build Cls.se n = true) : Observes s (seenRetired n s) :=
  (observe_observes _ _ _ _ hc).trans (.setFld _ _ (reportOff_ust _ (unitPresent_ustIdx _ _ _ hu)))

theorem seenRetired_obs (hc : s.cclkOn = true) (hu : unitPresent s.build Cls.se n = true) : (seenRetired n s).obs Cls.se n = Obs.retired :=
  (State.fld_setFld_other _ _ _ _ (by simp) (.inr (.inl (by simp)))).trans (observe_obs hc _ _ (by decide) hu)

/-- A unit without work that is seen RETIRED. -/
theorem UnitRetired.of_seen (hc : s.cclkOn = true) (hu : unitPresent s.build Cls.se n = true) (hb : ∀ p, (s.seq p).barrier = none)
    (hrows : s.rows n = []) : UnitRetired n s (barriersComplete (seenRetired n s)) := by
  have hobs := seenRetired_observes hc hu
  have hdone := barriersComplete_unwaited fun p => (congrArg Seq.barrier (hobs.seq p)).trans (hb p)
  have hwork := hobs.sameWork.trans hdone.sameWork
  have hkeep (g : FRef) (hg : g.lo + g.w ≤ 64) (ha : ∀ f, g.Apart (F.SYN_ARRIVED f)) :
      (barriersComplete (seenRetired n s)).fld g = (seenRetired n s).fld g :=
    hdone.fld g hg (by rintro _ ⟨f, rfl⟩; exact ha f)
  refine ⟨hwork.engineWork, fun g hg ho ha => (hkeep g hg ha).trans (hobs.fld ho), (hwork.rows n).trans hrows, ?_⟩
  have hidx := unitPresent_ustIdx _ _ _ hu
  refine (hkeep (F.CMD_UST_OBS (ustIdx Cls.se n)) (by simp) fun f => .inl ?_).trans (seenRetired_obs hc hu)
  simp only
  omega

theorem unitRetired_shows (hc : s.cclkOn = true) (hu : unitPresent s.build Cls.se n = true) (hb : ∀ p, (s.seq p).barrier = none) :
    UnitRetired n s (unitRetired n s) := by
  have hback := givenBack n hc
  have hclk := hback.clocked hc
  have hbarrier := fun p => (hback.barrier p).trans (hb p)
  unfold unitRetired
  generalize returnSlice n (returnRows n s) = a at *
  have hnone (p : Nat) : ((abortStages (n + 1) a).seq p).barrier = none := by
    rw [abortStages, State.seq_setSeq]
    split
    · exact hbarrier _
    · exact hbarrier p
  obtain ⟨hwork, hfld, hrows, hobs⟩ := UnitRetired.of_seen (s := abortStages (n + 1) a) hclk (hback.rest.same.1 ▸ hu) hnone hback.rows
  refine ⟨hback.rest.trans ((SameWork.setSeq a _ _).engineWork.trans hwork), fun g hg ho ha => (hfld g hg ho ha).trans ?_, hrows, hobs⟩
  change a.fld g = s.fld g
  unfold State.fld
  rw [hback.regs _ ho]

theorem seqRetired_setsFlds (s : State) (q : Nat) :
    SetsFlds (RetireFld q) (s.setSeq q { s.seq q with barrier := none, mem := [] }) (s.seqRetired q) :=
  (SetsFlds.setFld (s.setSeq q { s.seq q with barrier := none, mem := [] }) (f := F.SQ_STAT_STATE q) SeqState.retired (.inl rfl)).trans
    ((leaveBarriers_setsFlds _ q).mono fun _ hf => .inr (.inl hf))

/-- No other register holds a field that RETIRE writes. -/
theorem RetireFld.off {q : Nat} {g : FRef} (h : RetireFld q g) :
    g.off = seqBase q ∨ 0x083000 ≤ g.off ∨ (0x048100 ≤ g.off ∧ g.off < 0x048300) := by
  rcases h with rfl | ⟨f, rfl | rfl⟩ | ⟨b, hb, rfl⟩
  · exact .inl rfl
  all_goals
    simp only
    omega

/-- Sequencer q after RETIRE, with the banks of its unit, before its unit's work is given back. -/
structure SeqRetired (q k : Nat) (s t : State) : Prop where
  sets : SetsFlds (RetireFld q) (s.setSeq q { s.seq q with barrier := none, mem := [] }) t
  state : t.seqState q = SeqState.retired
  mask : ∀ f, f < 8 → bitOf (t.fld (F.SYN_MASK f)) q = false
  owner : ∀ b, b < spmBanks s.build → s.fld (F.SCRUB_OWN_OWNER b) = k → t.fld (F.SCRUB_OWN_OWNER b) = 0xFF

theorem seqRetired_shows {q : Nat} (hq : q < 19) (k : Nat) (s : State) : SeqRetired q k s ((s.seqRetired q).banksLeft k) := by
  have hb := seqBase_bounds hq
  have hleft := seqRetired_setsFlds s q
  have hbanks := banksLeft_setsFlds (s.seqRetired q) k
  have hmask (f : Nat) (hf : f < 8) : bitOf ((s.seqRetired q).fld (F.SYN_MASK f)) q = false := leaveBarriers_mask _ q hf
  have hstate : (s.seqRetired q).seqState q = SeqState.retired := by
    refine ((leaveBarriers_setsFlds _ q).fld (F.SQ_STAT_STATE q) (by simp) ?_).trans (State.fld_setFld s (F.SQ_STAT_STATE q) _ (by simp))
    rintro _ ⟨f, rfl | rfl⟩ <;> exact .inl (synOff_ne hq f (k := 0) (by decide)).symm
  have hbuild : (s.seqRetired q).build = s.build := by rw [hleft.rest]; rfl
  have hsyn (b : Nat) (hb64 : b < 64) (f : Nat) : 0x048100 + 0x8 * b ≠ 0x083000 + 0x8 * f := by omega
  have howner (b : Nat) (hb64 : b < 64) : (s.seqRetired q).fld (F.SCRUB_OWN_OWNER b) = s.fld (F.SCRUB_OWN_OWNER b) := by
    have hbank : 0x048100 + 0x8 * b ≠ seqBase q := by omega
    refine ((leaveBarriers_setsFlds _ q).fld (F.SCRUB_OWN_OWNER b) (by simp) ?_).trans
      (State.fld_setFld_other s (F.SQ_STAT_STATE q) (F.SCRUB_OWN_OWNER b) _ (by simp) (.inl hbank))
    rintro _ ⟨f, rfl | rfl⟩ <;> exact .inl (hsyn b hb64 f)
  generalize s.seqRetired q = a at *
  refine ⟨hleft.trans (hbanks.mono fun _ hf => .inr (.inr hf)), ?_, fun f hf => ?_, fun b hb1 ho => banksLeft_owner (hbuild ▸ hb1) ?_⟩
  · refine (hbanks.fld (F.SQ_STAT_STATE q) (by simp) ?_).trans hstate
    rintro _ ⟨b, hb, rfl⟩
    exact .inl (show seqBase q ≠ 0x048100 + 0x8 * b by omega)
  · rw [hbanks.fld (F.SYN_MASK f) (by simp) (by rintro _ ⟨b, hb64, rfl⟩; exact .inl (hsyn b hb64 f).symm)]
    exact hmask f hf
  · exact (howner b (Nat.lt_of_lt_of_le hb1 (by cases s.build <;> decide))).trans ho

section Sq
variable {q k : Nat} (h : SeqRetired q k s t)
include h

theorem SeqRetired.clocked (hq : q < 19) (hc : s.cclkOn = true) : t.cclkOn = true := by
  have hb := seqBase_bounds hq
  refine (State.cclkOn_of s t ?_ (by rw [h.sets.rest]; rfl)).trans hc
  refine h.sets.fld F.AO_MODE_MODE (by decide) fun f hf => .inl ?_
  have hoff := hf.off
  simp only
  omega

theorem SeqRetired.barrier (hb : ∀ r, (s.seq r).barrier = none) (r : Nat) : (t.seq r).barrier = none := by
  rw [h.sets.seq r, State.seq_setSeq]
  split
  · rfl
  · exact hb r

theorem SeqRetired.build : t.build = s.build := by
  rw [h.sets.rest]
  rfl

end Sq

/-- The engine is left with another engine that serves. -/
theorem allRetired_false {k : Nat} (hk : k < seCount s.build) (h : s.seqState (k + 1) ≠ SeqState.retired) : s.allRetired = false := by
  refine Bool.eq_false_iff.mpr fun hall => h ?_
  simpa using List.all_eq_true.mp hall k (List.mem_range.mpr hk)

theorem unitPresent_se {b : Build} {n : Nat} (h16 : n + 1 ≤ 16) (h : seqPresent b (n + 1) = true) : unitPresent b Cls.se n = true := by
  simp only [seqPresent, Bool.or_eq_true, Bool.and_eq_true, beq_iff_eq, decide_eq_true_eq] at h
  have hvalid : unitValid Cls.se n = true := decide_eq_true (show n < 16 by omega)
  have hn : n < seCount b := by omega
  rw [unitPresent, hvalid, Bool.true_and]
  exact decide_eq_true hn

/-- RETIRE of PSQ q while another serves. -/
theorem retire_runs {q k : Nat} (hc : s.cclkOn = true) (h1 : 1 ≤ q) (h16 : q ≤ 16) (hq : seqPresent s.build q = true) (hcalm : s.calm)
    (hs : s.seqState q ≠ SeqState.retired) (hb : ∀ r, (s.seq r).barrier = none) (hk : k < seCount s.build) (hkq : k + 1 ≠ q)
    (hother : s.seqState (k + 1) ≠ SeqState.retired) :
    Runs (.retire q) s fun t => t.seqState q = SeqState.retired ∧ (∀ f, f < 8 → bitOf (t.fld (F.SYN_MASK f)) q = false)
      ∧ (∀ b, b < spmBanks s.build → s.fld (F.SCRUB_OWN_OWNER b) = 0x10 + (q - 1) → t.fld (F.SCRUB_OWN_OWNER b) = 0xFF)
      ∧ t.obs Cls.se (q - 1) = Obs.retired ∧ t.rows (q - 1) = [] ∧ t.mode = s.mode := by
  have hq19 := seqPresent_lt hq
  have hbase := seqBase_bounds hq19
  obtain ⟨n, rfl⟩ : ∃ n, q = n + 1 := ⟨q - 1, by omega⟩
  simp only [Nat.add_sub_cancel]
  have hsq := seqRetired_shows hq19 (0x10 + n) s
  have hunit := unitRetired_shows (n := n) (hsq.clocked hq19 hc) (hsq.build ▸ unitPresent_se h16 hq) (hsq.barrier hb)
  have hex : exec (.retire (n + 1)) s = .next (settle (retirePsq n s)) := by
    have hkind : seqKind (n + 1) = .psq := by
      unfold seqKind
      rw [if_neg (by omega), if_pos h16]
    change Host.Outcome.next (if s.cclkOn then seqRetire (n + 1) s else s) = _
    rw [if_pos hc, seqRetire, if_neg (by simp [hq, hs]), hkind]
    rfl
  refine ⟨_, hex, ?_⟩
  rw [retirePsq_eq]
  generalize (s.seqRetired (n + 1)).banksLeft (0x10 + n) = u at *
  generalize unitRetired n u = t at *
  have hkept (g : FRef) (hg : g.lo + g.w ≤ 64) (ho : g.off < 0x083000) (hne : g.off ≠ seqBase (n + 1))
      (hbank : g.off < 0x048100 ∨ 0x048300 ≤ g.off) (hr : reportOff g.off = false) : t.fld g = s.fld g :=
    (hunit.fld g hg hr fun f => .inl (by simp only; omega)).trans (hsq.sets.fld g hg fun f hf => .inl (by have := hf.off; omega))
  have hbefore (g : FRef) (hg : g.lo + g.w ≤ 64) (hr : reportOff g.off = false) (ha : ∀ f, g.Apart (F.SYN_ARRIVED f)) : t.fld g = u.fld g :=
    hunit.fld g hg hr ha
  obtain ⟨hbuild, hao, hcc, htdu⟩ := hunit.work.same
  have hk16 : k < 16 := Nat.lt_of_lt_of_le hk (by cases s.build <;> decide)
  have hapart := seqBase_apart (p := k + 1) (by omega) hq19 hkq
  have hbk := seqBase_bounds (q := k + 1) (by omega)
  have hserves : t.seqState (k + 1) = s.seqState (k + 1) :=
    hkept (F.SQ_STAT_STATE (k + 1)) (by simp) (by simp only; omega) (by simp only; omega) (.inr (by simp only; omega))
      (reportOff_between (by simp only; omega) (by simp only; omega))
  have hall : t.allRetired = false := allRetired_false (k := k) (by rw [hbuild, hsq.build]; exact hk) (hserves ▸ hother)
  have hcalmT : t.calm := State.calm_of hcalm (by rw [hcc, hsq.sets.rest]; rfl) (by rw [htdu, hsq.sets.rest]; rfl)
  simp only [hall, Bool.false_and, Bool.false_eq_true, if_false, settle_calm hcalmT]
  refine ⟨?_, fun f hf => ?_, fun b hb1 ho => ?_, hunit.obs, hunit.rows, ?_⟩
  · refine (hbefore (F.SQ_STAT_STATE (n + 1)) (by simp) ?_ fun f => .inl ?_).trans hsq.state
    · exact reportOff_between (by simp only; omega) (by simp only; omega)
    · exact (synOff_ne hq19 f (k := 0) (by decide)).symm
  · rw [hbefore (F.SYN_MASK f) (by simp) (reportOff_between (by simp only; omega) (by simp only; omega)) fun a => .inr (.inr (by simp))]
    exact hsq.mask f hf
  · have h64 : b < 64 := Nat.lt_of_lt_of_le hb1 (by cases s.build <;> decide)
    refine (hbefore (F.SCRUB_OWN_OWNER b) (by simp) ?_ fun f => .inl ?_).trans (hsq.owner b hb1 ho)
    · exact reportOff_between (by simp only; omega) (by simp only; omega)
    · simp only
      omega
  · exact hkept F.AO_MODE_MODE (by decide) (by decide) (by simp only; omega) (.inl (by decide)) rfl

theorem retire_again {q : Nat} (h : s.seqState q = SeqState.retired) : Inert (.retire q) s := by
  have hsame : seqRetire q s = s := if_pos (by simp [h])
  change Host.Outcome.next (if s.cclkOn then seqRetire q s else s) = .next s
  rw [hsame, ite_self]

end Retire

end Sys2Proof.Machine
end

section
/-!
PROOFS. A barrier that every member has reached: each lets go its word, in turn (R156).
-/

namespace Sys2Proof.Machine

/-! ### The word of one sequencer at a barrier -/

/-- The fields that an idle word of one of the sequencers `l` writes: where it stands, the counts that it gives and takes, a source. -/
def IdleFld (l : List Nat) (g : FRef) : Prop :=
  (∃ q ∈ l, g = F.SQ_STAT_STATE q ∨ g = F.SQ_STAT_UPC q) ∨ (∃ f, g = F.SYN_OVF f ∨ g = F.SYN_COUNT f)
    ∨ ∃ k, k < 384 ∧ g = F.DIC_SRC_COUNT k

/-- Sequencer q has executed an idle word. -/
structure IdleRun (q : Nat) (s t : State) : Prop where
  sets : SetsFlds (IdleFld [q]) s t
  state : t.seqState q = SeqState.running
  upc : t.upc q = s.upcNext q

section Idle
variable {s t : State} {q : Nat}

theorem SetsFlds.raise {W : FRef → Prop} (hc : s.cclkOn = true) {k : Nat} (h32 : 32 ≤ k) (hk : k < 384) (hW : W (F.DIC_SRC_COUNT k)) :
    SetsFlds W s (s.raise k) := by
  rw [State.raise_eq s k hc h32 (seqSource_open h32 hk)]
  exact .setFld s _ hW

theorem SetsFlds.cclkOn {W : FRef → Prop} (h : SetsFlds W s t) (ha : ∀ f, W f → F.AO_MODE_MODE.Apart f) : t.cclkOn = s.cclkOn :=
  State.cclkOn_of s t (h.fld F.AO_MODE_MODE (by decide) ha) (by rw [h.rest])

/-- SYN of a word gives a count, or takes one. -/
theorem synAct_setsFlds (hc : s.cclkOn = true) (hq : q < 19) (m : MicroWord) : SetsFlds (IdleFld []) s (synAct q m s) := by
  have hcount (v : Nat) : SetsFlds (IdleFld []) s (s.setFld (F.SYN_COUNT m.synF) v) := .setFld s v (.inr (.inl ⟨_, .inr rfl⟩))
  unfold synAct
  simp only
  split
  · split
    · have hovf : SetsFlds (IdleFld []) s (s.setFlag (F.SYN_OVF m.synF) true) := .setFld s _ (.inr (.inl ⟨_, .inl rfl⟩))
      have hclk : (s.setFlag (F.SYN_OVF m.synF) true).cclkOn = true :=
        ((SetsRegs.setFlag (P := (· = (F.SYN_OVF m.synF).off)) s true rfl).cclkOn (by simp only; omega)).trans hc
      exact hovf.trans (.raise hclk (by omega) (by omega) (.inr (.inr ⟨_, by omega, rfl⟩)))
    · exact hcount _
  · exact hcount _
  · exact .refl s

theorem IdleFld.mono {l k : List Nat} (h : ∀ q ∈ l, q ∈ k) {g : FRef} (hg : IdleFld l g) : IdleFld k g := by
  rcases hg with ⟨q, hq, hg⟩ | hg
  · exact .inl ⟨q, h q hq, hg⟩
  · exact .inr hg

/-- A customer instruction in progress does not end with an idle word. -/
theorem customTail_idle {m : MicroWord} (hm : m.Plain) (hn : m.nxt = 0) (u : State) : customTail m u = u := by
  have h9 : m.nxt ≠ 9 := by omega
  have hgo : ¬ ((m.nxt = 1 ∨ m.nxt = 3) ∧ 0x1F00 ≤ m.bra ∧ m.bra ≤ 0x1F3F) := by omega
  unfold customTail
  cases u.cc.cx with
  | none => rfl
  | some x => simp only [hm.group, bitOf, Nat.zero_div, Nat.zero_mod, Nat.reduceBEq, Bool.false_eq_true, if_false, h9, hgo]

theorem barrierWord_idle (hi : (s.nextWord q).idleWord = true) :
    barrierWord q s = (synAct q (s.nextWord q) (s.setSeqState q SeqState.running)).setFld (F.SQ_STAT_UPC q) (s.upcNext q) := by
  obtain ⟨hm, ha, hn⟩ := (MicroWord.idle_iff _).mp hi
  unfold barrierWord
  generalize s.nextWord q = m at *
  have hact : wordAct q m s = (synAct q m (s.setSeqState q SeqState.running)).setFld (F.SQ_STAT_UPC q) (s.upcNext q) := by
    rw [wordAct_plain hm q s (by omega), nextAct_plus hn]
    simp only [aluPart, ha, if_true]
  simp only [hm.memAccess, Bool.false_and, Bool.false_eq_true, if_false, wordRun]
  split
  · next h0 => rw [customTail_idle hm hn, ← h0, hact]
  · exact hact

theorem idleFld_mode {l : List Nat} (hl : ∀ q ∈ l, q < 19) {f : FRef} (hf : IdleFld l f) : F.AO_MODE_MODE.Apart f := by
  refine .inl ?_
  rcases hf with ⟨q, hq, rfl | rfl⟩ | ⟨f, rfl | rfl⟩ | ⟨k, -, rfl⟩
  · have := seqBase_bounds (hl q hq)
    simp only
    omega
  · have := seqBase_bounds (hl q hq)
    simp only
    omega
  all_goals
    simp only
    omega

/-- Beside the fields that idle words of `l` write lie MASK and ARRIVED, and what else the sequencers' registers hold. -/
theorem IdleFld.apart {l : List Nat} {f g : FRef} (hf : IdleFld l f) (h1 : 0x080000 ≤ g.off)
    (hsyn : g.off < 0x083000 ∨ (8 ≤ g.lo ∧ g.lo + g.w ≤ 31) ∨ 32 ≤ g.lo)
    (hl : ∀ q ∈ l, g.off ≠ seqBase q ∨ (3 ≤ g.lo ∧ g.lo + g.w ≤ 16)) : g.Apart f := by
  rcases hf with ⟨q, hq, rfl | rfl⟩ | ⟨f, rfl | rfl⟩ | ⟨k, hk, rfl⟩
  · have := hl q hq
    simp only [FRef.Apart]
    omega
  · have := hl q hq
    simp only [FRef.Apart]
    omega
  all_goals
    simp only [FRef.Apart]
    omega

theorem barrierWord_idleRun (hc : s.cclkOn = true) (hq : q < 19) (hi : (s.nextWord q).idleWord = true) : IdleRun q s (barrierWord q s) := by
  rw [barrierWord_idle hi]
  have hrun : SetsFlds (IdleFld [q]) s (s.setSeqState q SeqState.running) := .setFld s _ (.inl ⟨q, by simp, .inl rfl⟩)
  have hclk : (s.setSeqState q SeqState.running).cclkOn = true :=
    (hrun.cclkOn fun f hf => idleFld_mode (by simpa using hq) hf).trans hc
  have hsyn := synAct_setsFlds hclk hq (s.nextWord q)
  have hstate : (s.setSeqState q SeqState.running).seqState q = SeqState.running := State.fld_setFld _ _ _ (by simp)
  generalize s.setSeqState q SeqState.running = a at *
  generalize synAct q (s.nextWord q) a = b at *
  refine ⟨hrun.trans ((hsyn.mono fun f hf => hf.mono (by simp)).trans (.setFld b _ (.inl ⟨q, by simp, .inr rfl⟩))), ?_, ?_⟩
  · refine (State.fld_setFld_other _ _ _ _ (by simp) (.inr (.inl (by simp)))).trans ((hsyn.fld (F.SQ_STAT_STATE q) (by simp) ?_).trans hstate)
    have hb := seqBase_bounds hq
    exact fun f hf => hf.apart hb.1 (.inl (by simp only; omega)) (by simp)
  · exact (State.fld_setFld _ _ _ (by simp)).trans (Nat.mod_eq_of_lt (s.upcNext_lt q))

/-- The CSQ's patches depend on their registers alone. -/
theorem State.issueAddr_congr (hv : t.fld (F.SQ_STAT_VALID 0) = s.fld (F.SQ_STAT_VALID 0))
    (hp : ∀ k, k < 16 → ∀ g : FRef, g.lo + g.w ≤ 64 → g.off = 0x080100 + 0x8 * k → t.fld g = s.fld g) (q a : Nat) :
    t.issueAddr q a = s.issueAddr q a := by
  have hfind : (List.range 16).find? (fun k => t.flag (F.CSQ_PATCH_EN k) && t.fld (F.CSQ_PATCH_FROM k) == a)
      = (List.range 16).find? (fun k => s.flag (F.CSQ_PATCH_EN k) && s.fld (F.CSQ_PATCH_FROM k) == a) := by
    refine List.find?_congr fun k hk => ?_
    have hk := List.mem_range.mp hk
    simp only [State.flag, hp k hk (F.CSQ_PATCH_EN k) (by simp) rfl, hp k hk (F.CSQ_PATCH_FROM k) (by simp) rfl]
  have hto : ∀ k, (List.range 16).find? (fun k => s.flag (F.CSQ_PATCH_EN k) && s.fld (F.CSQ_PATCH_FROM k) == a) = some k →
      t.fld (F.CSQ_PATCH_TO k) = s.fld (F.CSQ_PATCH_TO k) := fun k hk =>
    hp k (List.mem_range.mp (List.mem_of_find?_eq_some hk)) (F.CSQ_PATCH_TO k) (by simp) rfl
  unfold State.issueAddr
  rw [State.flag, hv, ← State.flag, hfind]
  split
  · cases hk : (List.range 16).find? (fun k => s.flag (F.CSQ_PATCH_EN k) && s.fld (F.CSQ_PATCH_FROM k) == a) with
    | none => rfl
    | some k => exact hto k hk
  · rfl

/-- What a sequencer issues next depends on its UPC, the control stores, and the CSQ's patches. -/
theorem State.nextWord_congr (hs : t.cstore = s.cstore) (hu : t.upc q = s.upc q)
    (hv : t.fld (F.SQ_STAT_VALID 0) = s.fld (F.SQ_STAT_VALID 0))
    (hp : ∀ k, k < 16 → ∀ g : FRef, g.lo + g.w ≤ 64 → g.off = 0x080100 + 0x8 * k → t.fld g = s.fld g) : t.nextWord q = s.nextWord q := by
  unfold State.nextWord State.ucWord
  rw [State.issueAddr_congr hv hp, hu, hs]

/-! ### The words of all that wait -/

/-- What the words of the sequencers `l` leave of another: its next word and where it stands. -/
theorem SetsFlds.idle_others {l : List Nat} (h : SetsFlds (IdleFld l) s t) (hl : ∀ p ∈ l, p < 19) (hq : q < 19) (hn : q ∉ l) :
    t.seqState q = s.seqState q ∧ t.upc q = s.upc q ∧ t.nextWord q = s.nextWord q := by
  have hb := seqBase_bounds hq
  have hother : ∀ p ∈ l, seqBase q ≠ seqBase p := fun p hp => by
    have hpq : q ≠ p := fun e => hn (e ▸ hp)
    have := seqBase_apart hq (hl p hp) hpq
    omega
  have hpatch : ∀ k, k < 16 → ∀ p ∈ l, 0x080100 + 0x8 * k ≠ seqBase p := fun k hk p _ => by
    unfold seqBase
    split
    · omega
    · split <;> omega
  have hupc : t.upc q = s.upc q :=
    h.fld (F.SQ_STAT_UPC q) (by simp) fun f hf => hf.apart hb.1 (.inl (by simp only; omega)) fun p hp => .inl (hother p hp)
  refine ⟨h.fld (F.SQ_STAT_STATE q) (by simp) fun f hf => hf.apart hb.1 (.inl (by simp only; omega)) fun p hp => .inl (hother p hp), hupc, ?_⟩
  refine State.nextWord_congr (by rw [h.rest]) hupc (h.fld (F.SQ_STAT_VALID 0) (by simp) fun f hf => ?_)
    fun k hk g hg ho => h.fld g hg fun f hf => ?_
  · exact hf.apart (by simp [seqBase]) (.inl (by simp [seqBase])) fun _ _ => .inr (by simp)
  · exact hf.apart (by omega) (.inl (by omega)) fun p hp => .inl (ho ▸ hpatch k hk p hp)

theorem barrierWords_idle {l : List Nat} (hc : s.cclkOn = true) (hl : ∀ p ∈ l, p < 19) (hd : l.Nodup)
    (hi : ∀ p ∈ l, (s.nextWord p).idleWord = true) :
    let t := l.foldl (fun t q => barrierWord q t) s
    SetsFlds (IdleFld l) s t ∧ ∀ p ∈ l, t.seqState p = SeqState.running ∧ t.upc p = s.upcNext p := by
  induction l generalizing s with
  | nil => exact ⟨.refl s, by simp⟩
  | cons q l ih =>
    obtain ⟨hq, hd⟩ := List.nodup_cons.mp hd
    have hq19 := hl q (by simp)
    have hl' : ∀ p ∈ l, p < 19 := fun p hp => hl p (by simp [hp])
    obtain ⟨hsets, hstate, hupc⟩ := barrierWord_idleRun hc hq19 (hi q (by simp))
    have hrun : ∀ p ∈ [q], p < 19 := by simpa using hq19
    have hclk := (hsets.cclkOn fun f hf => idleFld_mode hrun hf).trans hc
    have hother : ∀ p ∈ l, (barrierWord q s).upc p = s.upc p ∧ (barrierWord q s).nextWord p = s.nextWord p := fun p hp =>
      (hsets.idle_others hrun (hl' p hp) (by simpa using fun e : p = q => hq (e ▸ hp))).2
    obtain ⟨hrest, hall⟩ := ih hclk hl' hd fun p hp => (hother p hp).2 ▸ hi p (by simp [hp])
    rw [List.foldl_cons]
    refine ⟨(hsets.mono fun f hf => hf.mono (by simp)).trans (hrest.mono fun f hf => hf.mono fun p hp => by simp [hp]), fun p hp => ?_⟩
    rcases List.mem_cons.mp hp with rfl | hp
    · obtain ⟨h1, h2, -⟩ := hrest.idle_others hl' hq19 hq
      exact ⟨h1.trans hstate, h2.trans hupc⟩
    · obtain ⟨h1, h2⟩ := hall p hp
      refine ⟨h1, h2.trans ?_⟩
      unfold State.upcNext
      rw [(hother p hp).1]

/-- The sequencers `l` wait at no barrier. -/
theorem barriersLeft_shows (l : List Nat) (s : State) : let t := l.foldl (fun t q => t.setSeq q { t.seq q with barrier := none }) s
    t = { s with seqs := t.seqs } ∧ ∀ p, t.seq p = if p ∈ l then { s.seq p with barrier := none } else s.seq p := by
  induction l generalizing s with
  | nil => exact ⟨rfl, fun p => by simp⟩
  | cons q l ih =>
    obtain ⟨hrest, hseq⟩ := ih (s.setSeq q { s.seq q with barrier := none })
    refine ⟨hrest, fun p => (hseq p).trans ?_⟩
    rw [State.seq_setSeq]
    by_cases hp : p = q
    · subst hp
      simp
    · simp [hp]

/-- The sequencers that wait at barrier f. -/
def State.waiting (s : State) (f : Nat) : List Nat := (bitsSet (s.fld (F.SYN_ARRIVED f)) 19).filter fun q => (s.seq q).barrier == some f

theorem State.mem_waiting {f p : Nat} :
    p ∈ s.waiting f ↔ p < 19 ∧ bitOf (s.fld (F.SYN_ARRIVED f)) p = true ∧ (s.seq p).barrier = some f := by
  simp only [State.waiting, List.mem_filter, mem_bitsSet, beq_iff_eq, and_assoc]

theorem State.waiting_nodup (f : Nat) : (s.waiting f).Nodup := (List.nodup_range.filter _).filter _

/-- Barrier f completes (R156). -/
theorem synBarrierComplete_runs {f : Nat} (hc : s.cclkOn = true) (hf : f < 8) (hh : s.mode ≠ Mode.halt) (hr : barrierReady f s = true)
    (hi : ∀ p ∈ s.waiting f, (s.nextWord p).idleWord = true) : Runs (.synBarrierComplete f) s fun t => t.fld (F.SYN_ARRIVED f) = 0
      ∧ t.fld (F.SYN_MASK f) = s.fld (F.SYN_MASK f)
      ∧ (∀ p ∈ s.waiting f, (t.seq p).barrier = none ∧ t.upc p = s.upcNext p ∧ t.seqState p = SeqState.running)
      ∧ (∀ p, p < 19 → p ∉ s.waiting f → t.seq p = s.seq p ∧ t.upc p = s.upc p ∧ t.seqState p = s.seqState p) := by
  have heq : barrierComplete f s = (s.waiting f).foldl (fun t q => barrierWord q t)
      ((s.waiting f).foldl (fun t q => t.setSeq q { t.seq q with barrier := none }) (s.setFld (F.SYN_ARRIVED f) 0)) :=
    if_neg (by simp [Nat.not_le.mpr hf, hr, hh, hc])
  refine .of_clocked rfl hc ?_
  rw [heq]
  have hl : ∀ p ∈ s.waiting f, p < 19 := fun p hp => (State.mem_waiting.mp hp).1
  have hd := s.waiting_nodup f
  generalize s.waiting f = l at *
  obtain ⟨hleft, hseq⟩ := barriersLeft_shows l (s.setFld (F.SYN_ARRIVED f) 0)
  generalize l.foldl (fun t q => t.setSeq q { t.seq q with barrier := none }) (s.setFld (F.SYN_ARRIVED f) 0) = a at *
  have hfld (g : FRef) : a.fld g = (s.setFld (F.SYN_ARRIVED f) 0).fld g := by rw [hleft]; rfl
  have hother (g : FRef) (hg : g.lo + g.w ≤ 64) (ha : g.Apart (F.SYN_ARRIVED f)) : a.fld g = s.fld g :=
    (hfld g).trans (State.fld_setFld_other s (F.SYN_ARRIVED f) g 0 hg ha)
  have hbelow (g : FRef) (hg : g.lo + g.w ≤ 64) (ho : g.off < 0x083000) : a.fld g = s.fld g := hother g hg (.inl (by simp only; omega))
  have hword : ∀ p, p < 19 → a.upc p = s.upc p ∧ a.seqState p = s.seqState p ∧ a.nextWord p = s.nextWord p := fun p hp => by
    have hb := seqBase_bounds hp
    have hupc : a.upc p = s.upc p := hbelow _ (by simp) (by simp only; omega)
    exact ⟨hupc, hbelow _ (by simp) (by simp only; omega), State.nextWord_congr (by rw [hleft]; rfl) hupc
      (hbelow _ (by simp) (by simp [seqBase])) fun k hk g hg ho => hbelow g hg (by omega)⟩
  have hclk : a.cclkOn = true := (State.cclkOn_of s a (hbelow F.AO_MODE_MODE (by decide) (by decide)) (by rw [hleft]; rfl)).trans hc
  obtain ⟨hsets, hall⟩ := barrierWords_idle hclk hl hd fun p hp => (hword p (hl p hp)).2.2 ▸ hi p hp
  generalize l.foldl (fun t q => barrierWord q t) a = t at *
  have hsyn (g : FRef) (hg : g.lo + g.w ≤ 64) (ho : g.off = 0x083000 + 0x8 * f) (hbits : (8 ≤ g.lo ∧ g.lo + g.w ≤ 31) ∨ 32 ≤ g.lo) :
      t.fld g = a.fld g := hsets.fld g hg fun h hh => hh.apart (by omega) (.inr hbits) fun p hp => .inl (by have := seqBase_bounds (hl p hp); omega)
  have hseqT (p : Nat) : t.seq p = a.seq p := hsets.seq p
  refine ⟨?_, ?_, fun p hp => ?_, fun p hp hn => ?_⟩
  · rw [hsyn _ (by simp) rfl (.inl (by simp)), hfld, State.fld_setFld _ _ _ (by simp), Nat.zero_mod]
  · rw [hsyn _ (by simp) rfl (.inr (by simp))]
    exact hother _ (by simp) (.inr (.inr (by simp)))
  · obtain ⟨hstate, hupc⟩ := hall p hp
    refine ⟨?_, hupc.trans ?_, hstate⟩
    · rw [hseqT, hseq, if_pos hp]
    · unfold State.upcNext
      rw [(hword p (hl p hp)).1]
  · obtain ⟨hstate, hupc, -⟩ := hsets.idle_others hl hp hn
    obtain ⟨h1, h2, -⟩ := hword p hp
    refine ⟨?_, hupc.trans h1, hstate.trans h2⟩
    rw [hseqT, hseq, if_neg hn]
    rfl

end Idle

end Sys2Proof.Machine
end

section
/-!
PROOFS. UCODE_LOAD starts: the checks in their order, the image asked for, the load begun (R165 to R167).
-/

namespace Sys2Proof.Machine

section Start
variable {s : State} {c : Cmd} (h : s.Due c 0x7001)
include h

/-- The command has been found and works on. -/
theorem State.Due.ucodeRunning : s.running c.id = s.setCmd { c with phase := .running } := by
  rw [State.running, h.found]

theorem State.Due.cmd?_ucodeRunning : (s.setCmd { c with phase := .running }).cmd? c.id = some { c with phase := .running } := by
  rw [State.cmd?_setCmd s _ _ (by rw [h.found]; rfl), if_pos rfl]

theorem ucodeLoad_early {st : Nat} (he : ucodeEarly s c (ucodeParams c.params) = some st) :
    ucodeLoad c.id s = finish c.id st ucodePlain s := by
  refine (withStarted_due h _).trans ?_
  simp only [he]

theorem ucodeLoad_accepted (he : ucodeEarly s c (ucodeParams c.params) = none) : ucodeLoad c.id s =
    let u := ucodeParams c.params
    let s1 := s.setCmd { c with phase := .running }
    if u.mode = 1 then s1
    else if u.src = 1 then ucodeHeader c.id s1
    else (rangeReads (.ucode c.id) u.addr u.imageLen).foldl (fun t r => t.mptQueue 0 r) s1 := by
  refine (withStarted_due h _).trans ?_
  simp only [he, h.ucodeRunning]

theorem ucodeLoad_answers {st : Nat} (he : ucodeEarly s c (ucodeParams c.params) = some st) :
    Answers (.ucodeLoad c.id) s c st ucodePlain s := by
  refine .of_clocked rfl (State.live_clocked h.live) ?_
  rw [ucodeLoad_early h he]
  exact Answers.of_finish h st ucodePlain rfl rfl rfl rfl

variable (he : ucodeEarly s c (ucodeParams c.params) = none)
include he

/-- A verify needs no image. -/
theorem ucodeLoad_verifies (hm : (ucodeParams c.params).mode = 1) : Runs (.ucodeLoad c.id) s fun t =>
    t = { s with cmds := t.cmds } ∧ t.cmd? c.id = some { c with phase := .running } := by
  refine .of_clocked rfl (State.live_clocked h.live) ?_
  rw [ucodeLoad_accepted h he]
  simp only [hm, if_true]
  exact ⟨rfl, h.cmd?_ucodeRunning⟩

omit h he in
theorem queueAll_queue (l : List MptReq) (t : State) : l.foldl (fun t r => t.mptQueue 0 r) t
    = { t with mpt0 := { t.mpt0 with queue := t.mpt0.queue ++ l } } := by
  induction l generalizing t with
  | nil => simp
  | cons r l ih =>
    rw [List.foldl_cons, ih]
    simp [State.mptQueue, State.setPort, State.port]

omit h he in
/-- What orders 1 and 3 of R166 have found in order. -/
theorem ucodeEarly_none (he : ucodeEarly s c (ucodeParams c.params) = none) :
    ucodeBadParam s c.params (ucodeParams c.params) = false
      ∧ ∀ q ∈ (ucodeParams c.params).targets, q ≠ 0 → s.seqState q = SeqState.stopped := by
  unfold ucodeEarly at he
  split at he
  · cases he
  · next hbad =>
    refine ⟨Bool.eq_false_iff.mpr hbad, fun q hq h0 => ?_⟩
    split at he
    · cases he
    · split at he
      · cases he
      · next hbusy =>
        have hstate := (Bool.or_eq_false_iff.mp (Bool.eq_false_iff.mpr hbusy)).1
        simpa [h0] using List.any_eq_false.mp hstate q hq

/-- An image in DRAM is asked for whole. -/
theorem ucodeLoad_asks (hm : (ucodeParams c.params).mode = 0) (hs : (ucodeParams c.params).src = 0) : Runs (.ucodeLoad c.id) s fun t =>
    t = { s with cmds := t.cmds, mpt0 := t.mpt0 }
      ∧ t.mpt0.queue = s.mpt0.queue ++ rangeReads (.ucode c.id) (ucodeParams c.params).addr (ucodeParams c.params).imageLen
      ∧ t.cmd? c.id = some { c with phase := .running } := by
  refine .of_clocked rfl (State.live_clocked h.live) ?_
  rw [ucodeLoad_accepted h he]
  simp only [hm, hs, Nat.zero_ne_one, if_false, queueAll_queue]
  exact ⟨rfl, rfl, h.cmd?_ucodeRunning⟩

end Start

/-! ### The load begins (R167) -/

section Begin
variable {s t : State} {u : UcodeParams}

/-- Region of target q invalid, the target LOADING. -/
def beginTarget (u : UcodeParams) (t : State) (q : Nat) : State :=
  let t1 := t.setFlag (validRef q u.customer) false
  if q = 0 then t1 else t1.setSeqState q SeqState.loading

theorem ucodeBegin_eq (u : UcodeParams) (s : State) : ucodeBegin u s =
    let s1 := u.targets.foldl (beginTarget u) s
    if u.customer then (List.range 64).foldl (fun t k => t.setReg (F.CC_CX_EN k).off 0) s1 else s1 := rfl

theorem UcodeParams.targets_lt {q : Nat} (hq : q ∈ u.targets) : q < 19 := (mem_bitsSet.mp hq).1

theorem validRef_off (q : Nat) (b : Bool) : (validRef q b).off = seqBase q := by
  unfold validRef
  split
  · next h =>
    have h0 : q = 0 := by simpa using (Bool.and_eq_true_iff.mp h).2
    subst h0
    rfl
  · rfl

/-- The flag of a region is a single bit, none of the state's. -/
theorem validRef_bit (q : Nat) (b : Bool) : 3 ≤ (validRef q b).lo ∧ (validRef q b).lo ≤ 11 ∧ (validRef q b).w = 1 := by
  unfold validRef
  split <;> simp

theorem SetsRegs.foldl_mem {α : Type} {P : Nat → Prop} {f : State → α → State} (l : List α) (hf : ∀ s, ∀ a ∈ l, SetsRegs P s (f s a))
    (s : State) : SetsRegs P s (l.foldl f s) := by
  induction l generalizing s with
  | nil => exact .refl s
  | cons a l ih => exact (hf s a (by simp)).trans (ih (fun t b hb => hf t b (by simp [hb])) _)

/-- Target q as a load that has begun leaves it. -/
def TargetBegun (u : UcodeParams) (q : Nat) (t : State) : Prop :=
  q < 19 → t.flag (validRef q u.customer) = false ∧ (q ≠ 0 → t.seqState q = SeqState.loading)

theorem TargetBegun.of_regs {q : Nat} (h : TargetBegun u q s) (ht : q < 19 → t.reg (seqBase q) = s.reg (seqBase q)) : TargetBegun u q t := by
  intro hq
  have hr := ht hq
  refine ⟨?_, fun h0 => ?_⟩
  · rw [State.flag, State.fld, validRef_off, hr, ← validRef_off q u.customer]
    exact (h hq).1
  · exact (congrArg (getBits · 0 3) hr).trans ((h hq).2 h0)

theorem beginTarget_setsRegs (u : UcodeParams) (t : State) (q : Nat) : SetsRegs (· = seqBase q) t (beginTarget u t q) := by
  have hflag : SetsRegs (· = seqBase q) t (t.setFlag (validRef q u.customer) false) := .setFlag t _ (validRef_off q _)
  unfold beginTarget
  simp only
  split
  · exact hflag
  · exact hflag.trans (.setFld _ (f := F.SQ_STAT_STATE q) _ rfl)

theorem beginTarget_begun (u : UcodeParams) (t : State) (q : Nat) : TargetBegun u q (beginTarget u t q) := by
  intro _
  obtain ⟨hlo, hhi, hw⟩ := validRef_bit q u.customer
  have hflag : (t.setFlag (validRef q u.customer) false).flag (validRef q u.customer) = false :=
    State.flag_setFlag _ _ _ (by omega) (by omega)
  unfold beginTarget
  simp only
  split
  · next h0 => exact ⟨hflag, fun hn => absurd h0 hn⟩
  · refine ⟨(State.flag_setFld_other _ _ _ _ (by omega) (.inr (.inr (by simp only; omega)))).trans hflag, fun _ => ?_⟩
    exact State.fld_setFld _ _ _ (by simp)

theorem ucodeBegin_begun (u : UcodeParams) (s : State) :
    ucodeBegin u s = { s with rf := (ucodeBegin u s).rf } ∧ ∀ q ∈ u.targets, TargetBegun u q (ucodeBegin u s) := by
  have hset : SetsRegs (fun off => ∃ q, off = seqBase q) s (u.targets.foldl (beginTarget u) s) :=
    .foldl_mem _ (fun t q _ => (beginTarget_setsRegs u t q).mono fun _ ho => ⟨q, ho⟩) s
  have hall : ∀ q ∈ u.targets, TargetBegun u q (u.targets.foldl (beginTarget u) s) := fun q hq => by
    refine (foldl_each (I := fun _ => True) (P := fun q t => TargetBegun u q t) (fun _ _ _ _ => trivial)
      (fun t a _ _ => beginTarget_begun u t a) (fun t a ha b _ hb => ?_) trivial).2 q (.inl hq)
    by_cases hab : b = a
    · exact hab ▸ beginTarget_begun u t a
    · refine hb.of_regs fun hb19 => (beginTarget_setsRegs u t a).regs _ ?_
      have := seqBase_apart hb19 (UcodeParams.targets_lt ha) hab
      omega
  rw [ucodeBegin_eq]
  generalize u.targets.foldl (beginTarget u) s = a at *
  simp only
  split
  · have htable : SetsRegs (fun off => 0x083000 ≤ off) a ((List.range 64).foldl (fun t k => t.setReg (F.CC_CX_EN k).off 0) a) :=
      .foldl_mem _ (fun t k _ => ⟨rfl, fun off ho => State.reg_setReg_ne _ _ _ _ (by simp only at ho ⊢; omega)⟩) a
    refine ⟨?_, fun q hq => (hall q hq).of_regs fun h19 => htable.regs _ ?_⟩
    · exact ((hset.mono (Q := fun _ => True) fun _ _ => trivial).trans (htable.mono fun _ _ => trivial)).rest
    · have := seqBase_bounds h19
      omega
  · exact ⟨hset.rest, hall⟩

end Begin

section Image
variable {s : State} {c : Cmd}

theorem readBytes_take (x : StoreSel) (a n k : Nat) (hk : k ≤ n) (s : State) : (readBytes x a n s).take k = readBytes x a k s := by
  unfold readBytes
  rw [← List.map_take, List.take_range, Nat.min_eq_left hk]

/-- The header in HB is in order: the load begins. -/
theorem ucodeHeader_begins {img : List PByte} {t : State} (hf : t.cmd? c.id = some { c with phase := .running })
    (hm : (ucodeParams c.params).mode = 0) (hs : (ucodeParams c.params).src = 1)
    (hl : ∀ q ∈ (ucodeParams c.params).targets, t.seqState q ≠ SeqState.loading)
    (hi : readBytes .hb (ucodeParams c.params).addr 48 t = img) (hp : anyPen img = false)
    (hh : ucodeHeaderBad t.build (ucodeParams c.params) (vals img) = none) :
    ucodeHeader c.id t = ucodeBegin (ucodeParams c.params) t := by
  have hnone : ((ucodeParams c.params).targets.any fun q => t.seqState q == SeqState.loading) = false := by
    simpa using hl
  have hread : ucodeBytes t c.id (ucodeParams c.params) 0 48 = some img := by
    rw [ucodeBytes, if_pos hs, Nat.add_zero, hi]
  unfold ucodeHeader
  simp only [hf, hm, hnone, ne_eq, not_true_eq_false, Bool.false_eq_true, or_self, if_false, hread, hp, hh]

/-- A load of an image in HB begins. -/
theorem ucodeLoad_begins (h : s.Due c 0x7001) (he : ucodeEarly s c (ucodeParams c.params) = none)
    (hm : (ucodeParams c.params).mode = 0) (hs : (ucodeParams c.params).src = 1) (h0 : s.seqState 0 ≠ SeqState.loading)
    {img : List PByte} (himg : img = readBytes .hb (ucodeParams c.params).addr (ucodeParams c.params).imageLen s)
    (hp : anyPen (img.take 48) = false) (hh : ucodeHeaderBad s.build (ucodeParams c.params) (vals (img.take 48)) = none) :
    Runs (.ucodeLoad c.id) s fun t => t.cmd? c.id = some { c with phase := .running }
      ∧ (∀ q ∈ (ucodeParams c.params).targets, t.flag (validRef q (ucodeParams c.params).customer) = false
        ∧ (q ≠ 0 → t.seqState q = SeqState.loading)) ∧ t.cstore = s.cstore ∧ t.hb = s.hb := by
  refine .of_clocked rfl (State.live_clocked h.live) ?_
  have hstopped := (ucodeEarly_none he).2
  have hloading : ∀ q ∈ (ucodeParams c.params).targets, (s.setCmd { c with phase := .running }).seqState q ≠ SeqState.loading := fun q hq => by
    change s.seqState q ≠ _
    by_cases hq0 : q = 0
    · exact hq0 ▸ h0
    · rw [hstopped q hq hq0]
      decide
  have htake : readBytes .hb (ucodeParams c.params).addr 48 (s.setCmd { c with phase := .running }) = img.take 48 := by
    rw [himg, readBytes_take _ _ _ _ (by unfold UcodeParams.imageLen; omega)]
    rfl
  rw [ucodeLoad_accepted h he]
  simp only [hm, hs, Nat.zero_ne_one, if_false, if_true]
  rw [ucodeHeader_begins h.cmd?_ucodeRunning hm hs hloading htake hp hh]
  obtain ⟨hrest, hall⟩ := ucodeBegin_begun (ucodeParams c.params) (s.setCmd { c with phase := .running })
  refine ⟨?_, fun q hq => hall q hq (UcodeParams.targets_lt hq), by rw [hrest]; rfl, by rw [hrest]; rfl⟩
  rw [hrest]
  exact h.cmd?_ucodeRunning

end Image

end Sys2Proof.Machine
end

section
/-!
PROOFS. The end of a UCODE_LOAD: the stores of its targets written or filled (R164, R167, R168).
-/

namespace Sys2Proof.Machine

/-! ### Control stores -/

/-- What the control stores hold at a key. -/
def State.stored (s : State) (k : Nat) : BitVec 184 := SMap.get (fun _ => fillWord) s.cstore k

section Store
variable (s : State) (q : Nat)

theorem State.ucWord_stored {a : Nat} (h : q = 0 → 0x2000 ≤ a) : s.ucWord q a = s.stored (csKey q a) := by
  unfold State.ucWord
  exact if_neg fun ⟨h0, ha⟩ => Nat.not_le.mpr ha (h h0)

theorem State.stored_fillStore (lo hi k : Nat) :
    (s.fillStore q lo hi).stored k = if csKey q lo ≤ k ∧ k < csKey q hi then fillWord else s.stored k := by
  unfold State.stored State.fillStore
  dsimp only
  split
  · next h =>
    refine SMap.get_of_unlisted (fun _ => fillWord) _ _ fun p hp hpk => ?_
    have hout := (List.mem_filter.mp hp).2
    simp [hpk, h] at hout
  · next h =>
    refine SMap.get_filter _ _ _ _ fun v => ?_
    simp only [Bool.not_eq_true', Bool.and_eq_false_iff, decide_eq_false_iff_not]
    omega

theorem State.stored_setUcWord (a : Nat) (w : BitVec 184) (k : Nat) :
    (s.setUcWord q a w).stored k = if k = csKey q a then w else s.stored k :=
  SMap.get_put (fun _ => fillWord) s.cstore (csKey q a) k w

/-- Words written one after another. -/
theorem State.stored_setUcWords (b n : Nat) (f : Nat → BitVec 184) (k : Nat) :
    let t := (List.range n).foldl (fun t i => t.setUcWord q (b + i) (f i)) s
    t = { s with cstore := t.cstore }
      ∧ t.stored k = if csKey q b ≤ k ∧ k < csKey q (b + n) then f (k - csKey q b) else s.stored k := by
  induction n with
  | zero =>
    refine ⟨rfl, (if_neg ?_).symm⟩
    unfold csKey
    omega
  | succ n ih =>
    obtain ⟨hrest, hstored⟩ := ih
    simp only [List.range_succ, List.foldl_append, List.foldl_cons, List.foldl_nil]
    generalize (List.range n).foldl (fun t i => t.setUcWord q (b + i) (f i)) s = t at *
    refine ⟨?_, ?_⟩
    · rw [hrest]
      rfl
    · rw [State.stored_setUcWord, hstored]
      unfold csKey
      by_cases hk : k = q * 16384 + (b + n)
      · rw [if_pos hk, if_pos (by omega)]
        congr
        omega
      · rw [if_neg hk]
        exact if_congr (by omega) rfl rfl

end Store

/-! ### The region of a load (R164, R165) -/

/-- What the parameters' check has found in order of a target: its region lies in its store, above the CSQ's ROM, and holds the records. -/
structure TargetFits (u : UcodeParams) (q : Nat) : Prop where
  present : q < 19
  above : q = 0 → 0x2000 ≤ (region q u.customer).1
  below : (region q u.customer).2 ≤ 16384
  first : (region q u.customer).1 ≤ u.base
  last : u.base + u.count ≤ (region q u.customer).2

section Fits
variable {u : UcodeParams} {q : Nat}

theorem region_congr {p q : Nat} (b : Bool) (h : seqKind p = seqKind q) : region p b = region q b := by
  have hzero {a b : Nat} (h : seqKind a = seqKind b) (ha : a = 0) : b = 0 := by
    by_contra hb
    simp only [seqKind, ha, if_true, hb, if_false] at h
    split at h <;> cases h
  unfold region
  by_cases hp : p = 0
  · rw [if_pos hp, if_pos (hzero h hp)]
  · rw [if_neg hp, if_neg fun hq => hp (hzero h.symm hq), h]

theorem TargetFits.of_checked {s : State} {p : List Byte} (h : ucodeBadParam s p u = false) (hq : q ∈ u.targets) : TargetFits u q := by
  simp only [ucodeBadParam, Bool.or_eq_false_iff] at h
  obtain ⟨⟨⟨⟨⟨-, hkind⟩, -⟩, hfirst⟩, hlast⟩, -⟩ := h
  have hsame : region q u.customer = region (u.targets.headD 0) u.customer :=
    region_congr _ (by simpa using List.any_eq_false.mp hkind q hq)
  have hq19 := UcodeParams.targets_lt hq
  refine ⟨hq19, fun h0 => ?_, ?_, ?_, ?_⟩
  · unfold region
    rw [if_pos h0]
    split <;> decide
  · unfold region
    split
    · split <;> decide
    · exact storeWords_le _
  · rw [hsame]
    exact Nat.le_of_not_lt (of_decide_eq_false hfirst)
  · rw [hsame]
    exact Nat.le_of_not_lt (of_decide_eq_false hlast)

end Fits

/-! ### One target (R167) -/

/-- Target q as far as loads concern it is in `t` as in `s`. -/
structure SameTarget (q : Nat) (s t : State) : Prop where
  status : t.reg (seqBase q) = s.reg (seqBase q)
  crcs : t.reg (seqBase q + 0x18) = s.reg (seqBase q + 0x18)
  words : ∀ a, a < 16384 → t.ucWord q a = s.ucWord q a

/-- The end of a load has dealt with target q alone. -/
structure TargetWork (q : Nat) (s t : State) : Prop where
  rest : t = { s with rf := t.rf, cstore := t.cstore }
  regs : ∀ off, off < seqBase q ∨ seqBase q + 0x100 ≤ off → t.reg off = s.reg off
  words : ∀ k, k < csKey q 0 ∨ csKey q 16384 ≤ k → t.stored k = s.stored k

/-- Target q is filled, and STOPPED again. -/
structure TargetAbandoned (u : UcodeParams) (q : Nat) (t : State) : Prop where
  filled : ∀ a, (region q u.customer).1 ≤ a → a < (region q u.customer).2 → t.ucWord q a = fillWord
  state : q ≠ 0 → t.seqState q = SeqState.stopped

/-- Target q holds the records, and is valid. -/
structure TargetCommitted (u : UcodeParams) (recs : List Byte) (q : Nat) (t : State) : Prop where
  valid : t.flag (validRef q u.customer) = true
  crc : t.fld (if u.customer then F.SQ_CRC_CUST q else F.SQ_CRC_CRC q) = u.crc
  state : q ≠ 0 → t.seqState q = SeqState.stopped
  records : ∀ i, i < u.count → t.ucWord q (u.base + i) = recordWord recs i
  filled : ∀ a, (region q u.customer).1 ≤ a → a < (region q u.customer).2 → a < u.base ∨ u.base + u.count ≤ a → t.ucWord q a = fillWord

def abandonTarget (u : UcodeParams) (t : State) (q : Nat) : State :=
  let t1 := t.fillStore q (region q u.customer).1 (region q u.customer).2
  if q = 0 then t1 else t1.setSeqState q SeqState.stopped

/-- The store of target q takes the records. -/
def storeTarget (u : UcodeParams) (recs : List Byte) (t : State) (q : Nat) : State :=
  (List.range u.count).foldl (fun t i => t.setUcWord q (u.base + i) (recordWord recs i))
    (t.fillStore q (region q u.customer).1 (region q u.customer).2)

/-- Its registers show the load. -/
def showTarget (u : UcodeParams) (t : State) (q : Nat) : State :=
  let t4 := (t.setFlag (validRef q u.customer) true).setFld (if u.customer then F.SQ_CRC_CUST q else F.SQ_CRC_CRC q) u.crc
  if q = 0 then t4 else t4.setSeqState q SeqState.stopped

theorem ucodeAbandon_eq (u : UcodeParams) (s : State) : ucodeAbandon u s = u.targets.foldl (abandonTarget u) s := rfl

theorem ucodeCommit_eq (u : UcodeParams) (recs : List Byte) (s : State) :
    ucodeCommit u recs s = u.targets.foldl (fun t q => showTarget u (storeTarget u recs t q) q) s := rfl

section Target
variable {u : UcodeParams} {recs : List Byte} {q : Nat} {s t : State}

theorem TargetWork.trans {v : State} (h : TargetWork q s t) (k : TargetWork q t v) : TargetWork q s v := by
  refine ⟨?_, fun off ho => (k.regs off ho).trans (h.regs off ho), fun a ha => (k.words a ha).trans (h.words a ha)⟩
  have h1 := h.rest
  have k1 := k.rest
  rw [h1] at k1
  exact k1

theorem TargetWork.of_regs (h : SetsRegs (fun off => seqBase q ≤ off ∧ off < seqBase q + 0x100) s t) : TargetWork q s t := by
  refine ⟨?_, fun off ho => h.regs off (by omega), fun a _ => ?_⟩
  · rw [h.rest]
  · rw [h.rest]
    rfl

/-- Work on another target leaves this one. -/
theorem TargetWork.same {p : Nat} (h : TargetWork p s t) (hp : p < 19) (hq : q < 19) (hn : q ≠ p) : SameTarget q s t := by
  have hapart := seqBase_apart hq hp hn
  refine ⟨h.regs _ (by omega), h.regs _ (by omega), fun a ha => ?_⟩
  have hstored : t.stored (csKey q a) = s.stored (csKey q a) := h.words _ (by unfold csKey; omega)
  unfold State.ucWord
  split
  · rfl
  · exact hstored

theorem TargetAbandoned.congr (hf : TargetFits u q) (h : TargetAbandoned u q s) (ht : SameTarget q s t) : TargetAbandoned u q t :=
  ⟨fun a h1 h2 => (ht.words a (Nat.lt_of_lt_of_le h2 hf.below)).trans (h.filled a h1 h2),
    fun h0 => (congrArg (getBits · 0 3) ht.status).trans (h.state h0)⟩

theorem TargetCommitted.congr (hf : TargetFits u q) (h : TargetCommitted u recs q s) (ht : SameTarget q s t) : TargetCommitted u recs q t := by
  refine ⟨?_, ?_, fun h0 => (congrArg (getBits · 0 3) ht.status).trans (h.state h0), fun i hi => ?_, fun a h1 h2 h3 => ?_⟩
  · rw [State.flag, State.fld, validRef_off, ht.status, ← validRef_off q u.customer]
    exact h.valid
  · rw [← h.crc]
    split
    · exact congrArg (getBits · 32 32) ht.crcs
    · exact congrArg (getBits · 0 32) ht.crcs
  · have := hf.last
    have := hf.below
    exact (ht.words _ (by omega)).trans (h.records i hi)
  · exact (ht.words a (Nat.lt_of_lt_of_le h2 hf.below)).trans (h.filled a h1 h2 h3)

theorem fillStore_work (hf : TargetFits u q) : TargetWork q s (s.fillStore q (region q u.customer).1 (region q u.customer).2) := by
  refine ⟨rfl, fun _ _ => rfl, fun k hk => ?_⟩
  have := hf.below
  rw [State.stored_fillStore, if_neg]
  unfold csKey at *
  omega

theorem abandonTarget_work (hf : TargetFits u q) : TargetWork q s (abandonTarget u s q) := by
  unfold abandonTarget
  simp only
  split
  · exact fillStore_work hf
  · exact (fillStore_work hf).trans (.of_regs (.setFld _ (f := F.SQ_STAT_STATE q) _ (by simp)))

theorem abandonTarget_abandoned (hf : TargetFits u q) : TargetAbandoned u q (abandonTarget u s q) := by
  have hword : ∀ a, (region q u.customer).1 ≤ a → a < (region q u.customer).2 →
      (s.fillStore q (region q u.customer).1 (region q u.customer).2).ucWord q a = fillWord := fun a h1 h2 => by
    rw [State.ucWord_stored _ _ fun h0 => Nat.le_trans (hf.above h0) h1, State.stored_fillStore, if_pos]
    unfold csKey
    omega
  unfold abandonTarget
  simp only
  split
  · next h0 => exact ⟨hword, fun hn => absurd h0 hn⟩
  · exact ⟨hword, fun _ => State.fld_setFld _ _ _ (by simp)⟩

theorem storeTarget_stored (k : Nat) : storeTarget u recs s q = { s with cstore := (storeTarget u recs s q).cstore }
    ∧ (storeTarget u recs s q).stored k = if csKey q u.base ≤ k ∧ k < csKey q (u.base + u.count) then recordWord recs (k - csKey q u.base)
      else if csKey q (region q u.customer).1 ≤ k ∧ k < csKey q (region q u.customer).2 then fillWord else s.stored k := by
  obtain ⟨hrest, hstored⟩ := State.stored_setUcWords (s.fillStore q (region q u.customer).1 (region q u.customer).2) q u.base u.count
    (recordWord recs) k
  refine ⟨hrest, hstored.trans ?_⟩
  rw [State.stored_fillStore]

theorem storeTarget_work (hf : TargetFits u q) : TargetWork q s (storeTarget u recs s q) := by
  have hrest := (storeTarget_stored (u := u) (recs := recs) (q := q) (s := s) 0).1
  have hlast := hf.last
  have hbelow := hf.below
  refine ⟨?_, fun off _ => State.reg_congr _ _ (by rw [hrest]) (by rw [hrest]) off, fun k hk => ?_⟩
  · rw [hrest]
  · rw [(storeTarget_stored k).2]
    unfold csKey at *
    rw [if_neg (by omega), if_neg (by omega)]

/-- What a store holds once its target has taken the records. -/
theorem storeTarget_word (hf : TargetFits u q) {a : Nat} (h1 : (region q u.customer).1 ≤ a) (h2 : a < (region q u.customer).2) :
    (storeTarget u recs s q).ucWord q a = if u.base ≤ a ∧ a < u.base + u.count then recordWord recs (a - u.base) else fillWord := by
  rw [State.ucWord_stored _ _ fun h0 => Nat.le_trans (hf.above h0) h1, (storeTarget_stored _).2]
  unfold csKey
  by_cases ha : u.base ≤ a ∧ a < u.base + u.count
  · rw [if_pos (by omega), if_pos ha]
    congr 1
    omega
  · rw [if_neg (by omega), if_neg ha, if_pos (by omega)]

/-- The field that records the CRC of a region. -/
def crcRef (u : UcodeParams) (q : Nat) : FRef := if u.customer then F.SQ_CRC_CUST q else F.SQ_CRC_CRC q

theorem crcRef_place (u : UcodeParams) (q : Nat) :
    (crcRef u q).off = seqBase q + 0x18 ∧ (crcRef u q).lo + (crcRef u q).w ≤ 64 ∧ (crcRef u q).w = 32 := by
  unfold crcRef
  split <;> simp

theorem showTarget_setsRegs (u : UcodeParams) (s : State) (q : Nat) :
    SetsRegs (fun off => seqBase q ≤ off ∧ off < seqBase q + 0x100) s (showTarget u s q) := by
  have hvalid := validRef_off q u.customer
  obtain ⟨hoff, -, -⟩ := crcRef_place u q
  have h4 := (SetsRegs.setFlag (P := fun off => seqBase q ≤ off ∧ off < seqBase q + 0x100) s (f := validRef q u.customer) true
    (by omega)).trans (.setFld _ (f := crcRef u q) u.crc (by omega))
  unfold showTarget
  simp only
  split
  · exact h4
  · exact h4.trans (.setFld _ (f := F.SQ_STAT_STATE q) _ (by simp))

theorem showTarget_shows (hcrc : u.crc < 2 ^ 32) :
    let t := showTarget u s q
    t.flag (validRef q u.customer) = true ∧ t.fld (crcRef u q) = u.crc ∧ (q ≠ 0 → t.seqState q = SeqState.stopped) := by
  have hvalid := validRef_off q u.customer
  obtain ⟨hlo, hhi, hw⟩ := validRef_bit q u.customer
  obtain ⟨hoff, hcb, hcw⟩ := crcRef_place u q
  have hflag : ((s.setFlag (validRef q u.customer) true).setFld (crcRef u q) u.crc).flag (validRef q u.customer) = true :=
    (State.flag_setFld_other _ _ _ _ (by omega) (.inl (by omega))).trans (State.flag_setFlag _ _ _ (by omega) (by omega))
  have hfld : ((s.setFlag (validRef q u.customer) true).setFld (crcRef u q) u.crc).fld (crcRef u q) = u.crc :=
    (State.fld_setFld _ _ _ hcb).trans (Nat.mod_eq_of_lt (hcw ▸ hcrc))
  unfold showTarget
  simp only
  split
  · next h0 => exact ⟨hflag, hfld, fun hn => absurd h0 hn⟩
  · refine ⟨(State.flag_setFld_other _ _ _ _ (by omega) (.inr (.inr ?_))).trans hflag,
      (State.fld_setFld_other _ _ _ _ hcb (.inl ?_)).trans hfld, fun _ => State.fld_setFld _ _ _ (by simp)⟩
    · simp only
      omega
    · simp only
      omega

theorem commitTarget_work (hf : TargetFits u q) : TargetWork q s (showTarget u (storeTarget u recs s q) q) :=
  (storeTarget_work hf).trans (.of_regs (showTarget_setsRegs u _ q))

theorem commitTarget_committed (hf : TargetFits u q) (hcrc : u.crc < 2 ^ 32) :
    TargetCommitted u recs q (showTarget u (storeTarget u recs s q) q) := by
  obtain ⟨hvalid, hshown, hstate⟩ := showTarget_shows (s := storeTarget u recs s q) (q := q) hcrc
  have hrest := (showTarget_setsRegs u (storeTarget u recs s q) q).rest
  have hword (a : Nat) : (showTarget u (storeTarget u recs s q) q).ucWord q a = (storeTarget u recs s q).ucWord q a := by
    rw [hrest]
    rfl
  have hfirst := hf.first
  have hlast := hf.last
  refine ⟨hvalid, hshown, hstate, fun i hi => ?_, fun a h1 h2 h3 => ?_⟩
  · rw [hword, storeTarget_word hf (by omega) (by omega), if_pos (by omega), Nat.add_sub_cancel_left]
  · rw [hword, storeTarget_word hf h1 h2, if_neg (by omega)]

end Target

/-! ### All targets -/

section Targets
variable {u : UcodeParams} {s : State}

/-- Work on one target after the other: what each leaves of its own stays. -/
theorem targets_foldl {P : Nat → State → Prop} {f : State → Nat → State} (hfit : ∀ q ∈ u.targets, TargetFits u q)
    (hwork : ∀ q t, TargetFits u q → TargetWork q t (f t q)) (hset : ∀ q t, TargetFits u q → P q (f t q))
    (hcongr : ∀ q t v, TargetFits u q → P q t → SameTarget q t v → P q v) (s : State) :
    (u.targets.foldl f s).cmds = s.cmds ∧ ∀ q ∈ u.targets, P q (u.targets.foldl f s) := by
  have h := foldl_each (I := fun t => t.cmds = s.cmds) (P := fun q t => TargetFits u q → P q t) (f := f) (l := u.targets)
    (fun t a ha hi => ?_) (fun t a _ _ hf => hset a t hf) (fun t a ha b _ hb hf => ?_) rfl
  · exact ⟨h.1, fun q hq => h.2 q (.inl hq) (hfit q hq)⟩
  · rw [(hwork a t (hfit a ha)).rest]
    exact hi
  · by_cases hab : b = a
    · exact hab ▸ hset b t hf
    · exact hcongr b t _ hf (hb hf) ((hwork a t (hfit a ha)).same (hfit a ha).present hf.present hab)

theorem ucodeAbandon_shows (hfit : ∀ q ∈ u.targets, TargetFits u q) (s : State) :
    (ucodeAbandon u s).cmds = s.cmds ∧ ∀ q ∈ u.targets, TargetAbandoned u q (ucodeAbandon u s) := by
  rw [ucodeAbandon_eq]
  exact targets_foldl hfit (fun _ _ => abandonTarget_work) (fun _ _ => abandonTarget_abandoned) (fun _ _ _ hf h => h.congr hf) s

theorem ucodeCommit_shows (hfit : ∀ q ∈ u.targets, TargetFits u q) (hcrc : u.crc < 2 ^ 32) (recs : List Byte) (s : State) :
    (ucodeCommit u recs s).cmds = s.cmds ∧ ∀ q ∈ u.targets, TargetCommitted u recs q (ucodeCommit u recs s) := by
  rw [ucodeCommit_eq]
  exact targets_foldl hfit (fun _ _ => commitTarget_work) (fun _ _ hf => commitTarget_committed hf hcrc) (fun _ _ _ hf h => h.congr hf) s

end Targets

/-! ### The end of the command (R167 steps 3 and 4) -/

section End
variable {s : State} {c : Cmd} {img : List PByte}

theorem ucodeParams_crc_lt (p : List Byte) : (ucodeParams p).crc < 2 ^ 32 := leAt_lt p 12 4

/-- The end of a load of an image in HB is that of its command, in a state with the image's lines given up. -/
theorem ucodeLoadDone_runs {P : State → Prop} (hl : s.live = true) (h : s.InHand c) (ho : c.opc = 0x7001) (hp : c.phase = .running)
    (hm : (ucodeParams c.params).mode = 0) (hs : (ucodeParams c.params).src = 1)
    (himg : img = readBytes .hb (ucodeParams c.params).addr (ucodeParams c.params).imageLen s)
    (hrun : P (ucodeLoadEnd c.id (ucodeParams c.params) img (s.dropLines (.ucode c.id)))) : Runs (.ucodeLoadDone c.id) s P := by
  have hread : ucodeBytes s c.id (ucodeParams c.params) 0 (ucodeParams c.params).imageLen = some img := by
    rw [ucodeBytes, if_pos hs, Nat.add_zero, himg]
  refine ⟨_, congrArg Host.Outcome.next (whileLive_on hl _), ?_⟩
  unfold ucodeDone
  simp only [h.found, ho, hp, hm, hread, ne_eq, not_true_eq_false, or_self, if_false, Nat.zero_ne_one]
  exact hrun

/-! Without a key slot and a pennant the CRC and the records decide. -/

section Decides
variable {u : UcodeParams} (hk : u.kslot = 0xFF) (hp : anyPen (img.drop 48) = false) (id : Nat) (s : State)
include hk hp

theorem ucodeLoadEnd_badCrc (hcrc : (crc32 ((vals img).drop 48)).toNat ≠ u.crc) :
    ucodeLoadEnd id u img s = finish id Status.badParam (ucodeReply 0xFFFF 6) (ucodeAbandon u s) := by
  unfold ucodeLoadEnd
  simp only [hk, hp, bne_self_eq_false, Bool.false_and, Bool.false_eq_true, if_false, ne_eq, hcrc, not_false_eq_true, if_true]

variable (hcrc : (crc32 ((vals img).drop 48)).toNat = u.crc)
include hcrc

theorem ucodeLoadEnd_badRecord {i r : Nat} (hbad : firstBadRecord (seqKind (u.targets.headD 0)) u.customer (byteAt (vals img) 7 % 2 == 1)
    ((vals img).drop 48) u.count = some (i, r)) :
    ucodeLoadEnd id u img s = finish id Status.badParam (ucodeReply i r) (ucodeAbandon u s) := by
  unfold ucodeLoadEnd
  simp only [hk, hp, bne_self_eq_false, Bool.false_and, Bool.false_eq_true, if_false, ne_eq, hcrc, not_true_eq_false, hbad]

theorem ucodeLoadEnd_passes (hgood : firstBadRecord (seqKind (u.targets.headD 0)) u.customer (byteAt (vals img) 7 % 2 == 1)
    ((vals img).drop 48) u.count = none) :
    ucodeLoadEnd id u img s = finish id Status.ok ucodePlain (ucodeCommit u ((vals img).drop 48) s) := by
  unfold ucodeLoadEnd
  simp only [hk, hp, bne_self_eq_false, Bool.false_and, Bool.false_eq_true, if_false, ne_eq, hcrc, not_true_eq_false, hgood]

end Decides

section Ends
variable (hl : s.live = true) (h : s.InHand c) (ho : c.opc = 0x7001) (hp : c.phase = .running) (hm : (ucodeParams c.params).mode = 0)
  (hs : (ucodeParams c.params).src = 1) (hk : (ucodeParams c.params).kslot = 0xFF)
  (hb : ucodeBadParam s c.params (ucodeParams c.params) = false)
  (himg : img = readBytes .hb (ucodeParams c.params).addr (ucodeParams c.params).imageLen s) (hpen : anyPen (img.drop 48) = false)
include hl h ho hp hm hs hk hb himg hpen

omit hk hpen in
/-- A load that fails leaves its targets filled. -/
theorem ucodeLoadDone_fails {r : List Byte}
    (hend : ∀ t, ucodeLoadEnd c.id (ucodeParams c.params) img t = finish c.id Status.badParam r (ucodeAbandon (ucodeParams c.params) t)) :
    ∃ v, Answers (.ucodeLoadDone c.id) s c Status.badParam r v
      ∧ ∀ q ∈ (ucodeParams c.params).targets, TargetAbandoned (ucodeParams c.params) q v := by
  obtain ⟨hcmds, hall⟩ := ucodeAbandon_shows (fun q hq => .of_checked hb hq) (s.dropLines (.ucode c.id))
  refine ⟨_, ucodeLoadDone_runs hl h ho hp hm hs himg ?_, hall⟩
  rw [hend]
  exact finish_replied _ _ (h.of_cmds (b := s.cmds.reportDue) hcmds)

/-- A load that passes leaves its records in every target. -/
theorem ucodeLoadDone_passes (hcrc : (crc32 ((vals img).drop 48)).toNat = (ucodeParams c.params).crc)
    (hgood : firstBadRecord (seqKind ((ucodeParams c.params).targets.headD 0)) (ucodeParams c.params).customer (byteAt (vals img) 7 % 2 == 1)
      ((vals img).drop 48) (ucodeParams c.params).count = none) :
    ∃ v, Answers (.ucodeLoadDone c.id) s c Status.ok ucodePlain v
      ∧ ∀ q ∈ (ucodeParams c.params).targets, TargetCommitted (ucodeParams c.params) ((vals img).drop 48) q v := by
  obtain ⟨hcmds, hall⟩ := ucodeCommit_shows (fun q hq => .of_checked hb hq) (ucodeParams_crc_lt c.params) ((vals img).drop 48)
    (s.dropLines (.ucode c.id))
  refine ⟨_, ucodeLoadDone_runs hl h ho hp hm hs himg ?_, hall⟩
  rw [ucodeLoadEnd_passes hk hpen _ _ hcrc hgood]
  exact finish_replied _ _ (h.of_cmds (b := s.cmds.reportDue) hcmds)

theorem ucodeLoadDone_badCrc (hcrc : (crc32 ((vals img).drop 48)).toNat ≠ (ucodeParams c.params).crc) :
    ∃ v, Answers (.ucodeLoadDone c.id) s c Status.badParam (ucodeReply 0xFFFF 6) v
      ∧ ∀ q ∈ (ucodeParams c.params).targets, TargetAbandoned (ucodeParams c.params) q v :=
  ucodeLoadDone_fails hl h ho hp hm hs hb himg fun t => ucodeLoadEnd_badCrc hk hpen _ t hcrc

theorem ucodeLoadDone_badRecord {i r : Nat} (hcrc : (crc32 ((vals img).drop 48)).toNat = (ucodeParams c.params).crc)
    (hbad : firstBadRecord (seqKind ((ucodeParams c.params).targets.headD 0)) (ucodeParams c.params).customer (byteAt (vals img) 7 % 2 == 1)
      ((vals img).drop 48) (ucodeParams c.params).count = some (i, r)) :
    ∃ v, Answers (.ucodeLoadDone c.id) s c Status.badParam (ucodeReply i r) v
      ∧ ∀ q ∈ (ucodeParams c.params).targets, TargetAbandoned (ucodeParams c.params) q v :=
  ucodeLoadDone_fails hl h ho hp hm hs hb himg fun t => ucodeLoadEnd_badRecord hk hpen _ t hcrc hbad

end Ends

end End

/-! ### The obligation -/

/-- Settles O24, from what each command is shown to do. -/
theorem sequencersAndTheirImages : Obligations.SequencersAndTheirImages := by
  unfold Obligations.SequencersAndTheirImages
  refine ⟨fun s q hc => ⟨fun h1 hq => ?_, ?_, fun f w v hf hb => synfWrite_runs s w v hf hc hb⟩, fun s c => ?_⟩
  · have hq19 := seqPresent_lt hq
    refine ⟨fun hs hv => ⟨_, exec_seqStart hc h1 hq, seqStart_runs hs hv⟩, fun h => ?_,
      fun h => ⟨_, exec_seqStop hc h1 hq, seqStop_runs hq19 h⟩, fun hh hs hl hi => hangLimit_runs hc hh h1 hq hs hl hi,
      fun h16 hcalm hs hb ⟨k, hk, hkq, hother⟩ => retire_runs hc h1 h16 hq hcalm hs hb hk hkq hother, retire_again,
      fun r l hh hm => seqMemReadLand_runs hc hh hm, fun k hh hk h => ?_⟩
    · rw [Inert, exec_seqStart hc h1 hq, seqStart_ignored h]
    · exact stageOperationDone_runs hc hh hq hk (h.imp_right fun ⟨h16, he⟩ => ⟨h1, h16, he⟩)
  · intro f hf hh hr waits hi
    have hwaits (p : Nat) : waits p ↔ p ∈ s.waiting f := State.mem_waiting.symm
    simp only [hwaits] at hi ⊢
    exact synBarrierComplete_runs hc hf hh hr hi
  · intro u id img recs ok
    refine ⟨fun h => ⟨fun st he => ucodeLoad_answers h he, fun he => ⟨ucodeLoad_verifies h he, ucodeLoad_asks h he,
      fun hm hs h0 hp hh => ucodeLoad_begins h he hm hs h0 rfl hp hh⟩⟩, fun hl h ho hp hm hs hk hb hpen => ?_⟩
    intro dB bad inRegion
    refine ⟨fun hcrc hgood => ?_, fun hcrc => ?_, fun i r hcrc hbad => ?_⟩
    · obtain ⟨v, hv, hall⟩ := ucodeLoadDone_passes hl h ho hp hm hs hk hb rfl hpen hcrc hgood
      refine ⟨v, hv, fun q hq => ?_⟩
      obtain ⟨hvalid, hshown, hstate, hrecords, hfilled⟩ := hall q hq
      exact ⟨hvalid, hshown, hstate, hrecords, fun a ⟨h1, h2⟩ => hfilled a h1 h2⟩
    · obtain ⟨v, hv, hall⟩ := ucodeLoadDone_badCrc hl h ho hp hm hs hk hb rfl hpen hcrc
      exact ⟨v, hv, fun q hq a ⟨h1, h2⟩ => (hall q hq).filled a h1 h2⟩
    · obtain ⟨v, hv, hall⟩ := ucodeLoadDone_badRecord hl h ho hp hm hs hk hb rfl hpen hcrc hbad
      exact ⟨v, hv, fun q hq => ⟨fun a ⟨h1, h2⟩ => (hall q hq).filled a h1 h2, (hall q hq).state⟩⟩

end Sys2Proof.Machine
end
